-- ==== Sys2Proof/Word.lean ====
section
/-! DEFINITION. The word types of the device and their plainest arithmetic: a register value of up to 64 bits, a
32-bit word, a byte, a 16-bit error code (R19), and the 40-bit device physical address kept as a number. -/

namespace Sys2Proof

/-- The value of a register or of a register field, at most 64 bits wide (R12, R17). -/
abbrev Val := BitVec 64

/-- A 32-bit word: half of a 64-bit register, or a sequencer instruction. -/
abbrev Word32 := BitVec 32

/-- One byte. -/
abbrev Byte := BitVec 8

/-- An error code: bits [15:8] are the class, bits [7:0] the code within the class (R19, R20). -/
abbrev Code := BitVec 16

/-- A device physical address (DPA), 40 bits wide (R224); it keys memory, so it is a number. -/
abbrev Dpa := Nat

/-- The success code 0x0000 (R20). -/
def Code.ok : Code := 0

/-- The class of an error code (R19). -/
def Code.cls (c : Code) : Nat := c.toNat / 256

end Sys2Proof
end

