-- ==== Sys2Proof/Syntax.lean ====
section
/-! DEFINITION. The commands of the device, one constructor for each row of the command table, with the operands
that say which object the command acts on and the facts that only the environment knows. -/

namespace Sys2Proof

/-- The access ports of R14. In confidential mode host is a host request on an IDE stream, plain one on any other path
(R497). -/
inductive Port where
  | host | rtp | smbus | plain
deriving DecidableEq, Repr

/-- A hardware update of one field that falls in the same cycle as a software write (R10): the field's lowest bit
in the written register, and the value the hardware gives it (for a COUNT field the increment). -/
structure HwUpdate where
  lo    : Nat
  value : Val
deriving DecidableEq, Repr

/-- Who makes a memory request: the endpoint on whose behalf it reaches its target. -/
inductive Requester where
  | panel (p : Nat)
  | seq (core : Nat)
  | dma (channel : Nat)
  | finish (unit : Nat)
  | collective
  | queues (canvas : Nat)
  | coats
  | sideband
  | host
  | rtp
deriving DecidableEq, Repr

/-- A sequencer thread: canvas, core and thread (R200). -/
structure SeqThread where
  canvas : Nat
  core   : Nat
  thread : Nat
deriving DecidableEq, Repr

/-- A request that arrives at a home slice: its requester and the requester's own tag, its address and length, the
partition and job class on whose behalf it is made, and the way that the slice's pseudo-LRU would choose if it
needs one (R233: the order of pseudo-LRU is not given, so the choice comes with the request). -/
structure MemReq where
  src    : Requester
  tag    : Nat
  dpa    : Dpa
  len    : Nat
  part   : Option Nat
  wash   : Bool
  victim : Nat
deriving DecidableEq, Repr

/-- The atomic operations at the glaze (the AMO row of the instruction table). -/
inductive AtomicOp where
  | add | swap | cas | maxu
deriving DecidableEq, Repr

/-- A memory error that the environment brings to a read (R507, R509): the number of the word or codeword in the
unit read (of a row, 64 is its metadata word), the symbol or bit in error, and whether the code could correct it. -/
structure Upset where
  offset      : Nat
  detail      : Nat
  correctable : Bool
deriving DecidableEq, Repr

/-- What a request from another device asks of this device's memory (R355, R403). -/
inductive RemoteAct where
  | read
  | turn (esize : Nat)
  | write (data : List Byte)
  | addFp32 (data : List Byte)
  | addEx96 (data : List Byte)
deriving DecidableEq, Repr

/-- A response that the environment brings to a DMA burst (R363): its code, the data of a remote read, and whether the
target had received the request. -/
structure DmaReply where
  code      : Code
  data      : List Byte
  delivered : Bool
deriving DecidableEq, Repr

/-- What a new DATA flit carries (R370, R398): its VC, the VC whose credit total it carries, PKT_START and its payload. -/
structure LinkLoad where
  vc      : Nat
  crVc    : Nat
  start   : Nat
  payload : List Byte
deriving DecidableEq, Repr

/-- A packet at the hub fabric, with the VC that carries it (the packet table before R375). -/
structure HubPacket where
  vc    : Nat
  op    : Nat
  flags : Nat
  len   : Nat
  src   : Nat
  dst   : Nat
  tag   : Nat
  addr  : Nat
deriving DecidableEq, Repr

/-- A spar packet (R403). -/
structure SparPacket where
  op    : Nat
  flags : Nat
  len   : Nat
  srcCoord : Nat
  dstCoord : Nat
  src   : Nat
  dst   : Nat
  tag   : Nat
  part  : Nat
  age   : Nat
  addr  : Nat
  hops  : Nat
  data  : List Byte
deriving DecidableEq, Repr

/-- A key-agreement message between two RTPs (R416, R494): a signed ephemeral public key for a key slot, with whether
its certificate chain leads to the root and its signature verifies, or the report that the NEXT key is installed. -/
inductive KeyMsg where
  | offer (slot : Nat) (publicKey : List Byte) (trusted : Bool)
  | installed (slot : Nat)
deriving DecidableEq, Repr

/-- What the error correction of R396 did for an arriving flit: the codewords corrected, the codewords that could not
be, and whether the flit has a byte in one of those. -/
structure FecResult where
  corrected : Nat
  failed    : Nat
  hit       : Bool
deriving DecidableEq, Repr

/-- A data message of a collective (R429 to R438): its kind (0 a rank's part, 1 a partial that travels in ascending
rank, 2 one that travels in descending rank, 3 a result or plain data, 4 a PERMUTE write), its block, the byte
offset in the block or the destination DPA, and its data. -/
structure CollMsg where
  kind   : Nat
  block  : Nat
  offset : Nat
  data   : List Byte
deriving DecidableEq, Repr

/-- The fields of a GRANT (R429): OP, DTYPE, COUNT, N, ORDER, ONEWAY and the CRC-32 of the member table. -/
structure CollGrant where
  op     : Nat
  dtype  : Nat
  count  : Nat
  n      : Nat
  order  : Bool
  oneway : Bool
  crc    : Nat
deriving DecidableEq, Repr

/-- The power that an island would draw (calibrated per part, R453): for a panel or sequencer island at each of the
eight operating points, for another island one number. -/
structure IslandDemand where
  island : Nat
  watts  : List Nat
deriving DecidableEq, Repr

/-- Modelled dynamic energy of an island in nJ and on whose behalf it ran: a partition and its class (WASH true), or
none for system work (R463, R464). -/
structure EnergyUse where
  island : Nat
  part   : Option (Nat × Bool)
  nj     : Nat
deriving DecidableEq, Repr

/-- The request of an RTP mailbox command (R484): from the host its length, the request standing in the mailbox buffer;
from the SMBus path the request's bytes. -/
inductive MbxRequest where
  | host (len : Nat)
  | smbus (bytes : List Byte)
deriving DecidableEq, Repr

/-- A TDISP message that moves the device interface (R488, R497). -/
inductive TdispMsg where
  | lock | start | stop
deriving DecidableEq, Repr

/-- A host access of BAR4 (R549): a read of some bytes, or a write. -/
inductive BarOp where
  | read (len : Nat)
  | write (data : List Byte)
deriving DecidableEq, Repr

/-- The commands (one for each row of the command table). -/
inductive Instr where
  /-- REGISTER_WRITE (R10): A software write to a register field that has no row of its own takes effect under its access class, including the same-cycle outcomes. -/
  | registerWrite (port : Port) (addr : Nat) (data : Word32) (hw : List HwUpdate)
  /-- WO_WRITE_RELEASED (R9): A write held off at a full WO register is accepted into the queue when a slot frees. -/
  | woWriteReleased (addr : Nat)
  /-- READ_LOW_HALF (R12): A 32-bit read of the low half of a 64-bit register returns the live value and copies the high half into the port's shadow. -/
  | readLowHalf (port : Port) (addr : Nat)
  /-- READ_HIGH_HALF (R13): A 32-bit read of the high half returns the shadow if one is held, otherwise the live value, and empties the shadow. -/
  | readHighHalf (port : Port) (addr : Nat)
  /-- WRITE_HIGH_HALF (R15): A 32-bit write of the high half loads the staging register and changes nothing else. -/
  | writeHighHalf (port : Port) (addr : Nat) (data : Word32)
  /-- WRITE_LOW_HALF (R15): A 32-bit write of the low half commits the staged high half and the low half together and clears the staging register. -/
  | writeLowHalf (port : Port) (addr : Nat) (data : Word32) (hw : List HwUpdate)
  /-- EIGHT_BYTE_ACCESS (R17): A single 8-byte access reads or writes all 64 bits atomically without using shadow or staging. -/
  | eightByteAccess (port : Port) (addr : Nat) (write : Option (BitVec 64)) (hw : List HwUpdate)
  /-- SLEEP (R27): A GLB_ISL_CMD SLEEP command moves an ACTIVE island to CLOSING, or acts on the pending bits or is refused. -/
  | sleep (island : Nat)
  /-- WAKE (R30): A GLB_ISL_CMD WAKE command moves an ASLEEP island to WAKING, starts a wake chain, or sets or clears pending bits. -/
  | wake (island : Nat)
  /-- ISLAND_DRAINED (R27): A CLOSING island completes its last accepted work, its regulator turns off and it enters ASLEEP. -/
  | islandDrained (island : Nat)
  /-- ISLAND_READY (R30): A WAKING island finishes its wake and enters ACTIVE. -/
  | islandReady (island : Nat)
  /-- WAKE_CHAIN_END (R38): The wake chain ends once the tether-port island is ACTIVE and any zeroing is done, and waiting islands enter WAKING. -/
  | wakeChainEnd (canvas : Nat)
  /-- GESSO_REZERO_DONE (R626): The zeroing of a canvas's gesso after stretcher loss completes and the canvas may become available again. -/
  | gessoRezeroDone (canvas : Nat)
  /-- GATE_PACKET (R25): A packet arrives at a gate and crosses it whole, or is answered by the gate half of a powered neighbour. -/
  | gatePacket (id dst vc : Nat) (part : Option Nat) (wash : Bool)
  /-- PACKET_RETRY (R29): A retry timer of a refused packet expires and the sender retries the same packet. -/
  | packetRetry (id : Nat)
  /-- CAPACITY_UPDATE (R55): GLB_CAPACITY is updated after a change that alters it and CAP_CHANGED is set. -/
  | capacityUpdate
  /-- STROKE_FETCH_DONE (R124): A stroke fetch returns and the stroke is decoded at the head of its thread. -/
  | strokeFetchDone (panel thread : Nat) (refetch : Bool)
  /-- STROKE_ISSUE (R102): In a panel cycle the firing rule is evaluated and one fired stroke is issued, PRIMARY before WASH, oldest thread first. -/
  | strokeIssue (panel : Nat) (upsets : List Upset)
  /-- MMA_NEW (R110): An MMA_NEW stroke forms the product of A and B and writes it converted to FMT_D. -/
  | mmaNew (flight : Nat)
  /-- MMA_ADD (R110): An MMA_ADD stroke adds the product of A and B to C and writes the result. -/
  | mmaAdd (flight : Nat)
  /-- VEC_ADD (R112): VEC ADD writes a + b rounded once. -/
  | vecAdd (flight : Nat)
  /-- VEC_SUB (R112): VEC SUB writes a − b rounded once. -/
  | vecSub (flight : Nat)
  /-- VEC_MUL (R112): VEC MUL writes a × b rounded once. -/
  | vecMul (flight : Nat)
  /-- VEC_FMA (R112): VEC FMA writes a × b + c rounded once. -/
  | vecFma (flight : Nat)
  /-- VEC_MAX (R112): VEC MAX writes the larger of a and b. -/
  | vecMax (flight : Nat)
  /-- VEC_MIN (R112): VEC MIN writes the smaller of a and b. -/
  | vecMin (flight : Nat)
  /-- VEC_ABS (R112): VEC ABS writes abs(a). -/
  | vecAbs (flight : Nat)
  /-- VEC_CMPGT (R112): VEC CMPGT writes 1.0 when a > b, else 0.0. -/
  | vecCmpgt (flight : Nat)
  /-- VEC_EXP2 (R113): VEC EXP2 writes 2^a within its bound. -/
  | vecExp2 (flight : Nat)
  /-- VEC_LOG2 (R113): VEC LOG2 writes log2(a) within its bound. -/
  | vecLog2 (flight : Nat)
  /-- VEC_RCP (R113): VEC RCP writes 1/a within its bound. -/
  | vecRcp (flight : Nat)
  /-- VEC_RSQRT (R113): VEC RSQRT writes 1/sqrt(a) within its bound. -/
  | vecRsqrt (flight : Nat)
  /-- VEC_TANH (R113): VEC TANH writes tanh(a) within its bound. -/
  | vecTanh (flight : Nat)
  /-- VEC_COPY (R112): VEC COPY writes a. -/
  | vecCopy (flight : Nat)
  /-- VEC_SQRT (R306): In a finish program, VEC OP 14 writes a correctly rounded square root. -/
  | finVecSqrt (canvas queue seq unit : Nat)
  /-- VEC_DIV (R306): In a finish program, VEC OP 15 writes a correctly rounded quotient. -/
  | finVecDiv (canvas queue seq unit : Nat)
  /-- RED_SUM (R114): RED SUM writes each row's sum in the fixed lane order. -/
  | redSum (flight : Nat)
  /-- RED_MAX (R114): RED MAX writes each row's maximum. -/
  | redMax (flight : Nat)
  /-- RED_MIN (R114): RED MIN writes each row's minimum. -/
  | redMin (flight : Nat)
  /-- RED_SUMSQ (R114): RED SUMSQ writes each row's sum of squares in the fixed order. -/
  | redSumsq (flight : Nat)
  /-- RED_SOFTMAX_STEP (R115): SOFTMAX_STEP updates each row's softmax state and writes P and alpha. -/
  | redSoftmaxStep (flight : Nat)
  /-- CVT (R64): A CVT stroke converts the source tensor to the destination format with one rounding, RNE or stochastic. -/
  | cvt (flight : Nat)
  /-- MOV_COPY (R119): MOV COPY copies rows from region HS to region HD. -/
  | movCopy (flight : Nat)
  /-- MOV_SEND (R147): MOV SEND sends a region's units on a stream, spending its credits at issue. -/
  | movSend (flight : Nat)
  /-- MOV_RECV (R146): MOV RECV moves landed units of a stream into its region in arrival order. -/
  | movRecv (flight : Nat)
  /-- MOV_LOAD (R119): MOV LOAD reads memory rows into a region. -/
  | movLoad (flight : Nat)
  /-- MOV_STORE (R119): MOV STORE writes a region's rows to memory. -/
  | movStore (flight : Nat)
  /-- MOV_ADDL (R119): MOV ADDL adds a region into memory by add-to-line. -/
  | movAddl (flight : Nat)
  /-- MOV_TLOAD (R119): MOV TLOAD loads 2 KiB lines by turn read into a region. -/
  | movTload (flight : Nat)
  /-- TOK_SIGNAL (R94): TOK SIGNAL makes a FREE region READY. -/
  | tokSignal (flight : Nat)
  /-- TOK_FREE (R94): TOK FREE reads a READY region with consume and releases it. -/
  | tokFree (flight : Nat)
  /-- TOK_WAIT (R94): TOK WAIT fires when its region is READY and has no effect. -/
  | tokWait (flight : Nat)
  /-- TOK_JUMP (R101): TOK JUMP sets PC relative to the JUMP. -/
  | tokJump (flight : Nat)
  /-- TOK_LOOP (R101): TOK LOOP decrements a loop counter and branches while it is nonzero. -/
  | tokLoop (flight : Nat)
  /-- TOK_SETCNT (R101): TOK SETCNT loads a loop counter. -/
  | tokSetcnt (flight : Nat)
  /-- TOK_SETBASE (R101): TOK SETBASE loads an address base. -/
  | tokSetbase (flight : Nat)
  /-- TOK_SETDESC (R117): TOK SETDESC loads the descriptor base. -/
  | tokSetdesc (flight : Nat)
  /-- TOK_SETSTEP (R117): TOK SETSTEP loads the thread's STEP. -/
  | tokSetstep (flight : Nat)
  /-- TOK_LOADSTEP (R296): TOK LOADSTEP loads STEP from the partition's committed step. -/
  | tokLoadstep (flight : Nat)
  /-- TOK_FENCE (R101): TOK FENCE fires once every earlier stroke of the thread has completed. -/
  | tokFence (flight : Nat)
  /-- TOK_NOTIFY (R214): TOK NOTIFY posts a word to a sequencer mailbox. -/
  | tokNotify (flight : Nat)
  /-- TOK_HALT (R101): TOK HALT stops the thread as HALTED once earlier strokes complete. -/
  | tokHalt (flight : Nat)
  /-- GATHER (R121): GATHER reads indexed memory rows into a region, one index every 4 cycles. -/
  | gather (flight : Nat)
  /-- SCATTER (R121): SCATTER writes a region's rows to indexed memory rows. -/
  | scatter (flight : Nat)
  /-- SCATTER_ADD (R121): SCATTER_ADD adds a region's rows to indexed memory rows in index order. -/
  | scatterAdd (flight : Nat)
  /-- UNIT_START (R91): A queued MMA or vector stroke starts in the cycle after the last step of the stroke ahead of it. -/
  | unitStart (panel : Nat) (vector : Bool)
  /-- STROKE_COMPLETE (R96): A stroke finishes: operands are released, its result region becomes READY, or an execution fault is recorded. -/
  | strokeComplete (flight : Nat)
  /-- THREAD_ENABLE (R130): Writing ENABLE 1 in CNV_PNL_THR_CTL makes the panel thread RUNNING from PC. -/
  | threadEnable (panel thread : Nat)
  /-- THREAD_DISABLE (R130): Writing ENABLE 0 stops the panel thread, which becomes IDLE once its strokes complete. -/
  | threadDisable (panel thread : Nat)
  /-- PANEL_DRAIN (R101): Writing DRAIN stops the panel issuing until every issued stroke completes. -/
  | panelDrain (panel : Nat)
  /-- LAUNCH (R141): A LAUNCH train command is refused or resets the streams inside the train. -/
  | launch (canvas entry : Nat)
  /-- LAUNCH_THREADS_START (R141): Once every stream reset is acknowledged, the leaf threads of the train take their start records and are enabled. -/
  | launchThreadsStart (canvas : Nat)
  /-- STOP (R142): A STOP train command clears ENABLE for every leaf thread below the entry. -/
  | stop (canvas entry : Nat)
  /-- TRAIN_STATE_CHANGE (R137): A train entry's derived STATE and CODE update after a change of its leaf threads or partitions. -/
  | trainStateChange (canvas entry : Nat)
  /-- LINKED_PROPAGATION (R158): A LINKED train that becomes FAULTED faults every other partition holding its leaves. -/
  | linkedPropagation (canvas entry : Nat)
  /-- STREAM_UNIT_LAND (R146): A stream unit arrives at the receiver and lands in the landing space or feeds a waiting RECV. -/
  | streamUnitLand (canvas stream : Nat)
  /-- STREAM_CREDIT_RETURN (R147): A returned stream credit reaches the sender's credit counter. -/
  | streamCreditReturn (canvas stream : Nat)
  /-- LOAD (R182): A write of SKT_CTL.LOAD is refused or accepted, locking the staging range and starting the checks. -/
  | load
  /-- LOAD_CHECKS_DONE (R184): The loader finishes its ordered checks and either fails to the primer or begins the apply phase. -/
  | loadChecksDone
  /-- APPLY_DONE (R185): The apply phase completes, the Sketch becomes RESIDENT, LOAD_DONE is set and doorbells are released. -/
  | applyDone
  /-- ALU_ADD (R207): ALU ADD writes g[RA] + g[RB]. -/
  | aluAdd (th : SeqThread) (rd ra rb : Nat)
  /-- ALU_SUB (R207): ALU SUB writes g[RA] − g[RB]. -/
  | aluSub (th : SeqThread) (rd ra rb : Nat)
  /-- ALU_AND (R207): ALU AND writes the bitwise AND. -/
  | aluAnd (th : SeqThread) (rd ra rb : Nat)
  /-- ALU_OR (R207): ALU OR writes the bitwise OR. -/
  | aluOr (th : SeqThread) (rd ra rb : Nat)
  /-- ALU_XOR (R207): ALU XOR writes the bitwise XOR. -/
  | aluXor (th : SeqThread) (rd ra rb : Nat)
  /-- ALU_ANDN (R207): ALU ANDN writes g[RA] AND NOT g[RB]. -/
  | aluAndn (th : SeqThread) (rd ra rb : Nat)
  /-- ALU_SHL (R207): ALU SHL shifts left by g[RB][5:0]. -/
  | aluShl (th : SeqThread) (rd ra rb : Nat)
  /-- ALU_SHR (R207): ALU SHR shifts right logically. -/
  | aluShr (th : SeqThread) (rd ra rb : Nat)
  /-- ALU_SRA (R207): ALU SRA shifts right arithmetically. -/
  | aluSra (th : SeqThread) (rd ra rb : Nat)
  /-- ALU_SLT (R207): ALU SLT writes the signed less-than result. -/
  | aluSlt (th : SeqThread) (rd ra rb : Nat)
  /-- ALU_SLTU (R207): ALU SLTU writes the unsigned less-than result. -/
  | aluSltu (th : SeqThread) (rd ra rb : Nat)
  /-- ALU_MIN (R207): ALU MIN writes the signed minimum. -/
  | aluMin (th : SeqThread) (rd ra rb : Nat)
  /-- ALU_MAX (R207): ALU MAX writes the signed maximum. -/
  | aluMax (th : SeqThread) (rd ra rb : Nat)
  /-- ALU_MINU (R207): ALU MINU writes the unsigned minimum. -/
  | aluMinu (th : SeqThread) (rd ra rb : Nat)
  /-- ALU_MAXU (R207): ALU MAXU writes the unsigned maximum. -/
  | aluMaxu (th : SeqThread) (rd ra rb : Nat)
  /-- ALU_MUL (R207): ALU MUL writes the low 64 bits of the product. -/
  | aluMul (th : SeqThread) (rd ra rb : Nat)
  /-- ALU_MULHU (R207): ALU MULHU writes the high 64 bits of the unsigned product. -/
  | aluMulhu (th : SeqThread) (rd ra rb : Nat)
  /-- ALU_MULH (R207): ALU MULH writes the high 64 bits of the signed product. -/
  | aluMulh (th : SeqThread) (rd ra rb : Nat)
  /-- ALU_POPC (R207): ALU POPC writes the population count of g[RA]. -/
  | aluPopc (th : SeqThread) (rd ra rb : Nat)
  /-- ALU_CLZ (R207): ALU CLZ writes the count of leading zeros. -/
  | aluClz (th : SeqThread) (rd ra rb : Nat)
  /-- ALU_CTZ (R207): ALU CTZ writes the count of trailing zeros. -/
  | aluCtz (th : SeqThread) (rd ra rb : Nat)
  /-- ADDI (R207): ADDI adds a sign-extended immediate. -/
  | addi (th : SeqThread) (rd ra : Nat) (imm : BitVec 14)
  /-- ANDI (R207): ANDI ANDs a zero-extended immediate. -/
  | andi (th : SeqThread) (rd ra : Nat) (imm : BitVec 14)
  /-- ORI (R207): ORI ORs a zero-extended immediate. -/
  | ori (th : SeqThread) (rd ra : Nat) (imm : BitVec 14)
  /-- XORI (R207): XORI XORs a zero-extended immediate. -/
  | xori (th : SeqThread) (rd ra : Nat) (imm : BitVec 14)
  /-- SHLI (R207): SHLI shifts left by an immediate. -/
  | shli (th : SeqThread) (rd ra : Nat) (imm : BitVec 14)
  /-- SHRI (R207): SHRI shifts right logically by an immediate. -/
  | shri (th : SeqThread) (rd ra : Nat) (imm : BitVec 14)
  /-- SRAI (R207): SRAI shifts right arithmetically by an immediate. -/
  | srai (th : SeqThread) (rd ra : Nat) (imm : BitVec 14)
  /-- SLTI (R207): SLTI compares signed against an immediate. -/
  | slti (th : SeqThread) (rd ra : Nat) (imm : BitVec 14)
  /-- SLTIU (R207): SLTIU compares unsigned against an immediate. -/
  | sltiu (th : SeqThread) (rd ra : Nat) (imm : BitVec 14)
  /-- MOVLO (R207): MOVLO loads a zero-extended 20-bit immediate. -/
  | movlo (th : SeqThread) (rd : Nat) (imm : BitVec 20)
  /-- MOVHI (R207): MOVHI ORs a 20-bit immediate shifted by 20 into g[RD]. -/
  | movhi (th : SeqThread) (rd : Nat) (imm : BitVec 20)
  /-- LD8 (R210): LD8 loads a zero-extended byte. -/
  | ld8 (th : SeqThread) (rd ra : Nat) (imm : BitVec 14) (cached : Bool)
  /-- LD16 (R210): LD16 loads a zero-extended halfword. -/
  | ld16 (th : SeqThread) (rd ra : Nat) (imm : BitVec 14) (cached : Bool)
  /-- LD32 (R210): LD32 loads a zero-extended word. -/
  | ld32 (th : SeqThread) (rd ra : Nat) (imm : BitVec 14) (cached : Bool)
  /-- LD64 (R210): LD64 loads a doubleword. -/
  | ld64 (th : SeqThread) (rd ra : Nat) (imm : BitVec 14) (cached : Bool)
  /-- LD32S (R210): LD32S loads a sign-extended word. -/
  | ld32s (th : SeqThread) (rd ra : Nat) (imm : BitVec 14) (cached : Bool)
  /-- LDNC (R211): LDNC loads 64 bits from the glaze after invalidating the data-cache line. -/
  | ldnc (th : SeqThread) (rd ra : Nat) (imm : BitVec 14)
  /-- PF (R220): PF prefetches a 2 KiB line into the glaze, or is dropped. -/
  | pf (th : SeqThread) (ra : Nat) (imm : BitVec 14) (victim : Nat)
  /-- ST8 (R211): ST8 stores a byte through the store buffer. -/
  | st8 (th : SeqThread) (rs ra : Nat) (imm : BitVec 14)
  /-- ST16 (R211): ST16 stores a halfword through the store buffer. -/
  | st16 (th : SeqThread) (rs ra : Nat) (imm : BitVec 14)
  /-- ST32 (R211): ST32 stores a word through the store buffer. -/
  | st32 (th : SeqThread) (rs ra : Nat) (imm : BitVec 14)
  /-- ST64 (R211): ST64 stores a doubleword through the store buffer. -/
  | st64 (th : SeqThread) (rs ra : Nat) (imm : BitVec 14)
  /-- AMO_ADD (R211): AMO ADD adds atomically at the glaze and returns the old value. -/
  | amoAdd (th : SeqThread) (rd ra rb : Nat) (wide : Bool)
  /-- AMO_SWAP (R211): AMO SWAP swaps atomically at the glaze. -/
  | amoSwap (th : SeqThread) (rd ra rb : Nat) (wide : Bool)
  /-- AMO_CAS (R211): AMO CAS compares and swaps atomically at the glaze. -/
  | amoCas (th : SeqThread) (rd ra rb : Nat) (wide : Bool)
  /-- AMO_MAXU (R211): AMO MAXU applies an unsigned maximum atomically at the glaze. -/
  | amoMaxu (th : SeqThread) (rd ra rb : Nat) (wide : Bool)
  /-- BEQ (R203): BEQ branches when the registers are equal. -/
  | beq (th : SeqThread) (ra rb : Nat) (imm : BitVec 14) (predicted : Bool)
  /-- BNE (R203): BNE branches when the registers differ. -/
  | bne (th : SeqThread) (ra rb : Nat) (imm : BitVec 14) (predicted : Bool)
  /-- BLT (R203): BLT branches on signed less-than. -/
  | blt (th : SeqThread) (ra rb : Nat) (imm : BitVec 14) (predicted : Bool)
  /-- BGE (R203): BGE branches on signed greater-or-equal. -/
  | bge (th : SeqThread) (ra rb : Nat) (imm : BitVec 14) (predicted : Bool)
  /-- BLTU (R203): BLTU branches on unsigned less-than. -/
  | bltu (th : SeqThread) (ra rb : Nat) (imm : BitVec 14) (predicted : Bool)
  /-- BGEU (R203): BGEU branches on unsigned greater-or-equal. -/
  | bgeu (th : SeqThread) (ra rb : Nat) (imm : BitVec 14) (predicted : Bool)
  /-- JAL (R204): JAL writes the return address and jumps relative to PC. -/
  | jal (th : SeqThread) (rd : Nat) (imm : BitVec 20) (predicted : Bool)
  /-- JALR (R204): JALR writes the return address and jumps to a register target. -/
  | jalr (th : SeqThread) (rd ra : Nat) (imm : BitVec 14) (predicted : Bool)
  /-- FENCE (R212): A sequencer FENCE waits for earlier accesses under REL or ACQ before later ones issue. -/
  | fence (th : SeqThread) (rel acq : Bool)
  /-- CSRR (R206): CSRR reads a CSR into a register. -/
  | csrr (th : SeqThread) (rd : Nat) (csr : BitVec 14)
  /-- CSRW (R206): CSRW writes a register into a CSR. -/
  | csrw (th : SeqThread) (ra : Nat) (csr : BitVec 14)
  /-- MBXWAIT (R214): MBXWAIT takes a word from a mailbox, waiting or returning 0 with TRY. -/
  | mbxwait (th : SeqThread) (rd ra : Nat) (tryOnly : Bool)
  /-- MBXPOST (R215): MBXPOST posts a word to a mailbox after an implied release fence. -/
  | mbxpost (th : SeqThread) (ra rb : Nat)
  /-- TRAIN_LAUNCH (R209): The TRAIN instruction with FN LAUNCH enqueues a LAUNCH train command. -/
  | trainLaunch (th : SeqThread) (ra : Nat)
  /-- TRAIN_STOP (R209): The TRAIN instruction with FN STOP enqueues a STOP train command. -/
  | trainStop (th : SeqThread) (ra : Nat)
  /-- DMAPOST (R347): DMAPOST posts a descriptor to a DMA channel and returns 0 or the refusal code. -/
  | dmapost (th : SeqThread) (rd ra rb : Nat)
  /-- PNLGO (R208): PNLGO starts an IDLE panel thread of the partition at a PC, or returns 1. -/
  | pnlgo (th : SeqThread) (rd ra rb : Nat)
  /-- YIELD (R202): YIELD ends the thread's RUNNING turn. -/
  | yield (th : SeqThread)
  /-- HALT (R205): HALT stops the sequencer thread as HALTED at the instruction boundary. -/
  | halt (th : SeqThread)
  /-- THREAD_SWITCH (R202): After a wait or 64 consecutive issue cycles with another thread READY, the core switches to the longest-READY thread. -/
  | threadSwitch (canvas core : Nat)
  /-- SEQ_WAIT_END (R202): The event a WAITING sequencer thread waits for occurs and the thread becomes READY. -/
  | seqWaitEnd (th : SeqThread)
  /-- SEQ_ENABLE (R200): Writing ENABLE 1 in CNV_SEQ_THR_CTL starts the sequencer thread from PC. -/
  | seqEnable (th : SeqThread)
  /-- SEQ_DISABLE (R205): Writing ENABLE 0 stops the sequencer thread at the next boundary, after which it becomes IDLE. -/
  | seqDisable (th : SeqThread)
  /-- MAILBOX_POST (R215): A post arrives at a mailbox and is queued, or discarded when the mailbox is full. -/
  | mailboxPost (mbx : Nat) (word : Word32)
  /-- MBX_POST_REGISTER (R215): A host write of CNV_SEQ_MBX_POST posts a word to a mailbox. -/
  | mbxPostRegister (mbx : Nat) (word : Word32)
  /-- MAILBOX_DELIVER (R214): A mailbox delivers its oldest word to the longest-waiting thread. -/
  | mailboxDeliver (mbx : Nat)
  /-- FILL_SLOT_GRANT (R218): A released fill slot is granted to the longest-waiting miss it now allows. -/
  | fillSlotGrant (canvas : Nat)
  /-- FILL_DELIVERY (R216): A gesso row fill lands and is multicast to merged requesters, and the slot is released. -/
  | fillDelivery (canvas line : Nat) (upsets : List Upset)
  /-- SLICE_READ (R235): A read, LDNC or cache fill arrives at its home slice and hits, fills or merges. -/
  | sliceRead (req : MemReq) (upsets : List Upset)
  /-- SLICE_WHOLE_WRITE (R235): A whole-sector write arrives at its home slice and is applied. -/
  | sliceWholeWrite (req : MemReq) (data : List Byte)
  /-- SLICE_PARTIAL_WRITE (R235): A partial-sector write arrives at its home slice and merges after any needed fill. -/
  | slicePartialWrite (req : MemReq) (data : List Byte)
  /-- SLICE_ATOMIC (R235): An atomic arrives at its home slice and is applied, returning its old value. -/
  | sliceAtomic (req : MemReq) (op : AtomicOp) (operand compare : Val)
  /-- ADD_TO_LINE_FP32 (R241): An FP32 add-to-line arrives at its home slice and each element becomes RNE(old + addend). -/
  | addToLineFp32 (req : MemReq) (data : List Byte)
  /-- ADD_TO_LINE_EX96 (R243): An EXACT96 add-to-line arrives and combines each container, or leaves the sector unchanged on error. -/
  | addToLineEx96 (req : MemReq) (data : List Byte)
  /-- TURN_READ (R249): A turn read arrives at its home slice and returns the transposed line. -/
  | turnRead (req : MemReq) (esize : Nat)
  /-- WRITEBACK_DONE (R234): A write-back is performed in the gesso and the line leaves the victim buffer. -/
  | writebackDone (canvas line : Nat)
  /-- WRITEBACK_RETRY (R620): A refused write-back is retried on the schedule of R29 and then every 100 µs. -/
  | writebackRetry (canvas line : Nat)
  /-- FLUSH_WRITE_BACK (R239): A FLUSH WRITE_BACK command writes back every dirty sector of the range. -/
  | flushWriteBack (canvas lines : Nat)
  /-- FLUSH_INVALIDATE (R239): A FLUSH INVALIDATE command writes back and invalidates untacked lines of the range. -/
  | flushInvalidate (canvas lines : Nat)
  /-- FLUSH_DONE (R239): Every write-back of a flush is performed, FLUSH_BUSY clears and FLUSH_DONE is set. -/
  | flushDone (canvas : Nat)
  /-- RO_INV (R231): A write of CNV_GLZ_RO_INV GO discards every read-only cache line of the canvas's panels. -/
  | roInv (canvas : Nat)
  /-- RO_INV_DONE (R231): A read-only cache invalidation finishes and INV_BUSY clears. -/
  | roInvDone (canvas : Nat)
  /-- RO_FILL_DONE (R229): Both reads of a read-only cache line fill return and the line is filled. -/
  | roFillDone (panel cache : Nat) (dpa : Dpa)
  /-- TACK_RANGE_WRITE (R245): A write of a tack range entry is committed, or refused on overlap with CONFLICT and TACK_REFUSED set. -/
  | tackRangeWrite (canvas entry : Nat) (data : Val)
  /-- GESSO_REFRESH (R253): A bank's refresh slot begins within its refresh period and takes the bank for 80 ns. -/
  | gessoRefresh (canvas bank : Nat)
  /-- ROW_COPY (R262): A ROW_COPY command is checked and dispatched, copying rows with their metadata. -/
  | rowCopy (canvas queue : Nat)
  /-- ROW_FILL (R262): A ROW_FILL command writes PATTERN into rows. -/
  | rowFill (canvas queue : Nat)
  /-- ROW_ZERO (R262): A ROW_ZERO command zeroes rows and sets their zero token. -/
  | rowZero (canvas queue : Nat)
  /-- ROW_AND (R262): A ROW_AND command writes A AND B. -/
  | rowAnd (canvas queue : Nat)
  /-- ROW_OR (R262): A ROW_OR command writes A OR B. -/
  | rowOr (canvas queue : Nat)
  /-- ROW_XOR (R262): A ROW_XOR command writes A XOR B. -/
  | rowXor (canvas queue : Nat)
  /-- ROW_ANDN (R262): A ROW_ANDN command writes A AND NOT B. -/
  | rowAndn (canvas queue : Nat)
  /-- ROW_XNOR (R262): A ROW_XNOR command writes NOT (A XOR B). -/
  | rowXnor (canvas queue : Nat)
  /-- ROW_NOT (R262): A ROW_NOT command writes NOT A. -/
  | rowNot (canvas queue : Nat)
  /-- ROW_SELECT (R262): A ROW_SELECT command merges A into D under mask B. -/
  | rowSelect (canvas queue : Nat)
  /-- ROW_OP_DISPATCH (R283): A row operation is dispatched when its bank or channel buffer has room. -/
  | rowOpDispatch (canvas queue seq : Nat)
  /-- ROW_OP_PERFORMED (R276): A row operation writes its row in the gesso and releases its hold on the lines. -/
  | rowOpPerformed (canvas queue seq op : Nat) (upsets : List Upset)
  /-- ROW_Q_TAIL (R269): A write of CNV_ROW_Q_TAIL sets TAIL, halting the queue on overrun. -/
  | rowQTail (port : Port) (canvas queue : Nat) (tail : Word32)
  /-- ROW_Q_RESUME (R273): Writing RESUME skips the failed command, or rechecks TAIL after an overrun, and runs on. -/
  | rowQResume (port : Port) (canvas queue : Nat)
  /-- ROW_Q_ENABLE (R274): Writing ENABLE stops or resumes a row queue's dispatch at a row-operation boundary. -/
  | rowQEnable (port : Port) (canvas queue : Nat) (enable : Bool)
  /-- FIN_ADAMW (R302): A FIN_ADAMW task updates moments and weights into the next version. -/
  | finAdamw (canvas queue seq : Nat)
  /-- FIN_SIGNMOM (R302): A FIN_SIGNMOM task performs the sign-momentum update. -/
  | finSignmom (canvas queue seq : Nat)
  /-- FIN_ORTHO (R304): A FIN_ORTHO task applies momentum and Newton–Schulz orthogonalisation. -/
  | finOrtho (canvas queue seq : Nat)
  /-- FIN_KRON (R305): A FIN_KRON task updates Kronecker factors and preconditions the gradient. -/
  | finKron (canvas queue seq : Nat)
  /-- FIN_USER (R306): A FIN_USER task runs a user finish program on each unit. -/
  | finUser (canvas queue seq unit : Nat) (upsets : List Upset)
  /-- FIN_CLEAR (R301): A FIN_CLEAR task writes zeros over a gradient. -/
  | finClear (canvas queue seq : Nat)
  /-- FIN_SIGN (R312): A FIN_SIGN task writes a shard's signature, step and version into its record. -/
  | finSign (canvas queue seq : Nat)
  /-- FIN_EXPORT (R312): A FIN_EXPORT task writes a shard Export record and its data. -/
  | finExport (canvas queue seq : Nat)
  /-- FIN_ADOPT (R314): A FIN_ADOPT task checks a received record and writes the overlapping elements into the target shard. -/
  | finAdopt (canvas queue seq : Nat)
  /-- FIN_TASK_DISPATCH (R294): The head task of the canvas dispatch starts once its U units are idle. -/
  | finTaskDispatch (canvas : Nat)
  /-- FIN_TASK_COMPLETE (R295): A finish task's writes are all performed, or it stops on an error and halts its queue. -/
  | finTaskComplete (canvas queue seq : Nat)
  /-- FIN_STEP_WRITE (R299): A write of CNV_FIN_STEP sets the committed step, or is ignored with STEP_REFUSED. -/
  | finStepWrite (port : Port) (part : Nat) (data : Word32)
  /-- FIN_Q_TAIL (R291): A write of CNV_FIN_Q_TAIL sets the finish queue's TAIL, with overrun checks. -/
  | finQTail (port : Port) (canvas queue : Nat) (tail : Word32)
  /-- FIN_Q_RESUME (R291): Writing RESUME skips the failed finish task and runs on. -/
  | finQResume (port : Port) (canvas queue : Nat)
  /-- FIN_Q_ENABLE (R291): Writing ENABLE stops or resumes a finish queue. -/
  | finQEnable (port : Port) (canvas queue : Nat) (enable : Bool)
  /-- COAT_START (R327): A coat queue checks its next descriptor and starts the coat, or refuses it and halts. -/
  | coatStart (queue : Nat)
  /-- PREPARE (R328): A PREPARE token reaches a participant and its part begins preparing once its descriptor is present. -/
  | prepare (coord : Nat) (ts : Val)
  /-- LOCK_GRANT (R335): A waiting coat is granted a lock key when its holder releases it. -/
  | lockGrant (id : Nat)
  /-- COAT_PREPARED (R330): Every canvas and the hub finish preparing and the device votes YES. -/
  | coatPrepared (id : Nat)
  /-- VOTE (R331): A vote reaches the coordinator, which decides COMMIT on the last YES or ABORT on a NO. -/
  | vote (device : Nat) (ts : Val) (code : Code)
  /-- COMMIT (R332): A COMMIT decision reaches a participant, which schedules its apply. -/
  | commit (device : Nat) (ts : Val)
  /-- ABORT (R333): An ABORT decision reaches a part, which releases its locks, holds and slots and sends ACK. -/
  | abort (device : Nat) (ts : Val) (code : Code)
  /-- COAT_APPLY (R332): 2 µs after learning a commit, the device applies every action of its part in one device nanosecond. -/
  | coatApply (id : Nat)
  /-- ACK (R333): An ACK reaches the coordinator, and the coat completes when all have arrived. -/
  | ack (device : Nat) (ts : Val)
  /-- ACK_WAIT_EXPIRY (R333): 10 ms after its decision the coordinator completes the coat and sets ACK_MISSING for missing ACKs. -/
  | ackWaitExpiry (id : Nat)
  /-- WOUND (R335): A WOUND token reaches a coordinator, which aborts an undecided coat with COAT_WOUNDED. -/
  | wound (ts : Val)
  /-- QUERY (R338): A QUERY reaches the coordinator, which answers OUTCOME or RESTARTED. -/
  | query (device : Nat) (ts : Val)
  /-- OUTCOME (R338): An OUTCOME answer reaches a participant, which applies or releases, or becomes IN_DOUBT on RESTARTED. -/
  | outcome (ts : Val) (answer : Nat) (code : Code)
  /-- QUERY_TIMER (R338): A voted part without a decision sends QUERY every 1 ms and becomes IN_DOUBT when unanswered. -/
  | queryTimer (id : Nat)
  /-- COAT_TIMEOUT (R336): A coat part lacking a decision, vote or PREPARE for 10 ms aborts with COAT_TIMEOUT. -/
  | coatTimeout (id : Nat)
  /-- PREPARE_DISCARD (R336): A PREPARE held 10 ms with no matching part is discarded. -/
  | prepareDiscard (ts : Val)
  /-- COAT_CMD_ABORT (R341): COAT_CMD ABORT aborts an unvoted or undecided coat, or is refused. -/
  | coatCmdAbort (id : Nat)
  /-- RESOLVE_COMMIT (R339): COAT_CMD RESOLVE_COMMIT applies an IN_DOUBT part. -/
  | resolveCommit (id : Nat)
  /-- RESOLVE_ABORT (R339): COAT_CMD RESOLVE_ABORT releases an IN_DOUBT part. -/
  | resolveAbort (id : Nat)
  /-- COAT_Q_TAIL (R270): A write of a coat queue's TAIL sets it, with overrun checks. -/
  | coatQTail (port : Port) (queue : Nat) (tail : Word32)
  /-- COAT_Q_RESUME (R273): Writing RESUME on a coat queue skips the refused coat and runs on. -/
  | coatQResume (port : Port) (queue : Nat)
  /-- COAT_Q_ENABLE (R274): Writing ENABLE stops or resumes a coat queue. -/
  | coatQEnable (port : Port) (queue : Nat) (enable : Bool)
  /-- DMA_COPY (R352): A COPY descriptor starts, is checked and issues its bursts. -/
  | dmaCopy (channel : Nat)
  /-- DMA_ADD (R353): An ADD descriptor starts and applies add-to-line at each destination sector. -/
  | dmaAdd (channel : Nat)
  /-- DMA_TURN (R353): A TURN descriptor starts and writes turn reads of its source lines. -/
  | dmaTurn (channel : Nat)
  /-- BURST_ISSUE (R358): In an engine cycle one channel is granted the issue of one burst by class, priority and round robin. -/
  | burstIssue (engine : Nat)
  /-- DMA_RESPONSE (R363): A response to a DMA request arrives, freeing its tag, or a bus error triggers a burst retry or halt. -/
  | dmaResponse (channel seq offset : Nat) (reply : Option DmaReply)
  /-- DMA_REQUEST_TIMEOUT (R363): A DMA request without a response for 1 ms fails with DMA_TIMEOUT. -/
  | dmaRequestTimeout (channel seq offset : Nat)
  /-- DMA_READBACK_DONE (R360): A descriptor's read-back returns and the descriptor completes with signal, HEAD and completion word. -/
  | dmaReadbackDone (channel seq : Nat) (reply : Option DmaReply)
  /-- REMOTE_REQUEST (R355): A remote request reaches the target hub, is window-checked and performed at the home slice. -/
  | remoteRequest (req : MemReq) (act : RemoteAct)
  /-- DMA_RESUME_RETRY (R365): RESUME RETRY reruns a halted channel's failed descriptor from the recorded offset. -/
  | dmaResumeRetry (port : Port) (channel : Nat)
  /-- DMA_RESUME_SKIP (R365): RESUME SKIP counts the failed descriptor complete and goes on. -/
  | dmaResumeSkip (port : Port) (channel : Nat)
  /-- DMA_STOP (R366): STOP lets started descriptors complete and then stops the channel. -/
  | dmaStop (port : Port) (channel : Nat)
  /-- DMA_ENABLE (R366): Writing ENABLE starts or restarts a channel running descriptors from HEAD. -/
  | dmaEnable (port : Port) (channel : Nat) (enable : Bool)
  /-- DMA_TAIL_WRITE (R349): A write of DMA_CH_TAIL advances the ring, with overrun checks. -/
  | dmaTailWrite (port : Port) (channel : Nat) (tail : Word32)
  /-- DMA_OWNER_WRITE (R348): A write of DMA_CH_OWNER sets the channel's owner, or is ignored while a coat holds a slot. -/
  | dmaOwnerWrite (port : Port) (channel : Nat) (data : Word32)
  /-- TETHER_DATA (R379): A tether DATA flit arrives and is accepted in SEQ order or discarded with a NAK. -/
  | tetherData (canvas dir : Nat) (fresh : Option LinkLoad) (arrived : Option (List Byte))
  /-- TETHER_NULL (R372): A tether NULL flit arrives carrying ACK and credit totals. -/
  | tetherNull (canvas dir : Nat) (flit : List Byte)
  /-- TETHER_NAK (R380): A tether NAK arrives and the sender replays held flits after a skip set. -/
  | tetherNak (canvas dir : Nat) (flit : List Byte)
  /-- TETHER_HEARTBEAT (R387): A tether HEARTBEAT arrives, resetting the heartbeat timer or marking the canvas LOST on a new epoch. -/
  | tetherHeartbeat (canvas dir : Nat) (flit : List Byte)
  /-- TETHER_REPLAY_TIMEOUT (R380): ACK has not advanced for 200 ns and the sender resends from the oldest held flit. -/
  | tetherReplayTimeout (canvas dir : Nat)
  /-- TETHER_RETRAIN_DONE (R382): A tether retrain ends, setting widths, recording failed lanes and resuming replay. -/
  | tetherRetrainDone (canvas up dn : Nat)
  /-- HEARTBEAT_SEND (R386): A tether end's heartbeat interval expires and it sends a HEARTBEAT flit. -/
  | heartbeatSend (canvas dir crVc : Nat)
  /-- HB_TIMEOUT (R387): No good heartbeat arrives at the hub for HB_TIMEOUT and the canvas is marked LOST. -/
  | hbTimeout (canvas : Nat)
  /-- CANVAS_HB_LOSS (R389): A canvas without a hub heartbeat for HB_TIMEOUT halts its threads and closes its gesso rows. -/
  | canvasHbLoss (canvas : Nat)
  /-- TTH_RETRAIN (R382): Writing TTH_CTL.RETRAIN starts a tether retrain. -/
  | tthRetrain (canvas : Nat)
  /-- TTH_RECOVER (R390): Writing RECOVER on a LOST canvas retrains its tether and brings the canvas back. -/
  | tthRecover (canvas : Nat)
  /-- CREDIT_LEAK_CHECK (R377): A VC idle for 1 ms with AVAIL below 512 sets CREDIT_LEAK. -/
  | creditLeakCheck (spar : Bool) (link vc : Nat)
  /-- HUB_PACKET (R392): A packet arrives at the hub fabric and is routed by its DST, or answered with HUB_ROUTE or HUB_POISONED. -/
  | hubPacket (packet : HubPacket) (uncorrectable : Bool)
  /-- SPAR_DATA (R406): A spar DATA flit arrives, is decrypted and authenticated, and accepted in order or NAKed. -/
  | sparData (port : Nat) (flit : List Byte) (fec : FecResult)
  /-- SPAR_NULL (R398): A spar NULL flit arrives carrying ACK and credit totals. -/
  | sparNull (port : Nat) (flit : List Byte) (fec : FecResult)
  /-- SPAR_NAK (R406): A spar NAK arrives and the sender replays held flits. -/
  | sparNak (port : Nat) (flit : List Byte) (fec : FecResult)
  /-- SPAR_TRAIN (R400): A spar TRAIN flit arrives carrying the peer's coordinate, port, dimensions and counter. -/
  | sparTrain (port coord peerPort dims counter : Nat) (good : Bool)
  /-- SPAR_BOOT (R402): A spar BOOT flit arrives carrying key-agreement messages. -/
  | sparBoot (port : Nat) (flit : List Byte)
  /-- KEY_MSG (R494): A KEY_MSG arrives at the RTP for spar key agreement or NEXT-key confirmation. -/
  | keyMsg (port : Nat) (msg : KeyMsg)
  /-- SPAR_REPLAY_TIMEOUT (R406): ACK has not advanced for 400 ns and the sender resends from the oldest held flit. -/
  | sparReplayTimeout (port : Nat)
  /-- SPAR_RX_IDLE (R400): A spar receiver accepts no flit for 2 µs and retrains. -/
  | sparRxIdle (port : Nat)
  /-- SPAR_ENABLE (R419): Writing ENABLE 1 on a DOWN port starts training. -/
  | sparEnable (port : Nat)
  /-- SPAR_DISABLE (R422): Writing ENABLE 0 takes the port DOWN. -/
  | sparDisable (port : Nat)
  /-- SPAR_TRAINING_DONE (R419): Spar training ends with the link UP, or DOWN with SPR_WIRING or too few lanes. -/
  | sparTrainingDone (port rx tx : Nat)
  /-- SPAR_RETRAIN (R421): Writing SPR_CTL.RETRAIN starts a spar retrain. -/
  | sparRetrain (port : Nat)
  /-- SPAR_RETRAIN_DONE (R421): A spar retrain ends with a new width and replay, or the link goes DOWN. -/
  | sparRetrainDone (port rx tx : Nat)
  /-- REKEY (R415): Writing REKEY sets REKEY_DUE at once. -/
  | rekey (port : Nat)
  /-- REKEY_DUE (R415): Flits under the current key reach 2^39 and REKEY_DUE is set. -/
  | rekeyDue (port : Nat)
  /-- KEY_HOLD (R417): Flits under one key reach 2^40 − 2^24 without a switch and the link enters HOLD. -/
  | keyHold (port : Nat)
  /-- KEY_EXHAUST (R417): Flits under one key reach 2^40 and the link goes DOWN with SPR_KEY_EXHAUSTED. -/
  | keyExhaust (port : Nat)
  /-- KEY_AGREE_TIMEOUT (R418): A link left in BOOT for 1 s goes DOWN with SPR_KEY_AGREE. -/
  | keyAgreeTimeout (port : Nat)
  /-- TRANSIT_FORWARD (R412): A packet for another device is forwarded by cut-through after authentication. -/
  | transitForward (input vc : Nat) (packet : SparPacket)
  /-- AGE_TICK (R414): A packet waiting 64 ns at the head of its input has its AGE raised by 1. -/
  | ageTick (input vc : Nat)
  /-- ALL_REDUCE (R435): An ALL_REDUCE collective reduces at block owners and sends results to every rank. -/
  | allReduce (queue : Nat)
  /-- REDUCE_SCATTER (R432): A REDUCE_SCATTER collective leaves block RANK of the reduced result at each rank. -/
  | reduceScatter (queue : Nat)
  /-- ALL_GATHER (R431): An ALL_GATHER collective gives every rank all blocks in rank order. -/
  | allGather (queue : Nat)
  /-- BROADCAST (R431): A BROADCAST collective copies rank 0's bytes to every other rank. -/
  | broadcast (queue : Nat)
  /-- PASS (R431): A PASS collective sends bytes to the next rank and receives from the previous one. -/
  | pass (queue : Nat)
  /-- PERMUTE (R431): A PERMUTE collective sends the send list's ranges to their destination ranks. -/
  | permute (queue : Nat)
  /-- SIG_CMP (R438): A SIG_CMP collective gathers Export records and flags ranks whose records differ from rank 0. -/
  | sigCmp (queue : Nat)
  /-- GRANT (R429): A GRANT arrives at a member, granting landing space or halting on disagreement. -/
  | grant (group seq rank : Nat) (fields : CollGrant)
  /-- COLL_MESSAGE (R430): A collective data message lands and is combined or written. -/
  | collMessage (group seq rank : Nat) (msg : CollMsg)
  /-- FAIL (R437): A FAIL message arrives and the member halts that collective with the carried code. -/
  | fail (group seq rank : Nat) (code : Code)
  /-- COLLECTIVE_COMPLETE (R436): A member's DST writes are confirmed and its sends landed, and its part completes. -/
  | collectiveComplete (group seq : Nat)
  /-- COL_TIMEOUT_EXPIRY (R437): No byte landed or sent for COL_TIMEOUT halts the member with DMA_TIMEOUT. -/
  | colTimeoutExpiry (group seq : Nat)
  /-- COL_Q_TAIL (R425): A write of a collective queue's TAIL sets it, with overrun checks. -/
  | colQTail (port : Port) (queue : Nat) (tail : Word32)
  /-- COL_Q_RESUME (R425): Writing RESUME on a collective queue skips the failed collective. -/
  | colQResume (port : Port) (queue : Nat)
  /-- COL_Q_ENABLE (R425): Writing ENABLE stops or resumes a collective queue. -/
  | colQEnable (port : Port) (queue : Nat) (enable : Bool)
  /-- CONTROL_INTERVAL (R446): Each 10 µs the power manager recomputes issuing phases, preferred points, pool size and grants. -/
  | controlInterval (power : Nat) (demands : List IslandDemand)
  /-- TOKEN_GRANT (R452): A token grant reaches an island, which raises its point and acknowledges. -/
  | tokenGrant (island : Nat)
  /-- TOKEN_REVOKE (R452): A revocation reaches an island, which lowers its clock and then acknowledges. -/
  | tokenRevoke (island : Nat)
  /-- TOKEN_ACK (R452): An island's acknowledgement reaches the manager and settles the token books. -/
  | tokenAck (island : Nat)
  /-- LOCAL_LIMITER (R451): Each 1 µs an island's limiter compares its power estimate with its tokens and stretches or releases its clock. -/
  | localLimiter (island estimate : Nat)
  /-- DROOP_DETECT (R455): An IVR output falls below the droop level and the island clock period doubles. -/
  | droopDetect (island : Nat)
  /-- DROOP_RECOVER (R455): The output stays above the level for 64 cycles and the clock period is restored. -/
  | droopRecover (island : Nat)
  /-- IVR_CURRENT_LIMIT (R456): An IVR reaches 95% of its current limit and its island is lowered one point. -/
  | ivrCurrentLimit (island : Nat)
  /-- HAUL_DOWN_ASSERT (R458): HAUL_DOWN_N is accepted low and every island applies its haul-down divider and voltage. -/
  | haulDownAssert
  /-- HAUL_DOWN_RELEASE (R459): HAUL_DOWN_N is accepted high with FORCE 0 and islands return to the token path. -/
  | haulDownRelease
  /-- HAUL_DOWN_FORCE (R458): A write of PWR_HAULDOWN.FORCE activates or ends forced haul-down. -/
  | haulDownForce (force lowNow : Bool)
  /-- HAUL_DOWN_RECOMPUTE (R457): After a change of point, HD_W or temperature band, the haul-down dividers and voltages are recomputed. -/
  | haulDownRecompute (dividers : List (Nat × Nat))
  /-- CAP_WRITE (R454): A write of CAP_W or FAST_W revokes or ramps tokens to the new limit. -/
  | capWrite (fast : Bool) (watts : Nat)
  /-- PHASE_PO_WRITE (R448): A write of PWR_PHASE_PO takes effect at the next interval, or is ignored under the primer. -/
  | phasePoWrite (phase point : Nat)
  /-- SENSOR_SAMPLE (R470): Each 100 µs sensors are sampled and warn, throttle and trip conditions evaluated. -/
  | sensorSample (temps : List Int)
  /-- TRIP_RECORD_DONE (R472): The thermal-trip record is written and islands 136 and 143 turn off. -/
  | tripRecordDone
  /-- SUSPECT_CLEAR (R468): Writing 1 to THM_SENSOR.SUSPECT readmits the sensor unless a same-cycle sample marks it. -/
  | suspectClear (sensor : Nat) (marked : Bool)
  /-- ENERGY_INTERVAL (R463): Each 1 ms energy is modelled, attributed and scaled into the counters. -/
  | energyInterval (measured : Nat) (used : List EnergyUse) (leaks : List (Nat × Nat))
  /-- BOND_WEAR_SAMPLE (R474): Each 1 ms the bond temperature is rainflow-counted into wear units. -/
  | bondWearSample (canvas : Nat)
  /-- ENROLL (R489): ENROLL writes a producer-key digest into a platform slot. -/
  | enroll (req : MbxRequest)
  /-- REVOKE (R489): REVOKE empties a platform producer-key slot. -/
  | revoke (req : MbxRequest)
  /-- SALT_CHANGE (R500): SALT_CHANGE changes the epoch salt on a quiesced device. -/
  | saltChange (req : MbxRequest)
  /-- CLEAR_TAMPER (R504): CLEAR_TAMPER clears the tamper latch and increments TAMPER_CLEARS. -/
  | clearTamper (req : MbxRequest)
  /-- FORCE_EXIT (R498): FORCE_EXIT begins a confidential exit. -/
  | forceExit (req : MbxRequest)
  /-- READ_CERT (R486): READ_CERT returns a certificate of the chain. -/
  | readCert (req : MbxRequest)
  /-- JNL_READ (R587): JNL_READ returns up to 64 sketchbook records from a SEQ. -/
  | jnlRead (req : MbxRequest)
  /-- JNL_APPEND (R587): JNL_APPEND appends a HOST_NOTE record. -/
  | jnlAppend (req : MbxRequest)
  /-- JNL_COMPACT (R585): JNL_COMPACT starts sketchbook compaction. -/
  | jnlCompact (req : MbxRequest)
  /-- FW_WRITE (R577): FW_WRITE writes data into the target firmware slot. -/
  | fwWrite (req : MbxRequest) (flashOk : Bool)
  /-- FW_ACTIVATE (R577): FW_ACTIVATE verifies the target slot and makes it preferred. -/
  | fwActivate (req : MbxRequest) (flashOk : Bool)
  /-- FW_COMMIT_SVN (R577): FW_COMMIT_SVN raises the fused minimum SVN to the running image's. -/
  | fwCommitSvn (req : MbxRequest)
  /-- MBX_COMMAND_END (R484): An RTP mailbox command ends, writing its response and CODE, clearing BUSY and setting MBX_DONE. -/
  | mbxCommandEnd
  /-- GET_VERSION (R488): The SPDM GET_VERSION request is answered. -/
  | getVersion
  /-- GET_CAPABILITIES (R488): The SPDM GET_CAPABILITIES request is answered. -/
  | getCapabilities
  /-- NEGOTIATE_ALGORITHMS (R488): The SPDM NEGOTIATE_ALGORITHMS request is answered. -/
  | negotiateAlgorithms
  /-- GET_DIGESTS (R488): The SPDM GET_DIGESTS request is answered. -/
  | getDigests
  /-- GET_CERTIFICATE (R488): The SPDM GET_CERTIFICATE request returns the chain of slot 0. -/
  | getCertificate (slot offset length : Nat)
  /-- CHALLENGE (R488): The SPDM CHALLENGE request is answered under the Alias key. -/
  | challenge (slot : Nat) (nonce : List Byte)
  /-- GET_MEASUREMENTS (R487): The SPDM GET_MEASUREMENTS request returns measurements 1–6. -/
  | getMeasurements (index : Nat) (nonce : Option (List Byte))
  /-- KEY_EXCHANGE (R488): The SPDM KEY_EXCHANGE request opens a secure session. -/
  | keyExchange (publicKey : List Byte)
  /-- FINISH (R488): The SPDM FINISH request completes session establishment. -/
  | finish (session : Nat) (good : Bool)
  /-- END_SESSION (R488): The SPDM END_SESSION request closes a session. -/
  | endSession (session : Nat)
  /-- HEARTBEAT (R488): The SPDM HEARTBEAT request keeps a session alive. -/
  | heartbeat (session : Nat)
  /-- KEY_UPDATE (R488): The SPDM KEY_UPDATE request updates session keys. -/
  | keyUpdate (session : Nat)
  /-- SPDM_UNSUPPORTED (R488): Any other SPDM request is answered with UnsupportedRequest. -/
  | spdmUnsupported (request : Nat)
  /-- CONF_ENTER (R491): CONF_ENTER is refused or enters confidential mode, installing tenant keys and slots. -/
  | confEnter (session : Nat) (payload : List Byte)
  /-- CONF_EXIT (R498): CONF_EXIT begins a confidential exit. -/
  | confExit (session : Nat)
  /-- CONF_STATUS (R489): CONF_STATUS returns M5. -/
  | confStatus (session : Nat)
  /-- EXIT_DRAINED (R498): Every accepted request has completed after the exit fault and the exit erases keys and SRAM state. -/
  | exitDrained
  /-- EXIT_ZERO_DONE (R498): The exit's gesso zeroing completes and the primer, CONF clear and exit record follow. -/
  | exitZeroDone
  /-- ENTER_ZERO_DONE (R491): The entry's zeroing completes and tenant slots and keys are installed. -/
  | enterZeroDone
  /-- TDISP_EXIT (R497): The TDISP interface leaves RUN and the RTP performs an exit. -/
  | tdispExit
  /-- TAMPER_DETECT (R503): A tamper condition logs a ring entry, erases the warm key cache and sets TAMPER_LATCH. -/
  | tamperDetect (cause value absentFor : Nat)
  /-- GESSO_SCRUB_OP (R513): An idle bank receives an in-place scrub copy of the next row. -/
  | gessoScrubOp (canvas : Nat) (upsets : List Upset)
  /-- GLAZE_SCRUB_OP (R513): The glaze scrubber reads a valid sector in an idle cycle and rewrites corrected words. -/
  | glazeScrubOp (canvas line sector : Nat) (upsets : List Upset) (lapEnd : Bool)
  /-- RETIRE_PAGE (R522): A RETIRE_PAGE command copies a page into a spare page, or is refused. -/
  | retirePage (canvas layer channel bank page : Nat)
  /-- RETIRE_PAGE_DONE (R522): A page retirement completes, sets RETIRE_DONE and is journaled. -/
  | retirePageDone (canvas : Nat) (upsets : List Upset)
  /-- BANK_RETIRE_REQUEST (R524): A write of CNV_ECC_BANK_RETIRE requests a bank retirement, or is ignored with MEM_RETIRE_FULL. -/
  | bankRetireRequest (canvas channel : Nat) (mask : Word32)
  /-- PART_FAULT_CLEAR (R527): A write of 1 to PRIMARY or WASH clears the fault when that class is idle, else sets CLEAR_REFUSED. -/
  | partFaultClear (part : Nat) (data : Word32)
  /-- STREAM_STALL (R528): A stream with demand and no progress for 10 ms faults both end partitions. -/
  | streamStall (canvas stream : Nat)
  /-- VC_STALL (R528): A tether or spar VC stalled for 10 ms retrains, and a repeat marks the canvas LOST or the port DOWN. -/
  | vcStall (spar : Bool) (link vc : Nat)
  /-- COAT_PART_STALL (R528): An unvoted coat part without progress for 10 ms aborts with COAT_STALL. -/
  | coatPartStall (id : Nat)
  /-- IN_DOUBT_STALL (R528): An IN_DOUBT coat part unresolved for 10 ms is reported only. -/
  | inDoubtStall (id : Nat)
  /-- ISLAND_STALL (R42): A CLOSING island without progress for 10 ms completes held requests with STALL and faults their partitions. -/
  | islandStall (island : Nat) (held : List Nat)
  /-- FILL_SLOT_STALL (R528): A fill slot held 10 ms without delivery completes with STALL for each merged requester. -/
  | fillSlotStall (canvas line : Nat)
  /-- BAR2_READ (R544): A host BAR2 read is split into sector accesses at the home slices and completes. -/
  | bar2Read (port : Port) (offset len tag : Nat)
  /-- BAR2_WRITE (R544): A host BAR2 write is split into sector accesses at the home slices. -/
  | bar2Write (port : Port) (offset : Nat) (data : List Byte)
  /-- HWIN_COMPLETION (R548): A completion for a host-window read arrives, with data or answered as DMA_LINK on error. -/
  | hwinCompletion (id : Nat) (data : Option (List Byte))
  /-- HWIN_TIMEOUT (R548): A host-window read without completion for 1 ms is answered with DMA_TIMEOUT. -/
  | hwinTimeout (id : Nat)
  /-- DOORBELL (R549): A 4 B write at offset 0 of a doorbell page loads QUE_TAIL and writes the tail word. -/
  | doorbell (port : Port) (offset : Nat) (op : BarOp)
  /-- DOORBELL_TAIL_WRITTEN (R549): The tail-word write is performed and a wake-up word is posted when PENDING is 0. -/
  | doorbellTailWritten (queue : Nat)
  /-- QUE_CTL_WRITE (R553): A write of QUE_CTL enables or disables a client queue ahead of any same-cycle doorbell. -/
  | queCtlWrite (port : Port) (queue : Nat) (data : Word32)
  /-- EOI (R558): Writing EOI ends the outstanding MSI-X message. -/
  | eoi
  /-- INT_REEVALUATE (R558): 2 µs after EOI the condition is evaluated and the message resent if it holds, after HOLDOFF_US. -/
  | intReevaluate
  /-- INT_PROPAGATE (R559): A source change reaches its vector, the summary and INT_N, and an MSI-X message is sent when the condition begins. -/
  | intPropagate
  /-- FLR (R538): A PCIe function-level reset performs the host reset, after an exit in confidential mode. -/
  | flr
  /-- PWRGD_RISE (R565): PWRGD rises and bring-up starts at ROM. -/
  | pwrgdRise (strap : Nat) (pwdisA pwdisB : Bool)
  /-- PWRGD_FALL (R599): PWRGD falls and the device stops drawing and driving. -/
  | pwrgdFall (torn : Bool)
  /-- SUPPLY_OUT_OF_RANGE (R600): A main supply leaves its range while PWRGD is high and the device acts as if PWRGD fell. -/
  | supplyOutOfRange (torn : Bool)
  /-- PERST_FALL (R561): PERST_N falls while PWRGD is high and the device reset domain is reset. -/
  | perstFall (torn : Bool)
  /-- PERST_RISE (R567): PERST_N rises and PCIe link training begins once the device has reached HUB or RECOVERY. -/
  | perstRise
  /-- HOST_RESET (R561): GLB_RESET with OP HOST resets the host domain and bring-up restarts at CANVASES. -/
  | hostReset
  /-- CANVAS_RESET (R562): GLB_RESET with OP CANVAS resets a canvas's islands except stretcher and gesso. -/
  | canvasReset (canvas : Nat)
  /-- FW_IMAGE_VERIFY (R576): The RTP finishes verifying the firmware slots and starts an image, or enters RECOVERY. -/
  | fwImageVerify
  /-- SKETCHBOOK_OPENED (R572): The sketchbook is read, state is restored and bring-up reaches HUB. -/
  | sketchbookOpened
  /-- CANVASES_UP (R566): Canvas islands and tethers come up or fail and bring-up enters SCRUB. -/
  | canvasesUp (failed : List Nat)
  /-- BOOT_SCRUB_DONE (R569): The bring-up zeroing and any pending exit finish, the primer is applied and STAGE reads READY. -/
  | bootScrubDone
  /-- RECORD_PROGRAM_DONE (R583): A sketchbook record's program completes or fails verification and moves to the next slot. -/
  | recordProgramDone (good : Bool)
  /-- RECORD_RETRY (R583): A failed state record is retried once every second. -/
  | recordRetry (good : Bool)
  /-- COMPACTION_COMMIT (R585): The new half's HEADER is written, the old half erased and COMPACT_DONE set. -/
  | compactionCommit
  /-- THERMAL_RECORD_CLEAR (R573): Writing 1 to JNL_THERMAL_RECORD.PRESENT appends THERMAL_CLEAR records and lifts the hold. -/
  | thermalRecordClear
  /-- PWDIS_ASSERT (R608): A power-disable channel is accepted asserted and the device stops, or the second channel marks a demand. -/
  | pwdisAssert (channelB : Bool)
  /-- PWDIS_DEASSERT (R609): A power-disable channel is accepted deasserted and disagreement counting runs. -/
  | pwdisDeassert (channelB : Bool)
  /-- DISCREPANCY_TIMEOUT (R609): The disagreement count reaches 10,000 µs and DISCREPANCY latches. -/
  | discrepancyTimeout
  /-- RESTART_TIMER (R610): Both channels deasserted for 100 ms with no discrepancy set RESTART_OK and a host reset follows. -/
  | restartTimer
  /-- DISCREPANCY_CLEAR (R611): Writing 1 to DISCREPANCY clears it when allowed, else sets CLEAR_REFUSED. -/
  | discrepancyClear
  /-- LAMP_CHECK (R614): A lamp on-time of at least 40 µs checks the current and sets OK or OPEN. -/
  | lampCheck (lamp : Nat) (low : Bool)
  /-- LAMP_TEST_FLASH (R615): Every 4 s a dim lamp replaces one on-time with a 60 µs test flash. -/
  | lampTestFlash (lamp : Nat) (low : Bool)
  /-- LMP_CTL_WRITE (R615): A write of DUTY or QUIET sets the lamp state to UNTESTED. -/
  | lmpCtlWrite (lamp : Nat) (data : Word32)
  /-- SYMBOL_LOCK_LOST (R381): A tether lane loses symbol lock and the link retrains. -/
  | symbolLockLost (canvas : Nat)
  /-- SKIP_SET (R373): A skip set arrives at a tether receiver, which realigns its half boundary and lets its elastic buffer add or drop whole skip sets. -/
  | skipSet (canvas dir : Nat) (slip : Int)
  /-- ILLEGAL_INSTRUCTION (R206): A sequencer instruction with a reserved OP or FN, or a nonzero unused field, faults the thread with cause ILLEGAL. -/
  | illegalInstruction (th : SeqThread) (word : Word32)
  /-- ROW_OP_RESERVED (R266): A row command with a reserved OP is read from the ring, refused with ROW_OP_RESERVED and halts its queue. -/
  | rowOpReserved (canvas queue : Nat)
  /-- DMA_OP_RESERVED (R351): A DMA descriptor with a reserved OP starts, fails its check with DMA_BAD_DESC and halts the channel. -/
  | dmaOpReserved (channel : Nat)
  /-- COLLECTIVE_OP_RESERVED (R428): A collective descriptor with a reserved OP reaches the head of its queue and halts it with DMA_BAD_DESC. -/
  | collectiveOpReserved (queue : Nat)
  /-- SEC_BAD_CMD (R484): An RTP mailbox command with an OPCODE that the table does not list is refused with SEC_BAD_CMD. -/
  | secBadCmd (opcode : Nat) (req : MbxRequest)
  /-- PRIMER_APPLY_DONE (R190): After a failed or interrupted load, the primer finishes applying, STATE reads PRIMER, LOAD_FAILED is set and the held doorbells are released. -/
  | primerApplyDone
  /-- ALWAYS_ON_RESET (R561): A supply is applied after VBAT and the main supplies have all been absent, and the always-on domain resets. -/
  | alwaysOnReset
  /-- JTAG_INSTRUCTION (R605): A JTAG instruction is loaded into the TAP and acts as EXTEST, IDCODE, SAMPLE/PRELOAD or BYPASS under its conditions. -/
  | jtagInstruction (code : Nat)
  /-- TRST_N_CHANGE (R605): TRST_N changes level, and JTAG_OPEN in M5 follows it outside confidential mode. -/
  | trstNChange (high : Bool)
  /-- IDE_KM_REQUEST (R497): An IDE_KM message in a tenant session installs the IDE stream keys on which the device then accepts host requests. -/
  | ideKmRequest (session : Nat)
  /-- TDISP_REQUEST (R497): A TDISP message moves the device interface between its states, including into RUN. -/
  | tdispRequest (session : Nat) (message : TdispMsg)
deriving DecidableEq, Repr

end Sys2Proof
end

