-- ==== Sys2Proof/Decode.lean ====
section
/-! DEFINITION. The reading of a command from the bits of the command table. The table gives no row any bits: a command
of this device is an access, a message or an event, and its effect depends on the operands of Syntax.lean. So no word
spells a command. -/

namespace Sys2Proof

/-- The command that a word spells by the command table's bits: none, since no row of the table has bits. -/
def decodeTableWord (_nbits _w : Nat) : Option Instr := none

end Sys2Proof
end

