-- ==== Sys2Proof/Config.lean ====
section
/-! DEFINITION. What the spec leaves open: free values, each a constant with no body, so that no proof can lean on
the value. The assumption log names each one. -/

namespace Sys2Proof

/-- A value that the spec leaves open, one for each draw (State.free counts the draws). -/
opaque Config.freeValue : Nat → BitVec 64

/-- The special functions of R113 inside their bound: the function's number (8 EXP2, 9 LOG2, 10 RCP, 11 RSQRT,
12 TANH) and the FP32 operand give the FP32 result. The device's fixed function is within the bound that R113
states; the spec does not give its bits. -/
opaque Config.specialFn : Nat → BitVec 32 → BitVec 32

/-- The depth of the command queue of a WO register for which the spec gives no depth (R9), by BAR0 offset. -/
opaque Config.woDepth : Nat → Nat

/-- SHA-384 of a run of bytes, as its public standard defines it; the model computes no digest. -/
opaque Config.sha384 : List (BitVec 8) → BitVec 384

/-- Whether an ECDSA P-384 signature (r then s) of some bytes verifies under a public key (X then Y), as FIPS 186-5
defines it; the model computes no signature. The arguments are key, bytes and signature. -/
opaque Config.ecdsaGood : List (BitVec 8) → List (BitVec 8) → List (BitVec 8) → Bool

/-- AES-256-GCM as its public standard defines it (R399): key, initialisation vector, additional data and plaintext
give ciphertext and a 96-bit tag; the model computes no cipher. -/
opaque Config.gcmSeal : BitVec 256 → BitVec 96 → List (BitVec 8) → List (BitVec 8) → List (BitVec 8) × List (BitVec 8)

/-- The opening of AES-256-GCM (R399): key, initialisation vector, additional data, ciphertext and tag give the
plaintext, none where the tag does not verify. -/
opaque Config.gcmOpen : BitVec 256 → BitVec 96 → List (BitVec 8) → List (BitVec 8) → List (BitVec 8) → Option (List (BitVec 8))

/-- The ECDH P-384 public key of an ephemeral key (R494). -/
opaque Config.ecdhPublic : BitVec 64 → List (BitVec 8)

/-- The ECDH P-384 shared secret of an ephemeral key and a peer's public key (R494). -/
opaque Config.ecdhShared : BitVec 64 → List (BitVec 8) → List (BitVec 8)

/-- HMAC-SHA-384 of a key and a message (R494). -/
opaque Config.hmac384 : List (BitVec 8) → List (BitVec 8) → BitVec 384

/-- The key derivation of R492 and R494: secret, label and context give a 256-bit key. -/
opaque Config.kdf : BitVec 384 → List (BitVec 8) → List (BitVec 8) → BitVec 256

/-- The link secret of R492: KDF of the tenant's link key with the label KYG-SPR, 384 bits, as 48 bytes. -/
opaque Config.linkSecret : BitVec 256 → List (BitVec 8)

/-- The programmed contents of the board flash's firmware slots (R575), by slot × 2^24 + offset: what the board maker
wrote there. -/
opaque Config.flashByte : Nat → BitVec 8

/-- The two fused firmware-key digests (R576). -/
opaque Config.fwKeyDigest : Nat → BitVec 384

/-- M0: the digest of the RTP ROM and the fuse configuration (R487). -/
opaque Config.romDigest : BitVec 384

/-- M2: the digest of the primer (R487). -/
opaque Config.primerDigest : BitVec 384

/-- The certificates of R486 by index; the one of index 2 depends on how often its key has been derived. -/
opaque Config.certificate : Nat → Nat → List (BitVec 8)

/-- The ECDSA P-384 signature that the RTP makes with the key of a derivation over some bytes (R486, R488). -/
opaque Config.rtpSign : Nat → List (BitVec 8) → List (BitVec 8)

/-- What the public SPDM standard lays down for an answer beyond the items of R488's table, by request code. -/
opaque Config.spdmContent : Nat → List (BitVec 8)

end Sys2Proof
end

