-- ==== Sys2Proof/Machine/Table.lean ====
section
/-! DEFINITION. Sparse tables: the one shape in which State holds everything of which there are many (register
fields, memory bytes, threads, lines, queues, ...). A table is a list of (key, value) pairs with keys strictly rising;
an unlisted key stands for a default that the reader names. Writing the default removes the entry, so that equal
contents are equal lists. -/

namespace Sys2Proof.Machine

/-- A sparse table from natural-number keys to values of type α. -/
abbrev Tab (α : Type) := List (Nat × α)

/-- The value listed at a key, if any. -/
def Tab.find {α : Type} : Tab α → Nat → Option α
  | [], _ => none
  | (k, v) :: m, x => if x = k then some v else Tab.find m x

/-- The value at a key, the default where the key is not listed. -/
def Tab.get {α : Type} (m : Tab α) (k : Nat) (d : α) : α := (Tab.find m k).getD d

/-- List a value at a key, keeping the keys strictly rising. -/
def Tab.put {α : Type} : Tab α → Nat → α → Tab α
  | [], x, v => [(x, v)]
  | (k, w) :: m, x, v =>
    if x = k then (x, v) :: m else if x < k then (x, v) :: (k, w) :: m else (k, w) :: Tab.put m x v

/-- Remove a key. -/
def Tab.del {α : Type} : Tab α → Nat → Tab α
  | [], _ => []
  | (k, w) :: m, x => if x = k then Tab.del m x else (k, w) :: Tab.del m x

/-- Set a key to a value; the default is not listed. -/
def Tab.set {α : Type} [DecidableEq α] (m : Tab α) (k : Nat) (v d : α) : Tab α :=
  if v = d then Tab.del m k else Tab.put m k v

/-- The canonical form of keys: strictly rising. -/
def Tab.sorted {α : Type} : Tab α → Bool
  | [] => true
  | [_] => true
  | (a, _) :: (b, w) :: m => decide (a < b) && Tab.sorted ((b, w) :: m)

/-- The keys listed whose entry satisfies a test. -/
def Tab.keysWhere {α : Type} (m : Tab α) (p : Nat → α → Bool) : List Nat :=
  (m.filter (fun e => p e.1 e.2)).map Prod.fst

/-- Keep only the entries that satisfy a test. -/
def Tab.keep {α : Type} (m : Tab α) (p : Nat → α → Bool) : Tab α := m.filter (fun e => p e.1 e.2)

/-- Change every listed value (keys stay). -/
def Tab.mapVal {α : Type} (m : Tab α) (f : Nat → α → α) : Tab α := m.map (fun e => (e.1, f e.1 e.2))

end Sys2Proof.Machine
end

