-- ==== Sys2Proof/Machine/Operands.lean ====
section
/-! DEFINITION. The number formats of the device and the one rounding of every conversion (R56 to R89, R618):
values as exact dyadic numbers, encodings, rounding to nearest even and stochastic rounding, MX blocks, exact
accumulation and its container, the dab's sums and the fixed tree. -/

namespace Sys2Proof.Machine

/-- An exact value: NaN, an infinity, or (-1)^neg times m times 2^e. Zero has m = 0 and keeps its sign. -/
inductive Num where
  | nan
  | inf (neg : Bool)
  | fin (neg : Bool) (m : Nat) (e : Int)
deriving DecidableEq, Repr

/-- The events of R88, counted (R129, R618). -/
structure Events where
  overflow    : Nat
  nanProduced : Nat
  nanToInt    : Nat
  inexactGrid : Nat
deriving DecidableEq, Repr

/-- No event. -/
def Events.none : Events := ⟨0, 0, 0, 0⟩

/-- Events of two happenings together. -/
def Events.add (a b : Events) : Events :=
  ⟨a.overflow + b.overflow, a.nanProduced + b.nanProduced, a.nanToInt + b.nanToInt, a.inexactGrid + b.inexactGrid⟩

/-- One OVERFLOW event. -/
def Events.ovf : Events := ⟨1, 0, 0, 0⟩
/-- One NAN_PRODUCED event. -/
def Events.nanp : Events := ⟨0, 1, 0, 0⟩
/-- One NAN_TO_INT event. -/
def Events.nani : Events := ⟨0, 0, 1, 0⟩
/-- One INEXACT_GRID event. -/
def Events.inex : Events := ⟨0, 0, 0, 1⟩

/-- Positive zero. -/
def Num.zero : Num := .fin false 0 0

/-- Whether a value is NaN. -/
def Num.isNan : Num → Bool
  | .nan => true
  | _ => false

/-- Whether a value is an infinity. -/
def Num.isInf : Num → Bool
  | .inf _ => true
  | _ => false

/-- Whether a value is a zero of either sign. -/
def Num.isZero : Num → Bool
  | .fin _ m _ => m == 0
  | _ => false

/-- The sign of a value; NaN has none. -/
def Num.isNeg : Num → Bool
  | .nan => false
  | .inf n => n
  | .fin n _ _ => n

/-- The value with its sign changed. -/
def Num.negate : Num → Num
  | .nan => .nan
  | .inf n => .inf (!n)
  | .fin n m e => .fin (!n) m e

/-- The magnitude of a value. -/
def Num.abs : Num → Num
  | .nan => .nan
  | .inf _ => .inf false
  | .fin _ m e => .fin false m e

/-- The value times 2^k. -/
def Num.scale (x : Num) (k : Int) : Num :=
  match x with
  | .fin n m e => .fin n m (e + k)
  | y => y

/-- A signed integer times 2^e as a value; zero is +0. -/
def Num.ofInt (v : Int) (e : Int) : Num := .fin (decide (v < 0)) v.natAbs e

/-- The signed integer that a finite value is, in units of 2^e0, for e0 at most its exponent. -/
def Num.units (x : Num) (e0 : Int) : Int :=
  match x with
  | .fin n m e => (if n then -1 else 1) * (m : Int) * (2 ^ (e - e0).toNat : Nat)
  | _ => 0

/-- The exponent of a finite nonzero value, none otherwise. -/
def Num.exp? : Num → Option Int
  | .fin _ m e => if m = 0 then none else some e
  | _ => none

/-- The least exponent among the finite nonzero terms of a sum. -/
def minExp (ts : List Num) : Int :=
  match ts.filterMap Num.exp? with
  | [] => 0
  | e :: es => es.foldl min e

/-- The exact sum of the terms of one rounding, with the special values of R74. -/
def Num.sum (ts : List Num) : Num :=
  if ts.any Num.isNan then .nan
  else if ts.any (· == .inf false) && ts.any (· == .inf true) then .nan
  else if ts.any (· == .inf false) then .inf false
  else if ts.any (· == .inf true) then .inf true
  else
    let e := minExp ts
    let v := (ts.map (fun t => if t.isZero then 0 else t.units e)).foldl (· + ·) 0
    if v = 0 then .fin (ts.all (fun t => t.isZero && t.isNeg) && !ts.isEmpty) 0 0 else Num.ofInt v e

/-- The exact product (R74). -/
def Num.mul (a b : Num) : Num :=
  match a, b with
  | .nan, _ => .nan
  | _, .nan => .nan
  | .inf n, y => if y.isZero then .nan else .inf (n != y.isNeg)
  | x, .inf n => if x.isZero then .nan else .inf (n != x.isNeg)
  | .fin n m e, .fin n' m' e' => .fin (n != n') (m * m') (e + e')

/-- Whether a finite or infinite value is strictly below another; false where either is NaN. -/
def Num.lt (a b : Num) : Bool :=
  match a, b with
  | .nan, _ => false
  | _, .nan => false
  | .inf n, .inf n' => n && !n'
  | .inf n, _ => n
  | _, .inf n => !n
  | x, y =>
    let e := minExp [x, y]
    decide ((if x.isZero then 0 else x.units e) < (if y.isZero then 0 else y.units e))

/-- The quotient with more than 60 significant bits and a sticky last bit, so that one later rounding is the
rounding of the exact quotient. Zero by zero and infinity by infinity are NaN; a nonzero value by zero is an
infinity (R306). -/
def Num.div (a b : Num) : Num :=
  match a, b with
  | .nan, _ => .nan
  | _, .nan => .nan
  | .inf _, .inf _ => .nan
  | .inf n, y => .inf (n != y.isNeg)
  | x, .inf n => .fin (n != x.isNeg) 0 0
  | .fin n m e, .fin n' m' e' =>
    if m' = 0 then (if m = 0 then .nan else .inf (n != n'))
    else if m = 0 then .fin (n != n') 0 0
    else
      let k := 64 + Nat.log2 m' + 1
      let q := m * 2 ^ k / m'
      let r := m * 2 ^ k % m'
      .fin (n != n') (2 * q + (if r = 0 then 0 else 1)) (e - e' - k - 1)

/-- The integer square root by Newton's method from above; fuel bounds the number of turns. -/
def isqrtFrom : Nat → Nat → Nat → Nat
  | 0, _, x => x
  | f + 1, n, x =>
    let y := (x + n / x) / 2
    if y < x then isqrtFrom f n y else x

/-- The integer square root. -/
def isqrt (n : Nat) : Nat := if n = 0 then 0 else isqrtFrom (n.log2 + 8) n (2 ^ (n.log2 / 2 + 1))

/-- The square root with a sticky last bit; a negative nonzero value gives NaN, and a zero keeps its sign. -/
def Num.sqrt (a : Num) : Num :=
  match a with
  | .nan => .nan
  | .inf n => if n then .nan else .inf false
  | .fin n m e =>
    if m = 0 then .fin n 0 0
    else if n then .nan
    else
      let k : Nat := 128 + (if e % 2 = 0 then 0 else 1)
      let w := m * 2 ^ k
      let q := isqrt w
      .fin false (2 * q + (if q * q = w then 0 else 1)) ((e - k) / 2 - 1)

/-! ### Encodings (R57) -/

/-- A floating-point encoding: exponent bits, mantissa bits, bias, whether it has infinities, whether it has NaNs,
and the largest finite value as mantissa and exponent. -/
structure FloatFmt where
  ebits  : Nat
  mbits  : Nat
  bias   : Nat
  hasInf : Bool
  hasNan : Bool
  maxM   : Nat
  maxE   : Int
deriving DecidableEq, Repr

/-- FP32. -/
def FloatFmt.fp32 : FloatFmt := ⟨8, 23, 127, true, true, 16777215, 104⟩
/-- BF16. -/
def FloatFmt.bf16 : FloatFmt := ⟨8, 7, 127, true, true, 255, 120⟩
/-- FP16. -/
def FloatFmt.fp16 : FloatFmt := ⟨5, 10, 15, true, true, 2047, 5⟩
/-- E4M3, whose only NaN is S.1111.111. -/
def FloatFmt.e4m3 : FloatFmt := ⟨4, 3, 7, false, true, 14, 5⟩
/-- E5M2. -/
def FloatFmt.e5m2 : FloatFmt := ⟨5, 2, 15, true, true, 7, 13⟩
/-- E3M2. -/
def FloatFmt.e3m2 : FloatFmt := ⟨3, 2, 3, false, false, 7, 2⟩
/-- E2M3. -/
def FloatFmt.e2m3 : FloatFmt := ⟨2, 3, 1, false, false, 15, -1⟩
/-- E2M1. -/
def FloatFmt.e2m1 : FloatFmt := ⟨2, 1, 1, false, false, 3, 1⟩

/-- The exponent of the unit in which subnormals are counted: the smallest subnormal's exponent. -/
def FloatFmt.minExp (f : FloatFmt) : Int := 1 - (f.bias : Int) - (f.mbits : Int)

/-- The number of bits of an encoding. -/
def FloatFmt.bits (f : FloatFmt) : Nat := 1 + f.ebits + f.mbits

/-- The value of an encoding (R57, R59). -/
def FloatFmt.decode (f : FloatFmt) (w : Nat) : Num :=
  let man := w % 2 ^ f.mbits
  let ex := w / 2 ^ f.mbits % 2 ^ f.ebits
  let neg := decide (w / 2 ^ (f.mbits + f.ebits) % 2 = 1)
  let allOnes := decide (ex = 2 ^ f.ebits - 1)
  if allOnes && f.hasInf then (if man = 0 then .inf neg else .nan)
  else if allOnes && f.hasNan && decide (man = 2 ^ f.mbits - 1) then .nan
  else if ex = 0 then .fin neg man f.minExp
  else .fin neg (2 ^ f.mbits + man) ((ex : Int) - f.bias - f.mbits)

/-- The canonical NaN of a format (R58): sign 0, exponent all ones, and the top mantissa bit, or for E4M3 every
mantissa bit. -/
def FloatFmt.nanCode (f : FloatFmt) : Nat :=
  if f.hasInf then (2 ^ f.ebits - 1) * 2 ^ f.mbits + 2 ^ (f.mbits - 1) else 2 ^ (f.ebits + f.mbits) - 1

/-- The encoding of an infinity. -/
def FloatFmt.infCode (f : FloatFmt) (neg : Bool) : Nat :=
  (if neg then 2 ^ (f.ebits + f.mbits) else 0) + (2 ^ f.ebits - 1) * 2 ^ f.mbits

/-- The encoding of q times 2^u, which the caller has rounded to the format. -/
def FloatFmt.pack (f : FloatFmt) (neg : Bool) (q : Nat) (u : Int) : Nat :=
  let s := if neg then 2 ^ (f.ebits + f.mbits) else 0
  if q = 0 then s
  else
    let l := Nat.log2 q
    let ex := (l : Int) + u + f.bias
    if ex ≥ 1 then
      let man := if l ≥ f.mbits then q / 2 ^ (l - f.mbits) else q * 2 ^ (f.mbits - l)
      s + ex.toNat * 2 ^ f.mbits + (man - 2 ^ f.mbits)
    else s + q * 2 ^ (u - f.minExp).toNat

/-- The encoding of the largest finite value. -/
def FloatFmt.maxCode (f : FloatFmt) (neg : Bool) : Nat := f.pack neg f.maxM f.maxE

/-- The rounding mode of a conversion (R64): to nearest even, or stochastic with the word r of R70. -/
inductive RMode where
  | rne
  | sr (r : Nat)
deriving DecidableEq, Repr

/-- Round q + r / 2^d to an integer (R64, R69): the two values next to it differ by one unit. -/
def roundUp (mode : RMode) (q r d : Nat) : Bool :=
  match mode with
  | .rne => decide (2 * r > 2 ^ d) || (decide (2 * r = 2 ^ d) && decide (d > 0) && decide (q % 2 = 1))
  | .sr w => decide (2 ^ 32 * r / 2 ^ d + w ≥ 2 ^ 32)

/-- Round m times 2^e to a whole number of 2^u, u given. -/
def roundAt (mode : RMode) (m : Nat) (e u : Int) : Nat :=
  if e ≥ u then m * 2 ^ (e - u).toNat
  else
    let d := (u - e).toNat
    let q := m / 2 ^ d
    let r := m % 2 ^ d
    if roundUp mode q r d then q + 1 else q

/-- The unit in which a nonzero magnitude m times 2^e is rounded in a format, with no upper bound of the exponent. -/
def FloatFmt.ulp (f : FloatFmt) (m : Nat) (e : Int) : Int :=
  max ((Nat.log2 m : Int) + e - f.mbits) f.minExp

/-- Whether q times 2^u exceeds the largest finite magnitude of the format (R65). -/
def FloatFmt.exceeds (f : FloatFmt) (q : Nat) (u : Int) : Bool :=
  Num.lt (.fin false f.maxM f.maxE) (.fin false q u)

/-- One rounding of an exact value into a floating-point format, with the outcomes and events of R65 and R618.
nanIn says that an input of the operation was a NaN. -/
def FloatFmt.round (f : FloatFmt) (mode : RMode) (sat nanIn : Bool) (x : Num) : Nat × Events :=
  match x with
  | .nan => (f.nanCode, if nanIn then .none else .nanp)
  | .inf n =>
    if f.hasInf then (f.infCode n, .none)
    else if sat then (f.maxCode n, .ovf)
    else (f.nanCode, .nanp)
  | .fin n m e =>
    if m = 0 then (f.pack n 0 0, .none)
    else
      let u := f.ulp m e
      let q := roundAt mode m e u
      if f.exceeds q u then
        if sat then (f.maxCode n, .ovf)
        else if f.hasInf then (f.infCode n, .ovf)
        else (f.nanCode, Events.add .ovf .nanp)
      else (f.pack n q u, .none)

/-- FP32 rounding to nearest even, the rounding inside arithmetic (R73, R112). -/
def fp32Round (nanIn : Bool) (x : Num) : Nat × Events := FloatFmt.fp32.round .rne false nanIn x

/-- The value of an FP32 word. -/
def fp32Val (w : Nat) : Num := FloatFmt.fp32.decode w

/-- Conversion to an integer of w bits, two's complement (R65, R68). -/
def intRound (w : Nat) (mode : RMode) (x : Num) : Nat × Events :=
  let hi := 2 ^ (w - 1) - 1
  let lo := 2 ^ (w - 1)
  match x with
  | .nan => (0, .nani)
  | .inf n => (if n then lo else hi, .ovf)
  | .fin n m e =>
    let q := if m = 0 then 0 else roundAt mode m e 0
    if n then (if q > lo then (lo, .ovf) else ((2 ^ w - q) % 2 ^ w, .none))
    else (if q > hi then (hi, .ovf) else (q, .none))

/-- The value of a two's-complement integer of w bits. -/
def intVal (w : Nat) (v : Nat) : Num :=
  if v % 2 ^ w ≥ 2 ^ (w - 1) then .fin true (2 ^ w - v % 2 ^ w) 0 else .fin false (v % 2 ^ w) 0

/-! ### Format codes (R56) -/

/-- The data formats of R56; code 15 is reserved and names none. -/
inductive Format where
  | fp32 | bf16 | fp16 | e4m3 | e5m2 | mxE4m3 | mxE5m2 | mxE3m2 | mxE2m3 | mxE2m1 | fp4 | int8 | exact96 | e8m0 | int32
deriving DecidableEq, Repr

/-- The format that a 4-bit code names (R56). -/
def Format.ofCode : Nat → Option Format
  | 0 => some .fp32 | 1 => some .bf16 | 2 => some .fp16 | 3 => some .e4m3 | 4 => some .e5m2
  | 5 => some .mxE4m3 | 6 => some .mxE5m2 | 7 => some .mxE3m2 | 8 => some .mxE2m3 | 9 => some .mxE2m1
  | 10 => some .fp4 | 11 => some .int8 | 12 => some .exact96 | 13 => some .e8m0 | 14 => some .int32
  | _ => none

/-- The element bits of a format (R56). -/
def Format.bits : Format → Nat
  | .fp32 => 32 | .bf16 => 16 | .fp16 => 16 | .e4m3 => 8 | .e5m2 => 8
  | .mxE4m3 => 8 | .mxE5m2 => 8 | .mxE3m2 => 6 | .mxE2m3 => 6 | .mxE2m1 => 4
  | .fp4 => 4 | .int8 => 8 | .exact96 => 96 | .e8m0 => 8 | .int32 => 32

/-- Whether a format has a block scale (R56, R62). -/
def Format.isMx : Format → Bool
  | .mxE4m3 => true | .mxE5m2 => true | .mxE3m2 => true | .mxE2m3 => true | .mxE2m1 => true
  | _ => false

/-- The floating-point encoding of a format's elements, if it has one. -/
def Format.float : Format → Option FloatFmt
  | .fp32 => some .fp32 | .bf16 => some .bf16 | .fp16 => some .fp16
  | .e4m3 => some .e4m3 | .e5m2 => some .e5m2 | .mxE4m3 => some .e4m3 | .mxE5m2 => some .e5m2
  | .mxE3m2 => some .e3m2 | .mxE2m3 => some .e2m3 | .mxE2m1 => some .e2m1 | .fp4 => some .e2m1
  | _ => none

/-- The value of an E8M0 code: 2^(code − 127), or NaN for 0xFF (R57). -/
def e8m0Val (w : Nat) : Num := if w = 255 then .nan else .fin false 1 ((w : Int) - 127)

/-! ### Exact accumulation (R79 to R87) -/

/-- An exact accumulator or the EXACT96 container that holds it (R82, R83). -/
structure Exact where
  v       : BitVec 80
  g       : BitVec 8
  nan     : Bool
  pinf    : Bool
  ninf    : Bool
  inexact : Bool
deriving DecidableEq, Repr

/-- The empty accumulator on a grid. -/
def Exact.zero (g : BitVec 8) : Exact := ⟨0, g, false, false, false, false⟩

/-- The 96 bits of a container (R83). -/
def Exact.pack (x : Exact) : Nat :=
  x.v.toNat + x.g.toNat * 2 ^ 80 + (if x.nan then 2 ^ 89 else 0) + (if x.pinf then 2 ^ 90 else 0)
    + (if x.ninf then 2 ^ 91 else 0) + (if x.inexact then 2 ^ 92 else 0)

/-- The container that 96 bits spell; none where a reserved bit is set (ARITH_CONTAINER_RESERVED, R88). -/
def Exact.unpack (w : Nat) : Option Exact :=
  if w / 2 ^ 88 % 2 = 1 ∨ w / 2 ^ 93 % 8 ≠ 0 then none
  else some ⟨BitVec.ofNat 80 w, BitVec.ofNat 8 (w / 2 ^ 80), decide (w / 2 ^ 89 % 2 = 1), decide (w / 2 ^ 90 % 2 = 1),
    decide (w / 2 ^ 91 % 2 = 1), decide (w / 2 ^ 92 % 2 = 1)⟩

/-- Two containers combine: V added modulo 2^80, flags ORed, G carried over (R84). -/
def Exact.combine (a b : Exact) : Exact :=
  ⟨a.v + b.v, a.g, a.nan || b.nan, a.pinf || b.pinf, a.ninf || b.ninf, a.inexact || b.inexact⟩

/-- One term is placed on the grid and added (R79, R81, R82). -/
def Exact.addTerm (x : Exact) (t : Num) : Exact :=
  match t with
  | .nan => { x with nan := true }
  | .inf n => if n then { x with ninf := true } else { x with pinf := true }
  | .fin n m e =>
    let g := x.g.toInt
    let q := if m = 0 then 0 else roundAt .rne m e g
    let exact := decide (m = 0) || decide (e ≥ g) || decide (m % 2 ^ (g - e).toNat = 0)
    let d := BitVec.ofNat 80 q
    { x with v := if n then x.v - d else x.v + d, inexact := x.inexact || !exact }

/-- The value that a container converts from (R86). -/
def Exact.value (x : Exact) : Num :=
  if x.nan || (x.pinf && x.ninf) then .nan
  else if x.pinf then .inf false
  else if x.ninf then .inf true
  else Num.ofInt x.v.toInt x.g.toInt

/-- The events that the conversion of a container raises of itself (R86). -/
def Exact.events (x : Exact) : Events := if x.inexact then .inex else .none

/-! ### Conversion into a format (R64 to R68) -/

/-- Conversion of one value into a format that has no block scale. -/
def convert (f : Format) (mode : RMode) (sat nanIn : Bool) (x : Num) : Nat × Events :=
  match f with
  | .int8 => intRound 8 mode x
  | .int32 => intRound 32 mode x
  | .fp4 =>
    match x with
    | .nan => (0, .nani)
    | y => FloatFmt.e2m1.round mode true nanIn y
  | .e8m0 =>
    match x with
    | .fin _ m e => (((Nat.log2 m : Int) + e + 127).toNat % 256, .none)
    | _ => (255, .none)
  | g =>
    match g.float with
    | some ff => ff.round mode sat nanIn x
    | none => (0, .none)

/-- The value of an element code in a format without a block scale; containers are read by Exact.unpack. -/
def elemVal (f : Format) (w : Nat) : Num :=
  match f with
  | .int8 => intVal 8 w
  | .int32 => intVal 32 w
  | .e8m0 => e8m0Val w
  | .exact96 => match Exact.unpack w with | some x => x.value | none => .nan
  | g => match g.float with | some ff => ff.decode w | none => .nan

/-- The value of an element of an MX tensor under its scale code (R62, R63). -/
def mxVal (f : Format) (scale w : Nat) : Num :=
  if scale = 255 then .nan else (elemVal f w).scale ((scale : Int) - 127)

/-- The emax of R66 for an MX element type. -/
def mxEmax : Format → Int
  | .mxE4m3 => 8 | .mxE5m2 => 15 | .mxE3m2 => 4 | _ => 2

/-- The floor of the base-2 logarithm of the largest magnitude of a block; none where all are zero. -/
def blockLog (xs : List Num) : Option Int :=
  xs.foldl (fun acc x => match x with
    | .fin _ m e => if m = 0 then acc else
        match acc with
        | none => some ((Nat.log2 m : Int) + e)
        | some a => some (max a ((Nat.log2 m : Int) + e))
    | _ => acc) none

/-- Conversion of a block of values into an MX type: its scale code, its element codes and the events (R66, R67).
modes gives the rounding mode of each element. -/
def convertMx (f : Format) (modes : List RMode) (xs : List Num) : Nat × List Nat × Events :=
  if xs.any (fun x => x.isNan || x.isInf) then
    (255, xs.map (fun _ => 0), if xs.any Num.isNan then .none else .nanp)
  else
    match blockLog xs, f.float with
    | some l, some ff =>
      let e0 := l - mxEmax f
      let e := max (-127) (min 127 e0)
      let rs := (xs.zip modes).map (fun p => ff.round p.2 true false (p.1.scale (-e)))
      (((e + 127).toNat), rs.map Prod.fst,
        if e0 > 127 ∧ rs.any (fun r => decide (r.2.overflow > 0)) then .ovf else .none)
    | _, some ff => (127, xs.map (fun x => ff.pack x.isNeg 0 0), .none)
    | _, none => (127, xs.map (fun _ => 0), .none)

/-! ### Stochastic rounding (R69, R70) -/

/-- One round of Philox4x32 on a counter with a key; the multipliers are the published ones (PRESUMED: the spec
names the published generator and gives a check vector in R71). -/
def philoxRound (k : Nat × Nat) (c : Nat × Nat × Nat × Nat) : Nat × Nat × Nat × Nat :=
  let p0 := 0xD2511F53 * c.1
  let p1 := 0xCD9E8D57 * c.2.2.1
  (((p1 / 2 ^ 32).xor c.2.1).xor k.1 % 2 ^ 32, p1 % 2 ^ 32, ((p0 / 2 ^ 32).xor c.2.2.2).xor k.2 % 2 ^ 32, p0 % 2 ^ 32)

/-- Rounds of Philox with the published key increments. -/
def philoxRounds : Nat → Nat × Nat → Nat × Nat × Nat × Nat → Nat × Nat × Nat × Nat
  | 0, _, c => c
  | n + 1, k, c => philoxRounds n ((k.1 + 0x9E3779B9) % 2 ^ 32, (k.2 + 0xBB67AE85) % 2 ^ 32) (philoxRound k c)

/-- The word r of R70: word 0 of Philox4x32-10 under the job seed, at (idx, tensor_id, step). -/
def srWord (seed idx tensor step : Nat) : Nat :=
  (philoxRounds 10 (seed % 2 ^ 32, seed / 2 ^ 32 % 2 ^ 32)
    (idx % 2 ^ 32, idx / 2 ^ 32 % 2 ^ 32, tensor % 2 ^ 32, step % 2 ^ 32)).1

/-! ### The dab (R72 to R78) -/

/-- The accumulation of a format pair of R72. -/
inductive AccKind where
  | fp32 (parts : Bool)
  | exact (mx : Bool)
deriving DecidableEq, Repr

/-- Whether a format is one of the 8-bit and 6-bit floating types of R72's third row. -/
def Format.isF8 : Format → Bool
  | .e4m3 => true | .e5m2 => true | .mxE4m3 => true | .mxE5m2 => true | .mxE3m2 => true | .mxE2m3 => true
  | _ => false

/-- The accumulation of an operand pair; none where the pair is not in the table of R72 (ARITH_FORMAT_PAIR). -/
def accOf (a b : Format) : Option AccKind :=
  if a = .bf16 ∧ b = .bf16 then some (.fp32 false)
  else if a = .fp16 ∧ b = .fp16 then some (.fp32 false)
  else if a = .fp32 ∧ b = .fp32 then some (.fp32 true)
  else if a.isF8 ∧ b.isF8 ∧ a.isMx = b.isMx then some (.exact a.isMx)
  else if a = .int8 ∧ b = .int8 then some (.exact false)
  else if a = .fp4 ∧ b = .fp4 then some (.exact false)
  else if a = .mxE2m1 ∧ b = .mxE2m1 then some (.exact true)
  else none

/-- Truncation toward zero to BF16, a magnitude below 2^-133 becoming zero (R78). -/
def rzBf16 (x : Num) : Num :=
  match x with
  | .fin n m e =>
    if m = 0 then .fin n 0 0
    else
      let u := FloatFmt.bf16.ulp m e
      if e ≥ u then .fin n m e else .fin n (m / 2 ^ (u - e).toNat) u
  | y => y

/-- The three BF16 parts of an FP32 operand (R78). -/
def bf16Parts (x : Num) : List Num :=
  let a1 := rzBf16 x
  let r1 := Num.sum [x, a1.negate]
  let a2 := rzBf16 r1
  let r2 := Num.sum [r1, a2.negate]
  [a1, a2, rzBf16 r2]

/-- The products that one pair of operands brings to a dab step (R73, R78). -/
def dabProducts (parts : Bool) (a b : Num) : List Num :=
  if !parts || a.isNan || b.isNan || a.isInf || b.isInf then [a.mul b]
  else
    match bf16Parts a, bf16Parts b with
    | [a1, a2, a3], [b1, b2, b3] =>
      [a1.mul b1, a1.mul b2, a1.mul b3, a2.mul b1, a2.mul b2, a2.mul b3, a3.mul b1, a3.mul b2]
    | _, _ => [a.mul b]

/-- One dab step of FP32 accumulation: the exact sum of the incoming accumulator and the step's products, rounded
once (R73). -/
def dabStep (parts : Bool) (acc : Nat × Events) (ps : List (Num × Num)) : Nat × Events :=
  let ts := ps.flatMap (fun p => dabProducts parts p.1 p.2)
  let a := fp32Val acc.1
  let nanIn := a.isNan || ps.any (fun p => p.1.isNan || p.2.isNan)
  let r := fp32Round nanIn (Num.sum (a :: ts))
  (r.1, Events.add acc.2 r.2)

/-- The list in pieces of n, the last perhaps shorter; fuel is the length. -/
def piecesFuel {α : Type} : Nat → Nat → List α → List (List α)
  | 0, _, _ => []
  | f + 1, n, xs => if xs.isEmpty then [] else xs.take n :: piecesFuel f n (xs.drop n)

/-- The list in pieces of n, the last perhaps shorter. -/
def pieces {α : Type} (n : Nat) (xs : List α) : List (List α) := piecesFuel xs.length n xs

/-- One chain of at most 256 indices, four per dab step, from +0 (R75). -/
def dabChain (parts : Bool) (ps : List (Num × Num)) : Nat × Events :=
  (pieces 4 ps).foldl (dabStep parts) (0, .none)

/-- One FP32 addition rounded to nearest even. -/
def fp32Add (a b : Nat) : Nat × Events :=
  fp32Round ((fp32Val a).isNan || (fp32Val b).isNan) (Num.sum [fp32Val a, fp32Val b])

/-- One level of the fixed tree: neighbours are added, an unpaired last value passes up unchanged (R75). -/
def treeLevel : List Nat → List Nat × Events
  | a :: b :: xs =>
    let r := fp32Add a b
    let t := treeLevel xs
    (r.1 :: t.1, Events.add r.2 t.2)
  | xs => (xs, .none)

/-- The fixed tree until one value remains; fuel is the number of values. -/
def treeFuel : Nat → List Nat → Nat × Events
  | 0, xs => (xs.headD 0, .none)
  | f + 1, xs =>
    match xs with
    | [] => (0, .none)
    | [a] => (a, .none)
    | ys =>
      let l := treeLevel ys
      let t := treeFuel f l.1
      (t.1, Events.add l.2 t.2)

/-- The fixed pairwise tree over the chain values (R75). -/
def tree (xs : List Nat) : Nat × Events := treeFuel xs.length xs

/-- The FP32 dot product of one output element: chains of 256 indices, then the tree (R75). -/
def dotFp32 (parts : Bool) (ps : List (Num × Num)) : Nat × Events :=
  let cs := (pieces 256 ps).map (dabChain parts)
  let t := tree (cs.map Prod.fst)
  (t.1, cs.foldl (fun e c => Events.add e c.2) t.2)

/-- Whether a term of an exact sum is a NaN that no NaN operand gave (R618). -/
def termNanp (t : Num) (nanIn : Bool) : Events := if t.isNan && !nanIn then .nanp else .none

/-- The exact-K sum of one output element with plain terms: one element product each (R79). -/
def dotExact (x : Exact) (ps : List (Num × Num)) : Exact × Events :=
  ps.foldl (fun acc p =>
    let t := p.1.mul p.2
    (acc.1.addTerm t, Events.add acc.2 (termNanp t (p.1.isNan || p.2.isNan)))) (x, .none)

/-- The exact-K sum of one output element with MX terms: one block partial each (R79, R81). The blocks give the
two scale codes and the element pairs, the elements without their scales. -/
def dotExactMx (x : Exact) (bs : List (Nat × Nat × List (Num × Num))) : Exact × Events :=
  bs.foldl (fun acc b =>
    if b.1 = 255 ∨ b.2.1 = 255 then (acc.1.addTerm .nan, acc.2)
    else
      let t := (Num.sum (b.2.2.map (fun p => p.1.mul p.2))).scale ((b.1 : Int) + b.2.1 - 254)
      (acc.1.addTerm t, Events.add acc.2 (termNanp t (b.2.2.any (fun p => p.1.isNan || p.2.isNan))))) (x, .none)

end Sys2Proof.Machine
end

