-- ==== Sys2Proof/Machine/Registers.lean ====
section
/-! DEFINITION. The register catalogue: every register field that the spec's register tables give, with the BAR0
offset of its register at index 0, its bits, its access class (the table before R5) and its reset value. A register
of which there are many (one per panel, per queue, ...) is one entry; the index numbers them in the order of the
BAR0 map (R540), the outermost first. Where a table gives the reset in words, the assumption log names the value. -/

namespace Sys2Proof.Machine

/-- The register access classes (the table before R5). -/
inductive AccessClass where
  | rw | ro | rwh | w1c | w1s | count | wo | rwl
deriving DecidableEq, Repr

/-- One field of a register: the offset of the register at index 0, its lowest bit, its width, class and reset. -/
structure RegField where
  reg   : Nat
  lo    : Nat
  width : Nat
  cls   : AccessClass
  reset : Val
deriving DecidableEq, Repr

/-- A run of equal registers in BAR0: the offset of the first, (count, stride) outermost first, and the index of
the first. -/
structure RegWindow where
  base  : Nat
  dims  : List (Nat × Nat)
  first : Nat
deriving DecidableEq, Repr

/-- A register: where it lies, whether it is 64 bits wide (R12), and its fields. lost is the HW_UPDATE_LOST bit of
its block, with the number of its registers that share one such bit (R10). -/
structure RegDef where
  name    : String
  windows : List RegWindow
  wide    : Bool
  fields  : List RegField
  lost    : Option (RegField × Nat)
deriving DecidableEq, Repr

/-- GLB_ID.PART_ID, bits [31:16], RO, reset 0x4800 (chapter 18). -/
def GLB_ID.PART_ID : RegField := ⟨0x0, 16, 16, .ro, 0x4800⟩
/-- GLB_ID.STEP_LETTER, bits [15:12], RO, reset 1 (chapter 18). -/
def GLB_ID.STEP_LETTER : RegField := ⟨0x0, 12, 4, .ro, 1⟩
/-- GLB_ID.STEP_DIGIT, bits [11:8], RO, reset 0 (chapter 18). -/
def GLB_ID.STEP_DIGIT : RegField := ⟨0x0, 8, 4, .ro, 0⟩
/-- The register GLB_ID (chapter 18). -/
def GLB_ID : RegDef :=
  ⟨"GLB_ID", [⟨0x0, [], 0⟩], false,
    [GLB_ID.PART_ID, GLB_ID.STEP_LETTER, GLB_ID.STEP_DIGIT], none⟩

/-- GLB_SERIAL.SERIAL, bits [63:0], RO, reset 0 (reset given as: Fused) (chapter 18). -/
def GLB_SERIAL.SERIAL : RegField := ⟨0x8, 0, 64, .ro, 0⟩
/-- The register GLB_SERIAL (chapter 18). -/
def GLB_SERIAL : RegDef :=
  ⟨"GLB_SERIAL", [⟨0x8, [], 0⟩], true,
    [GLB_SERIAL.SERIAL], none⟩

/-- GLB_FW_VERSION.VERSION, bits [31:0], RO, reset 0 (reset given as: From the RTP) (chapter 18). -/
def GLB_FW_VERSION.VERSION : RegField := ⟨0x10, 0, 32, .ro, 0⟩
/-- The register GLB_FW_VERSION (chapter 18). -/
def GLB_FW_VERSION : RegDef :=
  ⟨"GLB_FW_VERSION", [⟨0x10, [], 0⟩], false,
    [GLB_FW_VERSION.VERSION], none⟩

/-- GLB_TIME.NS, bits [63:0], RO, reset 0 (chapter 18). -/
def GLB_TIME.NS : RegField := ⟨0x18, 0, 64, .ro, 0⟩
/-- The register GLB_TIME (chapter 18). -/
def GLB_TIME : RegDef :=
  ⟨"GLB_TIME", [⟨0x18, [], 0⟩], true,
    [GLB_TIME.NS], none⟩

/-- GLB_INT_SUMMARY.SUMMARY, bits [16:0], RO, reset 0 (chapter 18). -/
def GLB_INT_SUMMARY.SUMMARY : RegField := ⟨0x100, 0, 17, .ro, 0⟩
/-- The register GLB_INT_SUMMARY (chapter 18). -/
def GLB_INT_SUMMARY : RegDef :=
  ⟨"GLB_INT_SUMMARY", [⟨0x100, [], 0⟩], false,
    [GLB_INT_SUMMARY.SUMMARY], none⟩

/-- GLB_INT_ENABLE.ENABLE, bits [16:0], RW, reset 0 (chapter 18). -/
def GLB_INT_ENABLE.ENABLE : RegField := ⟨0x104, 0, 17, .rw, 0⟩
/-- The register GLB_INT_ENABLE (chapter 18). -/
def GLB_INT_ENABLE : RegDef :=
  ⟨"GLB_INT_ENABLE", [⟨0x104, [], 0⟩], false,
    [GLB_INT_ENABLE.ENABLE], none⟩

/-- GLB_INT_CTL.MASTER, bits [31:31], RW, reset 0 (chapter 18). -/
def GLB_INT_CTL.MASTER : RegField := ⟨0x108, 31, 1, .rw, 0⟩
/-- GLB_INT_CTL.EOI, bits [30:30], WO, reset 0 (chapter 18). -/
def GLB_INT_CTL.EOI : RegField := ⟨0x108, 30, 1, .wo, 0⟩
/-- GLB_INT_CTL.CONDITION, bits [29:29], RO, reset 0 (chapter 18). -/
def GLB_INT_CTL.CONDITION : RegField := ⟨0x108, 29, 1, .ro, 0⟩
/-- GLB_INT_CTL.OUTSTANDING, bits [28:28], RO, reset 0 (chapter 18). -/
def GLB_INT_CTL.OUTSTANDING : RegField := ⟨0x108, 28, 1, .ro, 0⟩
/-- GLB_INT_CTL.HOLDOFF_US, bits [9:0], RW, reset 0 (chapter 18). -/
def GLB_INT_CTL.HOLDOFF_US : RegField := ⟨0x108, 0, 10, .rw, 0⟩
/-- The register GLB_INT_CTL (chapter 18). -/
def GLB_INT_CTL : RegDef :=
  ⟨"GLB_INT_CTL", [⟨0x108, [], 0⟩], false,
    [GLB_INT_CTL.MASTER, GLB_INT_CTL.EOI, GLB_INT_CTL.CONDITION, GLB_INT_CTL.OUTSTANDING, GLB_INT_CTL.HOLDOFF_US], none⟩

/-- GLB_INT_FORCE.FORCE, bits [16:0], RW, reset 0 (chapter 18). -/
def GLB_INT_FORCE.FORCE : RegField := ⟨0x10C, 0, 17, .rw, 0⟩
/-- The register GLB_INT_FORCE (chapter 18). -/
def GLB_INT_FORCE : RegDef :=
  ⟨"GLB_INT_FORCE", [⟨0x10C, [], 0⟩], false,
    [GLB_INT_FORCE.FORCE], none⟩

/-- GLB_CAPACITY.PANEL_ISLANDS, bits [30:24], RO, reset 0 (chapter 01). -/
def GLB_CAPACITY.PANEL_ISLANDS : RegField := ⟨0x200, 24, 7, .ro, 0⟩
/-- GLB_CAPACITY.GESSO_LAYERS, bits [20:16], RO, reset 0 (chapter 01). -/
def GLB_CAPACITY.GESSO_LAYERS : RegField := ⟨0x200, 16, 5, .ro, 0⟩
/-- GLB_CAPACITY.SERVICE, bits [5:4], RO, reset 0 (chapter 01). -/
def GLB_CAPACITY.SERVICE : RegField := ⟨0x200, 4, 2, .ro, 0⟩
/-- GLB_CAPACITY.CANVAS_AVAIL, bits [3:0], RO, reset 0 (chapter 01). -/
def GLB_CAPACITY.CANVAS_AVAIL : RegField := ⟨0x200, 0, 4, .ro, 0⟩
/-- The register GLB_CAPACITY (chapter 01). -/
def GLB_CAPACITY : RegDef :=
  ⟨"GLB_CAPACITY", [⟨0x200, [], 0⟩], false,
    [GLB_CAPACITY.PANEL_ISLANDS, GLB_CAPACITY.GESSO_LAYERS, GLB_CAPACITY.SERVICE, GLB_CAPACITY.CANVAS_AVAIL], none⟩

/-- GLB_RESET.OP, bits [17:16], WO, reset 0 (chapter 19). -/
def GLB_RESET.OP : RegField := ⟨0x300, 16, 2, .wo, 0⟩
/-- GLB_RESET.CANVAS, bits [1:0], WO, reset 0 (chapter 19). -/
def GLB_RESET.CANVAS : RegField := ⟨0x300, 0, 2, .wo, 0⟩
/-- The register GLB_RESET (chapter 19). -/
def GLB_RESET : RegDef :=
  ⟨"GLB_RESET", [⟨0x300, [], 0⟩], false,
    [GLB_RESET.OP, GLB_RESET.CANVAS], none⟩

/-- GLB_BOOT_STATUS.SCRUB_PENDING, bits [19:19], RO, reset 0 (reset given as: From the always-on domain) (chapter 19). -/
def GLB_BOOT_STATUS.SCRUB_PENDING : RegField := ⟨0x304, 19, 1, .ro, 0⟩
/-- GLB_BOOT_STATUS.TAMPER_BOOT, bits [18:18], RO, reset 0 (chapter 19). -/
def GLB_BOOT_STATUS.TAMPER_BOOT : RegField := ⟨0x304, 18, 1, .ro, 0⟩
/-- GLB_BOOT_STATUS.THERMAL_HOLD, bits [17:17], RO, reset 0 (chapter 19). -/
def GLB_BOOT_STATUS.THERMAL_HOLD : RegField := ⟨0x304, 17, 1, .ro, 0⟩
/-- GLB_BOOT_STATUS.FW_FALLBACK, bits [16:16], RO, reset 0 (chapter 19). -/
def GLB_BOOT_STATUS.FW_FALLBACK : RegField := ⟨0x304, 16, 1, .ro, 0⟩
/-- GLB_BOOT_STATUS.FW_SLOT, bits [15:15], RO, reset 0 (chapter 19). -/
def GLB_BOOT_STATUS.FW_SLOT : RegField := ⟨0x304, 15, 1, .ro, 0⟩
/-- GLB_BOOT_STATUS.RESET_CAUSE, bits [11:8], RO, reset 0 (chapter 19). -/
def GLB_BOOT_STATUS.RESET_CAUSE : RegField := ⟨0x304, 8, 4, .ro, 0⟩
/-- GLB_BOOT_STATUS.CANVAS_RESET, bits [7:4], RO, reset 0 (chapter 19). -/
def GLB_BOOT_STATUS.CANVAS_RESET : RegField := ⟨0x304, 4, 4, .ro, 0⟩
/-- GLB_BOOT_STATUS.STAGE, bits [3:0], RO, reset 0 (chapter 19). -/
def GLB_BOOT_STATUS.STAGE : RegField := ⟨0x304, 0, 4, .ro, 0⟩
/-- The register GLB_BOOT_STATUS (chapter 19). -/
def GLB_BOOT_STATUS : RegDef :=
  ⟨"GLB_BOOT_STATUS", [⟨0x304, [], 0⟩], false,
    [GLB_BOOT_STATUS.SCRUB_PENDING, GLB_BOOT_STATUS.TAMPER_BOOT, GLB_BOOT_STATUS.THERMAL_HOLD, GLB_BOOT_STATUS.FW_FALLBACK, GLB_BOOT_STATUS.FW_SLOT, GLB_BOOT_STATUS.RESET_CAUSE, GLB_BOOT_STATUS.CANVAS_RESET, GLB_BOOT_STATUS.STAGE], none⟩

/-- GLB_BOOT_COUNT.COUNT, bits [31:0], RO, reset 0 (reset given as: From the always-on domain) (chapter 19). -/
def GLB_BOOT_COUNT.COUNT : RegField := ⟨0x308, 0, 32, .ro, 0⟩
/-- The register GLB_BOOT_COUNT (chapter 19). -/
def GLB_BOOT_COUNT : RegDef :=
  ⟨"GLB_BOOT_COUNT", [⟨0x308, [], 0⟩], false,
    [GLB_BOOT_COUNT.COUNT], none⟩

/-- GLB_ISL_CMD.OP, bits [9:8], WO, reset 0 (chapter 01). -/
def GLB_ISL_CMD.OP : RegField := ⟨0x400, 8, 2, .wo, 0⟩
/-- GLB_ISL_CMD.ISLAND, bits [7:0], WO, reset 0 (chapter 01). -/
def GLB_ISL_CMD.ISLAND : RegField := ⟨0x400, 0, 8, .wo, 0⟩
/-- The register GLB_ISL_CMD (chapter 01). -/
def GLB_ISL_CMD : RegDef :=
  ⟨"GLB_ISL_CMD", [⟨0x400, [], 0⟩], false,
    [GLB_ISL_CMD.OP, GLB_ISL_CMD.ISLAND], none⟩

/-- GLB_ISL_STATUS.QUEUE_DEPTH, bits [11:4], RO, reset 0 (chapter 01). -/
def GLB_ISL_STATUS.QUEUE_DEPTH : RegField := ⟨0x404, 4, 8, .ro, 0⟩
/-- GLB_ISL_STATUS.LOCKED_WRITE, bits [3:3], W1C, reset 0 (chapter 01). -/
def GLB_ISL_STATUS.LOCKED_WRITE : RegField := ⟨0x404, 3, 1, .w1c, 0⟩
/-- GLB_ISL_STATUS.HW_UPDATE_LOST, bits [2:2], W1C, reset 0 (chapter 01). -/
def GLB_ISL_STATUS.HW_UPDATE_LOST : RegField := ⟨0x404, 2, 1, .w1c, 0⟩
/-- GLB_ISL_STATUS.CAP_CHANGED, bits [1:1], W1C, reset 0 (chapter 01). -/
def GLB_ISL_STATUS.CAP_CHANGED : RegField := ⟨0x404, 1, 1, .w1c, 0⟩
/-- GLB_ISL_STATUS.CMD_REFUSED, bits [0:0], W1C, reset 0 (chapter 01). -/
def GLB_ISL_STATUS.CMD_REFUSED : RegField := ⟨0x404, 0, 1, .w1c, 0⟩
/-- The register GLB_ISL_STATUS (chapter 01). -/
def GLB_ISL_STATUS : RegDef :=
  ⟨"GLB_ISL_STATUS", [⟨0x404, [], 0⟩], false,
    [GLB_ISL_STATUS.QUEUE_DEPTH, GLB_ISL_STATUS.LOCKED_WRITE, GLB_ISL_STATUS.HW_UPDATE_LOST, GLB_ISL_STATUS.CAP_CHANGED, GLB_ISL_STATUS.CMD_REFUSED], none⟩

/-- GLB_ISL_STATE.PENDING_DISABLE, bits [9:9], RO, reset 0 (chapter 01). -/
def GLB_ISL_STATE.PENDING_DISABLE : RegField := ⟨0x800, 9, 1, .ro, 0⟩
/-- GLB_ISL_STATE.PENDING_ENABLE, bits [8:8], RO, reset 0 (chapter 01). -/
def GLB_ISL_STATE.PENDING_ENABLE : RegField := ⟨0x800, 8, 1, .ro, 0⟩
/-- GLB_ISL_STATE.STATE, bits [2:0], RO, reset 3 (R46: WAKING from the start of the reset) (chapter 01). -/
def GLB_ISL_STATE.STATE : RegField := ⟨0x800, 0, 3, .ro, 3⟩
/-- The register GLB_ISL_STATE (chapter 01). -/
def GLB_ISL_STATE : RegDef :=
  ⟨"GLB_ISL_STATE", [⟨0x800, [(144, 0x4)], 0⟩], false,
    [GLB_ISL_STATE.PENDING_DISABLE, GLB_ISL_STATE.PENDING_ENABLE, GLB_ISL_STATE.STATE], none⟩

/-- GLB_QUAD_PART.ASSIGNED, bits [8:8], RO, reset 0 (chapter 01). -/
def GLB_QUAD_PART.ASSIGNED : RegField := ⟨0xC00, 8, 1, .ro, 0⟩
/-- GLB_QUAD_PART.PARTITION, bits [7:0], RO, reset 0 (chapter 01). -/
def GLB_QUAD_PART.PARTITION : RegField := ⟨0xC00, 0, 8, .ro, 0⟩
/-- The register GLB_QUAD_PART (chapter 01). -/
def GLB_QUAD_PART : RegDef :=
  ⟨"GLB_QUAD_PART", [⟨0xC00, [(256, 0x4)], 0⟩], false,
    [GLB_QUAD_PART.ASSIGNED, GLB_QUAD_PART.PARTITION], none⟩

/-- SKT_CTL.ALLOW_UNTESTED, bits [1:1], RW, reset 0 (chapter 05). -/
def SKT_CTL.ALLOW_UNTESTED : RegField := ⟨0x1000, 1, 1, .rw, 0⟩
/-- SKT_CTL.LOAD, bits [0:0], WO, reset 0 (chapter 05). -/
def SKT_CTL.LOAD : RegField := ⟨0x1000, 0, 1, .wo, 0⟩
/-- The register SKT_CTL (chapter 05). -/
def SKT_CTL : RegDef :=
  ⟨"SKT_CTL", [⟨0x1000, [], 0⟩], false,
    [SKT_CTL.ALLOW_UNTESTED, SKT_CTL.LOAD], none⟩

/-- SKT_STATUS.LAST_CODE, bits [31:16], RO, reset 0 (chapter 05). -/
def SKT_STATUS.LAST_CODE : RegField := ⟨0x1004, 16, 16, .ro, 0⟩
/-- SKT_STATUS.STATE, bits [12:10], RO, reset 0 (chapter 05). -/
def SKT_STATUS.STATE : RegField := ⟨0x1004, 10, 3, .ro, 0⟩
/-- SKT_STATUS.PATCHED, bits [9:9], RO, reset 0 (chapter 05). -/
def SKT_STATUS.PATCHED : RegField := ⟨0x1004, 9, 1, .ro, 0⟩
/-- SKT_STATUS.OVERRIDDEN, bits [8:8], RO, reset 0 (chapter 05). -/
def SKT_STATUS.OVERRIDDEN : RegField := ⟨0x1004, 8, 1, .ro, 0⟩
/-- SKT_STATUS.VERSION_UNTESTED, bits [7:7], RO, reset 0 (chapter 05). -/
def SKT_STATUS.VERSION_UNTESTED : RegField := ⟨0x1004, 7, 1, .ro, 0⟩
/-- SKT_STATUS.FALLBACK, bits [6:6], RO, reset 0 (chapter 05). -/
def SKT_STATUS.FALLBACK : RegField := ⟨0x1004, 6, 1, .ro, 0⟩
/-- SKT_STATUS.STAGING_WRITE, bits [5:5], W1C, reset 0 (chapter 05). -/
def SKT_STATUS.STAGING_WRITE : RegField := ⟨0x1004, 5, 1, .w1c, 0⟩
/-- SKT_STATUS.HW_UPDATE_LOST, bits [4:4], W1C, reset 0 (chapter 05). -/
def SKT_STATUS.HW_UPDATE_LOST : RegField := ⟨0x1004, 4, 1, .w1c, 0⟩
/-- SKT_STATUS.LOAD_FAILED, bits [3:3], W1C, reset 0 (chapter 05). -/
def SKT_STATUS.LOAD_FAILED : RegField := ⟨0x1004, 3, 1, .w1c, 0⟩
/-- SKT_STATUS.LOAD_DONE, bits [2:2], W1C, reset 0 (chapter 05). -/
def SKT_STATUS.LOAD_DONE : RegField := ⟨0x1004, 2, 1, .w1c, 0⟩
/-- The register SKT_STATUS (chapter 05). -/
def SKT_STATUS : RegDef :=
  ⟨"SKT_STATUS", [⟨0x1004, [], 0⟩], false,
    [SKT_STATUS.LAST_CODE, SKT_STATUS.STATE, SKT_STATUS.PATCHED, SKT_STATUS.OVERRIDDEN, SKT_STATUS.VERSION_UNTESTED, SKT_STATUS.FALLBACK, SKT_STATUS.STAGING_WRITE, SKT_STATUS.HW_UPDATE_LOST, SKT_STATUS.LOAD_FAILED, SKT_STATUS.LOAD_DONE], none⟩

/-- SKT_SRC.DPA, bits [39:8], RW, reset 0 (chapter 05). -/
def SKT_SRC.DPA : RegField := ⟨0x1008, 8, 32, .rw, 0⟩
/-- The register SKT_SRC (chapter 05). -/
def SKT_SRC : RegDef :=
  ⟨"SKT_SRC", [⟨0x1008, [], 0⟩], true,
    [SKT_SRC.DPA], none⟩

/-- SKT_LEN.LEN, bits [31:0], RW, reset 0 (chapter 05). -/
def SKT_LEN.LEN : RegField := ⟨0x1010, 0, 32, .rw, 0⟩
/-- The register SKT_LEN (chapter 05). -/
def SKT_LEN : RegDef :=
  ⟨"SKT_LEN", [⟨0x1010, [], 0⟩], false,
    [SKT_LEN.LEN], none⟩

/-- SKT_IMAGE_ID.IMAGE_ID, bits [63:0], RO, reset 0 (chapter 05). -/
def SKT_IMAGE_ID.IMAGE_ID : RegField := ⟨0x1018, 0, 64, .ro, 0⟩
/-- The register SKT_IMAGE_ID (chapter 05). -/
def SKT_IMAGE_ID : RegDef :=
  ⟨"SKT_IMAGE_ID", [⟨0x1018, [], 0⟩], true,
    [SKT_IMAGE_ID.IMAGE_ID], none⟩

/-- SKT_PATCH_COUNT.COUNT, bits [31:0], COUNT, reset 0 (chapter 05). -/
def SKT_PATCH_COUNT.COUNT : RegField := ⟨0x1020, 0, 32, .count, 0⟩
/-- The register SKT_PATCH_COUNT (chapter 05). -/
def SKT_PATCH_COUNT : RegDef :=
  ⟨"SKT_PATCH_COUNT", [⟨0x1020, [], 0⟩], false,
    [SKT_PATCH_COUNT.COUNT], none⟩

/-- SKT_MC_VERSION.MC_VERSION, bits [31:0], RO, reset 0 (chapter 05). -/
def SKT_MC_VERSION.MC_VERSION : RegField := ⟨0x1024, 0, 32, .ro, 0⟩
/-- The register SKT_MC_VERSION (chapter 05). -/
def SKT_MC_VERSION : RegDef :=
  ⟨"SKT_MC_VERSION", [⟨0x1024, [], 0⟩], false,
    [SKT_MC_VERSION.MC_VERSION], none⟩

/-- GLB_PART_FAULT.PRIMARY, bits [31:31], W1C, reset 0 (chapter 17). -/
def GLB_PART_FAULT.PRIMARY : RegField := ⟨0x1400, 31, 1, .w1c, 0⟩
/-- GLB_PART_FAULT.WASH, bits [30:30], W1C, reset 0 (chapter 17). -/
def GLB_PART_FAULT.WASH : RegField := ⟨0x1400, 30, 1, .w1c, 0⟩
/-- GLB_PART_FAULT.CLEAR_REFUSED, bits [29:29], W1C, reset 0 (chapter 17). -/
def GLB_PART_FAULT.CLEAR_REFUSED : RegField := ⟨0x1400, 29, 1, .w1c, 0⟩
/-- GLB_PART_FAULT.ORIGIN_VALID, bits [28:28], RO, reset 0 (chapter 17). -/
def GLB_PART_FAULT.ORIGIN_VALID : RegField := ⟨0x1400, 28, 1, .ro, 0⟩
/-- GLB_PART_FAULT.ORIGIN, bits [23:16], RO, reset 0 (chapter 17). -/
def GLB_PART_FAULT.ORIGIN : RegField := ⟨0x1400, 16, 8, .ro, 0⟩
/-- GLB_PART_FAULT.CODE, bits [15:0], RO, reset 0 (chapter 17). -/
def GLB_PART_FAULT.CODE : RegField := ⟨0x1400, 0, 16, .ro, 0⟩
/-- The register GLB_PART_FAULT (chapter 17). -/
def GLB_PART_FAULT : RegDef :=
  ⟨"GLB_PART_FAULT", [⟨0x1400, [(256, 0x4)], 0⟩], false,
    [GLB_PART_FAULT.PRIMARY, GLB_PART_FAULT.WASH, GLB_PART_FAULT.CLEAR_REFUSED, GLB_PART_FAULT.ORIGIN_VALID, GLB_PART_FAULT.ORIGIN, GLB_PART_FAULT.CODE], none⟩

/-- GLB_STALL.LINE_HI, bits [56:48], RO, reset 0 (chapter 17). -/
def GLB_STALL.LINE_HI : RegField := ⟨0x1800, 48, 9, .ro, 0⟩
/-- GLB_STALL.OBJECT, bits [47:32], RO, reset 0 (chapter 17). -/
def GLB_STALL.OBJECT : RegField := ⟨0x1800, 32, 16, .ro, 0⟩
/-- GLB_STALL.VALID, bits [31:31], W1C, reset 0 (chapter 17). -/
def GLB_STALL.VALID : RegField := ⟨0x1800, 31, 1, .w1c, 0⟩
/-- GLB_STALL.OVERRUN, bits [30:30], W1C, reset 0 (chapter 17). -/
def GLB_STALL.OVERRUN : RegField := ⟨0x1800, 30, 1, .w1c, 0⟩
/-- GLB_STALL.KIND, bits [29:27], RO, reset 0 (chapter 17). -/
def GLB_STALL.KIND : RegField := ⟨0x1800, 27, 3, .ro, 0⟩
/-- GLB_STALL.WHERE, bits [26:24], RO, reset 0 (chapter 17). -/
def GLB_STALL.WHERE : RegField := ⟨0x1800, 24, 3, .ro, 0⟩
/-- GLB_STALL.PARTITION, bits [23:16], RO, reset 0 (chapter 17). -/
def GLB_STALL.PARTITION : RegField := ⟨0x1800, 16, 8, .ro, 0⟩
/-- GLB_STALL.PART_VALID, bits [15:15], RO, reset 0 (chapter 17). -/
def GLB_STALL.PART_VALID : RegField := ⟨0x1800, 15, 1, .ro, 0⟩
/-- The register GLB_STALL (chapter 17). -/
def GLB_STALL : RegDef :=
  ⟨"GLB_STALL", [⟨0x1800, [], 0⟩], true,
    [GLB_STALL.LINE_HI, GLB_STALL.OBJECT, GLB_STALL.VALID, GLB_STALL.OVERRUN, GLB_STALL.KIND, GLB_STALL.WHERE, GLB_STALL.PARTITION, GLB_STALL.PART_VALID], none⟩

/-- GLB_VECTOR.BITS, bits [31:0], RO, reset 0 (chapter 18). -/
def GLB_VECTOR.BITS : RegField := ⟨0x2000, 0, 32, .ro, 0⟩
/-- The register GLB_VECTOR (chapter 18). -/
def GLB_VECTOR : RegDef :=
  ⟨"GLB_VECTOR", [⟨0x2000, [(13, 0x100), (19, 0x4)], 0⟩], false,
    [GLB_VECTOR.BITS], none⟩

/-- HUB_FABRIC_STATUS.POISONED, bits [3:3], W1C, reset 0 (chapter 12). -/
def HUB_FABRIC_STATUS.POISONED : RegField := ⟨0x3000, 3, 1, .w1c, 0⟩
/-- HUB_FABRIC_STATUS.ROUTE_ERR, bits [2:2], W1C, reset 0 (chapter 12). -/
def HUB_FABRIC_STATUS.ROUTE_ERR : RegField := ⟨0x3000, 2, 1, .w1c, 0⟩
/-- HUB_FABRIC_STATUS.HW_UPDATE_LOST, bits [1:1], W1C, reset 0 (chapter 12). -/
def HUB_FABRIC_STATUS.HW_UPDATE_LOST : RegField := ⟨0x3000, 1, 1, .w1c, 0⟩
/-- The register HUB_FABRIC_STATUS (chapter 12). -/
def HUB_FABRIC_STATUS : RegDef :=
  ⟨"HUB_FABRIC_STATUS", [⟨0x3000, [], 0⟩], false,
    [HUB_FABRIC_STATUS.POISONED, HUB_FABRIC_STATUS.ROUTE_ERR, HUB_FABRIC_STATUS.HW_UPDATE_LOST], none⟩

/-- HUB_FABRIC_ERR.SRC, bits [63:48], RO, reset 0 (chapter 12). -/
def HUB_FABRIC_ERR.SRC : RegField := ⟨0x3008, 48, 16, .ro, 0⟩
/-- HUB_FABRIC_ERR.DST, bits [47:32], RO, reset 0 (chapter 12). -/
def HUB_FABRIC_ERR.DST : RegField := ⟨0x3008, 32, 16, .ro, 0⟩
/-- HUB_FABRIC_ERR.VALID, bits [31:31], W1C, reset 0 (chapter 12). -/
def HUB_FABRIC_ERR.VALID : RegField := ⟨0x3008, 31, 1, .w1c, 0⟩
/-- HUB_FABRIC_ERR.OVERRUN, bits [30:30], W1C, reset 0 (chapter 12). -/
def HUB_FABRIC_ERR.OVERRUN : RegField := ⟨0x3008, 30, 1, .w1c, 0⟩
/-- HUB_FABRIC_ERR.CODE, bits [15:0], RO, reset 0 (chapter 12). -/
def HUB_FABRIC_ERR.CODE : RegField := ⟨0x3008, 0, 16, .ro, 0⟩
/-- The register HUB_FABRIC_ERR (chapter 12). -/
def HUB_FABRIC_ERR : RegDef :=
  ⟨"HUB_FABRIC_ERR", [⟨0x3008, [], 0⟩], true,
    [HUB_FABRIC_ERR.SRC, HUB_FABRIC_ERR.DST, HUB_FABRIC_ERR.VALID, HUB_FABRIC_ERR.OVERRUN, HUB_FABRIC_ERR.CODE], none⟩

/-- HUB_HWIN_SEG.HOST_BASE, bits [63:12], RW, reset 0 (chapter 18). -/
def HUB_HWIN_SEG.HOST_BASE : RegField := ⟨0x4000, 12, 52, .rw, 0⟩
/-- HUB_HWIN_SEG.NOSNOOP, bits [1:1], RW, reset 0 (chapter 18). -/
def HUB_HWIN_SEG.NOSNOOP : RegField := ⟨0x4000, 1, 1, .rw, 0⟩
/-- HUB_HWIN_SEG.VALID, bits [0:0], RW, reset 0 (chapter 18). -/
def HUB_HWIN_SEG.VALID : RegField := ⟨0x4000, 0, 1, .rw, 0⟩
/-- The register HUB_HWIN_SEG (chapter 18). -/
def HUB_HWIN_SEG : RegDef :=
  ⟨"HUB_HWIN_SEG", [⟨0x4000, [(64, 0x8)], 0⟩], true,
    [HUB_HWIN_SEG.HOST_BASE, HUB_HWIN_SEG.NOSNOOP, HUB_HWIN_SEG.VALID], none⟩

/-- GLB_HOST_STATUS.HWIN_ERR, bits [3:3], W1C, reset 0 (chapter 18). -/
def GLB_HOST_STATUS.HWIN_ERR : RegField := ⟨0x4400, 3, 1, .w1c, 0⟩
/-- GLB_HOST_STATUS.REG_UNREACHABLE, bits [2:2], W1C, reset 0 (chapter 18). -/
def GLB_HOST_STATUS.REG_UNREACHABLE : RegField := ⟨0x4400, 2, 1, .w1c, 0⟩
/-- GLB_HOST_STATUS.BAD_ACCESS, bits [1:1], W1C, reset 0 (chapter 18). -/
def GLB_HOST_STATUS.BAD_ACCESS : RegField := ⟨0x4400, 1, 1, .w1c, 0⟩
/-- GLB_HOST_STATUS.HW_UPDATE_LOST, bits [0:0], W1C, reset 0 (chapter 18). -/
def GLB_HOST_STATUS.HW_UPDATE_LOST : RegField := ⟨0x4400, 0, 1, .w1c, 0⟩
/-- The register GLB_HOST_STATUS (chapter 18). -/
def GLB_HOST_STATUS : RegDef :=
  ⟨"GLB_HOST_STATUS", [⟨0x4400, [], 0⟩], false,
    [GLB_HOST_STATUS.HWIN_ERR, GLB_HOST_STATUS.REG_UNREACHABLE, GLB_HOST_STATUS.BAD_ACCESS, GLB_HOST_STATUS.HW_UPDATE_LOST], none⟩

/-- GLB_HOST_ERR.ADDRESS, bits [63:24], RO, reset 0 (chapter 18). -/
def GLB_HOST_ERR.ADDRESS : RegField := ⟨0x4408, 24, 40, .ro, 0⟩
/-- GLB_HOST_ERR.VALID, bits [23:23], W1C, reset 0 (chapter 18). -/
def GLB_HOST_ERR.VALID : RegField := ⟨0x4408, 23, 1, .w1c, 0⟩
/-- GLB_HOST_ERR.OVERRUN, bits [22:22], W1C, reset 0 (chapter 18). -/
def GLB_HOST_ERR.OVERRUN : RegField := ⟨0x4408, 22, 1, .w1c, 0⟩
/-- GLB_HOST_ERR.SOURCE, bits [21:20], RO, reset 0 (chapter 18). -/
def GLB_HOST_ERR.SOURCE : RegField := ⟨0x4408, 20, 2, .ro, 0⟩
/-- GLB_HOST_ERR.CODE, bits [15:0], RO, reset 0 (chapter 18). -/
def GLB_HOST_ERR.CODE : RegField := ⟨0x4408, 0, 16, .ro, 0⟩
/-- The register GLB_HOST_ERR (chapter 18). -/
def GLB_HOST_ERR : RegDef :=
  ⟨"GLB_HOST_ERR", [⟨0x4408, [], 0⟩], true,
    [GLB_HOST_ERR.ADDRESS, GLB_HOST_ERR.VALID, GLB_HOST_ERR.OVERRUN, GLB_HOST_ERR.SOURCE, GLB_HOST_ERR.CODE], none⟩

/-- QUE_STATUS.VALID, bits [31:31], RO, reset 0 (chapter 18). -/
def QUE_STATUS.VALID : RegField := ⟨0x4500, 31, 1, .ro, 0⟩
/-- QUE_STATUS.QUEUE, bits [27:16], RO, reset 0 (chapter 18). -/
def QUE_STATUS.QUEUE : RegField := ⟨0x4500, 16, 12, .ro, 0⟩
/-- QUE_STATUS.TAILWR_ERR, bits [2:2], W1C, reset 0 (chapter 18). -/
def QUE_STATUS.TAILWR_ERR : RegField := ⟨0x4500, 2, 1, .w1c, 0⟩
/-- QUE_STATUS.DB_DISABLED, bits [1:1], W1C, reset 0 (chapter 18). -/
def QUE_STATUS.DB_DISABLED : RegField := ⟨0x4500, 1, 1, .w1c, 0⟩
/-- QUE_STATUS.HW_UPDATE_LOST, bits [0:0], W1C, reset 0 (chapter 18). -/
def QUE_STATUS.HW_UPDATE_LOST : RegField := ⟨0x4500, 0, 1, .w1c, 0⟩
/-- The register QUE_STATUS (chapter 18). -/
def QUE_STATUS : RegDef :=
  ⟨"QUE_STATUS", [⟨0x4500, [], 0⟩], false,
    [QUE_STATUS.VALID, QUE_STATUS.QUEUE, QUE_STATUS.TAILWR_ERR, QUE_STATUS.DB_DISABLED, QUE_STATUS.HW_UPDATE_LOST], none⟩

/-- GLB_MSIX_ADDR_LO.ADDR, bits [31:2], RW, reset 0 (PCIe specification) (chapter 18). -/
def GLB_MSIX_ADDR_LO.ADDR : RegField := ⟨0x5000, 2, 30, .rw, 0⟩
/-- The register GLB_MSIX_ADDR_LO (chapter 18). -/
def GLB_MSIX_ADDR_LO : RegDef :=
  ⟨"GLB_MSIX_ADDR_LO", [⟨0x5000, [], 0⟩], false,
    [GLB_MSIX_ADDR_LO.ADDR], none⟩

/-- GLB_MSIX_ADDR_HI.ADDR, bits [31:0], RW, reset 0 (PCIe specification) (chapter 18). -/
def GLB_MSIX_ADDR_HI.ADDR : RegField := ⟨0x5004, 0, 32, .rw, 0⟩
/-- The register GLB_MSIX_ADDR_HI (chapter 18). -/
def GLB_MSIX_ADDR_HI : RegDef :=
  ⟨"GLB_MSIX_ADDR_HI", [⟨0x5004, [], 0⟩], false,
    [GLB_MSIX_ADDR_HI.ADDR], none⟩

/-- GLB_MSIX_DATA.DATA, bits [31:0], RW, reset 0 (PCIe specification) (chapter 18). -/
def GLB_MSIX_DATA.DATA : RegField := ⟨0x5008, 0, 32, .rw, 0⟩
/-- The register GLB_MSIX_DATA (chapter 18). -/
def GLB_MSIX_DATA : RegDef :=
  ⟨"GLB_MSIX_DATA", [⟨0x5008, [], 0⟩], false,
    [GLB_MSIX_DATA.DATA], none⟩

/-- GLB_MSIX_CTRL.MASK, bits [0:0], RW, reset 1 (PCIe specification: a vector is masked after reset) (chapter 18). -/
def GLB_MSIX_CTRL.MASK : RegField := ⟨0x500C, 0, 1, .rw, 1⟩
/-- The register GLB_MSIX_CTRL (chapter 18). -/
def GLB_MSIX_CTRL : RegDef :=
  ⟨"GLB_MSIX_CTRL", [⟨0x500C, [], 0⟩], false,
    [GLB_MSIX_CTRL.MASK], none⟩

/-- GLB_MSIX_PBA.PENDING, bits [0:0], RO, reset 0 (PCIe specification) (chapter 18). -/
def GLB_MSIX_PBA.PENDING : RegField := ⟨0x5800, 0, 1, .ro, 0⟩
/-- The register GLB_MSIX_PBA (chapter 18). -/
def GLB_MSIX_PBA : RegDef :=
  ⟨"GLB_MSIX_PBA", [⟨0x5800, [], 0⟩], true,
    [GLB_MSIX_PBA.PENDING], none⟩

/-- JNL_STATUS.COMPACTING, bits [6:6], RO, reset 0 (chapter 19). -/
def JNL_STATUS.COMPACTING : RegField := ⟨0x6000, 6, 1, .ro, 0⟩
/-- JNL_STATUS.FORMATTED, bits [5:5], W1C, reset 0 (chapter 19). -/
def JNL_STATUS.FORMATTED : RegField := ⟨0x6000, 5, 1, .w1c, 0⟩
/-- JNL_STATUS.FLASH_ERR, bits [4:4], W1C, reset 0 (chapter 19). -/
def JNL_STATUS.FLASH_ERR : RegField := ⟨0x6000, 4, 1, .w1c, 0⟩
/-- JNL_STATUS.RECORD_LOST, bits [3:3], W1C, reset 0 (chapter 19). -/
def JNL_STATUS.RECORD_LOST : RegField := ⟨0x6000, 3, 1, .w1c, 0⟩
/-- JNL_STATUS.COMPACT_DONE, bits [2:2], W1C, reset 0 (chapter 19). -/
def JNL_STATUS.COMPACT_DONE : RegField := ⟨0x6000, 2, 1, .w1c, 0⟩
/-- JNL_STATUS.READY_EVT, bits [1:1], W1C, reset 0 (chapter 19). -/
def JNL_STATUS.READY_EVT : RegField := ⟨0x6000, 1, 1, .w1c, 0⟩
/-- JNL_STATUS.HW_UPDATE_LOST, bits [0:0], W1C, reset 0 (chapter 19). -/
def JNL_STATUS.HW_UPDATE_LOST : RegField := ⟨0x6000, 0, 1, .w1c, 0⟩
/-- The register JNL_STATUS (chapter 19). -/
def JNL_STATUS : RegDef :=
  ⟨"JNL_STATUS", [⟨0x6000, [], 0⟩], false,
    [JNL_STATUS.COMPACTING, JNL_STATUS.FORMATTED, JNL_STATUS.FLASH_ERR, JNL_STATUS.RECORD_LOST, JNL_STATUS.COMPACT_DONE, JNL_STATUS.READY_EVT, JNL_STATUS.HW_UPDATE_LOST], none⟩

/-- JNL_THERMAL_RECORD.PRESENT, bits [31:31], W1C, reset 0 (reset given as: From the sketchbook) (chapter 19). -/
def JNL_THERMAL_RECORD.PRESENT : RegField := ⟨0x6004, 31, 1, .w1c, 0⟩
/-- JNL_THERMAL_RECORD.KIND, bits [30:30], RO, reset 0 (reset given as: From the sketchbook) (chapter 19). -/
def JNL_THERMAL_RECORD.KIND : RegField := ⟨0x6004, 30, 1, .ro, 0⟩
/-- JNL_THERMAL_RECORD.SENSOR, bits [24:16], RO, reset 0 (reset given as: From the sketchbook) (chapter 19). -/
def JNL_THERMAL_RECORD.SENSOR : RegField := ⟨0x6004, 16, 9, .ro, 0⟩
/-- JNL_THERMAL_RECORD.TEMP, bits [15:0], RO, reset 0 (reset given as: From the sketchbook) (chapter 19). -/
def JNL_THERMAL_RECORD.TEMP : RegField := ⟨0x6004, 0, 16, .ro, 0⟩
/-- The register JNL_THERMAL_RECORD (chapter 19). -/
def JNL_THERMAL_RECORD : RegDef :=
  ⟨"JNL_THERMAL_RECORD", [⟨0x6004, [], 0⟩], false,
    [JNL_THERMAL_RECORD.PRESENT, JNL_THERMAL_RECORD.KIND, JNL_THERMAL_RECORD.SENSOR, JNL_THERMAL_RECORD.TEMP], none⟩

/-- JNL_FILL.HALF, bits [31:31], RO, reset 0 (reset given as: From the sketchbook) (chapter 19). -/
def JNL_FILL.HALF : RegField := ⟨0x6008, 31, 1, .ro, 0⟩
/-- JNL_FILL.SLOTS, bits [17:0], RO, reset 0 (reset given as: From the sketchbook) (chapter 19). -/
def JNL_FILL.SLOTS : RegField := ⟨0x6008, 0, 18, .ro, 0⟩
/-- The register JNL_FILL (chapter 19). -/
def JNL_FILL : RegDef :=
  ⟨"JNL_FILL", [⟨0x6008, [], 0⟩], false,
    [JNL_FILL.HALF, JNL_FILL.SLOTS], none⟩

/-- JNL_GEN.VALUE, bits [31:0], RO, reset 0 (reset given as: From the sketchbook) (chapter 19). -/
def JNL_GEN.VALUE : RegField := ⟨0x600C, 0, 32, .ro, 0⟩
/-- The register JNL_GEN (chapter 19). -/
def JNL_GEN : RegDef :=
  ⟨"JNL_GEN", [⟨0x600C, [], 0⟩], false,
    [JNL_GEN.VALUE], none⟩

/-- JNL_LOST.COUNT, bits [31:0], COUNT, reset 0 (chapter 19). -/
def JNL_LOST.COUNT : RegField := ⟨0x6010, 0, 32, .count, 0⟩
/-- The register JNL_LOST (chapter 19). -/
def JNL_LOST : RegDef :=
  ⟨"JNL_LOST", [⟨0x6010, [], 0⟩], false,
    [JNL_LOST.COUNT], none⟩

/-- JNL_NEXT_SEQ.VALUE, bits [31:0], RO, reset 0 (reset given as: From the sketchbook) (chapter 19). -/
def JNL_NEXT_SEQ.VALUE : RegField := ⟨0x6014, 0, 32, .ro, 0⟩
/-- The register JNL_NEXT_SEQ (chapter 19). -/
def JNL_NEXT_SEQ : RegDef :=
  ⟨"JNL_NEXT_SEQ", [⟨0x6014, [], 0⟩], false,
    [JNL_NEXT_SEQ.VALUE], none⟩

/-- SBD_STATUS.SMB_ADDR, bits [15:13], RO, reset 0 (reset given as: Strapped) (chapter 20). -/
def SBD_STATUS.SMB_ADDR : RegField := ⟨0x7000, 13, 3, .ro, 0⟩
/-- SBD_STATUS.RESTART_OK, bits [12:12], RO, reset 0 (chapter 20). -/
def SBD_STATUS.RESTART_OK : RegField := ⟨0x7000, 12, 1, .ro, 0⟩
/-- SBD_STATUS.STOPPED, bits [11:11], RO, reset 0 (chapter 20). -/
def SBD_STATUS.STOPPED : RegField := ⟨0x7000, 11, 1, .ro, 0⟩
/-- SBD_STATUS.HAUL_DOWN, bits [10:10], RO, reset 0 (chapter 20). -/
def SBD_STATUS.HAUL_DOWN : RegField := ⟨0x7000, 10, 1, .ro, 0⟩
/-- SBD_STATUS.PWDIS_B, bits [9:9], RO, reset 0 (chapter 20). -/
def SBD_STATUS.PWDIS_B : RegField := ⟨0x7000, 9, 1, .ro, 0⟩
/-- SBD_STATUS.PWDIS_A, bits [8:8], RO, reset 0 (chapter 20). -/
def SBD_STATUS.PWDIS_A : RegField := ⟨0x7000, 8, 1, .ro, 0⟩
/-- SBD_STATUS.CLEAR_REFUSED, bits [4:4], W1C, reset 0 (chapter 20). -/
def SBD_STATUS.CLEAR_REFUSED : RegField := ⟨0x7000, 4, 1, .w1c, 0⟩
/-- SBD_STATUS.DISCREPANCY, bits [3:3], W1C, reset 0 (reset given as: From the always-on domain) (chapter 20). -/
def SBD_STATUS.DISCREPANCY : RegField := ⟨0x7000, 3, 1, .w1c, 0⟩
/-- SBD_STATUS.DEMAND_EVT, bits [2:2], W1C, reset 0 (chapter 20). -/
def SBD_STATUS.DEMAND_EVT : RegField := ⟨0x7000, 2, 1, .w1c, 0⟩
/-- SBD_STATUS.HW_UPDATE_LOST, bits [1:1], W1C, reset 0 (chapter 20). -/
def SBD_STATUS.HW_UPDATE_LOST : RegField := ⟨0x7000, 1, 1, .w1c, 0⟩
/-- The register SBD_STATUS (chapter 20). -/
def SBD_STATUS : RegDef :=
  ⟨"SBD_STATUS", [⟨0x7000, [], 0⟩], false,
    [SBD_STATUS.SMB_ADDR, SBD_STATUS.RESTART_OK, SBD_STATUS.STOPPED, SBD_STATUS.HAUL_DOWN, SBD_STATUS.PWDIS_B, SBD_STATUS.PWDIS_A, SBD_STATUS.CLEAR_REFUSED, SBD_STATUS.DISCREPANCY, SBD_STATUS.DEMAND_EVT, SBD_STATUS.HW_UPDATE_LOST], none⟩

/-- SBD_PWDIS_SKEW.US, bits [31:0], RO, reset 0 (chapter 20). -/
def SBD_PWDIS_SKEW.US : RegField := ⟨0x7004, 0, 32, .ro, 0⟩
/-- The register SBD_PWDIS_SKEW (chapter 20). -/
def SBD_PWDIS_SKEW : RegDef :=
  ⟨"SBD_PWDIS_SKEW", [⟨0x7004, [], 0⟩], false,
    [SBD_PWDIS_SKEW.US], none⟩

/-- LMP_CTL.QUIET, bits [8:8], RW, reset 0 (chapter 20). -/
def LMP_CTL.QUIET : RegField := ⟨0x7100, 8, 1, .rw, 0⟩
/-- LMP_CTL.DUTY, bits [7:0], RW, reset 0 (chapter 20). -/
def LMP_CTL.DUTY : RegField := ⟨0x7100, 0, 8, .rw, 0⟩
/-- The register LMP_CTL (chapter 20). -/
def LMP_CTL : RegDef :=
  ⟨"LMP_CTL", [⟨0x7100, [(2, 0x4)], 0⟩], false,
    [LMP_CTL.QUIET, LMP_CTL.DUTY], none⟩

/-- LMP_STATUS.FAULT_STATE, bits [7:6], RO, reset 3 (chapter 20). -/
def LMP_STATUS.FAULT_STATE : RegField := ⟨0x7110, 6, 2, .ro, 3⟩
/-- LMP_STATUS.LOCATE_STATE, bits [5:4], RO, reset 3 (chapter 20). -/
def LMP_STATUS.LOCATE_STATE : RegField := ⟨0x7110, 4, 2, .ro, 3⟩
/-- LMP_STATUS.OPEN_EVT, bits [2:2], W1C, reset 0 (chapter 20). -/
def LMP_STATUS.OPEN_EVT : RegField := ⟨0x7110, 2, 1, .w1c, 0⟩
/-- LMP_STATUS.HW_UPDATE_LOST, bits [1:1], W1C, reset 0 (chapter 20). -/
def LMP_STATUS.HW_UPDATE_LOST : RegField := ⟨0x7110, 1, 1, .w1c, 0⟩
/-- The register LMP_STATUS (chapter 20). -/
def LMP_STATUS : RegDef :=
  ⟨"LMP_STATUS", [⟨0x7110, [], 0⟩], false,
    [LMP_STATUS.FAULT_STATE, LMP_STATUS.LOCATE_STATE, LMP_STATUS.OPEN_EVT, LMP_STATUS.HW_UPDATE_LOST], none⟩

/-- QUE_CTL.ENABLE, bits [31:31], RW, reset 0 (chapter 18). -/
def QUE_CTL.ENABLE : RegField := ⟨0x80000, 31, 1, .rw, 0⟩
/-- QUE_CTL.PENDING, bits [30:30], RO, reset 0 (chapter 18). -/
def QUE_CTL.PENDING : RegField := ⟨0x80000, 30, 1, .ro, 0⟩
/-- QUE_CTL.MBX, bits [11:0], RW, reset 0 (chapter 18). -/
def QUE_CTL.MBX : RegField := ⟨0x80000, 0, 12, .rw, 0⟩
/-- The register QUE_CTL (chapter 18). -/
def QUE_CTL : RegDef :=
  ⟨"QUE_CTL", [⟨0x80000, [(4096, 0x20)], 0⟩], false,
    [QUE_CTL.ENABLE, QUE_CTL.PENDING, QUE_CTL.MBX], none⟩

/-- QUE_TAILPTR.TAIL_DPA, bits [39:3], RW, reset 0 (chapter 18). -/
def QUE_TAILPTR.TAIL_DPA : RegField := ⟨0x80008, 3, 37, .rw, 0⟩
/-- The register QUE_TAILPTR (chapter 18). -/
def QUE_TAILPTR : RegDef :=
  ⟨"QUE_TAILPTR", [⟨0x80008, [(4096, 0x20)], 0⟩], true,
    [QUE_TAILPTR.TAIL_DPA], none⟩

/-- QUE_TAIL.TAIL, bits [31:0], RO, reset 0 (chapter 18). -/
def QUE_TAIL.TAIL : RegField := ⟨0x80010, 0, 32, .ro, 0⟩
/-- The register QUE_TAIL (chapter 18). -/
def QUE_TAIL : RegDef :=
  ⟨"QUE_TAIL", [⟨0x80010, [(4096, 0x20)], 0⟩], false,
    [QUE_TAIL.TAIL], none⟩

/-- QUE_DOORBELLS.COUNT, bits [31:0], COUNT, reset 0 (chapter 18). -/
def QUE_DOORBELLS.COUNT : RegField := ⟨0x80018, 0, 32, .count, 0⟩
/-- The register QUE_DOORBELLS (chapter 18). -/
def QUE_DOORBELLS : RegDef :=
  ⟨"QUE_DOORBELLS", [⟨0x80018, [(4096, 0x20)], 0⟩], false,
    [QUE_DOORBELLS.COUNT], none⟩

/-- PWR_STATUS.HAULDOWN_ACTIVE, bits [2:2], RO, reset 0 (chapter 15). -/
def PWR_STATUS.HAULDOWN_ACTIVE : RegField := ⟨0x100000, 2, 1, .ro, 0⟩
/-- PWR_STATUS.HAULDOWN_EVT, bits [1:1], W1C, reset 0 (chapter 15). -/
def PWR_STATUS.HAULDOWN_EVT : RegField := ⟨0x100000, 1, 1, .w1c, 0⟩
/-- PWR_STATUS.HW_UPDATE_LOST, bits [0:0], W1C, reset 0 (chapter 15). -/
def PWR_STATUS.HW_UPDATE_LOST : RegField := ⟨0x100000, 0, 1, .w1c, 0⟩
/-- The register PWR_STATUS (chapter 15). -/
def PWR_STATUS : RegDef :=
  ⟨"PWR_STATUS", [⟨0x100000, [], 0⟩], false,
    [PWR_STATUS.HAULDOWN_ACTIVE, PWR_STATUS.HAULDOWN_EVT, PWR_STATUS.HW_UPDATE_LOST], none⟩

/-- PWR_CAP.CAP_W, bits [12:0], RW, reset 0xE10 (chapter 15). -/
def PWR_CAP.CAP_W : RegField := ⟨0x100010, 0, 13, .rw, 0xE10⟩
/-- The register PWR_CAP (chapter 15). -/
def PWR_CAP : RegDef :=
  ⟨"PWR_CAP", [⟨0x100010, [], 0⟩], false,
    [PWR_CAP.CAP_W], none⟩

/-- PWR_CAP_FAST.FAST_W, bits [12:0], RW, reset 0x1130 (chapter 15). -/
def PWR_CAP_FAST.FAST_W : RegField := ⟨0x100014, 0, 13, .rw, 0x1130⟩
/-- The register PWR_CAP_FAST (chapter 15). -/
def PWR_CAP_FAST : RegDef :=
  ⟨"PWR_CAP_FAST", [⟨0x100014, [], 0⟩], false,
    [PWR_CAP_FAST.FAST_W], none⟩

/-- PWR_CAP_WINDOW.MS, bits [9:0], RW, reset 0xA (chapter 15). -/
def PWR_CAP_WINDOW.MS : RegField := ⟨0x100018, 0, 10, .rw, 0xA⟩
/-- The register PWR_CAP_WINDOW (chapter 15). -/
def PWR_CAP_WINDOW : RegDef :=
  ⟨"PWR_CAP_WINDOW", [⟨0x100018, [], 0⟩], false,
    [PWR_CAP_WINDOW.MS], none⟩

/-- PWR_HAULDOWN.FORCE, bits [31:31], RW, reset 0 (chapter 15). -/
def PWR_HAULDOWN.FORCE : RegField := ⟨0x10001C, 31, 1, .rw, 0⟩
/-- PWR_HAULDOWN.HD_RAMP, bits [23:16], RW, reset 0xA (chapter 15). -/
def PWR_HAULDOWN.HD_RAMP : RegField := ⟨0x10001C, 16, 8, .rw, 0xA⟩
/-- PWR_HAULDOWN.HD_W, bits [11:0], RW, reset 0x4B0 (chapter 15). -/
def PWR_HAULDOWN.HD_W : RegField := ⟨0x10001C, 0, 12, .rw, 0x4B0⟩
/-- The register PWR_HAULDOWN (chapter 15). -/
def PWR_HAULDOWN : RegDef :=
  ⟨"PWR_HAULDOWN", [⟨0x10001C, [], 0⟩], false,
    [PWR_HAULDOWN.FORCE, PWR_HAULDOWN.HD_RAMP, PWR_HAULDOWN.HD_W], none⟩

/-- PWR_DROOP.DROOP_MV, bits [6:0], RW, reset 0x28 (chapter 15). -/
def PWR_DROOP.DROOP_MV : RegField := ⟨0x100020, 0, 7, .rw, 0x28⟩
/-- The register PWR_DROOP (chapter 15). -/
def PWR_DROOP : RegDef :=
  ⟨"PWR_DROOP", [⟨0x100020, [], 0⟩], false,
    [PWR_DROOP.DROOP_MV], none⟩

/-- PWR_PHASE_PO.PO, bits [2:0], RW, reset 1 (chapter 15). -/
def PWR_PHASE_PO.PO : RegField := ⟨0x100030, 0, 3, .rw, 1⟩
/-- The register PWR_PHASE_PO (chapter 15). -/
def PWR_PHASE_PO : RegDef :=
  ⟨"PWR_PHASE_PO", [⟨0x100030, [(8, 0x4)], 0⟩], false,
    [PWR_PHASE_PO.PO], none⟩

/-- PWR_THR_REASON.REASON, bits [11:0], RO, reset 0 (chapter 15). -/
def PWR_THR_REASON.REASON : RegField := ⟨0x100050, 0, 12, .ro, 0⟩
/-- The register PWR_THR_REASON (chapter 15). -/
def PWR_THR_REASON : RegDef :=
  ⟨"PWR_THR_REASON", [⟨0x100050, [], 0⟩], false,
    [PWR_THR_REASON.REASON], none⟩

/-- PWR_THR_SEEN.REASON, bits [11:0], W1C, reset 0 (chapter 15). -/
def PWR_THR_SEEN.REASON : RegField := ⟨0x100054, 0, 12, .w1c, 0⟩
/-- The register PWR_THR_SEEN (chapter 15). -/
def PWR_THR_SEEN : RegDef :=
  ⟨"PWR_THR_SEEN", [⟨0x100054, [], 0⟩], false,
    [PWR_THR_SEEN.REASON], none⟩

/-- PWR_TOKENS.INFLIGHT, bits [44:32], RO, reset 0 (chapter 15). -/
def PWR_TOKENS.INFLIGHT : RegField := ⟨0x100058, 32, 13, .ro, 0⟩
/-- PWR_TOKENS.HELD, bits [28:16], RO, reset 0 (chapter 15). -/
def PWR_TOKENS.HELD : RegField := ⟨0x100058, 16, 13, .ro, 0⟩
/-- PWR_TOKENS.POOL, bits [12:0], RO, reset 0 (chapter 15). -/
def PWR_TOKENS.POOL : RegField := ⟨0x100058, 0, 13, .ro, 0⟩
/-- The register PWR_TOKENS (chapter 15). -/
def PWR_TOKENS : RegDef :=
  ⟨"PWR_TOKENS", [⟨0x100058, [], 0⟩], true,
    [PWR_TOKENS.INFLIGHT, PWR_TOKENS.HELD, PWR_TOKENS.POOL], none⟩

/-- PWR_POWER.WATTS, bits [12:0], RO, reset 0 (chapter 15). -/
def PWR_POWER.WATTS : RegField := ⟨0x100060, 0, 13, .ro, 0⟩
/-- The register PWR_POWER (chapter 15). -/
def PWR_POWER : RegDef :=
  ⟨"PWR_POWER", [⟨0x100060, [], 0⟩], false,
    [PWR_POWER.WATTS], none⟩

/-- PWR_DROOP_EVENTS.COUNT, bits [63:0], COUNT, reset 0 (chapter 15). -/
def PWR_DROOP_EVENTS.COUNT : RegField := ⟨0x100068, 0, 64, .count, 0⟩
/-- The register PWR_DROOP_EVENTS (chapter 15). -/
def PWR_DROOP_EVENTS : RegDef :=
  ⟨"PWR_DROOP_EVENTS", [⟨0x100068, [], 0⟩], true,
    [PWR_DROOP_EVENTS.COUNT], none⟩

/-- PWR_ENERGY_DEVICE.COUNT, bits [63:0], COUNT, reset 0 (chapter 15). -/
def PWR_ENERGY_DEVICE.COUNT : RegField := ⟨0x100070, 0, 64, .count, 0⟩
/-- The register PWR_ENERGY_DEVICE (chapter 15). -/
def PWR_ENERGY_DEVICE : RegDef :=
  ⟨"PWR_ENERGY_DEVICE", [⟨0x100070, [], 0⟩], true,
    [PWR_ENERGY_DEVICE.COUNT], none⟩

/-- PWR_ENERGY_SYSTEM.COUNT, bits [63:0], COUNT, reset 0 (chapter 15). -/
def PWR_ENERGY_SYSTEM.COUNT : RegField := ⟨0x100078, 0, 64, .count, 0⟩
/-- The register PWR_ENERGY_SYSTEM (chapter 15). -/
def PWR_ENERGY_SYSTEM : RegDef :=
  ⟨"PWR_ENERGY_SYSTEM", [⟨0x100078, [], 0⟩], true,
    [PWR_ENERGY_SYSTEM.COUNT], none⟩

/-- PWR_ENERGY_IDLE.COUNT, bits [63:0], COUNT, reset 0 (chapter 15). -/
def PWR_ENERGY_IDLE.COUNT : RegField := ⟨0x100080, 0, 64, .count, 0⟩
/-- The register PWR_ENERGY_IDLE (chapter 15). -/
def PWR_ENERGY_IDLE : RegDef :=
  ⟨"PWR_ENERGY_IDLE", [⟨0x100080, [], 0⟩], true,
    [PWR_ENERGY_IDLE.COUNT], none⟩

/-- PWR_THR_TIME.NS, bits [63:0], COUNT, reset 0 (chapter 15). -/
def PWR_THR_TIME.NS : RegField := ⟨0x100100, 0, 64, .count, 0⟩
/-- The register PWR_THR_TIME (chapter 15). -/
def PWR_THR_TIME : RegDef :=
  ⟨"PWR_THR_TIME", [⟨0x100100, [(12, 0x8)], 0⟩], true,
    [PWR_THR_TIME.NS], none⟩

/-- PWR_ISL.TOKENS, bits [26:16], RO, reset 0 (chapter 15). -/
def PWR_ISL.TOKENS : RegField := ⟨0x100800, 16, 11, .ro, 0⟩
/-- PWR_ISL.PO, bits [10:8], RO, reset 0 (chapter 15). -/
def PWR_ISL.PO : RegField := ⟨0x100800, 8, 3, .ro, 0⟩
/-- PWR_ISL.HD_DIV, bits [6:4], RO, reset 0 (chapter 15). -/
def PWR_ISL.HD_DIV : RegField := ⟨0x100800, 4, 3, .ro, 0⟩
/-- PWR_ISL.STRETCH, bits [1:1], RO, reset 0 (chapter 15). -/
def PWR_ISL.STRETCH : RegField := ⟨0x100800, 1, 1, .ro, 0⟩
/-- PWR_ISL.HD, bits [0:0], RO, reset 0 (chapter 15). -/
def PWR_ISL.HD : RegField := ⟨0x100800, 0, 1, .ro, 0⟩
/-- The register PWR_ISL (chapter 15). -/
def PWR_ISL : RegDef :=
  ⟨"PWR_ISL", [⟨0x100800, [(144, 0x4)], 0⟩], false,
    [PWR_ISL.TOKENS, PWR_ISL.PO, PWR_ISL.HD_DIV, PWR_ISL.STRETCH, PWR_ISL.HD], none⟩

/-- PWR_ENERGY_PART.UJ, bits [63:0], COUNT, reset 0 (chapter 15). -/
def PWR_ENERGY_PART.UJ : RegField := ⟨0x101000, 0, 64, .count, 0⟩
/-- The register PWR_ENERGY_PART (chapter 15). -/
def PWR_ENERGY_PART : RegDef :=
  ⟨"PWR_ENERGY_PART", [⟨0x101000, [(256, 0x8)], 0⟩], true,
    [PWR_ENERGY_PART.UJ], none⟩

/-- PWR_ENERGY_JOB.UJ, bits [63:0], COUNT, reset 0 (chapter 15). -/
def PWR_ENERGY_JOB.UJ : RegField := ⟨0x101800, 0, 64, .count, 0⟩
/-- The register PWR_ENERGY_JOB (chapter 15). -/
def PWR_ENERGY_JOB : RegDef :=
  ⟨"PWR_ENERGY_JOB", [⟨0x101800, [(256, 0x8)], 0⟩], true,
    [PWR_ENERGY_JOB.UJ], none⟩

/-- THM_STATUS.WEAR_LIFE, bits [6:6], RO, reset 0 (chapter 15). -/
def THM_STATUS.WEAR_LIFE : RegField := ⟨0x180000, 6, 1, .ro, 0⟩
/-- THM_STATUS.WEAR_DERATE, bits [5:5], RO, reset 0 (chapter 15). -/
def THM_STATUS.WEAR_DERATE : RegField := ⟨0x180000, 5, 1, .ro, 0⟩
/-- THM_STATUS.SUSPECT_EVT, bits [4:4], W1C, reset 0 (chapter 15). -/
def THM_STATUS.SUSPECT_EVT : RegField := ⟨0x180000, 4, 1, .w1c, 0⟩
/-- THM_STATUS.RATE_EVT, bits [3:3], W1C, reset 0 (chapter 15). -/
def THM_STATUS.RATE_EVT : RegField := ⟨0x180000, 3, 1, .w1c, 0⟩
/-- THM_STATUS.THROTTLE_EVT, bits [2:2], W1C, reset 0 (chapter 15). -/
def THM_STATUS.THROTTLE_EVT : RegField := ⟨0x180000, 2, 1, .w1c, 0⟩
/-- THM_STATUS.WARN, bits [1:1], W1C, reset 0 (chapter 15). -/
def THM_STATUS.WARN : RegField := ⟨0x180000, 1, 1, .w1c, 0⟩
/-- THM_STATUS.HW_UPDATE_LOST, bits [0:0], W1C, reset 0 (chapter 15). -/
def THM_STATUS.HW_UPDATE_LOST : RegField := ⟨0x180000, 0, 1, .w1c, 0⟩
/-- The register THM_STATUS (chapter 15). -/
def THM_STATUS : RegDef :=
  ⟨"THM_STATUS", [⟨0x180000, [], 0⟩], false,
    [THM_STATUS.WEAR_LIFE, THM_STATUS.WEAR_DERATE, THM_STATUS.SUSPECT_EVT, THM_STATUS.RATE_EVT, THM_STATUS.THROTTLE_EVT, THM_STATUS.WARN, THM_STATUS.HW_UPDATE_LOST], none⟩

/-- THM_MAX.SENSOR, bits [24:16], RO, reset 0 (chapter 15). -/
def THM_MAX.SENSOR : RegField := ⟨0x180004, 16, 9, .ro, 0⟩
/-- THM_MAX.TEMP, bits [15:0], RO, reset 0 (chapter 15). -/
def THM_MAX.TEMP : RegField := ⟨0x180004, 0, 16, .ro, 0⟩
/-- The register THM_MAX (chapter 15). -/
def THM_MAX : RegDef :=
  ⟨"THM_MAX", [⟨0x180004, [], 0⟩], false,
    [THM_MAX.SENSOR, THM_MAX.TEMP], none⟩

/-- THM_WEAR.UNITS, bits [16:0], RO, reset 0 (reset given as: From the sketchbook) (chapter 15). -/
def THM_WEAR.UNITS : RegField := ⟨0x180010, 0, 17, .ro, 0⟩
/-- The register THM_WEAR (chapter 15). -/
def THM_WEAR : RegDef :=
  ⟨"THM_WEAR", [⟨0x180010, [(4, 0x4)], 0⟩], false,
    [THM_WEAR.UNITS], none⟩

/-- THM_SENSOR.SUSPECT, bits [31:31], W1C, reset 0 (chapter 15). -/
def THM_SENSOR.SUSPECT : RegField := ⟨0x181000, 31, 1, .w1c, 0⟩
/-- THM_SENSOR.STANDIN, bits [30:30], RO, reset 0 (chapter 15). -/
def THM_SENSOR.STANDIN : RegField := ⟨0x181000, 30, 1, .ro, 0⟩
/-- THM_SENSOR.TEMP, bits [15:0], RO, reset 0 (chapter 15). -/
def THM_SENSOR.TEMP : RegField := ⟨0x181000, 0, 16, .ro, 0⟩
/-- The register THM_SENSOR (chapter 15). -/
def THM_SENSOR : RegDef :=
  ⟨"THM_SENSOR", [⟨0x181000, [(496, 0x4)], 0⟩], false,
    [THM_SENSOR.SUSPECT, THM_SENSOR.STANDIN, THM_SENSOR.TEMP], none⟩

/-- SEC_STATUS.CONF_EVT, bits [7:7], W1C, reset 0 (chapter 16). -/
def SEC_STATUS.CONF_EVT : RegField := ⟨0x200000, 7, 1, .w1c, 0⟩
/-- SEC_STATUS.MBX_DONE, bits [6:6], W1C, reset 0 (chapter 16). -/
def SEC_STATUS.MBX_DONE : RegField := ⟨0x200000, 6, 1, .w1c, 0⟩
/-- SEC_STATUS.HW_UPDATE_LOST, bits [5:5], W1C, reset 0 (chapter 16). -/
def SEC_STATUS.HW_UPDATE_LOST : RegField := ⟨0x200000, 5, 1, .w1c, 0⟩
/-- SEC_STATUS.DENIED, bits [4:4], W1C, reset 0 (chapter 16). -/
def SEC_STATUS.DENIED : RegField := ⟨0x200000, 4, 1, .w1c, 0⟩
/-- SEC_STATUS.TAMPER_EVT, bits [3:3], W1C, reset 0 (chapter 16). -/
def SEC_STATUS.TAMPER_EVT : RegField := ⟨0x200000, 3, 1, .w1c, 0⟩
/-- SEC_STATUS.TAMPER_LATCH, bits [2:2], RO, reset 0 (reset given as: From the always-on domain) (chapter 16). -/
def SEC_STATUS.TAMPER_LATCH : RegField := ⟨0x200000, 2, 1, .ro, 0⟩
/-- SEC_STATUS.EXITING, bits [1:1], RO, reset 0 (chapter 16). -/
def SEC_STATUS.EXITING : RegField := ⟨0x200000, 1, 1, .ro, 0⟩
/-- SEC_STATUS.CONF, bits [0:0], RO, reset 0 (chapter 16). -/
def SEC_STATUS.CONF : RegField := ⟨0x200000, 0, 1, .ro, 0⟩
/-- The register SEC_STATUS (chapter 16). -/
def SEC_STATUS : RegDef :=
  ⟨"SEC_STATUS", [⟨0x200000, [], 0⟩], false,
    [SEC_STATUS.CONF_EVT, SEC_STATUS.MBX_DONE, SEC_STATUS.HW_UPDATE_LOST, SEC_STATUS.DENIED, SEC_STATUS.TAMPER_EVT, SEC_STATUS.TAMPER_LATCH, SEC_STATUS.EXITING, SEC_STATUS.CONF], none⟩

/-- SEC_MBX_CMD.OPCODE, bits [31:24], WO, reset 0 (chapter 16). -/
def SEC_MBX_CMD.OPCODE : RegField := ⟨0x200004, 24, 8, .wo, 0⟩
/-- SEC_MBX_CMD.LEN, bits [12:0], WO, reset 0 (chapter 16). -/
def SEC_MBX_CMD.LEN : RegField := ⟨0x200004, 0, 13, .wo, 0⟩
/-- The register SEC_MBX_CMD (chapter 16). -/
def SEC_MBX_CMD : RegDef :=
  ⟨"SEC_MBX_CMD", [⟨0x200004, [], 0⟩], false,
    [SEC_MBX_CMD.OPCODE, SEC_MBX_CMD.LEN], none⟩

/-- SEC_MBX_STATUS.RLEN, bits [29:17], RO, reset 0 (chapter 16). -/
def SEC_MBX_STATUS.RLEN : RegField := ⟨0x200008, 17, 13, .ro, 0⟩
/-- SEC_MBX_STATUS.BUSY, bits [16:16], RO, reset 0 (chapter 16). -/
def SEC_MBX_STATUS.BUSY : RegField := ⟨0x200008, 16, 1, .ro, 0⟩
/-- SEC_MBX_STATUS.CODE, bits [15:0], RO, reset 0 (chapter 16). -/
def SEC_MBX_STATUS.CODE : RegField := ⟨0x200008, 0, 16, .ro, 0⟩
/-- The register SEC_MBX_STATUS (chapter 16). -/
def SEC_MBX_STATUS : RegDef :=
  ⟨"SEC_MBX_STATUS", [⟨0x200008, [], 0⟩], false,
    [SEC_MBX_STATUS.RLEN, SEC_MBX_STATUS.BUSY, SEC_MBX_STATUS.CODE], none⟩

/-- SEC_EPOCH.COUNT, bits [31:0], RO, reset 0 (chapter 16). -/
def SEC_EPOCH.COUNT : RegField := ⟨0x20000C, 0, 32, .ro, 0⟩
/-- The register SEC_EPOCH (chapter 16). -/
def SEC_EPOCH : RegDef :=
  ⟨"SEC_EPOCH", [⟨0x20000C, [], 0⟩], false,
    [SEC_EPOCH.COUNT], none⟩

/-- SEC_MEAS.WORD, bits [31:0], RO, reset 0 (chapter 16). -/
def SEC_MEAS.WORD : RegField := ⟨0x200100, 0, 32, .ro, 0⟩
/-- The register SEC_MEAS (chapter 16). -/
def SEC_MEAS : RegDef :=
  ⟨"SEC_MEAS", [⟨0x200100, [(6, 0x40), (12, 0x4)], 0⟩], false,
    [SEC_MEAS.WORD], none⟩

/-- SEC_TAMPER.TIME, bits [63:24], RO, reset 0 (reset given as: From the always-on domain) (chapter 16). -/
def SEC_TAMPER.TIME : RegField := ⟨0x200800, 24, 40, .ro, 0⟩
/-- SEC_TAMPER.CAUSE, bits [23:16], RO, reset 0 (reset given as: From the always-on domain) (chapter 16). -/
def SEC_TAMPER.CAUSE : RegField := ⟨0x200800, 16, 8, .ro, 0⟩
/-- SEC_TAMPER.VALUE, bits [15:0], RO, reset 0 (reset given as: From the always-on domain) (chapter 16). -/
def SEC_TAMPER.VALUE : RegField := ⟨0x200800, 0, 16, .ro, 0⟩
/-- The register SEC_TAMPER (chapter 16). -/
def SEC_TAMPER : RegDef :=
  ⟨"SEC_TAMPER", [⟨0x200800, [(32, 0x8)], 0⟩], true,
    [SEC_TAMPER.TIME, SEC_TAMPER.CAUSE, SEC_TAMPER.VALUE], none⟩

/-- SEC_TAMPER_HEAD.WRAPPED, bits [5:5], RO, reset 0 (reset given as: From the always-on domain) (chapter 16). -/
def SEC_TAMPER_HEAD.WRAPPED : RegField := ⟨0x200900, 5, 1, .ro, 0⟩
/-- SEC_TAMPER_HEAD.NEXT, bits [4:0], RO, reset 0 (reset given as: From the always-on domain) (chapter 16). -/
def SEC_TAMPER_HEAD.NEXT : RegField := ⟨0x200900, 0, 5, .ro, 0⟩
/-- The register SEC_TAMPER_HEAD (chapter 16). -/
def SEC_TAMPER_HEAD : RegDef :=
  ⟨"SEC_TAMPER_HEAD", [⟨0x200900, [], 0⟩], false,
    [SEC_TAMPER_HEAD.WRAPPED, SEC_TAMPER_HEAD.NEXT], none⟩

/-- DMA_ENG_STATUS.TAGS_FREE, bits [31:17], RO, reset 0x4000 (chapter 11). -/
def DMA_ENG_STATUS.TAGS_FREE : RegField := ⟨0x300000, 17, 15, .ro, 0x4000⟩
/-- DMA_ENG_STATUS.HW_UPDATE_LOST, bits [2:2], W1C, reset 0 (chapter 11). -/
def DMA_ENG_STATUS.HW_UPDATE_LOST : RegField := ⟨0x300000, 2, 1, .w1c, 0⟩
/-- DMA_ENG_STATUS.CH_ERR, bits [1:1], RO, reset 0 (chapter 11). -/
def DMA_ENG_STATUS.CH_ERR : RegField := ⟨0x300000, 1, 1, .ro, 0⟩
/-- The register DMA_ENG_STATUS (chapter 11). -/
def DMA_ENG_STATUS : RegDef :=
  ⟨"DMA_ENG_STATUS", [⟨0x27C0000, [(4, 0x800000)], 0⟩, ⟨0x300000, [], 4⟩], false,
    [DMA_ENG_STATUS.TAGS_FREE, DMA_ENG_STATUS.HW_UPDATE_LOST, DMA_ENG_STATUS.CH_ERR], none⟩

/-- DMA_CH_CTL.RESUME, bits [13:12], WO, reset 0 (chapter 11). -/
def DMA_CH_CTL.RESUME : RegField := ⟨0x301000, 12, 2, .wo, 0⟩
/-- DMA_CH_CTL.STOP, bits [11:11], W1S, reset 0 (chapter 11). -/
def DMA_CH_CTL.STOP : RegField := ⟨0x301000, 11, 1, .w1s, 0⟩
/-- DMA_CH_CTL.ENABLE, bits [10:10], RW, reset 0 (chapter 11). -/
def DMA_CH_CTL.ENABLE : RegField := ⟨0x301000, 10, 1, .rw, 0⟩
/-- DMA_CH_CTL.PRIO, bits [9:7], RW, reset 0 (chapter 11). -/
def DMA_CH_CTL.PRIO : RegField := ⟨0x301000, 7, 3, .rw, 0⟩
/-- DMA_CH_CTL.SIZE_LOG2, bits [4:0], RW, reset 4 (chapter 11). -/
def DMA_CH_CTL.SIZE_LOG2 : RegField := ⟨0x301000, 0, 5, .rw, 4⟩
/-- The register DMA_CH_CTL (chapter 11). -/
def DMA_CH_CTL : RegDef :=
  ⟨"DMA_CH_CTL", [⟨0x27C1000, [(4, 0x800000), (64, 0x100)], 0⟩, ⟨0x301000, [(64, 0x100)], 256⟩], false,
    [DMA_CH_CTL.RESUME, DMA_CH_CTL.STOP, DMA_CH_CTL.ENABLE, DMA_CH_CTL.PRIO, DMA_CH_CTL.SIZE_LOG2], none⟩

/-- DMA_CH_RETRY.RETRY, bits [3:0], RW, reset 3 (chapter 11). -/
def DMA_CH_RETRY.RETRY : RegField := ⟨0x301004, 0, 4, .rw, 3⟩
/-- The register DMA_CH_RETRY (chapter 11). -/
def DMA_CH_RETRY : RegDef :=
  ⟨"DMA_CH_RETRY", [⟨0x27C1004, [(4, 0x800000), (64, 0x100)], 0⟩, ⟨0x301004, [(64, 0x100)], 256⟩], false,
    [DMA_CH_RETRY.RETRY], none⟩

/-- DMA_CH_BASE.BASE, bits [39:11], RW, reset 0 (chapter 11). -/
def DMA_CH_BASE.BASE : RegField := ⟨0x301008, 11, 29, .rw, 0⟩
/-- The register DMA_CH_BASE (chapter 11). -/
def DMA_CH_BASE : RegDef :=
  ⟨"DMA_CH_BASE", [⟨0x27C1008, [(4, 0x800000), (64, 0x100)], 0⟩, ⟨0x301008, [(64, 0x100)], 256⟩], true,
    [DMA_CH_BASE.BASE], none⟩

/-- DMA_CH_DB.DB_VALID, bits [63:63], RW, reset 0 (chapter 11). -/
def DMA_CH_DB.DB_VALID : RegField := ⟨0x301010, 63, 1, .rw, 0⟩
/-- DMA_CH_DB.DB_DPA, bits [39:3], RW, reset 0 (chapter 11). -/
def DMA_CH_DB.DB_DPA : RegField := ⟨0x301010, 3, 37, .rw, 0⟩
/-- The register DMA_CH_DB (chapter 11). -/
def DMA_CH_DB : RegDef :=
  ⟨"DMA_CH_DB", [⟨0x27C1010, [(4, 0x800000), (64, 0x100)], 0⟩, ⟨0x301010, [(64, 0x100)], 256⟩], true,
    [DMA_CH_DB.DB_VALID, DMA_CH_DB.DB_DPA], none⟩

/-- DMA_CH_HEAD.HEAD, bits [31:0], RO, reset 0 (chapter 11). -/
def DMA_CH_HEAD.HEAD : RegField := ⟨0x30101C, 0, 32, .ro, 0⟩
/-- The register DMA_CH_HEAD (chapter 11). -/
def DMA_CH_HEAD : RegDef :=
  ⟨"DMA_CH_HEAD", [⟨0x27C101C, [(4, 0x800000), (64, 0x100)], 0⟩, ⟨0x30101C, [(64, 0x100)], 256⟩], false,
    [DMA_CH_HEAD.HEAD], none⟩

/-- DMA_CH_STATUS.TAGS, bits [31:21], RO, reset 0 (chapter 11). -/
def DMA_CH_STATUS.TAGS : RegField := ⟨0x301020, 21, 11, .ro, 0⟩
/-- DMA_CH_STATUS.ERR, bits [19:19], W1C, reset 0 (chapter 11). -/
def DMA_CH_STATUS.ERR : RegField := ⟨0x301020, 19, 1, .w1c, 0⟩
/-- DMA_CH_STATUS.DONE, bits [18:18], W1C, reset 0 (chapter 11). -/
def DMA_CH_STATUS.DONE : RegField := ⟨0x301020, 18, 1, .w1c, 0⟩
/-- DMA_CH_STATUS.STATE, bits [17:16], RO, reset 0 (chapter 11). -/
def DMA_CH_STATUS.STATE : RegField := ⟨0x301020, 16, 2, .ro, 0⟩
/-- DMA_CH_STATUS.CODE, bits [15:0], RO, reset 0 (chapter 11). -/
def DMA_CH_STATUS.CODE : RegField := ⟨0x301020, 0, 16, .ro, 0⟩
/-- The register DMA_CH_STATUS (chapter 11). -/
def DMA_CH_STATUS : RegDef :=
  ⟨"DMA_CH_STATUS", [⟨0x27C1020, [(4, 0x800000), (64, 0x100)], 0⟩, ⟨0x301020, [(64, 0x100)], 256⟩], false,
    [DMA_CH_STATUS.TAGS, DMA_CH_STATUS.ERR, DMA_CH_STATUS.DONE, DMA_CH_STATUS.STATE, DMA_CH_STATUS.CODE], none⟩

/-- DMA_CH_OWNER.OWNED, bits [9:9], RW, reset 0 (chapter 11). -/
def DMA_CH_OWNER.OWNED : RegField := ⟨0x301024, 9, 1, .rw, 0⟩
/-- DMA_CH_OWNER.JOBCLASS, bits [8:8], RW, reset 0 (chapter 11). -/
def DMA_CH_OWNER.JOBCLASS : RegField := ⟨0x301024, 8, 1, .rw, 0⟩
/-- DMA_CH_OWNER.PARTITION, bits [7:0], RW, reset 0 (chapter 11). -/
def DMA_CH_OWNER.PARTITION : RegField := ⟨0x301024, 0, 8, .rw, 0⟩
/-- The register DMA_CH_OWNER (chapter 11). -/
def DMA_CH_OWNER : RegDef :=
  ⟨"DMA_CH_OWNER", [⟨0x27C1024, [(4, 0x800000), (64, 0x100)], 0⟩, ⟨0x301024, [(64, 0x100)], 256⟩], false,
    [DMA_CH_OWNER.OWNED, DMA_CH_OWNER.JOBCLASS, DMA_CH_OWNER.PARTITION], none⟩

/-- DMA_CH_FAIL.OFFSET, bits [63:22], RO, reset 0 (chapter 11). -/
def DMA_CH_FAIL.OFFSET : RegField := ⟨0x301028, 22, 42, .ro, 0⟩
/-- DMA_CH_FAIL.SEQ, bits [21:0], RO, reset 0 (chapter 11). -/
def DMA_CH_FAIL.SEQ : RegField := ⟨0x301028, 0, 22, .ro, 0⟩
/-- The register DMA_CH_FAIL (chapter 11). -/
def DMA_CH_FAIL : RegDef :=
  ⟨"DMA_CH_FAIL", [⟨0x27C1028, [(4, 0x800000), (64, 0x100)], 0⟩, ⟨0x301028, [(64, 0x100)], 256⟩], true,
    [DMA_CH_FAIL.OFFSET, DMA_CH_FAIL.SEQ], none⟩

/-- DMA_CH_BYTES.COUNT, bits [63:0], COUNT, reset 0 (chapter 11). -/
def DMA_CH_BYTES.COUNT : RegField := ⟨0x301030, 0, 64, .count, 0⟩
/-- The register DMA_CH_BYTES (chapter 11). -/
def DMA_CH_BYTES : RegDef :=
  ⟨"DMA_CH_BYTES", [⟨0x27C1030, [(4, 0x800000), (64, 0x100)], 0⟩, ⟨0x301030, [(64, 0x100)], 256⟩], true,
    [DMA_CH_BYTES.COUNT], none⟩

/-- SPR_COORD.LOCK, bits [31:31], RWL, reset 0 (chapter 13). -/
def SPR_COORD.LOCK : RegField := ⟨0x400000, 31, 1, .rwl, 0⟩
/-- SPR_COORD.COORD, bits [15:0], RWL, reset 0 (chapter 13). -/
def SPR_COORD.COORD : RegField := ⟨0x400000, 0, 16, .rwl, 0⟩
/-- The register SPR_COORD (chapter 13). -/
def SPR_COORD : RegDef :=
  ⟨"SPR_COORD", [⟨0x400000, [], 0⟩], false,
    [SPR_COORD.LOCK, SPR_COORD.COORD], none⟩

/-- SPR_DIM.W_SIZE, bits [15:10], RWL, reset 0 (chapter 13). -/
def SPR_DIM.W_SIZE : RegField := ⟨0x400004, 10, 6, .rwl, 0⟩
/-- SPR_DIM.Z_SIZE, bits [9:5], RWL, reset 0 (chapter 13). -/
def SPR_DIM.Z_SIZE : RegField := ⟨0x400004, 5, 5, .rwl, 0⟩
/-- SPR_DIM.Y_SIZE, bits [4:2], RWL, reset 0 (chapter 13). -/
def SPR_DIM.Y_SIZE : RegField := ⟨0x400004, 2, 3, .rwl, 0⟩
/-- SPR_DIM.X_SIZE, bits [1:0], RWL, reset 0 (chapter 13). -/
def SPR_DIM.X_SIZE : RegField := ⟨0x400004, 0, 2, .rwl, 0⟩
/-- The register SPR_DIM (chapter 13). -/
def SPR_DIM : RegDef :=
  ⟨"SPR_DIM", [⟨0x400004, [], 0⟩], false,
    [SPR_DIM.W_SIZE, SPR_DIM.Z_SIZE, SPR_DIM.Y_SIZE, SPR_DIM.X_SIZE], none⟩

/-- SPR_RING_CUT.W_EN, bits [31:31], RW, reset 0 (chapter 13). -/
def SPR_RING_CUT.W_EN : RegField := ⟨0x400008, 31, 1, .rw, 0⟩
/-- SPR_RING_CUT.W_POS, bits [29:24], RW, reset 0 (chapter 13). -/
def SPR_RING_CUT.W_POS : RegField := ⟨0x400008, 24, 6, .rw, 0⟩
/-- SPR_RING_CUT.Z_EN, bits [23:23], RW, reset 0 (chapter 13). -/
def SPR_RING_CUT.Z_EN : RegField := ⟨0x400008, 23, 1, .rw, 0⟩
/-- SPR_RING_CUT.Z_POS, bits [20:16], RW, reset 0 (chapter 13). -/
def SPR_RING_CUT.Z_POS : RegField := ⟨0x400008, 16, 5, .rw, 0⟩
/-- SPR_RING_CUT.Y_EN, bits [15:15], RW, reset 0 (chapter 13). -/
def SPR_RING_CUT.Y_EN : RegField := ⟨0x400008, 15, 1, .rw, 0⟩
/-- SPR_RING_CUT.Y_POS, bits [10:8], RW, reset 0 (chapter 13). -/
def SPR_RING_CUT.Y_POS : RegField := ⟨0x400008, 8, 3, .rw, 0⟩
/-- SPR_RING_CUT.X_EN, bits [7:7], RW, reset 0 (chapter 13). -/
def SPR_RING_CUT.X_EN : RegField := ⟨0x400008, 7, 1, .rw, 0⟩
/-- SPR_RING_CUT.X_POS, bits [1:0], RW, reset 0 (chapter 13). -/
def SPR_RING_CUT.X_POS : RegField := ⟨0x400008, 0, 2, .rw, 0⟩
/-- The register SPR_RING_CUT (chapter 13). -/
def SPR_RING_CUT : RegDef :=
  ⟨"SPR_RING_CUT", [⟨0x400008, [], 0⟩], false,
    [SPR_RING_CUT.W_EN, SPR_RING_CUT.W_POS, SPR_RING_CUT.Z_EN, SPR_RING_CUT.Z_POS, SPR_RING_CUT.Y_EN, SPR_RING_CUT.Y_POS, SPR_RING_CUT.X_EN, SPR_RING_CUT.X_POS], none⟩

/-- SPR_GLB_STATUS.UNREACHABLE, bits [3:3], W1C, reset 0 (chapter 13). -/
def SPR_GLB_STATUS.UNREACHABLE : RegField := ⟨0x40000C, 3, 1, .w1c, 0⟩
/-- SPR_GLB_STATUS.HOP_LIMIT, bits [2:2], W1C, reset 0 (chapter 13). -/
def SPR_GLB_STATUS.HOP_LIMIT : RegField := ⟨0x40000C, 2, 1, .w1c, 0⟩
/-- SPR_GLB_STATUS.HW_UPDATE_LOST, bits [1:1], W1C, reset 0 (chapter 13). -/
def SPR_GLB_STATUS.HW_UPDATE_LOST : RegField := ⟨0x40000C, 1, 1, .w1c, 0⟩
/-- SPR_GLB_STATUS.LOCKED_WRITE, bits [0:0], W1C, reset 0 (chapter 13). -/
def SPR_GLB_STATUS.LOCKED_WRITE : RegField := ⟨0x40000C, 0, 1, .w1c, 0⟩
/-- The register SPR_GLB_STATUS (chapter 13). -/
def SPR_GLB_STATUS : RegDef :=
  ⟨"SPR_GLB_STATUS", [⟨0x40000C, [], 0⟩], false,
    [SPR_GLB_STATUS.UNREACHABLE, SPR_GLB_STATUS.HOP_LIMIT, SPR_GLB_STATUS.HW_UPDATE_LOST, SPR_GLB_STATUS.LOCKED_WRITE], none⟩

/-- SPR_CTL.REKEY, bits [3:3], W1S, reset 0 (chapter 13). -/
def SPR_CTL.REKEY : RegField := ⟨0x401000, 3, 1, .w1s, 0⟩
/-- SPR_CTL.RETRAIN, bits [2:2], W1S, reset 0 (chapter 13). -/
def SPR_CTL.RETRAIN : RegField := ⟨0x401000, 2, 1, .w1s, 0⟩
/-- SPR_CTL.ENABLE, bits [0:0], RW, reset 0 (chapter 13). -/
def SPR_CTL.ENABLE : RegField := ⟨0x401000, 0, 1, .rw, 0⟩
/-- The register SPR_CTL (chapter 13). -/
def SPR_CTL : RegDef :=
  ⟨"SPR_CTL", [⟨0x401000, [(8, 0x80000)], 0⟩], false,
    [SPR_CTL.REKEY, SPR_CTL.RETRAIN, SPR_CTL.ENABLE], none⟩

/-- SPR_STATUS.LINK, bits [31:29], RO, reset 0 (chapter 13). -/
def SPR_STATUS.LINK : RegField := ⟨0x401004, 29, 3, .ro, 0⟩
/-- SPR_STATUS.WIDTH, bits [28:27], RO, reset 0 (chapter 13). -/
def SPR_STATUS.WIDTH : RegField := ⟨0x401004, 27, 2, .ro, 0⟩
/-- SPR_STATUS.RATE, bits [26:26], RO, reset 0 (chapter 13). -/
def SPR_STATUS.RATE : RegField := ⟨0x401004, 26, 1, .ro, 0⟩
/-- SPR_STATUS.KEY_EXHAUSTED, bits [9:9], W1C, reset 0 (chapter 13). -/
def SPR_STATUS.KEY_EXHAUSTED : RegField := ⟨0x401004, 9, 1, .w1c, 0⟩
/-- SPR_STATUS.REKEY_DUE, bits [8:8], W1C, reset 0 (chapter 13). -/
def SPR_STATUS.REKEY_DUE : RegField := ⟨0x401004, 8, 1, .w1c, 0⟩
/-- SPR_STATUS.AUTH_EVT, bits [7:7], W1C, reset 0 (chapter 13). -/
def SPR_STATUS.AUTH_EVT : RegField := ⟨0x401004, 7, 1, .w1c, 0⟩
/-- SPR_STATUS.WIRING_ERR, bits [6:6], W1C, reset 0 (chapter 13). -/
def SPR_STATUS.WIRING_ERR : RegField := ⟨0x401004, 6, 1, .w1c, 0⟩
/-- SPR_STATUS.DOWN_EVT, bits [5:5], W1C, reset 0 (chapter 13). -/
def SPR_STATUS.DOWN_EVT : RegField := ⟨0x401004, 5, 1, .w1c, 0⟩
/-- SPR_STATUS.WIDTH_CHANGED, bits [4:4], W1C, reset 0 (chapter 13). -/
def SPR_STATUS.WIDTH_CHANGED : RegField := ⟨0x401004, 4, 1, .w1c, 0⟩
/-- SPR_STATUS.CREDIT_LEAK, bits [3:3], W1C, reset 0 (chapter 13). -/
def SPR_STATUS.CREDIT_LEAK : RegField := ⟨0x401004, 3, 1, .w1c, 0⟩
/-- SPR_STATUS.LANE_FAILED, bits [2:2], W1C, reset 0 (chapter 13). -/
def SPR_STATUS.LANE_FAILED : RegField := ⟨0x401004, 2, 1, .w1c, 0⟩
/-- SPR_STATUS.HW_UPDATE_LOST, bits [1:1], W1C, reset 0 (chapter 13). -/
def SPR_STATUS.HW_UPDATE_LOST : RegField := ⟨0x401004, 1, 1, .w1c, 0⟩
/-- The register SPR_STATUS (chapter 13). -/
def SPR_STATUS : RegDef :=
  ⟨"SPR_STATUS", [⟨0x401004, [(8, 0x80000)], 0⟩], false,
    [SPR_STATUS.LINK, SPR_STATUS.WIDTH, SPR_STATUS.RATE, SPR_STATUS.KEY_EXHAUSTED, SPR_STATUS.REKEY_DUE, SPR_STATUS.AUTH_EVT, SPR_STATUS.WIRING_ERR, SPR_STATUS.DOWN_EVT, SPR_STATUS.WIDTH_CHANGED, SPR_STATUS.CREDIT_LEAK, SPR_STATUS.LANE_FAILED, SPR_STATUS.HW_UPDATE_LOST], none⟩

/-- SPR_PEER.VALID, bits [31:31], RO, reset 0 (chapter 13). -/
def SPR_PEER.VALID : RegField := ⟨0x401008, 31, 1, .ro, 0⟩
/-- SPR_PEER.PORT, bits [18:16], RO, reset 0 (chapter 13). -/
def SPR_PEER.PORT : RegField := ⟨0x401008, 16, 3, .ro, 0⟩
/-- SPR_PEER.COORD, bits [15:0], RO, reset 0 (chapter 13). -/
def SPR_PEER.COORD : RegField := ⟨0x401008, 0, 16, .ro, 0⟩
/-- The register SPR_PEER (chapter 13). -/
def SPR_PEER : RegDef :=
  ⟨"SPR_PEER", [⟨0x401008, [(8, 0x80000)], 0⟩], false,
    [SPR_PEER.VALID, SPR_PEER.PORT, SPR_PEER.COORD], none⟩

/-- SPR_LANE_FAIL.TX, bits [31:16], RO, reset 0 (chapter 13). -/
def SPR_LANE_FAIL.TX : RegField := ⟨0x40100C, 16, 16, .ro, 0⟩
/-- SPR_LANE_FAIL.RX, bits [15:0], RO, reset 0 (chapter 13). -/
def SPR_LANE_FAIL.RX : RegField := ⟨0x40100C, 0, 16, .ro, 0⟩
/-- The register SPR_LANE_FAIL (chapter 13). -/
def SPR_LANE_FAIL : RegDef :=
  ⟨"SPR_LANE_FAIL", [⟨0x40100C, [(8, 0x80000)], 0⟩], false,
    [SPR_LANE_FAIL.TX, SPR_LANE_FAIL.RX], none⟩

/-- SPR_KEY.NEXT_RX, bits [3:3], RO, reset 0 (chapter 13). -/
def SPR_KEY.NEXT_RX : RegField := ⟨0x401010, 3, 1, .ro, 0⟩
/-- SPR_KEY.NEXT_TX, bits [2:2], RO, reset 0 (chapter 13). -/
def SPR_KEY.NEXT_TX : RegField := ⟨0x401010, 2, 1, .ro, 0⟩
/-- SPR_KEY.RX_KEY, bits [1:1], RO, reset 0 (chapter 13). -/
def SPR_KEY.RX_KEY : RegField := ⟨0x401010, 1, 1, .ro, 0⟩
/-- SPR_KEY.TX_KEY, bits [0:0], RO, reset 0 (chapter 13). -/
def SPR_KEY.TX_KEY : RegField := ⟨0x401010, 0, 1, .ro, 0⟩
/-- The register SPR_KEY (chapter 13). -/
def SPR_KEY : RegDef :=
  ⟨"SPR_KEY", [⟨0x401010, [(8, 0x80000)], 0⟩], false,
    [SPR_KEY.NEXT_RX, SPR_KEY.NEXT_TX, SPR_KEY.RX_KEY, SPR_KEY.TX_KEY], none⟩

/-- SPR_TX_CTR.VALUE, bits [63:0], RO, reset 0 (chapter 13). -/
def SPR_TX_CTR.VALUE : RegField := ⟨0x401018, 0, 64, .ro, 0⟩
/-- The register SPR_TX_CTR (chapter 13). -/
def SPR_TX_CTR : RegDef :=
  ⟨"SPR_TX_CTR", [⟨0x401018, [(8, 0x80000)], 0⟩], true,
    [SPR_TX_CTR.VALUE], none⟩

/-- SPR_RX_CTR.VALUE, bits [63:0], RO, reset 0 (chapter 13). -/
def SPR_RX_CTR.VALUE : RegField := ⟨0x401020, 0, 64, .ro, 0⟩
/-- The register SPR_RX_CTR (chapter 13). -/
def SPR_RX_CTR : RegDef :=
  ⟨"SPR_RX_CTR", [⟨0x401020, [(8, 0x80000)], 0⟩], true,
    [SPR_RX_CTR.VALUE], none⟩

/-- SPR_KEY_FLITS.VALUE, bits [63:0], RO, reset 0 (chapter 13). -/
def SPR_KEY_FLITS.VALUE : RegField := ⟨0x401028, 0, 64, .ro, 0⟩
/-- The register SPR_KEY_FLITS (chapter 13). -/
def SPR_KEY_FLITS : RegDef :=
  ⟨"SPR_KEY_FLITS", [⟨0x401028, [(8, 0x80000)], 0⟩], true,
    [SPR_KEY_FLITS.VALUE], none⟩

/-- SPR_CREDIT.AVAIL, bits [9:0], RO, reset 0x200 (chapter 13). -/
def SPR_CREDIT.AVAIL : RegField := ⟨0x401040, 0, 10, .ro, 0x200⟩
/-- The register SPR_CREDIT (chapter 13). -/
def SPR_CREDIT : RegDef :=
  ⟨"SPR_CREDIT", [⟨0x401040, [(8, 0x80000), (8, 0x4)], 0⟩], false,
    [SPR_CREDIT.AVAIL], none⟩

/-- SPR_FLITS_TX.COUNT, bits [63:0], COUNT, reset 0 (chapter 13). -/
def SPR_FLITS_TX.COUNT : RegField := ⟨0x401080, 0, 64, .count, 0⟩
/-- The register SPR_FLITS_TX (chapter 13). -/
def SPR_FLITS_TX : RegDef :=
  ⟨"SPR_FLITS_TX", [⟨0x401080, [(8, 0x80000)], 0⟩], true,
    [SPR_FLITS_TX.COUNT], none⟩

/-- SPR_FLITS_RX.COUNT, bits [63:0], COUNT, reset 0 (chapter 13). -/
def SPR_FLITS_RX.COUNT : RegField := ⟨0x401088, 0, 64, .count, 0⟩
/-- The register SPR_FLITS_RX (chapter 13). -/
def SPR_FLITS_RX : RegDef :=
  ⟨"SPR_FLITS_RX", [⟨0x401088, [(8, 0x80000)], 0⟩], true,
    [SPR_FLITS_RX.COUNT], none⟩

/-- SPR_FEC_CORR.COUNT, bits [63:0], COUNT, reset 0 (chapter 13). -/
def SPR_FEC_CORR.COUNT : RegField := ⟨0x401090, 0, 64, .count, 0⟩
/-- The register SPR_FEC_CORR (chapter 13). -/
def SPR_FEC_CORR : RegDef :=
  ⟨"SPR_FEC_CORR", [⟨0x401090, [(8, 0x80000)], 0⟩], true,
    [SPR_FEC_CORR.COUNT], none⟩

/-- SPR_FEC_UNCORR.COUNT, bits [63:0], COUNT, reset 0 (chapter 13). -/
def SPR_FEC_UNCORR.COUNT : RegField := ⟨0x401098, 0, 64, .count, 0⟩
/-- The register SPR_FEC_UNCORR (chapter 13). -/
def SPR_FEC_UNCORR : RegDef :=
  ⟨"SPR_FEC_UNCORR", [⟨0x401098, [(8, 0x80000)], 0⟩], true,
    [SPR_FEC_UNCORR.COUNT], none⟩

/-- SPR_AUTH_FAIL.COUNT, bits [63:0], COUNT, reset 0 (chapter 13). -/
def SPR_AUTH_FAIL.COUNT : RegField := ⟨0x4010A0, 0, 64, .count, 0⟩
/-- The register SPR_AUTH_FAIL (chapter 13). -/
def SPR_AUTH_FAIL : RegDef :=
  ⟨"SPR_AUTH_FAIL", [⟨0x4010A0, [(8, 0x80000)], 0⟩], true,
    [SPR_AUTH_FAIL.COUNT], none⟩

/-- SPR_REPLAYS.COUNT, bits [63:0], COUNT, reset 0 (chapter 13). -/
def SPR_REPLAYS.COUNT : RegField := ⟨0x4010A8, 0, 64, .count, 0⟩
/-- The register SPR_REPLAYS (chapter 13). -/
def SPR_REPLAYS : RegDef :=
  ⟨"SPR_REPLAYS", [⟨0x4010A8, [(8, 0x80000)], 0⟩], true,
    [SPR_REPLAYS.COUNT], none⟩

/-- SPR_RETRAINS.COUNT, bits [63:0], COUNT, reset 0 (chapter 13). -/
def SPR_RETRAINS.COUNT : RegField := ⟨0x4010B0, 0, 64, .count, 0⟩
/-- The register SPR_RETRAINS (chapter 13). -/
def SPR_RETRAINS : RegDef :=
  ⟨"SPR_RETRAINS", [⟨0x4010B0, [(8, 0x80000)], 0⟩], true,
    [SPR_RETRAINS.COUNT], none⟩

/-- SPR_TRANSIT.COUNT, bits [63:0], COUNT, reset 0 (chapter 13). -/
def SPR_TRANSIT.COUNT : RegField := ⟨0x4010B8, 0, 64, .count, 0⟩
/-- The register SPR_TRANSIT (chapter 13). -/
def SPR_TRANSIT : RegDef :=
  ⟨"SPR_TRANSIT", [⟨0x4010B8, [(8, 0x80000)], 0⟩], true,
    [SPR_TRANSIT.COUNT], none⟩

/-- SPR_DROPPED.COUNT, bits [63:0], COUNT, reset 0 (chapter 13). -/
def SPR_DROPPED.COUNT : RegField := ⟨0x4010C0, 0, 64, .count, 0⟩
/-- The register SPR_DROPPED (chapter 13). -/
def SPR_DROPPED : RegDef :=
  ⟨"SPR_DROPPED", [⟨0x4010C0, [(8, 0x80000)], 0⟩], true,
    [SPR_DROPPED.COUNT], none⟩

/-- TTH_CTL.HB_TIMEOUT, bits [15:10], RW, reset 0xA (chapter 12). -/
def TTH_CTL.HB_TIMEOUT : RegField := ⟨0x800000, 10, 6, .rw, 0xA⟩
/-- TTH_CTL.RETRAIN, bits [2:2], W1S, reset 0 (chapter 12). -/
def TTH_CTL.RETRAIN : RegField := ⟨0x800000, 2, 1, .w1s, 0⟩
/-- TTH_CTL.RECOVER, bits [1:1], W1S, reset 0 (chapter 12). -/
def TTH_CTL.RECOVER : RegField := ⟨0x800000, 1, 1, .w1s, 0⟩
/-- The register TTH_CTL (chapter 12). -/
def TTH_CTL : RegDef :=
  ⟨"TTH_CTL", [⟨0x800000, [(4, 0x100000)], 0⟩], false,
    [TTH_CTL.HB_TIMEOUT, TTH_CTL.RETRAIN, TTH_CTL.RECOVER], none⟩

/-- TTH_STATUS.LINK, bits [31:29], RO, reset 0 (chapter 12). -/
def TTH_STATUS.LINK : RegField := ⟨0x800004, 29, 3, .ro, 0⟩
/-- TTH_STATUS.WIDTH_UP, bits [28:27], RO, reset 0 (chapter 12). -/
def TTH_STATUS.WIDTH_UP : RegField := ⟨0x800004, 27, 2, .ro, 0⟩
/-- TTH_STATUS.WIDTH_DN, bits [26:25], RO, reset 0 (chapter 12). -/
def TTH_STATUS.WIDTH_DN : RegField := ⟨0x800004, 25, 2, .ro, 0⟩
/-- TTH_STATUS.FAILED_UP, bits [24:18], RO, reset 0 (chapter 12). -/
def TTH_STATUS.FAILED_UP : RegField := ⟨0x800004, 18, 7, .ro, 0⟩
/-- TTH_STATUS.FAILED_DN, bits [17:11], RO, reset 0 (chapter 12). -/
def TTH_STATUS.FAILED_DN : RegField := ⟨0x800004, 11, 7, .ro, 0⟩
/-- TTH_STATUS.LOST, bits [8:8], RO, reset 0 (chapter 12). -/
def TTH_STATUS.LOST : RegField := ⟨0x800004, 8, 1, .ro, 0⟩
/-- TTH_STATUS.GESSO_UNTRUSTED, bits [7:7], W1C, reset 0 (chapter 12). -/
def TTH_STATUS.GESSO_UNTRUSTED : RegField := ⟨0x800004, 7, 1, .w1c, 0⟩
/-- TTH_STATUS.RECOVER_FAILED, bits [6:6], W1C, reset 0 (chapter 12). -/
def TTH_STATUS.RECOVER_FAILED : RegField := ⟨0x800004, 6, 1, .w1c, 0⟩
/-- TTH_STATUS.LOST_EVT, bits [5:5], W1C, reset 0 (chapter 12). -/
def TTH_STATUS.LOST_EVT : RegField := ⟨0x800004, 5, 1, .w1c, 0⟩
/-- TTH_STATUS.CREDIT_LEAK, bits [4:4], W1C, reset 0 (chapter 12). -/
def TTH_STATUS.CREDIT_LEAK : RegField := ⟨0x800004, 4, 1, .w1c, 0⟩
/-- TTH_STATUS.WIDTH_CHANGED, bits [3:3], W1C, reset 0 (chapter 12). -/
def TTH_STATUS.WIDTH_CHANGED : RegField := ⟨0x800004, 3, 1, .w1c, 0⟩
/-- TTH_STATUS.SPARE_USED, bits [2:2], W1C, reset 0 (chapter 12). -/
def TTH_STATUS.SPARE_USED : RegField := ⟨0x800004, 2, 1, .w1c, 0⟩
/-- TTH_STATUS.HW_UPDATE_LOST, bits [1:1], W1C, reset 0 (chapter 12). -/
def TTH_STATUS.HW_UPDATE_LOST : RegField := ⟨0x800004, 1, 1, .w1c, 0⟩
/-- The register TTH_STATUS (chapter 12). -/
def TTH_STATUS : RegDef :=
  ⟨"TTH_STATUS", [⟨0x800004, [(4, 0x100000)], 0⟩], false,
    [TTH_STATUS.LINK, TTH_STATUS.WIDTH_UP, TTH_STATUS.WIDTH_DN, TTH_STATUS.FAILED_UP, TTH_STATUS.FAILED_DN, TTH_STATUS.LOST, TTH_STATUS.GESSO_UNTRUSTED, TTH_STATUS.RECOVER_FAILED, TTH_STATUS.LOST_EVT, TTH_STATUS.CREDIT_LEAK, TTH_STATUS.WIDTH_CHANGED, TTH_STATUS.SPARE_USED, TTH_STATUS.HW_UPDATE_LOST], none⟩

/-- TTH_LANE_FAIL.LANES, bits [63:0], RO, reset 0 (chapter 12). -/
def TTH_LANE_FAIL.LANES : RegField := ⟨0x800010, 0, 64, .ro, 0⟩
/-- The register TTH_LANE_FAIL (chapter 12). -/
def TTH_LANE_FAIL : RegDef :=
  ⟨"TTH_LANE_FAIL", [⟨0x800010, [(4, 0x100000), (2, 0x10)], 0⟩], true,
    [TTH_LANE_FAIL.LANES], none⟩

/-- TTH_LANE_FAIL_HI.LANES, bits [3:0], RO, reset 0 (chapter 12). -/
def TTH_LANE_FAIL_HI.LANES : RegField := ⟨0x800018, 0, 4, .ro, 0⟩
/-- The register TTH_LANE_FAIL_HI (chapter 12). -/
def TTH_LANE_FAIL_HI : RegDef :=
  ⟨"TTH_LANE_FAIL_HI", [⟨0x800018, [(4, 0x100000), (2, 0x10)], 0⟩], false,
    [TTH_LANE_FAIL_HI.LANES], none⟩

/-- TTH_CREDIT.AVAIL, bits [9:0], RO, reset 0x200 (chapter 12). -/
def TTH_CREDIT.AVAIL : RegField := ⟨0x800040, 0, 10, .ro, 0x200⟩
/-- The register TTH_CREDIT (chapter 12). -/
def TTH_CREDIT : RegDef :=
  ⟨"TTH_CREDIT", [⟨0x800040, [(4, 0x100000), (2, 0x10), (3, 0x4)], 0⟩], false,
    [TTH_CREDIT.AVAIL], none⟩

/-- TTH_FLITS_UP.COUNT, bits [63:0], COUNT, reset 0 (chapter 12). -/
def TTH_FLITS_UP.COUNT : RegField := ⟨0x800080, 0, 64, .count, 0⟩
/-- The register TTH_FLITS_UP (chapter 12). -/
def TTH_FLITS_UP : RegDef :=
  ⟨"TTH_FLITS_UP", [⟨0x800080, [(4, 0x100000)], 0⟩], true,
    [TTH_FLITS_UP.COUNT], none⟩

/-- TTH_FLITS_DN.COUNT, bits [63:0], COUNT, reset 0 (chapter 12). -/
def TTH_FLITS_DN.COUNT : RegField := ⟨0x800088, 0, 64, .count, 0⟩
/-- The register TTH_FLITS_DN (chapter 12). -/
def TTH_FLITS_DN : RegDef :=
  ⟨"TTH_FLITS_DN", [⟨0x800088, [(4, 0x100000)], 0⟩], true,
    [TTH_FLITS_DN.COUNT], none⟩

/-- TTH_CRC_ERR.COUNT, bits [63:0], COUNT, reset 0 (chapter 12). -/
def TTH_CRC_ERR.COUNT : RegField := ⟨0x800090, 0, 64, .count, 0⟩
/-- The register TTH_CRC_ERR (chapter 12). -/
def TTH_CRC_ERR : RegDef :=
  ⟨"TTH_CRC_ERR", [⟨0x800090, [(4, 0x100000)], 0⟩], true,
    [TTH_CRC_ERR.COUNT], none⟩

/-- TTH_REPLAYS.COUNT, bits [63:0], COUNT, reset 0 (chapter 12). -/
def TTH_REPLAYS.COUNT : RegField := ⟨0x800098, 0, 64, .count, 0⟩
/-- The register TTH_REPLAYS (chapter 12). -/
def TTH_REPLAYS : RegDef :=
  ⟨"TTH_REPLAYS", [⟨0x800098, [(4, 0x100000)], 0⟩], true,
    [TTH_REPLAYS.COUNT], none⟩

/-- TTH_RETRAINS.COUNT, bits [63:0], COUNT, reset 0 (chapter 12). -/
def TTH_RETRAINS.COUNT : RegField := ⟨0x8000A0, 0, 64, .count, 0⟩
/-- The register TTH_RETRAINS (chapter 12). -/
def TTH_RETRAINS : RegDef :=
  ⟨"TTH_RETRAINS", [⟨0x8000A0, [(4, 0x100000)], 0⟩], true,
    [TTH_RETRAINS.COUNT], none⟩

/-- TTH_DROPPED.COUNT, bits [63:0], COUNT, reset 0 (chapter 12). -/
def TTH_DROPPED.COUNT : RegField := ⟨0x8000A8, 0, 64, .count, 0⟩
/-- The register TTH_DROPPED (chapter 12). -/
def TTH_DROPPED : RegDef :=
  ⟨"TTH_DROPPED", [⟨0x8000A8, [(4, 0x100000)], 0⟩], true,
    [TTH_DROPPED.COUNT], none⟩

/-- COAT_STATUS.ACK_MISSING, bits [4:4], W1C, reset 0 (chapter 10). -/
def COAT_STATUS.ACK_MISSING : RegField := ⟨0xC00000, 4, 1, .w1c, 0⟩
/-- COAT_STATUS.IN_DOUBT, bits [3:3], W1C, reset 0 (chapter 10). -/
def COAT_STATUS.IN_DOUBT : RegField := ⟨0xC00000, 3, 1, .w1c, 0⟩
/-- COAT_STATUS.ABORTED, bits [2:2], W1C, reset 0 (chapter 10). -/
def COAT_STATUS.ABORTED : RegField := ⟨0xC00000, 2, 1, .w1c, 0⟩
/-- COAT_STATUS.CMD_REFUSED, bits [1:1], W1C, reset 0 (chapter 10). -/
def COAT_STATUS.CMD_REFUSED : RegField := ⟨0xC00000, 1, 1, .w1c, 0⟩
/-- COAT_STATUS.HW_UPDATE_LOST, bits [0:0], W1C, reset 0 (chapter 10). -/
def COAT_STATUS.HW_UPDATE_LOST : RegField := ⟨0xC00000, 0, 1, .w1c, 0⟩
/-- The register COAT_STATUS (chapter 10). -/
def COAT_STATUS : RegDef :=
  ⟨"COAT_STATUS", [⟨0xC00000, [], 0⟩], false,
    [COAT_STATUS.ACK_MISSING, COAT_STATUS.IN_DOUBT, COAT_STATUS.ABORTED, COAT_STATUS.CMD_REFUSED, COAT_STATUS.HW_UPDATE_LOST], none⟩

/-- COAT_CMD.OP, bits [17:16], WO, reset 0 (chapter 10). -/
def COAT_CMD.OP : RegField := ⟨0xC00004, 16, 2, .wo, 0⟩
/-- COAT_CMD.ID, bits [9:0], WO, reset 0 (chapter 10). -/
def COAT_CMD.ID : RegField := ⟨0xC00004, 0, 10, .wo, 0⟩
/-- The register COAT_CMD (chapter 10). -/
def COAT_CMD : RegDef :=
  ⟨"COAT_CMD", [⟨0xC00004, [], 0⟩], false,
    [COAT_CMD.OP, COAT_CMD.ID], none⟩

/-- COAT_INUSE.ACTIONS, bits [26:13], RO, reset 0 (chapter 10). -/
def COAT_INUSE.ACTIONS : RegField := ⟨0xC00008, 13, 14, .ro, 0⟩
/-- COAT_INUSE.OPEN, bits [10:0], RO, reset 0 (chapter 10). -/
def COAT_INUSE.OPEN : RegField := ⟨0xC00008, 0, 11, .ro, 0⟩
/-- The register COAT_INUSE (chapter 10). -/
def COAT_INUSE : RegDef :=
  ⟨"COAT_INUSE", [⟨0xC00008, [], 0⟩], false,
    [COAT_INUSE.ACTIONS, COAT_INUSE.OPEN], none⟩

/-- COAT_COMMITS.COUNT, bits [63:0], COUNT, reset 0 (chapter 10). -/
def COAT_COMMITS.COUNT : RegField := ⟨0xC00020, 0, 64, .count, 0⟩
/-- The register COAT_COMMITS (chapter 10). -/
def COAT_COMMITS : RegDef :=
  ⟨"COAT_COMMITS", [⟨0xC00020, [], 0⟩], true,
    [COAT_COMMITS.COUNT], none⟩

/-- COAT_ABORTS.COUNT, bits [63:0], COUNT, reset 0 (chapter 10). -/
def COAT_ABORTS.COUNT : RegField := ⟨0xC00028, 0, 64, .count, 0⟩
/-- The register COAT_ABORTS (chapter 10). -/
def COAT_ABORTS : RegDef :=
  ⟨"COAT_ABORTS", [⟨0xC00028, [], 0⟩], true,
    [COAT_ABORTS.COUNT], none⟩

/-- COAT_WOUNDS.COUNT, bits [63:0], COUNT, reset 0 (chapter 10). -/
def COAT_WOUNDS.COUNT : RegField := ⟨0xC00030, 0, 64, .count, 0⟩
/-- The register COAT_WOUNDS (chapter 10). -/
def COAT_WOUNDS : RegDef :=
  ⟨"COAT_WOUNDS", [⟨0xC00030, [], 0⟩], true,
    [COAT_WOUNDS.COUNT], none⟩

/-- COAT_ENTRY.STATE, bits [63:61], RO, reset 0 (chapter 10). -/
def COAT_ENTRY.STATE : RegField := ⟨0xC02000, 61, 3, .ro, 0⟩
/-- COAT_ENTRY.ROLE, bits [60:59], RO, reset 0 (chapter 10). -/
def COAT_ENTRY.ROLE : RegField := ⟨0xC02000, 59, 2, .ro, 0⟩
/-- COAT_ENTRY.OWNER, bits [58:51], RO, reset 0 (chapter 10). -/
def COAT_ENTRY.OWNER : RegField := ⟨0xC02000, 51, 8, .ro, 0⟩
/-- COAT_ENTRY.NACT, bits [50:40], RO, reset 0 (chapter 10). -/
def COAT_ENTRY.NACT : RegField := ⟨0xC02000, 40, 11, .ro, 0⟩
/-- COAT_ENTRY.VOTES, bits [16:0], RO, reset 0 (chapter 10). -/
def COAT_ENTRY.VOTES : RegField := ⟨0xC02000, 0, 17, .ro, 0⟩
/-- The register COAT_ENTRY (chapter 10). -/
def COAT_ENTRY : RegDef :=
  ⟨"COAT_ENTRY", [⟨0xC02000, [(1024, 0x8)], 0⟩], true,
    [COAT_ENTRY.STATE, COAT_ENTRY.ROLE, COAT_ENTRY.OWNER, COAT_ENTRY.NACT, COAT_ENTRY.VOTES], none⟩

/-- COAT_ENTRY_CODE.CODE, bits [15:0], RO, reset 0 (chapter 10). -/
def COAT_ENTRY_CODE.CODE : RegField := ⟨0xC04000, 0, 16, .ro, 0⟩
/-- The register COAT_ENTRY_CODE (chapter 10). -/
def COAT_ENTRY_CODE : RegDef :=
  ⟨"COAT_ENTRY_CODE", [⟨0xC04000, [(1024, 0x8)], 0⟩], true,
    [COAT_ENTRY_CODE.CODE], none⟩

/-- COAT_TS.TS, bits [63:0], RO, reset 0 (chapter 10). -/
def COAT_TS.TS : RegField := ⟨0xC06000, 0, 64, .ro, 0⟩
/-- The register COAT_TS (chapter 10). -/
def COAT_TS : RegDef :=
  ⟨"COAT_TS", [⟨0xC06000, [(1024, 0x8)], 0⟩], true,
    [COAT_TS.TS], none⟩

/-- COAT_Q_CTL.RESUME, bits [9:9], WO, reset 0 (chapter 10). -/
def COAT_Q_CTL.RESUME : RegField := ⟨0xC08000, 9, 1, .wo, 0⟩
/-- COAT_Q_CTL.ENABLE, bits [8:8], RW, reset 0 (chapter 10). -/
def COAT_Q_CTL.ENABLE : RegField := ⟨0xC08000, 8, 1, .rw, 0⟩
/-- COAT_Q_CTL.SIZE_LOG2, bits [4:0], RW, reset 4 (chapter 10). -/
def COAT_Q_CTL.SIZE_LOG2 : RegField := ⟨0xC08000, 0, 5, .rw, 4⟩
/-- The register COAT_Q_CTL (chapter 10). -/
def COAT_Q_CTL : RegDef :=
  ⟨"COAT_Q_CTL", [⟨0xC08000, [(257, 0x40)], 0⟩], false,
    [COAT_Q_CTL.RESUME, COAT_Q_CTL.ENABLE, COAT_Q_CTL.SIZE_LOG2], none⟩

/-- COAT_Q_BASE.BASE, bits [39:11], RW, reset 0 (chapter 10). -/
def COAT_Q_BASE.BASE : RegField := ⟨0xC08008, 11, 29, .rw, 0⟩
/-- The register COAT_Q_BASE (chapter 10). -/
def COAT_Q_BASE : RegDef :=
  ⟨"COAT_Q_BASE", [⟨0xC08008, [(257, 0x40)], 0⟩], true,
    [COAT_Q_BASE.BASE], none⟩

/-- COAT_Q_DB.DB_VALID, bits [63:63], RW, reset 0 (chapter 10). -/
def COAT_Q_DB.DB_VALID : RegField := ⟨0xC08010, 63, 1, .rw, 0⟩
/-- COAT_Q_DB.DB_DPA, bits [39:3], RW, reset 0 (chapter 10). -/
def COAT_Q_DB.DB_DPA : RegField := ⟨0xC08010, 3, 37, .rw, 0⟩
/-- The register COAT_Q_DB (chapter 10). -/
def COAT_Q_DB : RegDef :=
  ⟨"COAT_Q_DB", [⟨0xC08010, [(257, 0x40)], 0⟩], true,
    [COAT_Q_DB.DB_VALID, COAT_Q_DB.DB_DPA], none⟩

/-- COAT_Q_HEAD.HEAD, bits [31:0], RO, reset 0 (chapter 10). -/
def COAT_Q_HEAD.HEAD : RegField := ⟨0xC0801C, 0, 32, .ro, 0⟩
/-- The register COAT_Q_HEAD (chapter 10). -/
def COAT_Q_HEAD : RegDef :=
  ⟨"COAT_Q_HEAD", [⟨0xC0801C, [(257, 0x40)], 0⟩], false,
    [COAT_Q_HEAD.HEAD], none⟩

/-- COAT_Q_STATUS.ERR, bits [19:19], W1C, reset 0 (chapter 10). -/
def COAT_Q_STATUS.ERR : RegField := ⟨0xC08020, 19, 1, .w1c, 0⟩
/-- COAT_Q_STATUS.DONE, bits [18:18], W1C, reset 0 (chapter 10). -/
def COAT_Q_STATUS.DONE : RegField := ⟨0xC08020, 18, 1, .w1c, 0⟩
/-- COAT_Q_STATUS.STATE, bits [17:16], RO, reset 0 (chapter 10). -/
def COAT_Q_STATUS.STATE : RegField := ⟨0xC08020, 16, 2, .ro, 0⟩
/-- COAT_Q_STATUS.CODE, bits [15:0], RO, reset 0 (chapter 10). -/
def COAT_Q_STATUS.CODE : RegField := ⟨0xC08020, 0, 16, .ro, 0⟩
/-- The register COAT_Q_STATUS (chapter 10). -/
def COAT_Q_STATUS : RegDef :=
  ⟨"COAT_Q_STATUS", [⟨0xC08020, [(257, 0x40)], 0⟩], false,
    [COAT_Q_STATUS.ERR, COAT_Q_STATUS.DONE, COAT_Q_STATUS.STATE, COAT_Q_STATUS.CODE], none⟩

/-- COL_STATUS.RUNNING, bits [13:8], RO, reset 0 (chapter 14). -/
def COL_STATUS.RUNNING : RegField := ⟨0xC0E000, 8, 6, .ro, 0⟩
/-- COL_STATUS.SIG_MISMATCH, bits [3:3], W1C, reset 0 (chapter 14). -/
def COL_STATUS.SIG_MISMATCH : RegField := ⟨0xC0E000, 3, 1, .w1c, 0⟩
/-- COL_STATUS.REMOTE_FAIL, bits [2:2], W1C, reset 0 (chapter 14). -/
def COL_STATUS.REMOTE_FAIL : RegField := ⟨0xC0E000, 2, 1, .w1c, 0⟩
/-- COL_STATUS.Q_ERR, bits [1:1], RO, reset 0 (chapter 14). -/
def COL_STATUS.Q_ERR : RegField := ⟨0xC0E000, 1, 1, .ro, 0⟩
/-- COL_STATUS.HW_UPDATE_LOST, bits [0:0], W1C, reset 0 (chapter 14). -/
def COL_STATUS.HW_UPDATE_LOST : RegField := ⟨0xC0E000, 0, 1, .w1c, 0⟩
/-- The register COL_STATUS (chapter 14). -/
def COL_STATUS : RegDef :=
  ⟨"COL_STATUS", [⟨0xC0E000, [], 0⟩], false,
    [COL_STATUS.RUNNING, COL_STATUS.SIG_MISMATCH, COL_STATUS.REMOTE_FAIL, COL_STATUS.Q_ERR, COL_STATUS.HW_UPDATE_LOST], none⟩

/-- COL_TIMEOUT.MS, bits [19:0], RW, reset 0x3E8 (chapter 14). -/
def COL_TIMEOUT.MS : RegField := ⟨0xC0E004, 0, 20, .rw, 0x3E8⟩
/-- The register COL_TIMEOUT (chapter 14). -/
def COL_TIMEOUT : RegDef :=
  ⟨"COL_TIMEOUT", [⟨0xC0E004, [], 0⟩], false,
    [COL_TIMEOUT.MS], none⟩

/-- COL_ERR.GROUP, bits [63:48], RO, reset 0 (chapter 14). -/
def COL_ERR.GROUP : RegField := ⟨0xC0E008, 48, 16, .ro, 0⟩
/-- COL_ERR.SEQ, bits [47:32], RO, reset 0 (chapter 14). -/
def COL_ERR.SEQ : RegField := ⟨0xC0E008, 32, 16, .ro, 0⟩
/-- COL_ERR.VALID, bits [31:31], W1C, reset 0 (chapter 14). -/
def COL_ERR.VALID : RegField := ⟨0xC0E008, 31, 1, .w1c, 0⟩
/-- COL_ERR.OVERRUN, bits [30:30], W1C, reset 0 (chapter 14). -/
def COL_ERR.OVERRUN : RegField := ⟨0xC0E008, 30, 1, .w1c, 0⟩
/-- COL_ERR.REMOTE, bits [29:29], RO, reset 0 (chapter 14). -/
def COL_ERR.REMOTE : RegField := ⟨0xC0E008, 29, 1, .ro, 0⟩
/-- COL_ERR.RANK, bits [28:23], RO, reset 0 (chapter 14). -/
def COL_ERR.RANK : RegField := ⟨0xC0E008, 23, 6, .ro, 0⟩
/-- COL_ERR.CODE, bits [15:0], RO, reset 0 (chapter 14). -/
def COL_ERR.CODE : RegField := ⟨0xC0E008, 0, 16, .ro, 0⟩
/-- The register COL_ERR (chapter 14). -/
def COL_ERR : RegDef :=
  ⟨"COL_ERR", [⟨0xC0E008, [], 0⟩], true,
    [COL_ERR.GROUP, COL_ERR.SEQ, COL_ERR.VALID, COL_ERR.OVERRUN, COL_ERR.REMOTE, COL_ERR.RANK, COL_ERR.CODE], none⟩

/-- COL_SIG.TENSOR_ID, bits [63:32], RO, reset 0 (chapter 14). -/
def COL_SIG.TENSOR_ID : RegField := ⟨0xC0E010, 32, 32, .ro, 0⟩
/-- COL_SIG.VALID, bits [31:31], W1C, reset 0 (chapter 14). -/
def COL_SIG.VALID : RegField := ⟨0xC0E010, 31, 1, .w1c, 0⟩
/-- COL_SIG.OVERRUN, bits [30:30], W1C, reset 0 (chapter 14). -/
def COL_SIG.OVERRUN : RegField := ⟨0xC0E010, 30, 1, .w1c, 0⟩
/-- COL_SIG.INDEX, bits [29:0], RO, reset 0 (chapter 14). -/
def COL_SIG.INDEX : RegField := ⟨0xC0E010, 0, 30, .ro, 0⟩
/-- The register COL_SIG (chapter 14). -/
def COL_SIG : RegDef :=
  ⟨"COL_SIG", [⟨0xC0E010, [], 0⟩], true,
    [COL_SIG.TENSOR_ID, COL_SIG.VALID, COL_SIG.OVERRUN, COL_SIG.INDEX], none⟩

/-- COL_OPS.COUNT, bits [63:0], COUNT, reset 0 (chapter 14). -/
def COL_OPS.COUNT : RegField := ⟨0xC0E020, 0, 64, .count, 0⟩
/-- The register COL_OPS (chapter 14). -/
def COL_OPS : RegDef :=
  ⟨"COL_OPS", [⟨0xC0E020, [], 0⟩], true,
    [COL_OPS.COUNT], none⟩

/-- COL_BYTES_TX.COUNT, bits [63:0], COUNT, reset 0 (chapter 14). -/
def COL_BYTES_TX.COUNT : RegField := ⟨0xC0E028, 0, 64, .count, 0⟩
/-- The register COL_BYTES_TX (chapter 14). -/
def COL_BYTES_TX : RegDef :=
  ⟨"COL_BYTES_TX", [⟨0xC0E028, [], 0⟩], true,
    [COL_BYTES_TX.COUNT], none⟩

/-- COL_BYTES_RX.COUNT, bits [63:0], COUNT, reset 0 (chapter 14). -/
def COL_BYTES_RX.COUNT : RegField := ⟨0xC0E030, 0, 64, .count, 0⟩
/-- The register COL_BYTES_RX (chapter 14). -/
def COL_BYTES_RX : RegDef :=
  ⟨"COL_BYTES_RX", [⟨0xC0E030, [], 0⟩], true,
    [COL_BYTES_RX.COUNT], none⟩

/-- COL_Q_CTL.RESUME, bits [9:9], WO, reset 0 (chapter 14). -/
def COL_Q_CTL.RESUME : RegField := ⟨0xC10000, 9, 1, .wo, 0⟩
/-- COL_Q_CTL.ENABLE, bits [8:8], RW, reset 0 (chapter 14). -/
def COL_Q_CTL.ENABLE : RegField := ⟨0xC10000, 8, 1, .rw, 0⟩
/-- COL_Q_CTL.SIZE_LOG2, bits [4:0], RW, reset 4 (chapter 14). -/
def COL_Q_CTL.SIZE_LOG2 : RegField := ⟨0xC10000, 0, 5, .rw, 4⟩
/-- The register COL_Q_CTL (chapter 14). -/
def COL_Q_CTL : RegDef :=
  ⟨"COL_Q_CTL", [⟨0xC10000, [(257, 0x40)], 0⟩], false,
    [COL_Q_CTL.RESUME, COL_Q_CTL.ENABLE, COL_Q_CTL.SIZE_LOG2], none⟩

/-- COL_Q_BASE.BASE, bits [39:11], RW, reset 0 (chapter 14). -/
def COL_Q_BASE.BASE : RegField := ⟨0xC10008, 11, 29, .rw, 0⟩
/-- The register COL_Q_BASE (chapter 14). -/
def COL_Q_BASE : RegDef :=
  ⟨"COL_Q_BASE", [⟨0xC10008, [(257, 0x40)], 0⟩], true,
    [COL_Q_BASE.BASE], none⟩

/-- COL_Q_DB.DB_VALID, bits [63:63], RW, reset 0 (chapter 14). -/
def COL_Q_DB.DB_VALID : RegField := ⟨0xC10010, 63, 1, .rw, 0⟩
/-- COL_Q_DB.DB_DPA, bits [39:3], RW, reset 0 (chapter 14). -/
def COL_Q_DB.DB_DPA : RegField := ⟨0xC10010, 3, 37, .rw, 0⟩
/-- The register COL_Q_DB (chapter 14). -/
def COL_Q_DB : RegDef :=
  ⟨"COL_Q_DB", [⟨0xC10010, [(257, 0x40)], 0⟩], true,
    [COL_Q_DB.DB_VALID, COL_Q_DB.DB_DPA], none⟩

/-- COL_Q_HEAD.HEAD, bits [31:0], RO, reset 0 (chapter 14). -/
def COL_Q_HEAD.HEAD : RegField := ⟨0xC1001C, 0, 32, .ro, 0⟩
/-- The register COL_Q_HEAD (chapter 14). -/
def COL_Q_HEAD : RegDef :=
  ⟨"COL_Q_HEAD", [⟨0xC1001C, [(257, 0x40)], 0⟩], false,
    [COL_Q_HEAD.HEAD], none⟩

/-- COL_Q_STATUS.ERR, bits [19:19], W1C, reset 0 (chapter 14). -/
def COL_Q_STATUS.ERR : RegField := ⟨0xC10020, 19, 1, .w1c, 0⟩
/-- COL_Q_STATUS.DONE, bits [18:18], W1C, reset 0 (chapter 14). -/
def COL_Q_STATUS.DONE : RegField := ⟨0xC10020, 18, 1, .w1c, 0⟩
/-- COL_Q_STATUS.STATE, bits [17:16], RO, reset 0 (chapter 14). -/
def COL_Q_STATUS.STATE : RegField := ⟨0xC10020, 16, 2, .ro, 0⟩
/-- COL_Q_STATUS.CODE, bits [15:0], RO, reset 0 (chapter 14). -/
def COL_Q_STATUS.CODE : RegField := ⟨0xC10020, 0, 16, .ro, 0⟩
/-- The register COL_Q_STATUS (chapter 14). -/
def COL_Q_STATUS : RegDef :=
  ⟨"COL_Q_STATUS", [⟨0xC10020, [(257, 0x40)], 0⟩], false,
    [COL_Q_STATUS.ERR, COL_Q_STATUS.DONE, COL_Q_STATUS.STATE, COL_Q_STATUS.CODE], none⟩

/-- CNV_PNL_CTL.DRAIN, bits [1:1], W1S, reset 0 (chapter 03). -/
def CNV_PNL_CTL.DRAIN : RegField := ⟨0x2000000, 1, 1, .w1s, 0⟩
/-- CNV_PNL_CTL.ISSUE_EN, bits [0:0], RW, reset 0 (chapter 03). -/
def CNV_PNL_CTL.ISSUE_EN : RegField := ⟨0x2000000, 0, 1, .rw, 0⟩
/-- The register CNV_PNL_CTL (chapter 03). -/
def CNV_PNL_CTL : RegDef :=
  ⟨"CNV_PNL_CTL", [⟨0x2000000, [(4, 0x800000), (256, 0x4000)], 0⟩], false,
    [CNV_PNL_CTL.DRAIN, CNV_PNL_CTL.ISSUE_EN], none⟩

/-- CNV_PNL_STATUS.THR_FAULTED, bits [23:16], RO, reset 0 (chapter 03). -/
def CNV_PNL_STATUS.THR_FAULTED : RegField := ⟨0x2000004, 16, 8, .ro, 0⟩
/-- CNV_PNL_STATUS.THR_RUNNING, bits [15:8], RO, reset 0 (chapter 03). -/
def CNV_PNL_STATUS.THR_RUNNING : RegField := ⟨0x2000004, 8, 8, .ro, 0⟩
/-- CNV_PNL_STATUS.DRAINED, bits [2:2], RO, reset 1 (chapter 03). -/
def CNV_PNL_STATUS.DRAINED : RegField := ⟨0x2000004, 2, 1, .ro, 1⟩
/-- CNV_PNL_STATUS.HW_UPDATE_LOST, bits [1:1], W1C, reset 0 (chapter 03). -/
def CNV_PNL_STATUS.HW_UPDATE_LOST : RegField := ⟨0x2000004, 1, 1, .w1c, 0⟩
/-- CNV_PNL_STATUS.FAULT, bits [0:0], W1C, reset 0 (chapter 03). -/
def CNV_PNL_STATUS.FAULT : RegField := ⟨0x2000004, 0, 1, .w1c, 0⟩
/-- The register CNV_PNL_STATUS (chapter 03). -/
def CNV_PNL_STATUS : RegDef :=
  ⟨"CNV_PNL_STATUS", [⟨0x2000004, [(4, 0x800000), (256, 0x4000)], 0⟩], false,
    [CNV_PNL_STATUS.THR_FAULTED, CNV_PNL_STATUS.THR_RUNNING, CNV_PNL_STATUS.DRAINED, CNV_PNL_STATUS.HW_UPDATE_LOST, CNV_PNL_STATUS.FAULT], none⟩

/-- CNV_PNL_FAULT.STROKE_DPA, bits [63:24], RO, reset 0 (chapter 03). -/
def CNV_PNL_FAULT.STROKE_DPA : RegField := ⟨0x2000008, 24, 40, .ro, 0⟩
/-- CNV_PNL_FAULT.VALID, bits [23:23], W1C, reset 0 (chapter 03). -/
def CNV_PNL_FAULT.VALID : RegField := ⟨0x2000008, 23, 1, .w1c, 0⟩
/-- CNV_PNL_FAULT.OVERRUN, bits [22:22], W1C, reset 0 (chapter 03). -/
def CNV_PNL_FAULT.OVERRUN : RegField := ⟨0x2000008, 22, 1, .w1c, 0⟩
/-- CNV_PNL_FAULT.THREAD, bits [18:16], RO, reset 0 (chapter 03). -/
def CNV_PNL_FAULT.THREAD : RegField := ⟨0x2000008, 16, 3, .ro, 0⟩
/-- CNV_PNL_FAULT.CODE, bits [15:0], RO, reset 0 (chapter 03). -/
def CNV_PNL_FAULT.CODE : RegField := ⟨0x2000008, 0, 16, .ro, 0⟩
/-- The register CNV_PNL_FAULT (chapter 03). -/
def CNV_PNL_FAULT : RegDef :=
  ⟨"CNV_PNL_FAULT", [⟨0x2000008, [(4, 0x800000), (256, 0x4000)], 0⟩], true,
    [CNV_PNL_FAULT.STROKE_DPA, CNV_PNL_FAULT.VALID, CNV_PNL_FAULT.OVERRUN, CNV_PNL_FAULT.THREAD, CNV_PNL_FAULT.CODE], none⟩

/-- CNV_PNL_THR_CTL.ENABLE, bits [31:31], RW, reset 0 (chapter 03). -/
def CNV_PNL_THR_CTL.ENABLE : RegField := ⟨0x2000100, 31, 1, .rw, 0⟩
/-- CNV_PNL_THR_CTL.CLASS, bits [30:30], RW, reset 0 (chapter 03). -/
def CNV_PNL_THR_CTL.CLASS : RegField := ⟨0x2000100, 30, 1, .rw, 0⟩
/-- CNV_PNL_THR_CTL.PHASE, bits [29:27], RW, reset 6 (chapter 03). -/
def CNV_PNL_THR_CTL.PHASE : RegField := ⟨0x2000100, 27, 3, .rw, 6⟩
/-- CNV_PNL_THR_CTL.STATE, bits [26:24], RO, reset 0 (chapter 03). -/
def CNV_PNL_THR_CTL.STATE : RegField := ⟨0x2000100, 24, 3, .ro, 0⟩
/-- The register CNV_PNL_THR_CTL (chapter 03). -/
def CNV_PNL_THR_CTL : RegDef :=
  ⟨"CNV_PNL_THR_CTL", [⟨0x2000100, [(4, 0x800000), (256, 0x4000), (8, 0x20)], 0⟩], false,
    [CNV_PNL_THR_CTL.ENABLE, CNV_PNL_THR_CTL.CLASS, CNV_PNL_THR_CTL.PHASE, CNV_PNL_THR_CTL.STATE], none⟩

/-- CNV_PNL_THR_WAIT.HANDLE, bits [13:4], RO, reset 0 (chapter 03). -/
def CNV_PNL_THR_WAIT.HANDLE : RegField := ⟨0x2000114, 4, 10, .ro, 0⟩
/-- CNV_PNL_THR_WAIT.REASON, bits [3:0], RO, reset 0 (chapter 03). -/
def CNV_PNL_THR_WAIT.REASON : RegField := ⟨0x2000114, 0, 4, .ro, 0⟩
/-- The register CNV_PNL_THR_WAIT (chapter 03). -/
def CNV_PNL_THR_WAIT : RegDef :=
  ⟨"CNV_PNL_THR_WAIT", [⟨0x2000114, [(4, 0x800000), (256, 0x4000), (8, 0x20)], 0⟩], false,
    [CNV_PNL_THR_WAIT.HANDLE, CNV_PNL_THR_WAIT.REASON], none⟩

/-- CNV_PNL_EVT_OVERFLOW.COUNT, bits [31:0], COUNT, reset 0 (chapter 03). -/
def CNV_PNL_EVT_OVERFLOW.COUNT : RegField := ⟨0x2000400, 0, 32, .count, 0⟩
/-- The register CNV_PNL_EVT_OVERFLOW (chapter 03). -/
def CNV_PNL_EVT_OVERFLOW : RegDef :=
  ⟨"CNV_PNL_EVT_OVERFLOW", [⟨0x2000400, [(4, 0x800000), (256, 0x4000)], 0⟩], false,
    [CNV_PNL_EVT_OVERFLOW.COUNT], none⟩

/-- CNV_PNL_EVT_NAN_PRODUCED.COUNT, bits [31:0], COUNT, reset 0 (chapter 03). -/
def CNV_PNL_EVT_NAN_PRODUCED.COUNT : RegField := ⟨0x2000404, 0, 32, .count, 0⟩
/-- The register CNV_PNL_EVT_NAN_PRODUCED (chapter 03). -/
def CNV_PNL_EVT_NAN_PRODUCED : RegDef :=
  ⟨"CNV_PNL_EVT_NAN_PRODUCED", [⟨0x2000404, [(4, 0x800000), (256, 0x4000)], 0⟩], false,
    [CNV_PNL_EVT_NAN_PRODUCED.COUNT], none⟩

/-- CNV_PNL_EVT_NAN_TO_INT.COUNT, bits [31:0], COUNT, reset 0 (chapter 03). -/
def CNV_PNL_EVT_NAN_TO_INT.COUNT : RegField := ⟨0x2000408, 0, 32, .count, 0⟩
/-- The register CNV_PNL_EVT_NAN_TO_INT (chapter 03). -/
def CNV_PNL_EVT_NAN_TO_INT : RegDef :=
  ⟨"CNV_PNL_EVT_NAN_TO_INT", [⟨0x2000408, [(4, 0x800000), (256, 0x4000)], 0⟩], false,
    [CNV_PNL_EVT_NAN_TO_INT.COUNT], none⟩

/-- CNV_PNL_EVT_INEXACT_GRID.COUNT, bits [31:0], COUNT, reset 0 (chapter 03). -/
def CNV_PNL_EVT_INEXACT_GRID.COUNT : RegField := ⟨0x200040C, 0, 32, .count, 0⟩
/-- The register CNV_PNL_EVT_INEXACT_GRID (chapter 03). -/
def CNV_PNL_EVT_INEXACT_GRID : RegDef :=
  ⟨"CNV_PNL_EVT_INEXACT_GRID", [⟨0x200040C, [(4, 0x800000), (256, 0x4000)], 0⟩], false,
    [CNV_PNL_EVT_INEXACT_GRID.COUNT], none⟩

/-- CNV_PNL_ISSUED.COUNT, bits [63:0], COUNT, reset 0 (chapter 03). -/
def CNV_PNL_ISSUED.COUNT : RegField := ⟨0x2000410, 0, 64, .count, 0⟩
/-- The register CNV_PNL_ISSUED (chapter 03). -/
def CNV_PNL_ISSUED : RegDef :=
  ⟨"CNV_PNL_ISSUED", [⟨0x2000410, [(4, 0x800000), (256, 0x4000)], 0⟩], true,
    [CNV_PNL_ISSUED.COUNT], none⟩

/-- CNV_PNL_WASH_ISSUED.COUNT, bits [63:0], COUNT, reset 0 (chapter 03). -/
def CNV_PNL_WASH_ISSUED.COUNT : RegField := ⟨0x2000418, 0, 64, .count, 0⟩
/-- The register CNV_PNL_WASH_ISSUED (chapter 03). -/
def CNV_PNL_WASH_ISSUED : RegDef :=
  ⟨"CNV_PNL_WASH_ISSUED", [⟨0x2000418, [(4, 0x800000), (256, 0x4000)], 0⟩], true,
    [CNV_PNL_WASH_ISSUED.COUNT], none⟩

/-- CNV_PNL_DAB_BUSY.COUNT, bits [63:0], COUNT, reset 0 (chapter 03). -/
def CNV_PNL_DAB_BUSY.COUNT : RegField := ⟨0x2000420, 0, 64, .count, 0⟩
/-- The register CNV_PNL_DAB_BUSY (chapter 03). -/
def CNV_PNL_DAB_BUSY : RegDef :=
  ⟨"CNV_PNL_DAB_BUSY", [⟨0x2000420, [(4, 0x800000), (256, 0x4000)], 0⟩], true,
    [CNV_PNL_DAB_BUSY.COUNT], none⟩

/-- CNV_PNL_NO_FIRE.COUNT, bits [63:0], COUNT, reset 0 (chapter 03). -/
def CNV_PNL_NO_FIRE.COUNT : RegField := ⟨0x2000428, 0, 64, .count, 0⟩
/-- The register CNV_PNL_NO_FIRE (chapter 03). -/
def CNV_PNL_NO_FIRE : RegDef :=
  ⟨"CNV_PNL_NO_FIRE", [⟨0x2000428, [(4, 0x800000), (256, 0x4000)], 0⟩], true,
    [CNV_PNL_NO_FIRE.COUNT], none⟩

/-- CNV_PNL_REGION.LEN, bits [49:36], RO, reset 0 (chapter 03). -/
def CNV_PNL_REGION.LEN : RegField := ⟨0x2002000, 36, 14, .ro, 0⟩
/-- CNV_PNL_REGION.BASE, bits [31:19], RO, reset 0 (chapter 03). -/
def CNV_PNL_REGION.BASE : RegField := ⟨0x2002000, 19, 13, .ro, 0⟩
/-- CNV_PNL_REGION.TOKEN, bits [18:16], RO, reset 0 (chapter 03). -/
def CNV_PNL_REGION.TOKEN : RegField := ⟨0x2002000, 16, 3, .ro, 0⟩
/-- CNV_PNL_REGION.READERS, bits [15:12], RO, reset 0 (chapter 03). -/
def CNV_PNL_REGION.READERS : RegField := ⟨0x2002000, 12, 4, .ro, 0⟩
/-- CNV_PNL_REGION.JOB, bits [11:11], RO, reset 0 (chapter 03). -/
def CNV_PNL_REGION.JOB : RegField := ⟨0x2002000, 11, 1, .ro, 0⟩
/-- The register CNV_PNL_REGION (chapter 03). -/
def CNV_PNL_REGION : RegDef :=
  ⟨"CNV_PNL_REGION", [⟨0x2002000, [(4, 0x800000), (256, 0x4000), (1024, 0x8)], 0⟩], true,
    [CNV_PNL_REGION.LEN, CNV_PNL_REGION.BASE, CNV_PNL_REGION.TOKEN, CNV_PNL_REGION.READERS, CNV_PNL_REGION.JOB], none⟩

/-- CNV_STM_TRN_CMD.OP, bits [17:16], WO, reset 0 (chapter 04). -/
def CNV_STM_TRN_CMD.OP : RegField := ⟨0x2400000, 16, 2, .wo, 0⟩
/-- CNV_STM_TRN_CMD.ENTRY, bits [11:0], WO, reset 0 (chapter 04). -/
def CNV_STM_TRN_CMD.ENTRY : RegField := ⟨0x2400000, 0, 12, .wo, 0⟩
/-- The register CNV_STM_TRN_CMD (chapter 04). -/
def CNV_STM_TRN_CMD : RegDef :=
  ⟨"CNV_STM_TRN_CMD", [⟨0x2400000, [(4, 0x800000)], 0⟩], false,
    [CNV_STM_TRN_CMD.OP, CNV_STM_TRN_CMD.ENTRY], none⟩

/-- CNV_STM_STATUS.QUEUE_DEPTH, bits [11:4], RO, reset 0 (chapter 04). -/
def CNV_STM_STATUS.QUEUE_DEPTH : RegField := ⟨0x2400004, 4, 8, .ro, 0⟩
/-- CNV_STM_STATUS.STREAM_BROKEN, bits [3:3], W1C, reset 0 (chapter 04). -/
def CNV_STM_STATUS.STREAM_BROKEN : RegField := ⟨0x2400004, 3, 1, .w1c, 0⟩
/-- CNV_STM_STATUS.TRAIN_FAULT, bits [2:2], W1C, reset 0 (chapter 04). -/
def CNV_STM_STATUS.TRAIN_FAULT : RegField := ⟨0x2400004, 2, 1, .w1c, 0⟩
/-- CNV_STM_STATUS.OVERSIZE, bits [1:1], W1C, reset 0 (chapter 04). -/
def CNV_STM_STATUS.OVERSIZE : RegField := ⟨0x2400004, 1, 1, .w1c, 0⟩
/-- CNV_STM_STATUS.CMD_REFUSED, bits [0:0], W1C, reset 0 (chapter 04). -/
def CNV_STM_STATUS.CMD_REFUSED : RegField := ⟨0x2400004, 0, 1, .w1c, 0⟩
/-- The register CNV_STM_STATUS (chapter 04). -/
def CNV_STM_STATUS : RegDef :=
  ⟨"CNV_STM_STATUS", [⟨0x2400004, [(4, 0x800000)], 0⟩], false,
    [CNV_STM_STATUS.QUEUE_DEPTH, CNV_STM_STATUS.STREAM_BROKEN, CNV_STM_STATUS.TRAIN_FAULT, CNV_STM_STATUS.OVERSIZE, CNV_STM_STATUS.CMD_REFUSED], none⟩

/-- CNV_STM_WASH_OVERSIZE.PART, bits [63:0], W1C, reset 0 (chapter 04). -/
def CNV_STM_WASH_OVERSIZE.PART : RegField := ⟨0x2400008, 0, 64, .w1c, 0⟩
/-- The register CNV_STM_WASH_OVERSIZE (chapter 04). -/
def CNV_STM_WASH_OVERSIZE : RegDef :=
  ⟨"CNV_STM_WASH_OVERSIZE", [⟨0x2400008, [(4, 0x800000)], 0⟩], true,
    [CNV_STM_WASH_OVERSIZE.PART], none⟩

/-- CNV_STM_WASH.FILLS, bits [26:16], RO, reset 0 (chapter 04). -/
def CNV_STM_WASH.FILLS : RegField := ⟨0x2400100, 16, 11, .ro, 0⟩
/-- CNV_STM_WASH.HOLD, bits [12:0], RO, reset 0 (chapter 04). -/
def CNV_STM_WASH.HOLD : RegField := ⟨0x2400100, 0, 13, .ro, 0⟩
/-- The register CNV_STM_WASH (chapter 04). -/
def CNV_STM_WASH : RegDef :=
  ⟨"CNV_STM_WASH", [⟨0x2400100, [(4, 0x800000), (64, 0x4)], 0⟩], false,
    [CNV_STM_WASH.FILLS, CNV_STM_WASH.HOLD], none⟩

/-- CNV_STM_TRN_STATUS.STATE, bits [31:29], RO, reset 0 (chapter 04). -/
def CNV_STM_TRN_STATUS.STATE : RegField := ⟨0x2410000, 29, 3, .ro, 0⟩
/-- CNV_STM_TRN_STATUS.CLASS, bits [28:28], RO, reset 0 (chapter 04). -/
def CNV_STM_TRN_STATUS.CLASS : RegField := ⟨0x2410000, 28, 1, .ro, 0⟩
/-- CNV_STM_TRN_STATUS.PHASE, bits [27:25], RO, reset 0 (chapter 04). -/
def CNV_STM_TRN_STATUS.PHASE : RegField := ⟨0x2410000, 25, 3, .ro, 0⟩
/-- CNV_STM_TRN_STATUS.LINKED, bits [24:24], RO, reset 0 (chapter 04). -/
def CNV_STM_TRN_STATUS.LINKED : RegField := ⟨0x2410000, 24, 1, .ro, 0⟩
/-- CNV_STM_TRN_STATUS.PARTITION, bits [23:16], RO, reset 0 (chapter 04). -/
def CNV_STM_TRN_STATUS.PARTITION : RegField := ⟨0x2410000, 16, 8, .ro, 0⟩
/-- CNV_STM_TRN_STATUS.CODE, bits [15:0], RO, reset 0 (chapter 04). -/
def CNV_STM_TRN_STATUS.CODE : RegField := ⟨0x2410000, 0, 16, .ro, 0⟩
/-- The register CNV_STM_TRN_STATUS (chapter 04). -/
def CNV_STM_TRN_STATUS : RegDef :=
  ⟨"CNV_STM_TRN_STATUS", [⟨0x2410000, [(4, 0x800000), (4096, 0x4)], 0⟩], false,
    [CNV_STM_TRN_STATUS.STATE, CNV_STM_TRN_STATUS.CLASS, CNV_STM_TRN_STATUS.PHASE, CNV_STM_TRN_STATUS.LINKED, CNV_STM_TRN_STATUS.PARTITION, CNV_STM_TRN_STATUS.CODE], none⟩

/-- CNV_STM_STREAM.STATE, bits [63:62], RO, reset 0 (chapter 04). -/
def CNV_STM_STREAM.STATE : RegField := ⟨0x2420000, 62, 2, .ro, 0⟩
/-- CNV_STM_STREAM.ENDS, bits [61:60], RO, reset 0 (chapter 04). -/
def CNV_STM_STREAM.ENDS : RegField := ⟨0x2420000, 60, 2, .ro, 0⟩
/-- CNV_STM_STREAM.CLASS, bits [59:59], RO, reset 0 (chapter 04). -/
def CNV_STM_STREAM.CLASS : RegField := ⟨0x2420000, 59, 1, .ro, 0⟩
/-- CNV_STM_STREAM.OVERSIZE, bits [58:58], W1C, reset 0 (chapter 04). -/
def CNV_STM_STREAM.OVERSIZE : RegField := ⟨0x2420000, 58, 1, .w1c, 0⟩
/-- CNV_STM_STREAM.LAND, bits [56:43], RO, reset 0 (chapter 04). -/
def CNV_STM_STREAM.LAND : RegField := ⟨0x2420000, 43, 14, .ro, 0⟩
/-- CNV_STM_STREAM.CREDITS, bits [42:29], RO, reset 0 (chapter 04). -/
def CNV_STM_STREAM.CREDITS : RegField := ⟨0x2420000, 29, 14, .ro, 0⟩
/-- CNV_STM_STREAM.SENDER, bits [28:19], RO, reset 0 (chapter 04). -/
def CNV_STM_STREAM.SENDER : RegField := ⟨0x2420000, 19, 10, .ro, 0⟩
/-- CNV_STM_STREAM.RECEIVER, bits [18:9], RO, reset 0 (chapter 04). -/
def CNV_STM_STREAM.RECEIVER : RegField := ⟨0x2420000, 9, 10, .ro, 0⟩
/-- The register CNV_STM_STREAM (chapter 04). -/
def CNV_STM_STREAM : RegDef :=
  ⟨"CNV_STM_STREAM", [⟨0x2420000, [(4, 0x800000), (4096, 0x8)], 0⟩], true,
    [CNV_STM_STREAM.STATE, CNV_STM_STREAM.ENDS, CNV_STM_STREAM.CLASS, CNV_STM_STREAM.OVERSIZE, CNV_STM_STREAM.LAND, CNV_STM_STREAM.CREDITS, CNV_STM_STREAM.SENDER, CNV_STM_STREAM.RECEIVER], none⟩

/-- CNV_SEQ_STATUS.HW_UPDATE_LOST, bits [2:2], W1C, reset 0 (chapter 06). -/
def CNV_SEQ_STATUS.HW_UPDATE_LOST : RegField := ⟨0x2500004, 2, 1, .w1c, 0⟩
/-- CNV_SEQ_STATUS.MBX_OVERFLOW, bits [1:1], W1C, reset 0 (chapter 06). -/
def CNV_SEQ_STATUS.MBX_OVERFLOW : RegField := ⟨0x2500004, 1, 1, .w1c, 0⟩
/-- CNV_SEQ_STATUS.FAULT, bits [0:0], W1C, reset 0 (chapter 06). -/
def CNV_SEQ_STATUS.FAULT : RegField := ⟨0x2500004, 0, 1, .w1c, 0⟩
/-- The register CNV_SEQ_STATUS (chapter 06). -/
def CNV_SEQ_STATUS : RegDef :=
  ⟨"CNV_SEQ_STATUS", [⟨0x2500004, [(4, 0x800000)], 0⟩], false,
    [CNV_SEQ_STATUS.HW_UPDATE_LOST, CNV_SEQ_STATUS.MBX_OVERFLOW, CNV_SEQ_STATUS.FAULT], none⟩

/-- CNV_SEQ_FAULT_PC.PC, bits [39:2], RO, reset 0 (chapter 06). -/
def CNV_SEQ_FAULT_PC.PC : RegField := ⟨0x2500008, 2, 38, .ro, 0⟩
/-- The register CNV_SEQ_FAULT_PC (chapter 06). -/
def CNV_SEQ_FAULT_PC : RegDef :=
  ⟨"CNV_SEQ_FAULT_PC", [⟨0x2500008, [(4, 0x800000)], 0⟩], true,
    [CNV_SEQ_FAULT_PC.PC], none⟩

/-- CNV_SEQ_FAULT_INFO.VALID, bits [31:31], W1C, reset 0 (chapter 06). -/
def CNV_SEQ_FAULT_INFO.VALID : RegField := ⟨0x2500010, 31, 1, .w1c, 0⟩
/-- CNV_SEQ_FAULT_INFO.OVERRUN, bits [30:30], W1C, reset 0 (chapter 06). -/
def CNV_SEQ_FAULT_INFO.OVERRUN : RegField := ⟨0x2500010, 30, 1, .w1c, 0⟩
/-- CNV_SEQ_FAULT_INFO.CORE, bits [29:26], RO, reset 0 (chapter 06). -/
def CNV_SEQ_FAULT_INFO.CORE : RegField := ⟨0x2500010, 26, 4, .ro, 0⟩
/-- CNV_SEQ_FAULT_INFO.THREAD, bits [25:21], RO, reset 0 (chapter 06). -/
def CNV_SEQ_FAULT_INFO.THREAD : RegField := ⟨0x2500010, 21, 5, .ro, 0⟩
/-- CNV_SEQ_FAULT_INFO.CAUSE, bits [20:17], RO, reset 0 (chapter 06). -/
def CNV_SEQ_FAULT_INFO.CAUSE : RegField := ⟨0x2500010, 17, 4, .ro, 0⟩
/-- CNV_SEQ_FAULT_INFO.CODE, bits [15:0], RO, reset 0 (chapter 06). -/
def CNV_SEQ_FAULT_INFO.CODE : RegField := ⟨0x2500010, 0, 16, .ro, 0⟩
/-- The register CNV_SEQ_FAULT_INFO (chapter 06). -/
def CNV_SEQ_FAULT_INFO : RegDef :=
  ⟨"CNV_SEQ_FAULT_INFO", [⟨0x2500010, [(4, 0x800000)], 0⟩], false,
    [CNV_SEQ_FAULT_INFO.VALID, CNV_SEQ_FAULT_INFO.OVERRUN, CNV_SEQ_FAULT_INFO.CORE, CNV_SEQ_FAULT_INFO.THREAD, CNV_SEQ_FAULT_INFO.CAUSE, CNV_SEQ_FAULT_INFO.CODE], none⟩

/-- CNV_SEQ_INSTR.COUNT, bits [63:0], COUNT, reset 0 (chapter 06). -/
def CNV_SEQ_INSTR.COUNT : RegField := ⟨0x2500020, 0, 64, .count, 0⟩
/-- The register CNV_SEQ_INSTR (chapter 06). -/
def CNV_SEQ_INSTR : RegDef :=
  ⟨"CNV_SEQ_INSTR", [⟨0x2500020, [(4, 0x800000)], 0⟩], true,
    [CNV_SEQ_INSTR.COUNT], none⟩

/-- CNV_SEQ_SWITCH.COUNT, bits [63:0], COUNT, reset 0 (chapter 06). -/
def CNV_SEQ_SWITCH.COUNT : RegField := ⟨0x2500028, 0, 64, .count, 0⟩
/-- The register CNV_SEQ_SWITCH (chapter 06). -/
def CNV_SEQ_SWITCH : RegDef :=
  ⟨"CNV_SEQ_SWITCH", [⟨0x2500028, [(4, 0x800000)], 0⟩], true,
    [CNV_SEQ_SWITCH.COUNT], none⟩

/-- CNV_SEQ_MISPREDICT.COUNT, bits [63:0], COUNT, reset 0 (chapter 06). -/
def CNV_SEQ_MISPREDICT.COUNT : RegField := ⟨0x2500030, 0, 64, .count, 0⟩
/-- The register CNV_SEQ_MISPREDICT (chapter 06). -/
def CNV_SEQ_MISPREDICT : RegDef :=
  ⟨"CNV_SEQ_MISPREDICT", [⟨0x2500030, [(4, 0x800000)], 0⟩], true,
    [CNV_SEQ_MISPREDICT.COUNT], none⟩

/-- CNV_SEQ_THR_CTL.ENABLE, bits [31:31], RW, reset 0 (chapter 06). -/
def CNV_SEQ_THR_CTL.ENABLE : RegField := ⟨0x2501000, 31, 1, .rw, 0⟩
/-- CNV_SEQ_THR_CTL.STATE, bits [30:28], RO, reset 0 (chapter 06). -/
def CNV_SEQ_THR_CTL.STATE : RegField := ⟨0x2501000, 28, 3, .ro, 0⟩
/-- CNV_SEQ_THR_CTL.WAIT, bits [27:24], RO, reset 0 (chapter 06). -/
def CNV_SEQ_THR_CTL.WAIT : RegField := ⟨0x2501000, 24, 4, .ro, 0⟩
/-- CNV_SEQ_THR_CTL.PARTITION, bits [23:16], RO, reset 0 (chapter 06). -/
def CNV_SEQ_THR_CTL.PARTITION : RegField := ⟨0x2501000, 16, 8, .ro, 0⟩
/-- The register CNV_SEQ_THR_CTL (chapter 06). -/
def CNV_SEQ_THR_CTL : RegDef :=
  ⟨"CNV_SEQ_THR_CTL", [⟨0x2501000, [(4, 0x800000), (512, 0x10)], 0⟩], false,
    [CNV_SEQ_THR_CTL.ENABLE, CNV_SEQ_THR_CTL.STATE, CNV_SEQ_THR_CTL.WAIT, CNV_SEQ_THR_CTL.PARTITION], none⟩

/-- CNV_SEQ_MBX_POST.WORD, bits [31:0], WO, reset 0 (chapter 06). -/
def CNV_SEQ_MBX_POST.WORD : RegField := ⟨0x2504000, 0, 32, .wo, 0⟩
/-- The register CNV_SEQ_MBX_POST (chapter 06). -/
def CNV_SEQ_MBX_POST : RegDef :=
  ⟨"CNV_SEQ_MBX_POST", [⟨0x2504000, [(4, 0x800000), (1024, 0x4)], 0⟩], false,
    [CNV_SEQ_MBX_POST.WORD], none⟩

/-- CNV_SEQ_MBX_STAT.LOST, bits [31:16], COUNT, reset 0 (chapter 06). -/
def CNV_SEQ_MBX_STAT.LOST : RegField := ⟨0x2505000, 16, 16, .count, 0⟩
/-- CNV_SEQ_MBX_STAT.DEPTH, bits [4:0], RO, reset 0 (chapter 06). -/
def CNV_SEQ_MBX_STAT.DEPTH : RegField := ⟨0x2505000, 0, 5, .ro, 0⟩
/-- The register CNV_SEQ_MBX_STAT (chapter 06). -/
def CNV_SEQ_MBX_STAT : RegDef :=
  ⟨"CNV_SEQ_MBX_STAT", [⟨0x2505000, [(4, 0x800000), (1024, 0x4)], 0⟩], false,
    [CNV_SEQ_MBX_STAT.LOST, CNV_SEQ_MBX_STAT.DEPTH], none⟩

/-- CNV_GLZ_STATUS.WB_HELD, bits [7:7], RO, reset 0 (chapter 07). -/
def CNV_GLZ_STATUS.WB_HELD : RegField := ⟨0x2600000, 7, 1, .ro, 0⟩
/-- CNV_GLZ_STATUS.INV_BUSY, bits [6:6], RO, reset 0 (chapter 07). -/
def CNV_GLZ_STATUS.INV_BUSY : RegField := ⟨0x2600000, 6, 1, .ro, 0⟩
/-- CNV_GLZ_STATUS.FLUSH_BUSY, bits [5:5], RO, reset 0 (chapter 07). -/
def CNV_GLZ_STATUS.FLUSH_BUSY : RegField := ⟨0x2600000, 5, 1, .ro, 0⟩
/-- CNV_GLZ_STATUS.FLUSH_DONE, bits [4:4], W1C, reset 0 (chapter 07). -/
def CNV_GLZ_STATUS.FLUSH_DONE : RegField := ⟨0x2600000, 4, 1, .w1c, 0⟩
/-- CNV_GLZ_STATUS.ADD_FAULT, bits [3:3], W1C, reset 0 (chapter 07). -/
def CNV_GLZ_STATUS.ADD_FAULT : RegField := ⟨0x2600000, 3, 1, .w1c, 0⟩
/-- CNV_GLZ_STATUS.TACK_REFUSED, bits [2:2], W1C, reset 0 (chapter 07). -/
def CNV_GLZ_STATUS.TACK_REFUSED : RegField := ⟨0x2600000, 2, 1, .w1c, 0⟩
/-- CNV_GLZ_STATUS.TACK_OVERFLOW, bits [1:1], W1C, reset 0 (chapter 07). -/
def CNV_GLZ_STATUS.TACK_OVERFLOW : RegField := ⟨0x2600000, 1, 1, .w1c, 0⟩
/-- CNV_GLZ_STATUS.HW_UPDATE_LOST, bits [0:0], W1C, reset 0 (chapter 07). -/
def CNV_GLZ_STATUS.HW_UPDATE_LOST : RegField := ⟨0x2600000, 0, 1, .w1c, 0⟩
/-- The register CNV_GLZ_STATUS (chapter 07). -/
def CNV_GLZ_STATUS : RegDef :=
  ⟨"CNV_GLZ_STATUS", [⟨0x2600000, [(4, 0x800000)], 0⟩], false,
    [CNV_GLZ_STATUS.WB_HELD, CNV_GLZ_STATUS.INV_BUSY, CNV_GLZ_STATUS.FLUSH_BUSY, CNV_GLZ_STATUS.FLUSH_DONE, CNV_GLZ_STATUS.ADD_FAULT, CNV_GLZ_STATUS.TACK_REFUSED, CNV_GLZ_STATUS.TACK_OVERFLOW, CNV_GLZ_STATUS.HW_UPDATE_LOST], none⟩

/-- CNV_GLZ_TACK_BUDGET.BUDGET, bits [18:0], RW, reset 0x40000 (chapter 07). -/
def CNV_GLZ_TACK_BUDGET.BUDGET : RegField := ⟨0x2600010, 0, 19, .rw, 0x40000⟩
/-- The register CNV_GLZ_TACK_BUDGET (chapter 07). -/
def CNV_GLZ_TACK_BUDGET : RegDef :=
  ⟨"CNV_GLZ_TACK_BUDGET", [⟨0x2600010, [(4, 0x800000)], 0⟩], false,
    [CNV_GLZ_TACK_BUDGET.BUDGET], none⟩

/-- CNV_GLZ_TACK_INUSE.LINES, bits [18:0], RO, reset 0 (chapter 07). -/
def CNV_GLZ_TACK_INUSE.LINES : RegField := ⟨0x2600014, 0, 19, .ro, 0⟩
/-- The register CNV_GLZ_TACK_INUSE (chapter 07). -/
def CNV_GLZ_TACK_INUSE : RegDef :=
  ⟨"CNV_GLZ_TACK_INUSE", [⟨0x2600014, [(4, 0x800000)], 0⟩], false,
    [CNV_GLZ_TACK_INUSE.LINES], none⟩

/-- CNV_GLZ_FLUSH_BASE.BASE_LINE, bits [24:0], RW, reset 0 (chapter 07). -/
def CNV_GLZ_FLUSH_BASE.BASE_LINE : RegField := ⟨0x2600018, 0, 25, .rw, 0⟩
/-- The register CNV_GLZ_FLUSH_BASE (chapter 07). -/
def CNV_GLZ_FLUSH_BASE : RegDef :=
  ⟨"CNV_GLZ_FLUSH_BASE", [⟨0x2600018, [(4, 0x800000)], 0⟩], false,
    [CNV_GLZ_FLUSH_BASE.BASE_LINE], none⟩

/-- CNV_GLZ_FLUSH_CMD.OP, bits [31:30], WO, reset 0 (chapter 07). -/
def CNV_GLZ_FLUSH_CMD.OP : RegField := ⟨0x2600020, 30, 2, .wo, 0⟩
/-- CNV_GLZ_FLUSH_CMD.LINES, bits [24:0], WO, reset 0 (chapter 07). -/
def CNV_GLZ_FLUSH_CMD.LINES : RegField := ⟨0x2600020, 0, 25, .wo, 0⟩
/-- The register CNV_GLZ_FLUSH_CMD (chapter 07). -/
def CNV_GLZ_FLUSH_CMD : RegDef :=
  ⟨"CNV_GLZ_FLUSH_CMD", [⟨0x2600020, [(4, 0x800000)], 0⟩], false,
    [CNV_GLZ_FLUSH_CMD.OP, CNV_GLZ_FLUSH_CMD.LINES], none⟩

/-- CNV_GLZ_RO_INV.GO, bits [0:0], WO, reset 0 (chapter 07). -/
def CNV_GLZ_RO_INV.GO : RegField := ⟨0x2600024, 0, 1, .wo, 0⟩
/-- The register CNV_GLZ_RO_INV (chapter 07). -/
def CNV_GLZ_RO_INV : RegDef :=
  ⟨"CNV_GLZ_RO_INV", [⟨0x2600024, [(4, 0x800000)], 0⟩], false,
    [CNV_GLZ_RO_INV.GO], none⟩

/-- CNV_GLZ_ERR.DPA, bits [63:24], RO, reset 0 (chapter 07). -/
def CNV_GLZ_ERR.DPA : RegField := ⟨0x2600030, 24, 40, .ro, 0⟩
/-- CNV_GLZ_ERR.VALID, bits [23:23], W1C, reset 0 (chapter 07). -/
def CNV_GLZ_ERR.VALID : RegField := ⟨0x2600030, 23, 1, .w1c, 0⟩
/-- CNV_GLZ_ERR.OVERRUN, bits [22:22], W1C, reset 0 (chapter 07). -/
def CNV_GLZ_ERR.OVERRUN : RegField := ⟨0x2600030, 22, 1, .w1c, 0⟩
/-- CNV_GLZ_ERR.CODE, bits [15:0], RO, reset 0 (chapter 07). -/
def CNV_GLZ_ERR.CODE : RegField := ⟨0x2600030, 0, 16, .ro, 0⟩
/-- The register CNV_GLZ_ERR (chapter 07). -/
def CNV_GLZ_ERR : RegDef :=
  ⟨"CNV_GLZ_ERR", [⟨0x2600030, [(4, 0x800000)], 0⟩], true,
    [CNV_GLZ_ERR.DPA, CNV_GLZ_ERR.VALID, CNV_GLZ_ERR.OVERRUN, CNV_GLZ_ERR.CODE], none⟩

/-- CNV_GLZ_PF_CTL.PF_SLOTS, bits [23:13], RW, reset 0x200 (chapter 06). -/
def CNV_GLZ_PF_CTL.PF_SLOTS : RegField := ⟨0x2600100, 13, 11, .rw, 0x200⟩
/-- CNV_GLZ_PF_CTL.DEPTH, bits [3:1], RW, reset 2 (chapter 06). -/
def CNV_GLZ_PF_CTL.DEPTH : RegField := ⟨0x2600100, 1, 3, .rw, 2⟩
/-- CNV_GLZ_PF_CTL.ENABLE, bits [0:0], RW, reset 1 (chapter 06). -/
def CNV_GLZ_PF_CTL.ENABLE : RegField := ⟨0x2600100, 0, 1, .rw, 1⟩
/-- The register CNV_GLZ_PF_CTL (chapter 06). -/
def CNV_GLZ_PF_CTL : RegDef :=
  ⟨"CNV_GLZ_PF_CTL", [⟨0x2600100, [(4, 0x800000)], 0⟩], false,
    [CNV_GLZ_PF_CTL.PF_SLOTS, CNV_GLZ_PF_CTL.DEPTH, CNV_GLZ_PF_CTL.ENABLE], none⟩

/-- CNV_GLZ_FILL_INUSE.SLOTS, bits [12:0], RO, reset 0 (chapter 06). -/
def CNV_GLZ_FILL_INUSE.SLOTS : RegField := ⟨0x2600104, 0, 13, .ro, 0⟩
/-- The register CNV_GLZ_FILL_INUSE (chapter 06). -/
def CNV_GLZ_FILL_INUSE : RegDef :=
  ⟨"CNV_GLZ_FILL_INUSE", [⟨0x2600104, [(4, 0x800000)], 0⟩], false,
    [CNV_GLZ_FILL_INUSE.SLOTS], none⟩

/-- CNV_GLZ_BANK_HOTSPOT.COUNT, bits [63:0], COUNT, reset 0 (chapter 06). -/
def CNV_GLZ_BANK_HOTSPOT.COUNT : RegField := ⟨0x2600108, 0, 64, .count, 0⟩
/-- The register CNV_GLZ_BANK_HOTSPOT (chapter 06). -/
def CNV_GLZ_BANK_HOTSPOT : RegDef :=
  ⟨"CNV_GLZ_BANK_HOTSPOT", [⟨0x2600108, [(4, 0x800000)], 0⟩], true,
    [CNV_GLZ_BANK_HOTSPOT.COUNT], none⟩

/-- CNV_GLZ_PF_ISSUED.COUNT, bits [63:0], COUNT, reset 0 (chapter 06). -/
def CNV_GLZ_PF_ISSUED.COUNT : RegField := ⟨0x2600110, 0, 64, .count, 0⟩
/-- The register CNV_GLZ_PF_ISSUED (chapter 06). -/
def CNV_GLZ_PF_ISSUED : RegDef :=
  ⟨"CNV_GLZ_PF_ISSUED", [⟨0x2600110, [(4, 0x800000)], 0⟩], true,
    [CNV_GLZ_PF_ISSUED.COUNT], none⟩

/-- CNV_GLZ_PF_USEFUL.COUNT, bits [63:0], COUNT, reset 0 (chapter 06). -/
def CNV_GLZ_PF_USEFUL.COUNT : RegField := ⟨0x2600118, 0, 64, .count, 0⟩
/-- The register CNV_GLZ_PF_USEFUL (chapter 06). -/
def CNV_GLZ_PF_USEFUL : RegDef :=
  ⟨"CNV_GLZ_PF_USEFUL", [⟨0x2600118, [(4, 0x800000)], 0⟩], true,
    [CNV_GLZ_PF_USEFUL.COUNT], none⟩

/-- CNV_GLZ_PF_LATE.COUNT, bits [63:0], COUNT, reset 0 (chapter 06). -/
def CNV_GLZ_PF_LATE.COUNT : RegField := ⟨0x2600120, 0, 64, .count, 0⟩
/-- The register CNV_GLZ_PF_LATE (chapter 06). -/
def CNV_GLZ_PF_LATE : RegDef :=
  ⟨"CNV_GLZ_PF_LATE", [⟨0x2600120, [(4, 0x800000)], 0⟩], true,
    [CNV_GLZ_PF_LATE.COUNT], none⟩

/-- CNV_GLZ_PF_EVICTED_UNUSED.COUNT, bits [63:0], COUNT, reset 0 (chapter 06). -/
def CNV_GLZ_PF_EVICTED_UNUSED.COUNT : RegField := ⟨0x2600128, 0, 64, .count, 0⟩
/-- The register CNV_GLZ_PF_EVICTED_UNUSED (chapter 06). -/
def CNV_GLZ_PF_EVICTED_UNUSED : RegDef :=
  ⟨"CNV_GLZ_PF_EVICTED_UNUSED", [⟨0x2600128, [(4, 0x800000)], 0⟩], true,
    [CNV_GLZ_PF_EVICTED_UNUSED.COUNT], none⟩

/-- CNV_GLZ_READ_HIT.COUNT, bits [63:0], COUNT, reset 0 (chapter 07). -/
def CNV_GLZ_READ_HIT.COUNT : RegField := ⟨0x2600200, 0, 64, .count, 0⟩
/-- The register CNV_GLZ_READ_HIT (chapter 07). -/
def CNV_GLZ_READ_HIT : RegDef :=
  ⟨"CNV_GLZ_READ_HIT", [⟨0x2600200, [(4, 0x800000)], 0⟩], true,
    [CNV_GLZ_READ_HIT.COUNT], none⟩

/-- CNV_GLZ_READ_MISS.COUNT, bits [63:0], COUNT, reset 0 (chapter 07). -/
def CNV_GLZ_READ_MISS.COUNT : RegField := ⟨0x2600208, 0, 64, .count, 0⟩
/-- The register CNV_GLZ_READ_MISS (chapter 07). -/
def CNV_GLZ_READ_MISS : RegDef :=
  ⟨"CNV_GLZ_READ_MISS", [⟨0x2600208, [(4, 0x800000)], 0⟩], true,
    [CNV_GLZ_READ_MISS.COUNT], none⟩

/-- CNV_GLZ_ADDL_SECTORS.COUNT, bits [63:0], COUNT, reset 0 (chapter 07). -/
def CNV_GLZ_ADDL_SECTORS.COUNT : RegField := ⟨0x2600210, 0, 64, .count, 0⟩
/-- The register CNV_GLZ_ADDL_SECTORS (chapter 07). -/
def CNV_GLZ_ADDL_SECTORS : RegDef :=
  ⟨"CNV_GLZ_ADDL_SECTORS", [⟨0x2600210, [(4, 0x800000)], 0⟩], true,
    [CNV_GLZ_ADDL_SECTORS.COUNT], none⟩

/-- CNV_GLZ_TACK_OVF.COUNT, bits [63:0], COUNT, reset 0 (chapter 07). -/
def CNV_GLZ_TACK_OVF.COUNT : RegField := ⟨0x2600218, 0, 64, .count, 0⟩
/-- The register CNV_GLZ_TACK_OVF (chapter 07). -/
def CNV_GLZ_TACK_OVF : RegDef :=
  ⟨"CNV_GLZ_TACK_OVF", [⟨0x2600218, [(4, 0x800000)], 0⟩], true,
    [CNV_GLZ_TACK_OVF.COUNT], none⟩

/-- CNV_GLZ_WRITEBACK.COUNT, bits [63:0], COUNT, reset 0 (chapter 07). -/
def CNV_GLZ_WRITEBACK.COUNT : RegField := ⟨0x2600220, 0, 64, .count, 0⟩
/-- The register CNV_GLZ_WRITEBACK (chapter 07). -/
def CNV_GLZ_WRITEBACK : RegDef :=
  ⟨"CNV_GLZ_WRITEBACK", [⟨0x2600220, [(4, 0x800000)], 0⟩], true,
    [CNV_GLZ_WRITEBACK.COUNT], none⟩

/-- CNV_GLZ_TURN_LINES.COUNT, bits [63:0], COUNT, reset 0 (chapter 07). -/
def CNV_GLZ_TURN_LINES.COUNT : RegField := ⟨0x2600228, 0, 64, .count, 0⟩
/-- The register CNV_GLZ_TURN_LINES (chapter 07). -/
def CNV_GLZ_TURN_LINES : RegDef :=
  ⟨"CNV_GLZ_TURN_LINES", [⟨0x2600228, [(4, 0x800000)], 0⟩], true,
    [CNV_GLZ_TURN_LINES.COUNT], none⟩

/-- CNV_GLZ_TACK_RANGE.ENABLE, bits [63:63], RW, reset 0 (chapter 07). -/
def CNV_GLZ_TACK_RANGE.ENABLE : RegField := ⟨0x2601000, 63, 1, .rw, 0⟩
/-- CNV_GLZ_TACK_RANGE.CONFLICT, bits [62:62], RO, reset 0 (chapter 07). -/
def CNV_GLZ_TACK_RANGE.CONFLICT : RegField := ⟨0x2601000, 62, 1, .ro, 0⟩
/-- CNV_GLZ_TACK_RANGE.LINES, bits [49:25], RW, reset 0 (chapter 07). -/
def CNV_GLZ_TACK_RANGE.LINES : RegField := ⟨0x2601000, 25, 25, .rw, 0⟩
/-- CNV_GLZ_TACK_RANGE.BASE_LINE, bits [24:0], RW, reset 0 (chapter 07). -/
def CNV_GLZ_TACK_RANGE.BASE_LINE : RegField := ⟨0x2601000, 0, 25, .rw, 0⟩
/-- The register CNV_GLZ_TACK_RANGE (chapter 07). -/
def CNV_GLZ_TACK_RANGE : RegDef :=
  ⟨"CNV_GLZ_TACK_RANGE", [⟨0x2601000, [(4, 0x800000), (64, 0x8)], 0⟩], true,
    [CNV_GLZ_TACK_RANGE.ENABLE, CNV_GLZ_TACK_RANGE.CONFLICT, CNV_GLZ_TACK_RANGE.LINES, CNV_GLZ_TACK_RANGE.BASE_LINE], none⟩

/-- CNV_GSO_BANKS.WORKING, bits [31:0], RO, reset 0xFFFFFFFF (chapter 07). -/
def CNV_GSO_BANKS.WORKING : RegField := ⟨0x2680000, 0, 32, .ro, 0xFFFFFFFF⟩
/-- The register CNV_GSO_BANKS (chapter 07). -/
def CNV_GSO_BANKS : RegDef :=
  ⟨"CNV_GSO_BANKS", [⟨0x2680000, [(4, 0x800000), (32, 0x4)], 0⟩], false,
    [CNV_GSO_BANKS.WORKING], none⟩

/-- CNV_GSO_POP_LIMIT.OFFSET, bits [35:0], RO, reset 0xC00000000 (chapter 07). -/
def CNV_GSO_POP_LIMIT.OFFSET : RegField := ⟨0x2680080, 0, 36, .ro, 0xC00000000⟩
/-- The register CNV_GSO_POP_LIMIT (chapter 07). -/
def CNV_GSO_POP_LIMIT : RegDef :=
  ⟨"CNV_GSO_POP_LIMIT", [⟨0x2680080, [(4, 0x800000)], 0⟩], true,
    [CNV_GSO_POP_LIMIT.OFFSET], none⟩

/-- CNV_ECC_STATUS.RETIRE_BUSY, bits [7:7], RO, reset 0 (chapter 17). -/
def CNV_ECC_STATUS.RETIRE_BUSY : RegField := ⟨0x26C0000, 7, 1, .ro, 0⟩
/-- CNV_ECC_STATUS.RETIRE_ERR, bits [6:6], W1C, reset 0 (chapter 17). -/
def CNV_ECC_STATUS.RETIRE_ERR : RegField := ⟨0x26C0000, 6, 1, .w1c, 0⟩
/-- CNV_ECC_STATUS.RETIRE_DONE, bits [5:5], W1C, reset 0 (chapter 17). -/
def CNV_ECC_STATUS.RETIRE_DONE : RegField := ⟨0x26C0000, 5, 1, .w1c, 0⟩
/-- CNV_ECC_STATUS.LAP_SLOW, bits [4:4], W1C, reset 0 (chapter 17). -/
def CNV_ECC_STATUS.LAP_SLOW : RegField := ⟨0x26C0000, 4, 1, .w1c, 0⟩
/-- CNV_ECC_STATUS.LOG_OVERFLOW, bits [3:3], W1C, reset 0 (chapter 17). -/
def CNV_ECC_STATUS.LOG_OVERFLOW : RegField := ⟨0x26C0000, 3, 1, .w1c, 0⟩
/-- CNV_ECC_STATUS.UE_EVT, bits [2:2], W1C, reset 0 (chapter 17). -/
def CNV_ECC_STATUS.UE_EVT : RegField := ⟨0x26C0000, 2, 1, .w1c, 0⟩
/-- CNV_ECC_STATUS.CE_EVT, bits [1:1], W1C, reset 0 (chapter 17). -/
def CNV_ECC_STATUS.CE_EVT : RegField := ⟨0x26C0000, 1, 1, .w1c, 0⟩
/-- CNV_ECC_STATUS.HW_UPDATE_LOST, bits [0:0], W1C, reset 0 (chapter 17). -/
def CNV_ECC_STATUS.HW_UPDATE_LOST : RegField := ⟨0x26C0000, 0, 1, .w1c, 0⟩
/-- The register CNV_ECC_STATUS (chapter 17). -/
def CNV_ECC_STATUS : RegDef :=
  ⟨"CNV_ECC_STATUS", [⟨0x26C0000, [(4, 0x800000)], 0⟩], false,
    [CNV_ECC_STATUS.RETIRE_BUSY, CNV_ECC_STATUS.RETIRE_ERR, CNV_ECC_STATUS.RETIRE_DONE, CNV_ECC_STATUS.LAP_SLOW, CNV_ECC_STATUS.LOG_OVERFLOW, CNV_ECC_STATUS.UE_EVT, CNV_ECC_STATUS.CE_EVT, CNV_ECC_STATUS.HW_UPDATE_LOST], none⟩

/-- CNV_ECC_CTL.CE_THRESH, bits [31:16], RW, reset 0x400 (chapter 17). -/
def CNV_ECC_CTL.CE_THRESH : RegField := ⟨0x26C0004, 16, 16, .rw, 0x400⟩
/-- CNV_ECC_CTL.GLZ_SCRUB_EN, bits [1:1], RW, reset 1 (chapter 17). -/
def CNV_ECC_CTL.GLZ_SCRUB_EN : RegField := ⟨0x26C0004, 1, 1, .rw, 1⟩
/-- CNV_ECC_CTL.SCRUB_EN, bits [0:0], RW, reset 1 (chapter 17). -/
def CNV_ECC_CTL.SCRUB_EN : RegField := ⟨0x26C0004, 0, 1, .rw, 1⟩
/-- The register CNV_ECC_CTL (chapter 17). -/
def CNV_ECC_CTL : RegDef :=
  ⟨"CNV_ECC_CTL", [⟨0x26C0004, [(4, 0x800000)], 0⟩], false,
    [CNV_ECC_CTL.CE_THRESH, CNV_ECC_CTL.GLZ_SCRUB_EN, CNV_ECC_CTL.SCRUB_EN], none⟩

/-- CNV_ECC_SCRUB_LAP_US.US, bits [31:0], RO, reset 0 (chapter 17). -/
def CNV_ECC_SCRUB_LAP_US.US : RegField := ⟨0x26C0008, 0, 32, .ro, 0⟩
/-- The register CNV_ECC_SCRUB_LAP_US (chapter 17). -/
def CNV_ECC_SCRUB_LAP_US : RegDef :=
  ⟨"CNV_ECC_SCRUB_LAP_US", [⟨0x26C0008, [(4, 0x800000)], 0⟩], false,
    [CNV_ECC_SCRUB_LAP_US.US], none⟩

/-- CNV_ECC_GLZ_LAP_US.US, bits [31:0], RO, reset 0 (chapter 17). -/
def CNV_ECC_GLZ_LAP_US.US : RegField := ⟨0x26C000C, 0, 32, .ro, 0⟩
/-- The register CNV_ECC_GLZ_LAP_US (chapter 17). -/
def CNV_ECC_GLZ_LAP_US : RegDef :=
  ⟨"CNV_ECC_GLZ_LAP_US", [⟨0x26C000C, [(4, 0x800000)], 0⟩], false,
    [CNV_ECC_GLZ_LAP_US.US], none⟩

/-- CNV_ECC_LAP_WARN.LAP_WARN_MS, bits [19:0], RW, reset 0x3E8 (chapter 17). -/
def CNV_ECC_LAP_WARN.LAP_WARN_MS : RegField := ⟨0x26C0010, 0, 20, .rw, 0x3E8⟩
/-- The register CNV_ECC_LAP_WARN (chapter 17). -/
def CNV_ECC_LAP_WARN : RegDef :=
  ⟨"CNV_ECC_LAP_WARN", [⟨0x26C0010, [(4, 0x800000)], 0⟩], false,
    [CNV_ECC_LAP_WARN.LAP_WARN_MS], none⟩

/-- CNV_ECC_LOG_PTR.LOG_RD, bits [13:8], RW, reset 0 (chapter 17). -/
def CNV_ECC_LOG_PTR.LOG_RD : RegField := ⟨0x26C0014, 8, 6, .rw, 0⟩
/-- CNV_ECC_LOG_PTR.LOG_WR, bits [5:0], RO, reset 0 (chapter 17). -/
def CNV_ECC_LOG_PTR.LOG_WR : RegField := ⟨0x26C0014, 0, 6, .ro, 0⟩
/-- The register CNV_ECC_LOG_PTR (chapter 17). -/
def CNV_ECC_LOG_PTR : RegDef :=
  ⟨"CNV_ECC_LOG_PTR", [⟨0x26C0014, [(4, 0x800000)], 0⟩], false,
    [CNV_ECC_LOG_PTR.LOG_RD, CNV_ECC_LOG_PTR.LOG_WR], none⟩

/-- CNV_ECC_RETIRE.OP, bits [31:30], WO, reset 0 (chapter 17). -/
def CNV_ECC_RETIRE.OP : RegField := ⟨0x26C0020, 30, 2, .wo, 0⟩
/-- CNV_ECC_RETIRE.LAYER, bits [23:22], WO, reset 0 (chapter 17). -/
def CNV_ECC_RETIRE.LAYER : RegField := ⟨0x26C0020, 22, 2, .wo, 0⟩
/-- CNV_ECC_RETIRE.CHANNEL, bits [21:19], WO, reset 0 (chapter 17). -/
def CNV_ECC_RETIRE.CHANNEL : RegField := ⟨0x26C0020, 19, 3, .wo, 0⟩
/-- CNV_ECC_RETIRE.BANK, bits [18:14], WO, reset 0 (chapter 17). -/
def CNV_ECC_RETIRE.BANK : RegField := ⟨0x26C0020, 14, 5, .wo, 0⟩
/-- CNV_ECC_RETIRE.PAGE, bits [9:0], WO, reset 0 (chapter 17). -/
def CNV_ECC_RETIRE.PAGE : RegField := ⟨0x26C0020, 0, 10, .wo, 0⟩
/-- The register CNV_ECC_RETIRE (chapter 17). -/
def CNV_ECC_RETIRE : RegDef :=
  ⟨"CNV_ECC_RETIRE", [⟨0x26C0020, [(4, 0x800000)], 0⟩], false,
    [CNV_ECC_RETIRE.OP, CNV_ECC_RETIRE.LAYER, CNV_ECC_RETIRE.CHANNEL, CNV_ECC_RETIRE.BANK, CNV_ECC_RETIRE.PAGE], none⟩

/-- CNV_ECC_RETIRE_CODE.CODE, bits [15:0], RO, reset 0 (chapter 17). -/
def CNV_ECC_RETIRE_CODE.CODE : RegField := ⟨0x26C0024, 0, 16, .ro, 0⟩
/-- The register CNV_ECC_RETIRE_CODE (chapter 17). -/
def CNV_ECC_RETIRE_CODE : RegDef :=
  ⟨"CNV_ECC_RETIRE_CODE", [⟨0x26C0024, [(4, 0x800000)], 0⟩], false,
    [CNV_ECC_RETIRE_CODE.CODE], none⟩

/-- CNV_ECC_CE_WELL.COUNT, bits [63:0], COUNT, reset 0 (chapter 17). -/
def CNV_ECC_CE_WELL.COUNT : RegField := ⟨0x26C0100, 0, 64, .count, 0⟩
/-- The register CNV_ECC_CE_WELL (chapter 17). -/
def CNV_ECC_CE_WELL : RegDef :=
  ⟨"CNV_ECC_CE_WELL", [⟨0x26C0100, [(4, 0x800000)], 0⟩], true,
    [CNV_ECC_CE_WELL.COUNT], none⟩

/-- CNV_ECC_CE_GLAZE.COUNT, bits [63:0], COUNT, reset 0 (chapter 17). -/
def CNV_ECC_CE_GLAZE.COUNT : RegField := ⟨0x26C0108, 0, 64, .count, 0⟩
/-- The register CNV_ECC_CE_GLAZE (chapter 17). -/
def CNV_ECC_CE_GLAZE : RegDef :=
  ⟨"CNV_ECC_CE_GLAZE", [⟨0x26C0108, [(4, 0x800000)], 0⟩], true,
    [CNV_ECC_CE_GLAZE.COUNT], none⟩

/-- CNV_ECC_CE_GESSO.COUNT, bits [63:0], COUNT, reset 0 (chapter 17). -/
def CNV_ECC_CE_GESSO.COUNT : RegField := ⟨0x26C0110, 0, 64, .count, 0⟩
/-- The register CNV_ECC_CE_GESSO (chapter 17). -/
def CNV_ECC_CE_GESSO : RegDef :=
  ⟨"CNV_ECC_CE_GESSO", [⟨0x26C0110, [(4, 0x800000)], 0⟩], true,
    [CNV_ECC_CE_GESSO.COUNT], none⟩

/-- CNV_ECC_UE_WELL.COUNT, bits [63:0], COUNT, reset 0 (chapter 17). -/
def CNV_ECC_UE_WELL.COUNT : RegField := ⟨0x26C0118, 0, 64, .count, 0⟩
/-- The register CNV_ECC_UE_WELL (chapter 17). -/
def CNV_ECC_UE_WELL : RegDef :=
  ⟨"CNV_ECC_UE_WELL", [⟨0x26C0118, [(4, 0x800000)], 0⟩], true,
    [CNV_ECC_UE_WELL.COUNT], none⟩

/-- CNV_ECC_UE_GLAZE.COUNT, bits [63:0], COUNT, reset 0 (chapter 17). -/
def CNV_ECC_UE_GLAZE.COUNT : RegField := ⟨0x26C0120, 0, 64, .count, 0⟩
/-- The register CNV_ECC_UE_GLAZE (chapter 17). -/
def CNV_ECC_UE_GLAZE : RegDef :=
  ⟨"CNV_ECC_UE_GLAZE", [⟨0x26C0120, [(4, 0x800000)], 0⟩], true,
    [CNV_ECC_UE_GLAZE.COUNT], none⟩

/-- CNV_ECC_UE_GESSO.COUNT, bits [63:0], COUNT, reset 0 (chapter 17). -/
def CNV_ECC_UE_GESSO.COUNT : RegField := ⟨0x26C0128, 0, 64, .count, 0⟩
/-- The register CNV_ECC_UE_GESSO (chapter 17). -/
def CNV_ECC_UE_GESSO : RegDef :=
  ⟨"CNV_ECC_UE_GESSO", [⟨0x26C0128, [(4, 0x800000)], 0⟩], true,
    [CNV_ECC_UE_GESSO.COUNT], none⟩

/-- CNV_ECC_UE_REFETCH.COUNT, bits [63:0], COUNT, reset 0 (chapter 17). -/
def CNV_ECC_UE_REFETCH.COUNT : RegField := ⟨0x26C0130, 0, 64, .count, 0⟩
/-- The register CNV_ECC_UE_REFETCH (chapter 17). -/
def CNV_ECC_UE_REFETCH : RegDef :=
  ⟨"CNV_ECC_UE_REFETCH", [⟨0x26C0130, [(4, 0x800000)], 0⟩], true,
    [CNV_ECC_UE_REFETCH.COUNT], none⟩

/-- CNV_ECC_SCRUB_FIXED.COUNT, bits [63:0], COUNT, reset 0 (chapter 17). -/
def CNV_ECC_SCRUB_FIXED.COUNT : RegField := ⟨0x26C0138, 0, 64, .count, 0⟩
/-- The register CNV_ECC_SCRUB_FIXED (chapter 17). -/
def CNV_ECC_SCRUB_FIXED : RegDef :=
  ⟨"CNV_ECC_SCRUB_FIXED", [⟨0x26C0138, [(4, 0x800000)], 0⟩], true,
    [CNV_ECC_SCRUB_FIXED.COUNT], none⟩

/-- CNV_ECC_LOG_LOST.COUNT, bits [63:0], COUNT, reset 0 (chapter 17). -/
def CNV_ECC_LOG_LOST.COUNT : RegField := ⟨0x26C0140, 0, 64, .count, 0⟩
/-- The register CNV_ECC_LOG_LOST (chapter 17). -/
def CNV_ECC_LOG_LOST : RegDef :=
  ⟨"CNV_ECC_LOG_LOST", [⟨0x26C0140, [(4, 0x800000)], 0⟩], true,
    [CNV_ECC_LOG_LOST.COUNT], none⟩

/-- CNV_ECC_LOG_TIME.TIME, bits [63:0], RO, reset 0 (chapter 17). -/
def CNV_ECC_LOG_TIME.TIME : RegField := ⟨0x26C1000, 0, 64, .ro, 0⟩
/-- The register CNV_ECC_LOG_TIME (chapter 17). -/
def CNV_ECC_LOG_TIME : RegDef :=
  ⟨"CNV_ECC_LOG_TIME", [⟨0x26C1000, [(4, 0x800000), (64, 0x20)], 0⟩], true,
    [CNV_ECC_LOG_TIME.TIME], none⟩

/-- CNV_ECC_LOG_WHAT.DPA, bits [63:24], RO, reset 0 (chapter 17). -/
def CNV_ECC_LOG_WHAT.DPA : RegField := ⟨0x26C1008, 24, 40, .ro, 0⟩
/-- CNV_ECC_LOG_WHAT.MEM, bits [23:16], RO, reset 0 (chapter 17). -/
def CNV_ECC_LOG_WHAT.MEM : RegField := ⟨0x26C1008, 16, 8, .ro, 0⟩
/-- CNV_ECC_LOG_WHAT.KIND, bits [15:8], RO, reset 0 (chapter 17). -/
def CNV_ECC_LOG_WHAT.KIND : RegField := ⟨0x26C1008, 8, 8, .ro, 0⟩
/-- CNV_ECC_LOG_WHAT.SOURCE, bits [7:0], RO, reset 0 (chapter 17). -/
def CNV_ECC_LOG_WHAT.SOURCE : RegField := ⟨0x26C1008, 0, 8, .ro, 0⟩
/-- The register CNV_ECC_LOG_WHAT (chapter 17). -/
def CNV_ECC_LOG_WHAT : RegDef :=
  ⟨"CNV_ECC_LOG_WHAT", [⟨0x26C1008, [(4, 0x800000), (64, 0x20)], 0⟩], true,
    [CNV_ECC_LOG_WHAT.DPA, CNV_ECC_LOG_WHAT.MEM, CNV_ECC_LOG_WHAT.KIND, CNV_ECC_LOG_WHAT.SOURCE], none⟩

/-- CNV_ECC_LOG_WHERE.LOCATION, bits [63:0], RO, reset 0 (chapter 17). -/
def CNV_ECC_LOG_WHERE.LOCATION : RegField := ⟨0x26C1010, 0, 64, .ro, 0⟩
/-- The register CNV_ECC_LOG_WHERE (chapter 17). -/
def CNV_ECC_LOG_WHERE : RegDef :=
  ⟨"CNV_ECC_LOG_WHERE", [⟨0x26C1010, [(4, 0x800000), (64, 0x20)], 0⟩], true,
    [CNV_ECC_LOG_WHERE.LOCATION], none⟩

/-- CNV_ECC_LOG_WHO.REQUESTER, bits [63:48], RO, reset 0 (chapter 17). -/
def CNV_ECC_LOG_WHO.REQUESTER : RegField := ⟨0x26C1018, 48, 16, .ro, 0⟩
/-- CNV_ECC_LOG_WHO.COUNT, bits [47:32], RO, reset 0 (chapter 17). -/
def CNV_ECC_LOG_WHO.COUNT : RegField := ⟨0x26C1018, 32, 16, .ro, 0⟩
/-- CNV_ECC_LOG_WHO.CODE, bits [31:16], RO, reset 0 (chapter 17). -/
def CNV_ECC_LOG_WHO.CODE : RegField := ⟨0x26C1018, 16, 16, .ro, 0⟩
/-- The register CNV_ECC_LOG_WHO (chapter 17). -/
def CNV_ECC_LOG_WHO : RegDef :=
  ⟨"CNV_ECC_LOG_WHO", [⟨0x26C1018, [(4, 0x800000), (64, 0x20)], 0⟩], true,
    [CNV_ECC_LOG_WHO.REQUESTER, CNV_ECC_LOG_WHO.COUNT, CNV_ECC_LOG_WHO.CODE], none⟩

/-- CNV_ECC_SPARE_USED.PAGES, bits [63:0], RO, reset 0 (reset given as: From the sketchbook) (chapter 17). -/
def CNV_ECC_SPARE_USED.PAGES : RegField := ⟨0x26C2000, 0, 64, .ro, 0⟩
/-- The register CNV_ECC_SPARE_USED (chapter 17). -/
def CNV_ECC_SPARE_USED : RegDef :=
  ⟨"CNV_ECC_SPARE_USED", [⟨0x26C2000, [(4, 0x800000), (32, 0x8)], 0⟩], true,
    [CNV_ECC_SPARE_USED.PAGES], none⟩

/-- CNV_ECC_BANK_RETIRE.PENDING, bits [31:0], W1S, reset 0 (chapter 17). -/
def CNV_ECC_BANK_RETIRE.PENDING : RegField := ⟨0x26C2100, 0, 32, .w1s, 0⟩
/-- The register CNV_ECC_BANK_RETIRE (chapter 17). -/
def CNV_ECC_BANK_RETIRE : RegDef :=
  ⟨"CNV_ECC_BANK_RETIRE", [⟨0x26C2100, [(4, 0x800000), (32, 0x4)], 0⟩], false,
    [CNV_ECC_BANK_RETIRE.PENDING], none⟩

/-- CNV_ROW_STATUS.HW_UPDATE_LOST, bits [1:1], W1C, reset 0 (chapter 08). -/
def CNV_ROW_STATUS.HW_UPDATE_LOST : RegField := ⟨0x2700000, 1, 1, .w1c, 0⟩
/-- CNV_ROW_STATUS.Q_ERR, bits [0:0], RO, reset 0 (chapter 08). -/
def CNV_ROW_STATUS.Q_ERR : RegField := ⟨0x2700000, 0, 1, .ro, 0⟩
/-- The register CNV_ROW_STATUS (chapter 08). -/
def CNV_ROW_STATUS : RegDef :=
  ⟨"CNV_ROW_STATUS", [⟨0x2700000, [(4, 0x800000)], 0⟩], false,
    [CNV_ROW_STATUS.HW_UPDATE_LOST, CNV_ROW_STATUS.Q_ERR], none⟩

/-- CNV_ROW_LAYER_MODE.FALLBACK, bits [3:0], RO, reset 0 (reset given as: Fused) (chapter 08). -/
def CNV_ROW_LAYER_MODE.FALLBACK : RegField := ⟨0x2700004, 0, 4, .ro, 0⟩
/-- The register CNV_ROW_LAYER_MODE (chapter 08). -/
def CNV_ROW_LAYER_MODE : RegDef :=
  ⟨"CNV_ROW_LAYER_MODE", [⟨0x2700004, [(4, 0x800000)], 0⟩], false,
    [CNV_ROW_LAYER_MODE.FALLBACK], none⟩

/-- CNV_ROW_OPS.COUNT, bits [63:0], COUNT, reset 0 (chapter 08). -/
def CNV_ROW_OPS.COUNT : RegField := ⟨0x2700010, 0, 64, .count, 0⟩
/-- The register CNV_ROW_OPS (chapter 08). -/
def CNV_ROW_OPS : RegDef :=
  ⟨"CNV_ROW_OPS", [⟨0x2700010, [(4, 0x800000)], 0⟩], true,
    [CNV_ROW_OPS.COUNT], none⟩

/-- CNV_ROW_FALLBACK_OPS.COUNT, bits [63:0], COUNT, reset 0 (chapter 08). -/
def CNV_ROW_FALLBACK_OPS.COUNT : RegField := ⟨0x2700018, 0, 64, .count, 0⟩
/-- The register CNV_ROW_FALLBACK_OPS (chapter 08). -/
def CNV_ROW_FALLBACK_OPS : RegDef :=
  ⟨"CNV_ROW_FALLBACK_OPS", [⟨0x2700018, [(4, 0x800000)], 0⟩], true,
    [CNV_ROW_FALLBACK_OPS.COUNT], none⟩

/-- CNV_ROW_CE.COUNT, bits [63:0], COUNT, reset 0 (chapter 08). -/
def CNV_ROW_CE.COUNT : RegField := ⟨0x2700020, 0, 64, .count, 0⟩
/-- The register CNV_ROW_CE (chapter 08). -/
def CNV_ROW_CE : RegDef :=
  ⟨"CNV_ROW_CE", [⟨0x2700020, [(4, 0x800000)], 0⟩], true,
    [CNV_ROW_CE.COUNT], none⟩

/-- CNV_ROW_Q_CTL.RESUME, bits [9:9], WO, reset 0 (chapter 08). -/
def CNV_ROW_Q_CTL.RESUME : RegField := ⟨0x2701000, 9, 1, .wo, 0⟩
/-- CNV_ROW_Q_CTL.ENABLE, bits [8:8], RW, reset 0 (chapter 08). -/
def CNV_ROW_Q_CTL.ENABLE : RegField := ⟨0x2701000, 8, 1, .rw, 0⟩
/-- CNV_ROW_Q_CTL.SIZE_LOG2, bits [4:0], RW, reset 4 (chapter 08). -/
def CNV_ROW_Q_CTL.SIZE_LOG2 : RegField := ⟨0x2701000, 0, 5, .rw, 4⟩
/-- The register CNV_ROW_Q_CTL (chapter 08). -/
def CNV_ROW_Q_CTL : RegDef :=
  ⟨"CNV_ROW_Q_CTL", [⟨0x2701000, [(4, 0x800000), (65, 0x40)], 0⟩], false,
    [CNV_ROW_Q_CTL.RESUME, CNV_ROW_Q_CTL.ENABLE, CNV_ROW_Q_CTL.SIZE_LOG2], none⟩

/-- CNV_ROW_Q_BASE.BASE, bits [39:11], RW, reset 0 (chapter 08). -/
def CNV_ROW_Q_BASE.BASE : RegField := ⟨0x2701008, 11, 29, .rw, 0⟩
/-- The register CNV_ROW_Q_BASE (chapter 08). -/
def CNV_ROW_Q_BASE : RegDef :=
  ⟨"CNV_ROW_Q_BASE", [⟨0x2701008, [(4, 0x800000), (65, 0x40)], 0⟩], true,
    [CNV_ROW_Q_BASE.BASE], none⟩

/-- CNV_ROW_Q_DB.DB_VALID, bits [63:63], RW, reset 0 (chapter 08). -/
def CNV_ROW_Q_DB.DB_VALID : RegField := ⟨0x2701010, 63, 1, .rw, 0⟩
/-- CNV_ROW_Q_DB.DB_DPA, bits [39:3], RW, reset 0 (chapter 08). -/
def CNV_ROW_Q_DB.DB_DPA : RegField := ⟨0x2701010, 3, 37, .rw, 0⟩
/-- The register CNV_ROW_Q_DB (chapter 08). -/
def CNV_ROW_Q_DB : RegDef :=
  ⟨"CNV_ROW_Q_DB", [⟨0x2701010, [(4, 0x800000), (65, 0x40)], 0⟩], true,
    [CNV_ROW_Q_DB.DB_VALID, CNV_ROW_Q_DB.DB_DPA], none⟩

/-- CNV_ROW_Q_HEAD.HEAD, bits [31:0], RO, reset 0 (chapter 08). -/
def CNV_ROW_Q_HEAD.HEAD : RegField := ⟨0x270101C, 0, 32, .ro, 0⟩
/-- The register CNV_ROW_Q_HEAD (chapter 08). -/
def CNV_ROW_Q_HEAD : RegDef :=
  ⟨"CNV_ROW_Q_HEAD", [⟨0x270101C, [(4, 0x800000), (65, 0x40)], 0⟩], false,
    [CNV_ROW_Q_HEAD.HEAD], none⟩

/-- CNV_ROW_Q_STATUS.ERR, bits [19:19], W1C, reset 0 (chapter 08). -/
def CNV_ROW_Q_STATUS.ERR : RegField := ⟨0x2701020, 19, 1, .w1c, 0⟩
/-- CNV_ROW_Q_STATUS.DONE, bits [18:18], W1C, reset 0 (chapter 08). -/
def CNV_ROW_Q_STATUS.DONE : RegField := ⟨0x2701020, 18, 1, .w1c, 0⟩
/-- CNV_ROW_Q_STATUS.STATE, bits [17:16], RO, reset 0 (chapter 08). -/
def CNV_ROW_Q_STATUS.STATE : RegField := ⟨0x2701020, 16, 2, .ro, 0⟩
/-- CNV_ROW_Q_STATUS.CODE, bits [15:0], RO, reset 0 (chapter 08). -/
def CNV_ROW_Q_STATUS.CODE : RegField := ⟨0x2701020, 0, 16, .ro, 0⟩
/-- The register CNV_ROW_Q_STATUS (chapter 08). -/
def CNV_ROW_Q_STATUS : RegDef :=
  ⟨"CNV_ROW_Q_STATUS", [⟨0x2701020, [(4, 0x800000), (65, 0x40)], 0⟩], false,
    [CNV_ROW_Q_STATUS.ERR, CNV_ROW_Q_STATUS.DONE, CNV_ROW_Q_STATUS.STATE, CNV_ROW_Q_STATUS.CODE], none⟩

/-- CNV_ROW_Q_FAIL.DPA, bits [63:24], RO, reset 0 (chapter 08). -/
def CNV_ROW_Q_FAIL.DPA : RegField := ⟨0x2701028, 24, 40, .ro, 0⟩
/-- CNV_ROW_Q_FAIL.SEQ, bits [23:0], RO, reset 0 (chapter 08). -/
def CNV_ROW_Q_FAIL.SEQ : RegField := ⟨0x2701028, 0, 24, .ro, 0⟩
/-- The register CNV_ROW_Q_FAIL (chapter 08). -/
def CNV_ROW_Q_FAIL : RegDef :=
  ⟨"CNV_ROW_Q_FAIL", [⟨0x2701028, [(4, 0x800000), (65, 0x40)], 0⟩], true,
    [CNV_ROW_Q_FAIL.DPA, CNV_ROW_Q_FAIL.SEQ], none⟩

/-- CNV_FIN_STATUS.UNITS_BUSY, bits [20:16], RO, reset 0 (chapter 09). -/
def CNV_FIN_STATUS.UNITS_BUSY : RegField := ⟨0x2780000, 16, 5, .ro, 0⟩
/-- CNV_FIN_STATUS.STEP_REFUSED, bits [2:2], W1C, reset 0 (chapter 09). -/
def CNV_FIN_STATUS.STEP_REFUSED : RegField := ⟨0x2780000, 2, 1, .w1c, 0⟩
/-- CNV_FIN_STATUS.HW_UPDATE_LOST, bits [1:1], W1C, reset 0 (chapter 09). -/
def CNV_FIN_STATUS.HW_UPDATE_LOST : RegField := ⟨0x2780000, 1, 1, .w1c, 0⟩
/-- CNV_FIN_STATUS.Q_ERR, bits [0:0], RO, reset 0 (chapter 09). -/
def CNV_FIN_STATUS.Q_ERR : RegField := ⟨0x2780000, 0, 1, .ro, 0⟩
/-- The register CNV_FIN_STATUS (chapter 09). -/
def CNV_FIN_STATUS : RegDef :=
  ⟨"CNV_FIN_STATUS", [⟨0x2780000, [(4, 0x800000)], 0⟩], false,
    [CNV_FIN_STATUS.UNITS_BUSY, CNV_FIN_STATUS.STEP_REFUSED, CNV_FIN_STATUS.HW_UPDATE_LOST, CNV_FIN_STATUS.Q_ERR], none⟩

/-- CNV_FIN_EVT_OVERFLOW.COUNT, bits [31:0], COUNT, reset 0 (chapter 09). -/
def CNV_FIN_EVT_OVERFLOW.COUNT : RegField := ⟨0x2780010, 0, 32, .count, 0⟩
/-- The register CNV_FIN_EVT_OVERFLOW (chapter 09). -/
def CNV_FIN_EVT_OVERFLOW : RegDef :=
  ⟨"CNV_FIN_EVT_OVERFLOW", [⟨0x2780010, [(4, 0x800000)], 0⟩], false,
    [CNV_FIN_EVT_OVERFLOW.COUNT], none⟩

/-- CNV_FIN_EVT_NAN_PRODUCED.COUNT, bits [31:0], COUNT, reset 0 (chapter 09). -/
def CNV_FIN_EVT_NAN_PRODUCED.COUNT : RegField := ⟨0x2780014, 0, 32, .count, 0⟩
/-- The register CNV_FIN_EVT_NAN_PRODUCED (chapter 09). -/
def CNV_FIN_EVT_NAN_PRODUCED : RegDef :=
  ⟨"CNV_FIN_EVT_NAN_PRODUCED", [⟨0x2780014, [(4, 0x800000)], 0⟩], false,
    [CNV_FIN_EVT_NAN_PRODUCED.COUNT], none⟩

/-- CNV_FIN_EVT_INEXACT_GRID.COUNT, bits [31:0], COUNT, reset 0 (chapter 09). -/
def CNV_FIN_EVT_INEXACT_GRID.COUNT : RegField := ⟨0x2780018, 0, 32, .count, 0⟩
/-- The register CNV_FIN_EVT_INEXACT_GRID (chapter 09). -/
def CNV_FIN_EVT_INEXACT_GRID : RegDef :=
  ⟨"CNV_FIN_EVT_INEXACT_GRID", [⟨0x2780018, [(4, 0x800000)], 0⟩], false,
    [CNV_FIN_EVT_INEXACT_GRID.COUNT], none⟩

/-- CNV_FIN_EVT_NAN_TO_INT.COUNT, bits [31:0], COUNT, reset 0 (chapter 09). -/
def CNV_FIN_EVT_NAN_TO_INT.COUNT : RegField := ⟨0x278001C, 0, 32, .count, 0⟩
/-- The register CNV_FIN_EVT_NAN_TO_INT (chapter 09). -/
def CNV_FIN_EVT_NAN_TO_INT : RegDef :=
  ⟨"CNV_FIN_EVT_NAN_TO_INT", [⟨0x278001C, [(4, 0x800000)], 0⟩], false,
    [CNV_FIN_EVT_NAN_TO_INT.COUNT], none⟩

/-- CNV_FIN_TASKS.COUNT, bits [63:0], COUNT, reset 0 (chapter 09). -/
def CNV_FIN_TASKS.COUNT : RegField := ⟨0x2780020, 0, 64, .count, 0⟩
/-- The register CNV_FIN_TASKS (chapter 09). -/
def CNV_FIN_TASKS : RegDef :=
  ⟨"CNV_FIN_TASKS", [⟨0x2780020, [(4, 0x800000)], 0⟩], true,
    [CNV_FIN_TASKS.COUNT], none⟩

/-- CNV_FIN_BUSY.COUNT, bits [63:0], COUNT, reset 0 (chapter 09). -/
def CNV_FIN_BUSY.COUNT : RegField := ⟨0x2780028, 0, 64, .count, 0⟩
/-- The register CNV_FIN_BUSY (chapter 09). -/
def CNV_FIN_BUSY : RegDef :=
  ⟨"CNV_FIN_BUSY", [⟨0x2780028, [(4, 0x800000)], 0⟩], true,
    [CNV_FIN_BUSY.COUNT], none⟩

/-- CNV_FIN_Q_CTL.RESUME, bits [9:9], WO, reset 0 (chapter 09). -/
def CNV_FIN_Q_CTL.RESUME : RegField := ⟨0x2781000, 9, 1, .wo, 0⟩
/-- CNV_FIN_Q_CTL.ENABLE, bits [8:8], RW, reset 0 (chapter 09). -/
def CNV_FIN_Q_CTL.ENABLE : RegField := ⟨0x2781000, 8, 1, .rw, 0⟩
/-- CNV_FIN_Q_CTL.SIZE_LOG2, bits [4:0], RW, reset 4 (chapter 09). -/
def CNV_FIN_Q_CTL.SIZE_LOG2 : RegField := ⟨0x2781000, 0, 5, .rw, 4⟩
/-- The register CNV_FIN_Q_CTL (chapter 09). -/
def CNV_FIN_Q_CTL : RegDef :=
  ⟨"CNV_FIN_Q_CTL", [⟨0x2781000, [(4, 0x800000), (65, 0x40)], 0⟩], false,
    [CNV_FIN_Q_CTL.RESUME, CNV_FIN_Q_CTL.ENABLE, CNV_FIN_Q_CTL.SIZE_LOG2], none⟩

/-- CNV_FIN_Q_BASE.BASE, bits [39:11], RW, reset 0 (chapter 09). -/
def CNV_FIN_Q_BASE.BASE : RegField := ⟨0x2781008, 11, 29, .rw, 0⟩
/-- The register CNV_FIN_Q_BASE (chapter 09). -/
def CNV_FIN_Q_BASE : RegDef :=
  ⟨"CNV_FIN_Q_BASE", [⟨0x2781008, [(4, 0x800000), (65, 0x40)], 0⟩], true,
    [CNV_FIN_Q_BASE.BASE], none⟩

/-- CNV_FIN_Q_DB.DB_VALID, bits [63:63], RW, reset 0 (chapter 09). -/
def CNV_FIN_Q_DB.DB_VALID : RegField := ⟨0x2781010, 63, 1, .rw, 0⟩
/-- CNV_FIN_Q_DB.DB_DPA, bits [39:3], RW, reset 0 (chapter 09). -/
def CNV_FIN_Q_DB.DB_DPA : RegField := ⟨0x2781010, 3, 37, .rw, 0⟩
/-- The register CNV_FIN_Q_DB (chapter 09). -/
def CNV_FIN_Q_DB : RegDef :=
  ⟨"CNV_FIN_Q_DB", [⟨0x2781010, [(4, 0x800000), (65, 0x40)], 0⟩], true,
    [CNV_FIN_Q_DB.DB_VALID, CNV_FIN_Q_DB.DB_DPA], none⟩

/-- CNV_FIN_Q_HEAD.HEAD, bits [31:0], RO, reset 0 (chapter 09). -/
def CNV_FIN_Q_HEAD.HEAD : RegField := ⟨0x278101C, 0, 32, .ro, 0⟩
/-- The register CNV_FIN_Q_HEAD (chapter 09). -/
def CNV_FIN_Q_HEAD : RegDef :=
  ⟨"CNV_FIN_Q_HEAD", [⟨0x278101C, [(4, 0x800000), (65, 0x40)], 0⟩], false,
    [CNV_FIN_Q_HEAD.HEAD], none⟩

/-- CNV_FIN_Q_STATUS.ERR, bits [19:19], W1C, reset 0 (chapter 09). -/
def CNV_FIN_Q_STATUS.ERR : RegField := ⟨0x2781020, 19, 1, .w1c, 0⟩
/-- CNV_FIN_Q_STATUS.DONE, bits [18:18], W1C, reset 0 (chapter 09). -/
def CNV_FIN_Q_STATUS.DONE : RegField := ⟨0x2781020, 18, 1, .w1c, 0⟩
/-- CNV_FIN_Q_STATUS.STATE, bits [17:16], RO, reset 0 (chapter 09). -/
def CNV_FIN_Q_STATUS.STATE : RegField := ⟨0x2781020, 16, 2, .ro, 0⟩
/-- CNV_FIN_Q_STATUS.CODE, bits [15:0], RO, reset 0 (chapter 09). -/
def CNV_FIN_Q_STATUS.CODE : RegField := ⟨0x2781020, 0, 16, .ro, 0⟩
/-- The register CNV_FIN_Q_STATUS (chapter 09). -/
def CNV_FIN_Q_STATUS : RegDef :=
  ⟨"CNV_FIN_Q_STATUS", [⟨0x2781020, [(4, 0x800000), (65, 0x40)], 0⟩], false,
    [CNV_FIN_Q_STATUS.ERR, CNV_FIN_Q_STATUS.DONE, CNV_FIN_Q_STATUS.STATE, CNV_FIN_Q_STATUS.CODE], none⟩

/-- CNV_FIN_Q_FAIL.STROKE_CODE, bits [63:48], RO, reset 0 (chapter 09). -/
def CNV_FIN_Q_FAIL.STROKE_CODE : RegField := ⟨0x2781028, 48, 16, .ro, 0⟩
/-- CNV_FIN_Q_FAIL.SEQ, bits [23:0], RO, reset 0 (chapter 09). -/
def CNV_FIN_Q_FAIL.SEQ : RegField := ⟨0x2781028, 0, 24, .ro, 0⟩
/-- The register CNV_FIN_Q_FAIL (chapter 09). -/
def CNV_FIN_Q_FAIL : RegDef :=
  ⟨"CNV_FIN_Q_FAIL", [⟨0x2781028, [(4, 0x800000), (65, 0x40)], 0⟩], true,
    [CNV_FIN_Q_FAIL.STROKE_CODE, CNV_FIN_Q_FAIL.SEQ], none⟩

/-- CNV_INT_BLOCK.BLOCK, bits [9:0], RO, reset 0 (chapter 18). -/
def CNV_INT_BLOCK.BLOCK : RegField := ⟨0x27E0000, 0, 10, .ro, 0⟩
/-- The register CNV_INT_BLOCK (chapter 18). -/
def CNV_INT_BLOCK : RegDef :=
  ⟨"CNV_INT_BLOCK", [⟨0x27E0000, [(4, 0x800000)], 0⟩], false,
    [CNV_INT_BLOCK.BLOCK], none⟩

/-- CNV_PNL_VECTOR.BITS, bits [31:0], RO, reset 0 (chapter 18). -/
def CNV_PNL_VECTOR.BITS : RegField := ⟨0x27E0010, 0, 32, .ro, 0⟩
/-- The register CNV_PNL_VECTOR (chapter 18). -/
def CNV_PNL_VECTOR : RegDef :=
  ⟨"CNV_PNL_VECTOR", [⟨0x27E0010, [(4, 0x800000), (8, 0x4)], 0⟩], false,
    [CNV_PNL_VECTOR.BITS], none⟩

/-- CNV_PART_VECTOR.BITS, bits [31:0], W1C, reset 0 (chapter 18). -/
def CNV_PART_VECTOR.BITS : RegField := ⟨0x27E0030, 0, 32, .w1c, 0⟩
/-- The register CNV_PART_VECTOR (chapter 18). -/
def CNV_PART_VECTOR : RegDef :=
  ⟨"CNV_PART_VECTOR", [⟨0x27E0030, [(4, 0x800000), (2, 0x4)], 0⟩], false,
    [CNV_PART_VECTOR.BITS], none⟩

/-- CNV_ROWQ_VECTOR.BITS, bits [31:0], RO, reset 0 (chapter 18). -/
def CNV_ROWQ_VECTOR.BITS : RegField := ⟨0x27E0040, 0, 32, .ro, 0⟩
/-- The register CNV_ROWQ_VECTOR (chapter 18). -/
def CNV_ROWQ_VECTOR : RegDef :=
  ⟨"CNV_ROWQ_VECTOR", [⟨0x27E0040, [(4, 0x800000), (3, 0x4)], 0⟩], false,
    [CNV_ROWQ_VECTOR.BITS], none⟩

/-- CNV_FINQ_VECTOR.BITS, bits [31:0], RO, reset 0 (chapter 18). -/
def CNV_FINQ_VECTOR.BITS : RegField := ⟨0x27E0050, 0, 32, .ro, 0⟩
/-- The register CNV_FINQ_VECTOR (chapter 18). -/
def CNV_FINQ_VECTOR : RegDef :=
  ⟨"CNV_FINQ_VECTOR", [⟨0x27E0050, [(4, 0x800000), (3, 0x4)], 0⟩], false,
    [CNV_FINQ_VECTOR.BITS], none⟩

/-- DMA_CH_TAIL.TAIL, bits [31:0], RWH, reset 0 (chapter 11). -/
def DMA_CH_TAIL.TAIL : RegField := ⟨0x301018, 0, 32, .rwh, 0⟩
/-- The register DMA_CH_TAIL (chapter 11). -/
def DMA_CH_TAIL : RegDef :=
  ⟨"DMA_CH_TAIL", [⟨0x27C1018, [(4, 0x800000), (64, 0x100)], 0⟩, ⟨0x301018, [(64, 0x100)], 256⟩], false,
    [DMA_CH_TAIL.TAIL], some (DMA_ENG_STATUS.HW_UPDATE_LOST, 64)⟩

/-- COAT_Q_TAIL.TAIL, bits [31:0], RWH, reset 0 (chapter 10). -/
def COAT_Q_TAIL.TAIL : RegField := ⟨0xC08018, 0, 32, .rwh, 0⟩
/-- The register COAT_Q_TAIL (chapter 10). -/
def COAT_Q_TAIL : RegDef :=
  ⟨"COAT_Q_TAIL", [⟨0xC08018, [(257, 0x40)], 0⟩], false,
    [COAT_Q_TAIL.TAIL], some (COAT_STATUS.HW_UPDATE_LOST, 1000000)⟩

/-- COL_Q_TAIL.TAIL, bits [31:0], RWH, reset 0 (chapter 14). -/
def COL_Q_TAIL.TAIL : RegField := ⟨0xC10018, 0, 32, .rwh, 0⟩
/-- The register COL_Q_TAIL (chapter 14). -/
def COL_Q_TAIL : RegDef :=
  ⟨"COL_Q_TAIL", [⟨0xC10018, [(257, 0x40)], 0⟩], false,
    [COL_Q_TAIL.TAIL], some (COL_STATUS.HW_UPDATE_LOST, 1000000)⟩

/-- CNV_PNL_THR_PC.PC, bits [39:4], RWH, reset 0 (chapter 03). -/
def CNV_PNL_THR_PC.PC : RegField := ⟨0x2000108, 4, 36, .rwh, 0⟩
/-- The register CNV_PNL_THR_PC (chapter 03). -/
def CNV_PNL_THR_PC : RegDef :=
  ⟨"CNV_PNL_THR_PC", [⟨0x2000108, [(4, 0x800000), (256, 0x4000), (8, 0x20)], 0⟩], true,
    [CNV_PNL_THR_PC.PC], some (CNV_PNL_STATUS.HW_UPDATE_LOST, 8)⟩

/-- CNV_PNL_THR_STEP.STEP, bits [31:0], RWH, reset 0 (chapter 03). -/
def CNV_PNL_THR_STEP.STEP : RegField := ⟨0x2000110, 0, 32, .rwh, 0⟩
/-- The register CNV_PNL_THR_STEP (chapter 03). -/
def CNV_PNL_THR_STEP : RegDef :=
  ⟨"CNV_PNL_THR_STEP", [⟨0x2000110, [(4, 0x800000), (256, 0x4000), (8, 0x20)], 0⟩], false,
    [CNV_PNL_THR_STEP.STEP], some (CNV_PNL_STATUS.HW_UPDATE_LOST, 8)⟩

/-- CNV_SEQ_THR_PC.PC, bits [39:2], RWH, reset 0 (chapter 06). -/
def CNV_SEQ_THR_PC.PC : RegField := ⟨0x2501008, 2, 38, .rwh, 0⟩
/-- The register CNV_SEQ_THR_PC (chapter 06). -/
def CNV_SEQ_THR_PC : RegDef :=
  ⟨"CNV_SEQ_THR_PC", [⟨0x2501008, [(4, 0x800000), (512, 0x10)], 0⟩], true,
    [CNV_SEQ_THR_PC.PC], some (CNV_SEQ_STATUS.HW_UPDATE_LOST, 512)⟩

/-- CNV_ROW_Q_TAIL.TAIL, bits [31:0], RWH, reset 0 (chapter 08). -/
def CNV_ROW_Q_TAIL.TAIL : RegField := ⟨0x2701018, 0, 32, .rwh, 0⟩
/-- The register CNV_ROW_Q_TAIL (chapter 08). -/
def CNV_ROW_Q_TAIL : RegDef :=
  ⟨"CNV_ROW_Q_TAIL", [⟨0x2701018, [(4, 0x800000), (65, 0x40)], 0⟩], false,
    [CNV_ROW_Q_TAIL.TAIL], some (CNV_ROW_STATUS.HW_UPDATE_LOST, 65)⟩

/-- CNV_FIN_STEP.STEP, bits [31:0], RWH, reset 0 (chapter 09). -/
def CNV_FIN_STEP.STEP : RegField := ⟨0x2780100, 0, 32, .rwh, 0⟩
/-- The register CNV_FIN_STEP (chapter 09). -/
def CNV_FIN_STEP : RegDef :=
  ⟨"CNV_FIN_STEP", [⟨0x2780100, [(4, 0x800000), (64, 0x4)], 0⟩], false,
    [CNV_FIN_STEP.STEP], some (CNV_FIN_STATUS.HW_UPDATE_LOST, 64)⟩

/-- CNV_FIN_Q_TAIL.TAIL, bits [31:0], RWH, reset 0 (chapter 09). -/
def CNV_FIN_Q_TAIL.TAIL : RegField := ⟨0x2781018, 0, 32, .rwh, 0⟩
/-- The register CNV_FIN_Q_TAIL (chapter 09). -/
def CNV_FIN_Q_TAIL : RegDef :=
  ⟨"CNV_FIN_Q_TAIL", [⟨0x2781018, [(4, 0x800000), (65, 0x40)], 0⟩], false,
    [CNV_FIN_Q_TAIL.TAIL], some (CNV_FIN_STATUS.HW_UPDATE_LOST, 65)⟩

/-- A part of the catalogue. -/
def catalogue0 : List RegDef :=
  [GLB_ID, GLB_SERIAL, GLB_FW_VERSION, GLB_TIME, GLB_INT_SUMMARY, GLB_INT_ENABLE, GLB_INT_CTL, GLB_INT_FORCE, GLB_CAPACITY, GLB_RESET, GLB_BOOT_STATUS, GLB_BOOT_COUNT, GLB_ISL_CMD, GLB_ISL_STATUS, GLB_ISL_STATE, GLB_QUAD_PART, SKT_CTL, SKT_STATUS, SKT_SRC, SKT_LEN]
/-- A part of the catalogue. -/
def catalogue1 : List RegDef :=
  [SKT_IMAGE_ID, SKT_PATCH_COUNT, SKT_MC_VERSION, GLB_PART_FAULT, GLB_STALL, GLB_VECTOR, HUB_FABRIC_STATUS, HUB_FABRIC_ERR, HUB_HWIN_SEG, GLB_HOST_STATUS, GLB_HOST_ERR, QUE_STATUS, GLB_MSIX_ADDR_LO, GLB_MSIX_ADDR_HI, GLB_MSIX_DATA, GLB_MSIX_CTRL, GLB_MSIX_PBA, JNL_STATUS, JNL_THERMAL_RECORD, JNL_FILL]
/-- A part of the catalogue. -/
def catalogue2 : List RegDef :=
  [JNL_GEN, JNL_LOST, JNL_NEXT_SEQ, SBD_STATUS, SBD_PWDIS_SKEW, LMP_CTL, LMP_STATUS, QUE_CTL, QUE_TAILPTR, QUE_TAIL, QUE_DOORBELLS, PWR_STATUS, PWR_CAP, PWR_CAP_FAST, PWR_CAP_WINDOW, PWR_HAULDOWN, PWR_DROOP, PWR_PHASE_PO, PWR_THR_REASON, PWR_THR_SEEN]
/-- A part of the catalogue. -/
def catalogue3 : List RegDef :=
  [PWR_TOKENS, PWR_POWER, PWR_DROOP_EVENTS, PWR_ENERGY_DEVICE, PWR_ENERGY_SYSTEM, PWR_ENERGY_IDLE, PWR_THR_TIME, PWR_ISL, PWR_ENERGY_PART, PWR_ENERGY_JOB, THM_STATUS, THM_MAX, THM_WEAR, THM_SENSOR, SEC_STATUS, SEC_MBX_CMD, SEC_MBX_STATUS, SEC_EPOCH, SEC_MEAS, SEC_TAMPER]
/-- A part of the catalogue. -/
def catalogue4 : List RegDef :=
  [SEC_TAMPER_HEAD, DMA_ENG_STATUS, DMA_CH_CTL, DMA_CH_RETRY, DMA_CH_BASE, DMA_CH_DB, DMA_CH_TAIL, DMA_CH_HEAD, DMA_CH_STATUS, DMA_CH_OWNER, DMA_CH_FAIL, DMA_CH_BYTES, SPR_COORD, SPR_DIM, SPR_RING_CUT, SPR_GLB_STATUS, SPR_CTL, SPR_STATUS, SPR_PEER, SPR_LANE_FAIL]
/-- A part of the catalogue. -/
def catalogue5 : List RegDef :=
  [SPR_KEY, SPR_TX_CTR, SPR_RX_CTR, SPR_KEY_FLITS, SPR_CREDIT, SPR_FLITS_TX, SPR_FLITS_RX, SPR_FEC_CORR, SPR_FEC_UNCORR, SPR_AUTH_FAIL, SPR_REPLAYS, SPR_RETRAINS, SPR_TRANSIT, SPR_DROPPED, TTH_CTL, TTH_STATUS, TTH_LANE_FAIL, TTH_LANE_FAIL_HI, TTH_CREDIT, TTH_FLITS_UP]
/-- A part of the catalogue. -/
def catalogue6 : List RegDef :=
  [TTH_FLITS_DN, TTH_CRC_ERR, TTH_REPLAYS, TTH_RETRAINS, TTH_DROPPED, COAT_STATUS, COAT_CMD, COAT_INUSE, COAT_COMMITS, COAT_ABORTS, COAT_WOUNDS, COAT_ENTRY, COAT_ENTRY_CODE, COAT_TS, COAT_Q_CTL, COAT_Q_BASE, COAT_Q_DB, COAT_Q_TAIL, COAT_Q_HEAD, COAT_Q_STATUS]
/-- A part of the catalogue. -/
def catalogue7 : List RegDef :=
  [COL_STATUS, COL_TIMEOUT, COL_ERR, COL_SIG, COL_OPS, COL_BYTES_TX, COL_BYTES_RX, COL_Q_CTL, COL_Q_BASE, COL_Q_DB, COL_Q_TAIL, COL_Q_HEAD, COL_Q_STATUS, CNV_PNL_CTL, CNV_PNL_STATUS, CNV_PNL_FAULT, CNV_PNL_THR_CTL, CNV_PNL_THR_PC, CNV_PNL_THR_STEP, CNV_PNL_THR_WAIT]
/-- A part of the catalogue. -/
def catalogue8 : List RegDef :=
  [CNV_PNL_EVT_OVERFLOW, CNV_PNL_EVT_NAN_PRODUCED, CNV_PNL_EVT_NAN_TO_INT, CNV_PNL_EVT_INEXACT_GRID, CNV_PNL_ISSUED, CNV_PNL_WASH_ISSUED, CNV_PNL_DAB_BUSY, CNV_PNL_NO_FIRE, CNV_PNL_REGION, CNV_STM_TRN_CMD, CNV_STM_STATUS, CNV_STM_WASH_OVERSIZE, CNV_STM_WASH, CNV_STM_TRN_STATUS, CNV_STM_STREAM, CNV_SEQ_STATUS, CNV_SEQ_FAULT_PC, CNV_SEQ_FAULT_INFO, CNV_SEQ_INSTR, CNV_SEQ_SWITCH]
/-- A part of the catalogue. -/
def catalogue9 : List RegDef :=
  [CNV_SEQ_MISPREDICT, CNV_SEQ_THR_CTL, CNV_SEQ_THR_PC, CNV_SEQ_MBX_POST, CNV_SEQ_MBX_STAT, CNV_GLZ_STATUS, CNV_GLZ_TACK_BUDGET, CNV_GLZ_TACK_INUSE, CNV_GLZ_FLUSH_BASE, CNV_GLZ_FLUSH_CMD, CNV_GLZ_RO_INV, CNV_GLZ_ERR, CNV_GLZ_PF_CTL, CNV_GLZ_FILL_INUSE, CNV_GLZ_BANK_HOTSPOT, CNV_GLZ_PF_ISSUED, CNV_GLZ_PF_USEFUL, CNV_GLZ_PF_LATE, CNV_GLZ_PF_EVICTED_UNUSED, CNV_GLZ_READ_HIT]
/-- A part of the catalogue. -/
def catalogue10 : List RegDef :=
  [CNV_GLZ_READ_MISS, CNV_GLZ_ADDL_SECTORS, CNV_GLZ_TACK_OVF, CNV_GLZ_WRITEBACK, CNV_GLZ_TURN_LINES, CNV_GLZ_TACK_RANGE, CNV_GSO_BANKS, CNV_GSO_POP_LIMIT, CNV_ECC_STATUS, CNV_ECC_CTL, CNV_ECC_SCRUB_LAP_US, CNV_ECC_GLZ_LAP_US, CNV_ECC_LAP_WARN, CNV_ECC_LOG_PTR, CNV_ECC_RETIRE, CNV_ECC_RETIRE_CODE, CNV_ECC_CE_WELL, CNV_ECC_CE_GLAZE, CNV_ECC_CE_GESSO, CNV_ECC_UE_WELL]
/-- A part of the catalogue. -/
def catalogue11 : List RegDef :=
  [CNV_ECC_UE_GLAZE, CNV_ECC_UE_GESSO, CNV_ECC_UE_REFETCH, CNV_ECC_SCRUB_FIXED, CNV_ECC_LOG_LOST, CNV_ECC_LOG_TIME, CNV_ECC_LOG_WHAT, CNV_ECC_LOG_WHERE, CNV_ECC_LOG_WHO, CNV_ECC_SPARE_USED, CNV_ECC_BANK_RETIRE, CNV_ROW_STATUS, CNV_ROW_LAYER_MODE, CNV_ROW_OPS, CNV_ROW_FALLBACK_OPS, CNV_ROW_CE, CNV_ROW_Q_CTL, CNV_ROW_Q_BASE, CNV_ROW_Q_DB, CNV_ROW_Q_TAIL]
/-- A part of the catalogue. -/
def catalogue12 : List RegDef :=
  [CNV_ROW_Q_HEAD, CNV_ROW_Q_STATUS, CNV_ROW_Q_FAIL, CNV_FIN_STATUS, CNV_FIN_EVT_OVERFLOW, CNV_FIN_EVT_NAN_PRODUCED, CNV_FIN_EVT_INEXACT_GRID, CNV_FIN_EVT_NAN_TO_INT, CNV_FIN_TASKS, CNV_FIN_BUSY, CNV_FIN_STEP, CNV_FIN_Q_CTL, CNV_FIN_Q_BASE, CNV_FIN_Q_DB, CNV_FIN_Q_TAIL, CNV_FIN_Q_HEAD, CNV_FIN_Q_STATUS, CNV_FIN_Q_FAIL, CNV_INT_BLOCK, CNV_PNL_VECTOR]
/-- A part of the catalogue. -/
def catalogue13 : List RegDef :=
  [CNV_PART_VECTOR, CNV_ROWQ_VECTOR, CNV_FINQ_VECTOR]

/-- Every register of BAR0 (R540). -/
def catalogue : List RegDef :=
  catalogue0 ++ catalogue1 ++ catalogue2 ++ catalogue3 ++ catalogue4 ++ catalogue5 ++ catalogue6 ++ catalogue7 ++ catalogue8 ++ catalogue9 ++ catalogue10 ++ catalogue11 ++ catalogue12 ++ catalogue13

end Sys2Proof.Machine
end

