-- ==== Sys2Proof/Machine/State.lean ====
section
/-! DEFINITION. The state of the device as plain data: the register fields, the memories, and for each unit what it
holds beside its registers; the queue of waiting commands; the reasons to stop; the state right after a device
reset. -/

namespace Sys2Proof.Machine

/-- The device stops the model with no fault: the spec gives every command of the table an effect, an answer or an
ignored write, so there is no reason to name (safe: nothing stops). -/
inductive Fault where
deriving DecidableEq, Repr

/-- Reasons to answer no state. -/
inductive Refusal where
  /-- Raised by Dispatch.lean alone, for a command whose meaning has not been written; safe, since nothing is
  claimed about it. -/
  | notModelled (mnemonic : String)
deriving DecidableEq, Repr

/-! ### Registers, ports, islands (chapters 00 and 01) -/

/-- A write of a WO register that is held off because the register's queue is full (R9). -/
structure HeldWrite where
  reg   : Nat
  index : Nat
  value : Val
deriving DecidableEq, Repr

/-- The ports' side of the register interface: shadows and staging registers by port and register (R13 to R16), and
the command queues of the WO registers with the writes held off (R9). -/
structure Ports where
  shadow  : Tab (Option Word32)
  staging : Tab Word32
  queue   : Tab (List Val)
  held    : List HeldWrite
deriving DecidableEq, Repr

/-- A request that an island has accepted and not yet completed: its packet, and on whose behalf it was made (R42). -/
structure IslandWork where
  id   : Nat
  part : Option Nat
  wash : Bool
deriving DecidableEq, Repr

/-- A packet refused with RETRY_LATER that its sender retries (R29): its island, its partition, the time of its
first refusal, the number of retries refused so far, and for a mailbox post the mailbox, the word and its client
queue (R621). -/
structure Packet where
  dst     : Nat
  vc      : Nat
  part    : Option Nat
  wash    : Bool
  first   : Nat
  retries : Nat
  mail    : Option (Nat × Word32 × Option Nat)
deriving DecidableEq, Repr

/-- A wake chain of a canvas (R38): whether the stretcher was asleep, so that the zeroing of R626 is part of it. -/
structure WakeChain where
  zero : Bool
deriving DecidableEq, Repr

/-- What the islands hold beside their registers. -/
structure Islands where
  work      : Tab (List IslandWork)
  chain     : Tab (Option WakeChain)
  gessoLost : Tab Bool
  zeroing   : Tab Bool
  packets   : Tab (Option Packet)
  nextId    : Nat
deriving DecidableEq, Repr

/-! ### Panels (chapter 03) -/

/-- The stroke at the head of a thread: its address, its bits, and the decode fault found in it, if any (R124). -/
structure Head where
  dpa   : Dpa
  word  : BitVec 128
  fault : Option Code
deriving DecidableEq, Repr

/-- What a panel thread holds beside its registers (the list before R100): address bases, loop counters, the
descriptor base, the stroke at its head, the panel cycle of its last taken branch and of its last issue (0 when it
has not issued since it was enabled), whether it is stopping to IDLE, and whether its partition halted it. -/
structure PanelThread where
  ab       : List (BitVec 40)
  lc       : List (BitVec 32)
  desc     : BitVec 40
  head     : Option Head
  branch   : Option Nat
  lastIss  : Nat
  stopping : Bool
  halted   : Bool
deriving DecidableEq, Repr

/-- A panel thread right after reset. -/
def PanelThread.idle : PanelThread :=
  ⟨List.replicate 8 0, List.replicate 4 0, 0, none, none, 0, false, false⟩

/-- An issued stroke that has not completed: where it runs, its bits, the STEP and the rounding descriptor it took
at issue, the cycle in which its unit started it, whether its work is done and its operands released, the fault
found and the events raised, and how many units a RECV has moved. -/
structure Flight where
  panel    : Nat
  thread   : Nat
  dpa      : Dpa
  word     : BitVec 128
  wash     : Bool
  step     : Nat
  desc     : Option (List Byte)
  issue    : Nat
  start    : Option Nat
  done     : Bool
  released : Bool
  fault    : Option Code
  events   : BitVec 4
  moved    : Nat
deriving DecidableEq, Repr

/-- What the panels hold beside their registers: threads by panel × 8 + thread, issued strokes by number, the panel
cycle counts, the next number, and the stretcher's copy of the region tables and ISSUE_EN (R131). -/
structure Panels where
  threads : Tab PanelThread
  flights : Tab (Option Flight)
  cycle   : Tab Nat
  next    : Nat
  copyReg : Tab Val
  copyEn  : Tab Bool
deriving DecidableEq, Repr

/-! ### Trains and streams (chapter 04), the Sketch (chapter 05) -/

/-- What a stream holds beside its register: the units in its landing space, the units in the fabric, the credits
on their way back, the number of units landed since the last reset, and the time of the last progress (R146,
R147, R528). -/
structure StreamState where
  landed   : List (BitVec 2048)
  flying   : List (BitVec 2048)
  returns  : Nat
  count    : Nat
deriving DecidableEq, Repr

/-- A stream with nothing in it. -/
def StreamState.empty : StreamState := ⟨[], [], 0, 0⟩

/-- A LAUNCH in progress: its entry, and the canvases whose acknowledgement of the stream resets is due (R141). -/
structure Launch where
  entry : Nat
deriving DecidableEq, Repr

/-- A bounds window (R175). -/
structure Window where
  base  : Nat
  limit : Nat
  r     : Bool
  w     : Bool
  x     : Bool
  a     : Bool
  valid : Bool
deriving DecidableEq, Repr

/-- A window that is not VALID. -/
def Window.none : Window := ⟨0, 0, false, false, false, false, false⟩

/-- A partition of the resident configuration (R175). -/
structure Partition where
  job     : Nat
  washJob : Nat
  hold    : Nat
  fills   : Nat
  quads   : BitVec 64
  windows : List Window
deriving DecidableEq, Repr

/-- An entry of the train table (R132, R177). -/
structure Train where
  group    : Bool
  wash     : Bool
  phase    : Nat
  linked   : Bool
  parent   : Option (Nat × Nat)
  first    : Nat
  count    : Nat
  inPorts  : List Nat
  outPorts : List Nat
deriving DecidableEq, Repr

/-- A THREAD record: the panel thread and its start record (R139, R178). -/
structure StartRecord where
  panel  : Nat
  thread : Nat
  pc     : Dpa
  ab0    : Dpa
deriving DecidableEq, Repr

/-- A STREAM record (R179), beside what CNV_STM_STREAM shows. -/
structure StreamRecord where
  ends       : Nat
  wash       : Bool
  sender     : Nat
  receiver   : Nat
  land       : Nat
  landBase   : Nat
  peerCanvas : Nat
  peerId     : Nat
deriving DecidableEq, Repr

/-- An entry of a FINISH directory (R181): program id and the address and length of its code. -/
structure FinProgram where
  canvas : Nat
  id     : Nat
  dpa    : Dpa
  len    : Nat
deriving DecidableEq, Repr

/-- A start record of a sequencer thread (R181, R200). -/
structure SeqStart where
  canvas : Nat
  core   : Nat
  thread : Nat
  part   : Nat
  pc     : Dpa
deriving DecidableEq, Repr

/-- A WELL record: panel, handle, job class, base and length in slots (R176). -/
structure WellRecord where
  panel  : Nat
  handle : Nat
  wash   : Bool
  base   : Nat
  len    : Nat
deriving DecidableEq, Repr

/-- The resident configuration, a Sketch or the primer (R167 to R181, R191). Trains and streams are keyed by
canvas × 4096 + number, THREAD records by canvas × 65536 + index, partitions and jobs by number. -/
structure Sketch where
  primer   : Bool
  imageId  : Val
  seeds    : Tab (Option Val)
  phases   : List Nat
  parts    : Tab (Option Partition)
  wells    : List WellRecord
  trains   : Tab (Option Train)
  starts   : Tab (Option StartRecord)
  streams  : Tab (Option StreamRecord)
  dma      : Tab (Option (Bool × Bool × Nat))
  seqs     : List SeqStart
  fins     : List FinProgram
  consts   : List (Dpa × Nat)
  copies   : List (Dpa × Nat × Nat)
  canvases : List Nat
deriving DecidableEq, Repr

/-- No configuration at all. -/
def Sketch.empty : Sketch :=
  ⟨true, 0, [], [1, 1, 1, 1, 1, 1, 1, 1], [], [], [], [], [], [], [], [], [], [], []⟩

/-- The phase of a Sketch load (R187, R190): none, the checks, the apply phase, or the primer being applied after
a failure. -/
inductive LoadPhase where
  | idle | verify | apply | primer
deriving DecidableEq, Repr

/-- A load in progress: its staging range (R183), and the failure it will report. -/
structure Loader where
  phase    : LoadPhase
  src      : Dpa
  len      : Nat
  code     : Code
deriving DecidableEq, Repr

/-- What the train engines and the loader hold. -/
structure Structure where
  sketch  : Sketch
  loader  : Loader
  streams : Tab StreamState
  launch  : Tab (Option Launch)
deriving DecidableEq, Repr

/-! ### Sequencers and mailboxes (chapter 06) -/

/-- What a WAITING sequencer thread waits for (the wait reasons of R202), with what its end needs. -/
inductive SeqWait where
  | ifetch
  | load (rd : Nat) (dpa : Dpa) (size : Nat) (signed noncached : Bool)
  | amo (rd : Nat) (dpa : Dpa) (op : AtomicOp) (size : Nat) (operand compare : Val)
  | storeBuf
  | mailbox (rd : Nat) (mbx : Nat)
  | fence (acq implied : Bool)
  | command (canvas : Nat)
  | bankCap (dpa : Dpa)
deriving DecidableEq, Repr

/-- What a sequencer thread holds beside its registers: g1 to g63 (g0 reads as zero), which of them have been written
since the last change of the epoch salt or wake (R40, R499: any other is uncorrectable), SCRATCH, what it waits for,
when it became READY (for the longest-READY choice of R202), and how it will stop at the boundary: 0 not at all,
1 IDLE, 2 HALTED, 3 FAULTED (R205). -/
structure SeqState where
  g       : Tab Val
  fresh   : BitVec 64
  scratch : Val
  wait    : Option SeqWait
  ready   : Nat
  stop    : Nat
deriving DecidableEq, Repr

/-- A sequencer thread right after reset. -/
def SeqState.idle : SeqState := ⟨[], 0, 0, none, 0, 0⟩

/-- An entry of a core's store buffer (R210): its thread, address, size and data. -/
structure StoreEntry where
  thread : Nat
  dpa    : Dpa
  bytes  : List Byte
deriving DecidableEq, Repr

/-- What a core holds: its store buffer of at most 16 entries, its data cache by 256 B line number, and the
consecutive cycles it has issued while another thread was READY (R202). -/
structure SeqCore where
  stores : List StoreEntry
  dcache : Tab (List Byte)
  issued : Nat
deriving DecidableEq, Repr

/-- A core with nothing in it. -/
def SeqCore.empty : SeqCore := ⟨[], [], 0⟩

/-- A mailbox: its words, oldest first, each with the client queue whose doorbell posted it (R550), and the threads that wait on it, in order (R214). -/
structure Mailbox where
  words   : List (Word32 × Option Nat)
  waiters : List SeqThread
deriving DecidableEq, Repr

/-- An empty mailbox. -/
def Mailbox.empty : Mailbox := ⟨[], []⟩

/-- What the sequencers hold: threads by canvas × 512 + core × 32 + thread, cores by canvas × 16 + core, mailboxes
by number, and the count that orders events. -/
structure Sequencers where
  threads : Tab SeqState
  cores   : Tab SeqCore
  boxes   : Tab Mailbox
  order   : Nat
deriving DecidableEq, Repr

/-! ### Memory (chapters 07, 08, 17) -/

/-- What a request does at its home slice (R235). -/
inductive MemAct where
  | read
  | turn (esize : Nat)
  | write (data : List Byte)
  | atomic (op : AtomicOp) (operand compare : Val)
  | addFp32 (data : List Byte)
  | addEx96 (data : List Byte)
  | prefetch
deriving DecidableEq, Repr

/-- A request at a slice with what it does. -/
structure MemJob where
  req : MemReq
  act : MemAct
deriving DecidableEq, Repr

/-- A line of the glaze: its way, VALID and DIRTY by sector, TACKED, and whether it was prefetched and not yet
demanded (R233, R221). A line whose fill is in flight is present with its sectors not VALID. -/
structure GlazeLine where
  way    : Nat
  valid  : BitVec 8
  dirty  : BitVec 8
  tacked : Bool
  prefetched : Bool
deriving DecidableEq, Repr

/-- A line in the victim buffer: the sectors to be written, and the refusals it has met (R234, R620). -/
structure Victim where
  dirty : BitVec 8
  first : Nat
  tries : Nat
deriving DecidableEq, Repr

/-- A fill slot: the requests merged onto it in order of arrival, whether it is a prefetch that nothing has
demanded, the partition whose WASH-class limit it counts against, and whether it reads an overflow line, of which
nothing is allocated (R216, R217, R164, R247). -/
structure FillSlot where
  jobs     : List MemJob
  prefetch : Bool
  wash     : Option Nat
  overflow : Bool
deriving DecidableEq, Repr

/-- A row's metadata (R281). -/
structure RowMeta where
  zt  : Bool
  tag : BitVec 32
deriving DecidableEq, Repr

/-- The metadata of a zeroed row. -/
def RowMeta.zeroed : RowMeta := ⟨true, 0⟩

/-- A FLUSH command in progress: its first line, its number of lines (0 for every line of the canvas), and whether
it invalidates (R239). -/
structure Flush where
  base  : Nat
  lines : Nat
  inv   : Bool
deriving DecidableEq, Repr

/-- The glaze, the gesso's side data and the read-only caches. Lines are keyed by canvas × 2^25 + line number, bytes
by DPA, glaze words by DPA / 8, gesso codewords by DPA / 32. -/
structure Glaze where
  lines   : Tab (Option GlazeLine)
  data    : Tab Byte
  bad     : Tab Bool
  victims : Tab (Option Victim)
  slots   : Tab (Option FillSlot)
  waiting : List MemJob
  held    : Tab (Option (List MemJob))
  misses  : Tab (Option Nat)
  flush   : Tab (Option Flush)
  ro      : Tab (Option (List Byte))
deriving DecidableEq, Repr

/-- The gesso beside its bytes: row metadata, uncorrectable codewords and metadata words, remapped rows (page
retirement, by canvas, channel, bank and page), the next line of each scrub lap and the laps' start times, the end
of each bank's refresh, whether a canvas's refresh period is halved (R470), and the retirement in progress. -/
structure Gesso where
  rows     : Tab RowMeta
  bad      : Tab Bool
  badMeta  : Tab Bool
  remap    : Tab (Option Nat)
  scrubAt  : Tab Nat
  lapStart : Tab Nat
  glzStart : Tab Nat
  lapLate  : Tab Bool
  refresh  : Tab (Option Nat)
  fast     : Tab Bool
  retiring : Tab (Option (Nat × Nat × Nat))
deriving DecidableEq, Repr

/-- A row command that a queue has started (R271): its sequence number, its fields, the operations dispatched but
not performed, the next one to dispatch, and its first failure. -/
structure RowCmd where
  seq     : Nat
  op      : Nat
  notify  : Bool
  irq     : Bool
  mbx     : Nat
  lines   : Nat
  dst     : Nat
  dstStep : Int
  a       : Nat
  aStep   : Int
  b       : Nat
  bStep   : Int
  pattern : Val
  next    : Nat
  flying  : List Nat
  fail    : Option (Code × Nat)
deriving DecidableEq, Repr

/-- What a ring queue holds beside its registers: the next command it will read (HEAD is the next to complete), the
sequence numbers completed out of order, the failed commands that RESUME skips, whether its halt came from an
overrun, and whether work it has dispatched is in progress (R270 to R273, R622). -/
structure Ring where
  read    : Nat
  done    : List Nat
  failed  : List Nat
  overrun : Bool
  busy    : Bool
deriving DecidableEq, Repr

/-- A ring right after reset. -/
def Ring.zero : Ring := ⟨0, [], [], false, false⟩

/-- The row queues' running commands, by canvas × 65 + queue, and the rings of every queue by kind and number. -/
structure Rows where
  cmds : Tab (List RowCmd)
deriving DecidableEq, Repr


/-! ### Finish units (chapter 09) -/

/-- A region of a finish program (R306): BASE and LEN in palette slots and its token (0 FREE to 4 UPDATING). -/
structure PaletteRegion where
  base  : Nat
  len   : Nat
  token : Nat
deriving DecidableEq, Repr

/-- A user finish program on one unit (R306, R307): the next stroke's offset in the program, address bases, loop
counters, descriptor base, STEP, the regions, whether a branch put the stroke position elsewhere, and whether it has
halted. -/
structure UnitRun where
  unit    : Nat
  pc      : Nat
  ab      : List (BitVec 40)
  lc      : List (BitVec 32)
  desc    : BitVec 40
  step    : Nat
  regions : Tab (Option PaletteRegion)
  halted  : Bool
deriving DecidableEq, Repr

/-- A running finish task (R294 to R298): its queue and sequence number, its descriptor, its partition, its units,
the committed step it read when it started, the state of a user program, whether its writes are all performed, the
error it met with the stroke's code, and the events raised. -/
structure FinTask where
  queue  : Nat
  seq    : Nat
  desc   : List Byte
  part   : Nat
  units  : List Nat
  step   : Nat
  start  : Nat
  runs   : List UnitRun
  done   : Bool
  code   : Code
  stroke : Code
  events : BitVec 4
deriving DecidableEq, Repr

/-- The finish units: running tasks by canvas, the queue that the round robin served last and the task that waits at
the head of the dispatch, and the palettes' bytes by unit × 2^23 + offset (a byte not listed is uncorrectable). -/
structure Finish where
  tasks   : Tab (List FinTask)
  turn    : Tab Nat
  head    : Tab (Option Nat)
  palette : Tab (Option Byte)
deriving DecidableEq, Repr

/-! ### Coats (chapter 10) -/

/-- An action of a coat (R317, R318); the CANVAS byte stands with it in the list. -/
inductive CoatAction where
  | regWrite (offset : Nat) (wide : Bool) (value mask : Val)
  | memWrite (dpa : Dpa) (value mask : Val)
  | dmaLaunch (channel : Nat) (desc : Dpa)
  | versionFlip (part : Nat)
  | routePatch (record : List Byte)
deriving DecidableEq, Repr

/-- A lock key (R318): the kind of action and what it names. -/
structure LockKey where
  kind : Nat
  a    : Nat
  b    : Nat
  c    : Nat
deriving DecidableEq, Repr

/-- The stages of COAT_ENTRY. -/
inductive CoatStage where
  | staged | preparing | prepared | inDoubt | committed | aborted
deriving DecidableEq, Repr

/-- An open coat (R323 to R341): its descriptor, its actions with their canvases, its stage, the votes and decision,
the code it will report, when it started, began preparing, voted, learnt a commit or sent its first and last query,
whether its part is applied or released, the devices whose ACK is awaited, the keys it holds and waits for, the
descriptors read for its DMA launches, the actions whose targets it holds (R329), and the partitions that its actions name
(R337). -/
structure Coat where
  ts       : Val
  queue    : Nat
  seq      : Nat
  mbx      : Nat
  notify   : Bool
  irq      : Bool
  wide     : Bool
  isCoord  : Bool
  owner    : Nat
  coord    : Nat
  devices  : List Nat
  actions  : List (Nat × CoatAction)
  stage    : CoatStage
  votes    : List Nat
  decided  : Option Code
  code     : Code
  start    : Nat
  prepAt   : Option Nat
  votedAt  : Option Nat
  learnt   : Option Nat
  queried  : Option (Nat × Nat)
  ended    : Option Nat
  acks     : List Nat
  held     : List LockKey
  wanted   : List LockKey
  descs    : List (Nat × List Byte)
  conds    : List Nat
  named    : List Nat
deriving DecidableEq, Repr

/-- The coat engine: the open coats by id, and the PREPARE tokens held with no matching part: TS, coordinator, time
(R336). -/
structure Coats where
  table : Tab (Option Coat)
  held  : List (Val × Nat × Nat)
deriving DecidableEq, Repr

/-- The tokens between devices (the table before R328); an OUTCOME answers 0 undecided, 1 COMMIT, 2 ABORT,
3 RESTARTED. -/
inductive CoatToken where
  | prepare | vote (yes : Bool) | commit | abort | ack | wound | query | outcome (answer : Nat)
deriving DecidableEq, Repr

/-! ### The DMA engines (chapter 11) -/

/-- A burst in flight (R357): its offset and length in the descriptor, the tags it holds, the retries made, when it
was issued, and whether it has failed and waits to be issued again. -/
structure DmaBurst where
  offset  : Nat
  len     : Nat
  tags    : Nat
  retries : Nat
  sent    : Nat
  again   : Bool
deriving DecidableEq, Repr

/-- A started descriptor (R350, R357 to R365): its sequence number and bytes, the offset of its next burst, the bursts
in flight, the read-back outstanding with its time, how often it was retried, and the error it will end with and its
offset. -/
structure DmaRun where
  seq    : Nat
  desc   : List Byte
  next   : Nat
  flying : List DmaBurst
  back   : Option Nat
  tries  : Nat
  failed : Option (Code × Nat)
deriving DecidableEq, Repr

/-- The DMA engines: the started descriptors of each channel in order, the failed descriptor of a halted channel, and
the channel that each engine's round robin served last. -/
structure Dma where
  runs   : Tab (List DmaRun)
  broken : Tab (Option DmaRun)
  turn   : Tab Nat
deriving DecidableEq, Repr

/-! ### Tether and spar links (chapters 12 and 13) -/

/-- A DATA flit that a sender holds for replay (R380, R406): its SEQ, VC, PKT_START and payload, and how often it has
been resent in a row without an acknowledgement. -/
structure LinkFlit where
  seq     : Nat
  vc      : Nat
  start   : Nat
  payload : List Byte
  resent  : Nat
deriving DecidableEq, Repr

/-- One end of a link as sender and receiver (R373 to R380, R406): as a sender the SEQ of its next new DATA flit, the
flits it holds, when ACK last advanced, the credit totals it has seen and the flits sent since the last skip set; as a
receiver the SEQ it expects, whether a NAK is out, the VCs of the flits in its buffers, the credits it has returned,
whether its half boundary is right and how many skip sets its elastic buffer has added (dropped where negative); the time of
the last DATA flit and of the last returned credit of each VC; and of a stalled VC when its stall retrained the link. -/
structure LinkEnd where
  next    : Nat
  held    : List LinkFlit
  ackAt   : Nat
  seen    : Tab Nat
  run     : Nat
  expect  : Nat
  naking  : Bool
  buffer  : List Nat
  freed   : Tab Nat
  aligned : Bool
  slips   : Int
  lastData : Tab Nat
  lastCredit : Tab Nat
  stalled : Tab (Option Nat)
deriving DecidableEq, Repr

/-- An end of a link that has just come up: SEQ at 0, nothing held. -/
def LinkEnd.idle : LinkEnd := ⟨0, [], 0, [], 0, 0, false, [], [], true, 0, [], [], []⟩

/-- A tether beside its registers (R382 to R390): when its training began, the last good heartbeat at the hub and at the
canvas, the canvas's BOOT_EPOCH and the one that the hub saw last, whether the self-refresh has been unbroken since
the last HEARTBEAT sent, and the SR_KEPT that the hub saw last. -/
structure Tether where
  start     : Nat
  hubBeat   : Nat
  canvBeat  : Nat
  epoch     : Nat
  seenEpoch : Option Nat
  kept      : Bool
  seenKept  : Bool
deriving DecidableEq, Repr

/-- A tether right after reset. -/
def Tether.idle : Tether := ⟨0, 0, 0, 0, none, true, false⟩

/-- A spar port beside its registers (R395 to R422): whether its training is a retrain, when training and BOOT began,
the keys by slot (transmit, receive), the ephemeral key offered, whether TRAIN flits of this training have come and the
ring sizes in them, the time of the last flit accepted, and the times of recent tag failures. -/
structure SparPort where
  retrain : Bool
  start   : Nat
  bootAt  : Nat
  txKey   : Tab (Option (BitVec 256))
  rxKey   : Tab (Option (BitVec 256))
  offer   : Option Val
  trained : Option Nat
  lastRx  : Nat
  fails   : List Nat
deriving DecidableEq, Repr

/-- A spar port right after reset. -/
def SparPort.idle : SparPort := ⟨false, 0, 0, [], [], none, none, 0, []⟩

/-- A packet at the head of an input of the spar crossbar (R412 to R414): its output port and VC, the time since which
it has waited there, the AGE ticks taken, and the packet. -/
structure SparHead where
  out    : Nat
  outVc  : Nat
  since  : Nat
  ticks  : Nat
  packet : SparPacket
deriving DecidableEq, Repr

/-- The links: their ends (tether canvas × 2 + direction, spar 16 + port), the tethers, the spar ports and the heads
of the crossbar's inputs by input × 8 + VC (input 8 is the local injection). -/
structure Links where
  ends   : Tab LinkEnd
  tether : Tab Tether
  spar   : Tab SparPort
  heads  : Tab (Option SparHead)
deriving DecidableEq, Repr

/-! ### The collective engine (chapter 14) -/

/-- An open collective (R427 to R437): its queue and sequence number, its descriptor, its members (coordinate and
partition), the ranks that have granted landing space, the messages that wait for a grant, the parts received for
the block it owns, the bytes of partials that it has passed on, the bytes it has written to DST, and the time of its
last progress. -/
structure Coll where
  queue   : Nat
  seq     : Nat
  desc    : List Byte
  members : List (Nat × Nat)
  grants  : List Nat
  out     : List (Nat × CollMsg)
  parts   : List (Nat × CollMsg)
  passed  : Nat
  units   : Nat
  last    : Nat
deriving DecidableEq, Repr

/-! ### Power and thermal control (chapter 15) -/

/-- A grant or a revocation of tokens on its way (R452): its island and watts, and whether it has reached the island,
whose acknowledgement is then due. -/
structure TokenMsg where
  island  : Nat
  grant   : Bool
  watts   : Nat
  arrived : Bool
deriving DecidableEq, Repr

/-- The power manager beside its registers (R446 to R466): strokes issued by island × 8 + phase in this control interval,
each island's preferred point and its watts by point, the pool size, the messages in flight, the powers measured in the
averaging window, whether the pool is ramping up (R454, R459), whether the fast limit left a demand unmet, the islands that
their limiter or a droop stretches, those that R456 holds down and until when, whether HAUL_DOWN_N is accepted low, when
the last intervals began, when each reason bit rose, nanojoules below the counters' microjoules, and the energy and the
milliseconds not yet shown under R466. -/
structure Power where
  issued    : Tab Nat
  pref      : Tab Nat
  watts     : Tab (List Nat)
  size      : Nat
  flights   : List TokenMsg
  samples   : List Nat
  ramp      : Bool
  fastUnmet : Bool
  limiter   : Tab Bool
  droop     : Tab Bool
  ivr       : Tab Nat
  hdPin     : Bool
  interval  : Option Nat
  energyAt  : Nat
  since     : Tab Nat
  nj        : Tab Nat
  hidden    : Nat
  hiddenMs  : Nat
deriving DecidableEq, Repr

/-- The thermal control beside its registers (R467 to R475): the last samples' values in 1/16 °C, newest first; by sensor
the consecutive samples that deviate, that rise by more than 1.5 and by more than 5 °C/ms; by die the level and rate
throttles and the hottest value of the last sample; when the last sample was; whether THERMTRIP_N is asserted; by canvas
the wear in millionths of a unit, the reversals not yet counted and the extreme in progress, in 1/2560 °C; and by die the temperature
that confidential mode shows, with the time of its last update (R482). -/
structure Thermal where
  history  : List (List Int)
  off      : Tab Nat
  rising   : Tab Nat
  soaring  : Tab Nat
  level    : Tab Bool
  rate     : Tab Bool
  hottest  : Tab Int
  sampleAt : Option Nat
  tripPin  : Bool
  wear     : Tab Nat
  turns    : Tab (List Int)
  extreme  : Tab (Option Int)
  shown    : Tab Int
  shownAt  : Option Nat
deriving DecidableEq, Repr

/-! ### The root of trust (chapter 16) -/

/-- An RTP mailbox command that runs (R484): the code and the response with which it will end. -/
structure MbxRun where
  code : Code
  resp : List Byte
deriving DecidableEq, Repr

/-- A mailbox command of the SMBus path that waits (R484, R9): its OPCODE, its request, and for a firmware command
whether the flash takes it. -/
structure MbxWait where
  opcode  : Nat
  request : List Byte
  flashOk : Bool
deriving DecidableEq, Repr

/-- The request of an accepted CONF_ENTER (R490, R491): the tenant keys and the producer-key digests. -/
structure ConfReq where
  tmk     : BitVec 256
  tlk     : BitVec 256
  digests : List (BitVec 384)
deriving DecidableEq, Repr

/-- The stages of a confidential exit (R498): the faulted work drains; then the gesso is zeroed. -/
inductive ExitStage where
  | none | drain | zero
deriving DecidableEq, Repr

/-- The states of the TDISP interface (R497). -/
inductive Tdisp where
  | unlocked | locked | run | error
deriving DecidableEq, Repr

/-- An SPDM session (R488): whether FINISH has completed it, and how often its keys have been updated. -/
structure Session where
  secure  : Bool
  updates : Nat
deriving DecidableEq, Repr

/-- The root of trust beside its registers: the eight producer-key slots, the mailbox buffer, the command that runs and
those of the SMBus path that wait, TAMPER_CLEARS, LOADS since power-up, the level of TRST_N, the warm key cache (the M1
under which it was made) and how often the Alias key has been derived anew, the tenant keys, a CONF_ENTER in progress with
its session, the exit in progress and its trigger, the IDE keys and the TDISP state, the sessions, the epoch salt, and
the tamper causes logged before. -/
structure Security where
  slots    : List (Option (BitVec 384))
  buffer   : Tab Byte
  run      : Option MbxRun
  waiting  : List MbxWait
  clears   : Nat
  loads    : Nat
  jtagOpen : Bool
  warmKeys : Option (BitVec 384)
  derived  : Nat
  tmk      : Option (BitVec 256)
  tlk      : Option (BitVec 256)
  entering : Option (Nat × ConfReq)
  exiting  : ExitStage
  trigger  : Nat
  ide      : Bool
  tdisp    : Tdisp
  sessions : Tab (Option Session)
  salt     : Byte
  episodes : Tab Bool
deriving DecidableEq, Repr

/-! ### The host interface (chapter 18) -/

/-- A host-window read that has been sent (R546, R547): its requester and the requester's tag, its DPA and length,
its host address and attribute, and when it was sent. -/
structure HostRead where
  src     : Requester
  tag     : Nat
  dpa     : Dpa
  len     : Nat
  sent    : Nat
deriving DecidableEq, Repr

/-- A host-window read that has ended: its code and its data (R548). -/
structure HostReply where
  src  : Requester
  tag  : Nat
  dpa  : Dpa
  code : Code
  data : List Byte
deriving DecidableEq, Repr

/-- What the host interface holds beside its registers: the function's Bus Master Enable, D3hot state and MSI-X
enable and function mask, the host-window reads outstanding and ended, for each client queue the doorbells whose
tail word is being written and the doorbell kept while doorbells are held (R549, R552), the times of the last
message and of the last EOI (R558), and the condition as it was last propagated (R557). -/
structure HostPort where
  busMaster : Bool
  d3hot     : Bool
  msix      : Bool
  msixMask  : Bool
  reads     : Tab (Option HostRead)
  nextRead  : Nat
  replies   : List HostReply
  tails     : Tab (List Word32)
  kept      : Tab (Option Word32)
  lastMsg   : Option Nat
  lastEoi   : Option Nat
  condition : Bool
  intN      : Bool
deriving DecidableEq, Repr

/-! ### The sketchbook, the firmware slots and the boot (chapter 19) -/

/-- A record of the sketchbook (R581), its reserved bytes and CRC left out. -/
structure JRecord where
  type    : Nat
  source  : Nat
  seq     : Nat
  time    : Nat
  boot    : Nat
  payload : List Byte
deriving DecidableEq, Repr

/-- A record in the write queue (R583): how many of its programs have failed, and for a state record that failed for
the third time, when it is tried again. -/
structure JEntry where
  record : JRecord
  fails  : Nat
  retry  : Option Nat
deriving DecidableEq, Repr

/-- The sketchbook: the slots of the image in use, each with its record or torn, the write queue, the state records
that wait for a place in it, and for a compaction in progress the number of slots when it began; by canvas the times of the last error summaries and the
errors merged into the next (R520, R583 to R585). -/
structure Journal where
  slots   : List (Option JRecord)
  queue   : List JEntry
  waiting : List JRecord
  compact : Option Nat
  summed  : Tab (List Nat)
  merged  : Tab Nat
deriving DecidableEq, Repr

/-- The boot side of the device: the board flash's firmware slots (bytes written by slot × 2^24 + offset, and the slots
erased; any other byte is as the board was programmed), the boot directory's PREFERRED and SEQ, the fused minimum SVN, the
SVN of the running image, whether the directory named an image that failed (R576), PWRGD and PERST_N, whether link
training has begun, and the cause of a host reset that waits for an exit (R563). -/
structure Boot where
  flash     : Tab (Option Byte)
  erased    : List Nat
  preferred : Nat
  dirSeq    : Nat
  minSvn    : Nat
  svn       : Nat
  failed    : Option (Nat × Code)
  powered   : Bool
  perstN    : Bool
  linkUp    : Bool
  resetDue  : Option Nat
deriving DecidableEq, Repr

/-- What the always-on domain keeps beside its registers (R503, R561): milliseconds since manufacture when GLB_TIME
was zero. -/
structure AlwaysOn where
  msBase : Nat
deriving DecidableEq, Repr

/-! ### The sideband (chapter 20) -/

/-- The sideband island beside its registers: since when the power-disable channels disagree and whether an assertion
began it, whether that disagreement has reached its limit, since when both are deasserted, the time of each lamp's last
test flash, and the JTAG instruction register. -/
structure Sideband where
  apart   : Option (Nat × Bool)
  latched : Bool
  clear   : Option Nat
  flashAt : Tab Nat
  ir      : Nat
deriving DecidableEq, Repr

/-! ### What leaves the device -/

/-- A message that the device has sent to a party outside the model's state: the answers of its register ports,
the responses of its memory, and what its units send to one another or to other devices. The environment takes
them; some come back as commands. -/
inductive Msg where
  /-- A register read's data, or the answer to a write (R11 to R17, R541, R542). -/
  | portRead (port : Port) (addr : Nat) (data : Val)
  /-- A BAR0 read that completes with Completer Abort (R541). -/
  | portAbort (port : Port) (addr : Nat)
  /-- A gate's answer to a packet: the error code, 0 when it crossed (R25, R29, R36). -/
  | packet (id : Nat) (code : Code)
  /-- A memory response (R235, R509). -/
  | memory (req : MemReq) (code : Code) (data : List Byte)
  /-- A token of a coat sent to a device (the token table before R328), with the code of a NO or an ABORT. -/
  | coat (token : CoatToken) (device : Nat) (ts : Val) (code : Code)
  /-- A request of a remote transfer sent to another device (R355): coordinate, REMOTE_PART, what it asks for (the
  OPCODE of the packet), its DPA and length, and its data. -/
  | remote (coord part op dpa len : Nat) (data : List Byte)
  /-- A flit sent on a tether: canvas and direction (0 UP, 1 DN). -/
  | tetherFlit (canvas dir : Nat) (flit : List Byte)
  /-- A skip set sent on a tether (R373). -/
  | tetherSkip (canvas dir : Nat)
  /-- The payload of an accepted DATA flit of a tether, given to the receiving end (R379). -/
  | tetherPayload (canvas dir vc start : Nat) (payload : List Byte)
  /-- A packet that the hub fabric delivers: the location (0 to 3 canvas, 4 hub) and the packet (R392). -/
  | hubPacket (location : Nat) (packet : HubPacket)
  /-- The hub's answer to a REQ packet: its source, tag and code. -/
  | hubAnswer (src tag : Nat) (code : Code)
  /-- A flit sent on a spar port. -/
  | sparFlit (port : Nat) (flit : List Byte)
  /-- A TRAIN flit sent: coordinate, port, SPR_DIM and counter (R400, R419). -/
  | sparTrain (port coord dims counter : Nat)
  /-- The payload of an accepted DATA flit of a spar port. -/
  | sparPayload (port vc start : Nat) (payload : List Byte)
  /-- The payload of an accepted BOOT flit, for the RTP (R402). -/
  | sparBoot (port : Nat) (payload : List Byte)
  /-- A key-agreement message sent to the peer's RTP (R494). -/
  | keyMsg (port : Nat) (msg : KeyMsg)
  /-- A spar packet delivered to the hub fabric (R412). -/
  | sparLocal (packet : SparPacket)
  /-- The answer to a REQ packet that the spar cannot carry (R408, R411, R422). -/
  | sparAnswer (dstCoord dst tag : Nat) (code : Code)
  /-- A GRANT of landing space sent to a member (R429): device, group, number, and the fields that must agree. -/
  | collGrant (device group seq : Nat) (fields : CollGrant)
  /-- A data message of a collective sent to a member (R430). -/
  | collData (device group seq : Nat) (msg : CollMsg)
  /-- A FAIL sent to a member (R437). -/
  | collFail (device group seq : Nat) (code : Code)
  /-- An SPDM answer (R488): its request, and its content as the public standard lays it out from these parts. -/
  | spdm (request : Nat) (error : Bool) (content : List Byte)
  /-- The answer to a vendor-defined message (R488): its message code, its result and its payload. -/
  | vendor (message : Nat) (code : Code) (payload : List Byte)
  /-- A host-window read sent to the host (R546). -/
  | hostRead (id addr len : Nat) (noSnoop : Bool)
  /-- A host-window write sent to the host (R546, R548). -/
  | hostWrite (addr : Nat) (data : List Byte) (noSnoop : Bool)
  /-- The answer RETRY_LATER to a packet (R28). -/
  | retryLater (id : Nat)
  /-- A BAR2 or BAR4 read that completes with data (R544, R549). -/
  | barRead (bar tag : Nat) (data : List Byte)
  /-- A BAR2 read that completes with Completer Abort (R545). -/
  | barAbort (tag : Nat)
  /-- A non-posted host request that completes with Unsupported Request (R497). -/
  | unsupported (tag : Nat)
  /-- MSI-X vector 0 sent (R557). -/
  | msix (addr : Nat) (data : Word32)
  /-- What the TAP's instruction selects: the instruction as it acts, and the identification code that IDCODE reads
  (R605). -/
  | jtag (acts : Nat) (idcode : Word32)
deriving DecidableEq, Repr

/-! ### The device -/

/-- The state of the device. -/
structure State where
  /-- The register fields, by RegField.key; an unlisted field holds its reset value. -/
  regs : Tab Val
  /-- The bytes of gesso and wells by DPA, in the canonical form of Memory.wf. -/
  mem : List Host.Cell
  /-- The register ports (R9 to R16). -/
  ports : Ports
  /-- The islands (R26 to R42, R626). -/
  isl : Islands
  /-- The panels (R90 to R131). -/
  pnl : Panels
  /-- Trains, streams and the resident configuration (R132 to R199). -/
  str : Structure
  /-- The sequencers and mailboxes (R200 to R222). -/
  seq : Sequencers
  /-- The glaze and the read-only caches (R229 to R249). -/
  glz : Glaze
  /-- The gesso beside its bytes (R250 to R253, R281, R513 to R525). -/
  gso : Gesso
  /-- The row queues' running commands (R267 to R275). -/
  rows : Rows
  /-- The ring queues of every kind, by QueueKind.key. -/
  rings : Tab Ring
  /-- The finish units (R287 to R316). -/
  fin : Finish
  /-- The coat engine (R317 to R342). -/
  coats : Coats
  /-- The DMA engines (R343 to R368). -/
  dma : Dma
  /-- The tether and spar links (R369 to R423). -/
  links : Links
  /-- The open collectives (R425 to R438). -/
  colls : List Coll
  /-- GRANTs that came before their collective was started: group, number, rank (R429). -/
  early : List (Nat × Nat × Nat × CollGrant)
  /-- The power manager (R445 to R466). -/
  power : Power
  /-- Thermal control (R467 to R475). -/
  therm : Thermal
  /-- The root of trust (R483 to R505). -/
  sec : Security
  /-- The host interface (R536 to R558). -/
  host : HostPort
  /-- The sketchbook (R581 to R588). -/
  jnl : Journal
  /-- The boot side (R565 to R577). -/
  boot : Boot
  /-- The always-on domain (R503, R561). -/
  always : AlwaysOn
  /-- The sideband (R598 to R615). -/
  sbd : Sideband
  /-- The messages sent, oldest first. -/
  sent : List Msg
  /-- The model's own count of the free values drawn so far (Config.freeValue). -/
  free : Nat
  /-- The commands that wait, oldest first. -/
  pending : List Instr
deriving DecidableEq, Repr

/-- The state right after a device reset (R46, R561): every register field at its reset value but for the state of island 136, which is ACTIVE,
memory with nothing listed, nothing running, and an empty queue. -/
def State.reset : State :=
  { regs := [((GLB_ISL_STATE.STATE.reg * 64 + GLB_ISL_STATE.STATE.lo) * 4294967296 + 136, 0)],
    mem := [],
    ports := ⟨[], [], [], []⟩,
    isl := ⟨[], [], [(0, true), (1, true), (2, true), (3, true)], [], [], 4294967296⟩,
    pnl := ⟨[], [], [], 0, [], []⟩,
    str := ⟨Sketch.empty, ⟨.idle, 0, 0, 0⟩, [], []⟩,
    seq := ⟨[], [], [], 0⟩,
    glz := ⟨[], [], [], [], [], [], [], [], [], []⟩,
    gso := ⟨[], [], [], [], [], [], [], [], [], [], []⟩,
    rows := ⟨[]⟩,
    rings := [],
    fin := ⟨[], [], [], []⟩,
    coats := ⟨[], []⟩,
    dma := ⟨[], [], []⟩,
    links := ⟨[], [], [], []⟩,
    colls := [],
    early := [],
    power := ⟨[], [], [], 0, [], [], false, false, [], [], [], false, none, 0, [], [], 0, 0⟩,
    therm := ⟨[], [], [], [], [], [], [], none, false, [], [], [], [], none⟩,
    sec := ⟨List.replicate 8 none, [], none, [], 0, 0, false, none, 0, none, none, none, .none, 0, false, .unlocked, [], 0, []⟩,
    host := ⟨true, false, true, false, [], 0, [], [], [], none, none, false, false⟩,
    jnl := ⟨[], [], [], none, [], []⟩,
    boot := ⟨[], [], 0, 0, 0, 0, none, true, false, false, none⟩,
    always := ⟨0⟩,
    sbd := ⟨none, false, some 0, [], 1⟩,
    sent := [], free := 0, pending := [] }

end Sys2Proof.Machine
end

