-- ==== Sys2Proof/Machine/Ops.lean ====
section
/-! DEFINITION. The named operations over registers, memory and islands that the meanings of the commands share. -/

namespace Sys2Proof.Machine

/-- The answer of a meaning that changes the state and goes on. -/
abbrev Res := Host.Outcome State Fault Refusal

/-! ### Registers -/

/-- The key of a register field at an index: the field in the high part, the index in the low 32 bits. -/
def RegField.key (f : RegField) (i : Nat) : Nat := (f.reg * 64 + f.lo) * 4294967296 + i % 4294967296

/-- A value cut to the width of a field (R5: bits outside the field do not exist). -/
def RegField.fit (f : RegField) (v : Val) : Val := BitVec.setWidth 64 (BitVec.setWidth f.width v)

/-- The value of a register field. -/
def State.rd (s : State) (f : RegField) (i : Nat) : Val := Tab.get s.regs (f.key i) f.reset

/-- The value of a register field as a number. -/
def State.rdN (s : State) (f : RegField) (i : Nat) : Nat := (s.rd f i).toNat

/-- Whether a one-bit field reads 1. -/
def State.on (s : State) (f : RegField) (i : Nat) : Bool := s.rd f i == 1

/-- The state with a register field at a value; the device's own way to a field, whatever its class. -/
def State.wr (s : State) (f : RegField) (i : Nat) (v : Val) : State :=
  { s with regs := Tab.set s.regs (f.key i) (f.fit v) f.reset }

/-- A register field at a number. -/
def State.wrN (s : State) (f : RegField) (i n : Nat) : State := s.wr f i (BitVec.ofNat 64 n)

/-- A one-bit field set. -/
def State.set1 (s : State) (f : RegField) (i : Nat) : State := s.wr f i 1

/-- A one-bit field cleared. -/
def State.clr (s : State) (f : RegField) (i : Nat) : State := s.wr f i 0

/-- A one-bit field at a truth value. -/
def State.flag (s : State) (f : RegField) (i : Nat) (b : Bool) : State := s.wr f i (if b then 1 else 0)

/-- A COUNT field incremented; it wraps to zero (R8). -/
def State.bump (s : State) (f : RegField) (i n : Nat) : State := s.wr f i (s.rd f i + BitVec.ofNat 64 n)

/-- A message sent. -/
def State.send (s : State) (m : Msg) : State := { s with sent := s.sent ++ [m] }

/-- Do something for each element of a list, in order. -/
def State.each {α : Type} (s : State) (xs : List α) (f : α → State → State) : State := xs.foldl (fun t x => f x t) s

/-- The state changed only where a condition holds. -/
def State.when (s : State) (c : Bool) (f : State → State) : State := if c then f s else s

/-- Device time in nanoseconds (GLB_TIME). -/
def State.now (s : State) : Nat := s.rdN GLB_TIME.NS 0

/-- The next free value (Config.freeValue) and the state with the draw counted. -/
def State.draw (s : State) : Val × State := (Config.freeValue s.free, { s with free := s.free + 1 })

/-! ### Islands (R26 to R46) -/

/-- The island states (the code table before R26). -/
def islActive : Nat := 0
/-- CLOSING. -/
def islClosing : Nat := 1
/-- ASLEEP. -/
def islAsleep : Nat := 2
/-- WAKING. -/
def islWaking : Nat := 3
/-- FUSED. -/
def islFused : Nat := 4
/-- LOST. -/
def islLost : Nat := 5

/-- The state of an island. -/
def State.island (s : State) (i : Nat) : Nat := s.rdN GLB_ISL_STATE.STATE i

/-- An island brought to a state; a FUSED island never leaves FUSED. -/
def State.setIsland (s : State) (i st : Nat) : State :=
  if s.island i = islFused then s else s.wrN GLB_ISL_STATE.STATE i st

/-- The number of an island from its canvas and local index. -/
def islandOf (c l : Nat) : Nat := 34 * c + l

/-- The panel island that holds a panel (device numbering). -/
def panelIsland (p : Nat) : Nat := islandOf (p / 256) (p % 256 / 16)

/-- The tether-port island of a canvas. -/
def tetherIsland (c : Nat) : Nat := islandOf c 33

/-- The stretcher island of a canvas. -/
def stretcherIsland (c : Nat) : Nat := islandOf c 32

/-- The answer that a packet to an island meets when it is not accepted in the end: ISLAND_FUSED at once (R36),
CANVAS_LOST, or ISLAND_ASLEEP after the retries of R29; none where the island accepts it. -/
def State.refusal (s : State) (i : Nat) : Option Code :=
  let st := s.island i
  if st = islActive then none
  else if st = islFused then some 0x0707
  else if st = islLost then some 0x0201
  else some 0x0701

/-! ### The address space (R224 to R228, R250, R251) -/

/-- Where a DPA lies. -/
inductive Target where
  | gesso (canvas offset : Nat)
  | well (panel offset : Nat)
  | host (offset : Nat)
  | nowhere
deriving DecidableEq, Repr

/-- The region of a DPA (R224), the populated part of each gesso window included. -/
def targetOf (d : Dpa) : Target :=
  if d < 0x4000000000 then
    if d % 0x1000000000 < 0xC00000000 then .gesso (d / 0x1000000000) (d % 0x1000000000) else .nowhere
  else if 0x8000000000 ≤ d ∧ d < 0x8080000000 then .well ((d - 0x8000000000) / 0x200000) ((d - 0x8000000000) % 0x200000)
  else if 0xC000000000 ≤ d ∧ d < 0x10000000000 then .host (d - 0xC000000000)
  else .nowhere

/-- The DPA of a byte of a panel's well (R224). -/
def wellDpa (p o : Nat) : Dpa := 0x8000000000 + p * 0x200000 + o

/-- The DPA of a byte of a canvas's gesso. -/
def gessoDpa (c o : Nat) : Dpa := c * 0x1000000000 + o

/-- The number of ones of a value. -/
def popcount (v : Nat) : Nat := ((List.range 64).filter (fun i => v.testBit i)).length

/-- The number of working banks of channel g of a canvas (R250). -/
def State.working (s : State) (c g : Nat) : Nat := popcount (s.rdN CNV_GSO_BANKS.WORKING (c * 32 + g))

/-- Whether a gesso line exists (R250); on a FUSED layer every bank reads 0, so none does (R36). -/
def State.lineExists (s : State) (c l : Nat) : Bool := decide (l / 32 < 24576 * s.working c (l % 32))

/-- The layer of a line (R250). -/
def layerOf (l : Nat) : Nat := l % 32 % 4

/-- The physical bank at a bank position of a channel: working banks in ascending order (R250). -/
def State.bankAt (s : State) (c g pos : Nat) : Nat :=
  ((List.range 32).filter (fun b => (s.rdN CNV_GSO_BANKS.WORKING (c * 32 + g)).testBit b)).getD pos 0

/-- Channel, bank position, physical bank and row of a line (R250). -/
def State.rowOf (s : State) (c l : Nat) : Nat × Nat × Nat × Nat :=
  let w := s.working c (l % 32)
  (l % 32, l / 32 % w, s.bankAt c (l % 32) (l / 32 % w), l / 32 / w)

/-- The key of a line of a canvas in the tables of the glaze. -/
def lineKey (c l : Nat) : Nat := c * 0x2000000 + l

/-- The line of a gesso DPA. -/
def lineOf (d : Dpa) : Nat := d % 0x1000000000 / 2048

/-- Whether the byte at a DPA exists (R225, R251). -/
def State.populated (s : State) (d : Dpa) : Bool :=
  match targetOf d with
  | .gesso c o => s.lineExists c (o / 2048)
  | .well _ _ => true
  | .host _ => true
  | .nowhere => false

/-- Whether every byte of a range exists; ranges are tested by their 256 B blocks, which never straddle a line. -/
def State.rangePopulated (s : State) (d : Dpa) (n : Nat) : Bool :=
  decide (n = 0) || (List.range ((d + n - 1) / 256 - d / 256 + 1)).all (fun i => s.populated (max d ((d / 256 + i) * 256)))

/-- The permissions of a window (R175, R226). -/
inductive Perm where
  | r | w | x | a
deriving DecidableEq, Repr

/-- Whether a window grants a permission. -/
def Window.grants (w : Window) : Perm → Bool
  | .r => w.r
  | .w => w.w
  | .x => w.x
  | .a => w.a

/-- Whether windows that grant a permission cover the bytes from a to e, window after window; fuel bounds the
number of windows used. -/
def covered (ws : List Window) (p : Perm) : Nat → Nat → Nat → Bool
  | 0, _, _ => false
  | f + 1, a, e =>
    match ws.find? (fun w => w.valid && w.grants p && decide (w.base ≤ a) && decide (a ≤ w.limit)) with
    | none => false
    | some w => if e ≤ w.limit then true else covered ws p f (w.limit + 1) e

/-- The partition's record in the resident configuration. -/
def State.part (s : State) (p : Nat) : Option Partition := Tab.get s.str.sketch.parts p none

/-- Whether an access on behalf of a partition is allowed (R226). -/
def State.windowOk (s : State) (p : Nat) (perm : Perm) (d : Dpa) (n : Nat) : Bool :=
  match s.part p with
  | none => false
  | some q => decide (n > 0) && covered q.windows perm 17 d (d + n - 1)

/-- The window check of an optional partition: an access on behalf of none passes. -/
def State.windowOk? (s : State) (p : Option Nat) (perm : Perm) (d : Dpa) (n : Nat) : Bool :=
  match p with
  | none => true
  | some q => s.windowOk q perm d n

/-- The partition of a panel's quad, by GLB_QUAD_PART. -/
def State.panelPart (s : State) (p : Nat) : Option Nat :=
  if s.on GLB_QUAD_PART.ASSIGNED (p / 4) then some (s.rdN GLB_QUAD_PART.PARTITION (p / 4)) else none

/-! ### Memory bytes -/

/-- What an unlisted address reads as: gesso reads zero, a well byte is uncorrectable until it is written (R40,
R501), and elsewhere there is no byte. -/
def memUnlisted (a : Nat) : Option Byte :=
  match targetOf a with
  | .gesso _ _ => some 0
  | _ => none

/-- The byte that memory holds at an address. -/
def memRead (m : List Host.Cell) (a : Nat) : Option Byte :=
  match Tab.find m a with
  | some b => some b
  | none => memUnlisted a

/-- Memory with a byte written; a byte equal to what an unlisted address reads as is not listed. -/
def memWrite (m : List Host.Cell) (a : Nat) (b : Byte) : List Host.Cell :=
  if memUnlisted a = some b then Tab.del m a else Tab.put m a b

/-- Memory with a byte no longer held. -/
def memErase (m : List Host.Cell) (a : Nat) : List Host.Cell := Tab.del m a

/-- The canonical form of memory: addresses strictly rising, and no entry equal to what an unlisted address reads
as. -/
def Memory.wf (m : List Host.Cell) : Bool := Tab.sorted m && m.all (fun e => decide (memUnlisted e.1 ≠ some e.2))

/-- A run of bytes written into memory. -/
def memWriteBytes (m : List Host.Cell) (a : Nat) : List Byte → List Host.Cell
  | [] => m
  | b :: bs => memWriteBytes (memWrite m a b) (a + 1) bs

/-- Every byte of an address range forgotten. -/
def memEraseRange (m : List Host.Cell) (a n : Nat) : List Host.Cell := m.filter (fun e => !(decide (a ≤ e.1) && decide (e.1 < a + n)))

/-- A little-endian number as n bytes. -/
def leBytes : Nat → Nat → List Byte
  | 0, _ => []
  | n + 1, v => BitVec.ofNat 8 v :: leBytes n (v / 256)

/-- Bytes as a little-endian number. -/
def leNat (bs : List Byte) : Nat := bs.foldr (fun b v => b.toNat + 256 * v) 0

/-- The little-endian field of n bytes at offset o of a byte list. -/
def leField (bs : List Byte) (o n : Nat) : Nat := leNat ((bs.drop o).take n)

/-- Whether the 64-bit well word of a byte is readable. -/
def wellWordOk (m : List Host.Cell) (a : Nat) : Bool := (Tab.find m (a / 8 * 8)).isSome

/-- Bytes written into a well at a DPA: a word covered whole is replaced; of another word the bytes change only
where it is readable, and otherwise it stays uncorrectable (R510). -/
def State.wellWrite (s : State) (d : Dpa) (bs : List Byte) : State :=
  let e := d + bs.length
  { s with mem := ((List.range bs.length).zip bs).foldl (fun m p =>
      let a := d + p.1
      let w := a / 8 * 8
      if (decide (d ≤ w) && decide (w + 8 ≤ e)) || wellWordOk s.mem a then memWrite m a p.2 else m) s.mem }

/-- Whether a write of a range touches part of an uncorrectable well word (R510). -/
def State.wellPartial (s : State) (d : Dpa) (n : Nat) : Bool :=
  (decide (d % 8 ≠ 0) && decide (n > 0) && !wellWordOk s.mem d) ||
  (decide ((d + n) % 8 ≠ 0) && decide (n > 0) && !wellWordOk s.mem (d + n - 1))

/-- The bytes of a well range; none where a word is uncorrectable. -/
def State.wellRead (s : State) (d : Dpa) (n : Nat) : Option (List Byte) :=
  ((List.range n).map (fun i => Tab.find s.mem (d + i))).foldr
    (fun b acc => match b, acc with | some x, some xs => some (x :: xs) | _, _ => none) (some [])

/-! ### The sketchbook's write queue (R581 to R584) -/

/-- Milliseconds since manufacture (R503). -/
def State.msNow (s : State) : Nat := (s.always.msBase + s.now / 1000000) % 2 ^ 40

/-- Whether a record of a type is a state record (R582); a trip is one until a THERMAL_CLEAR names it, and only the
newest wear record of a canvas is one. -/
def stateType (ty : Nat) : Bool := ty == 0x10 || ty == 0x11 || ty == 0x12 || ty == 0x13 || ty == 0x20 || ty == 0x21

/-- A record enters the write queue with the next SEQ (R584): with 256 records waiting, a state record waits for a
place and any other is dropped. -/
def State.journal (s : State) (ty source : Nat) (payload : List Byte) : State :=
  let r : JRecord := ⟨ty, source, s.rdN JNL_NEXT_SEQ.VALUE 0, s.msNow, s.rdN GLB_BOOT_COUNT.COUNT 0, (payload ++ List.replicate 40 0).take 40⟩
  if s.jnl.queue.length < 256 ∧ s.jnl.waiting = [] then
    { s with jnl := { s.jnl with queue := s.jnl.queue ++ [JEntry.mk r 0 none] } }.bump JNL_NEXT_SEQ.VALUE 0 1
  else if stateType ty then
    { s with jnl := { s.jnl with waiting := s.jnl.waiting ++ [r] } }.bump JNL_NEXT_SEQ.VALUE 0 1
  else (s.bump JNL_LOST.COUNT 0 1).set1 JNL_STATUS.RECORD_LOST 0

/-- An ERROR_SUMMARY record (R520): at most 16 a second of one source, the rest merged into the next; it carries the
code, the merged count, the cause of a loss and the DPA. -/
def State.errorSummary (s : State) (source : Nat) (code : Code) (cause dpa : Nat) : State :=
  let recent := (Tab.get s.jnl.summed source []).filter (fun t => decide (s.now < t + 1000000000))
  let n := Tab.get s.jnl.merged source 0 + 1
  if recent.length ≥ 16 then { s with jnl := { s.jnl with merged := Tab.set s.jnl.merged source n 0 } }
  else ({ s with jnl := { s.jnl with merged := Tab.set s.jnl.merged source 0 0,
                                     summed := Tab.set s.jnl.summed source (recent ++ [s.now]) [] } }).journal 0x50 source
    (leBytes 2 code.toNat ++ leBytes 2 (min 65535 n) ++ [BitVec.ofNat 8 cause, 0, 0, 0] ++ leBytes 8 dpa)

/-! ### The error log (R517 to R520) -/

/-- The MEM codes of the log. -/
def logWell : Nat := 1
/-- GLAZE. -/
def logGlaze : Nat := 2
/-- GESSO. -/
def logGesso : Nat := 3
/-- GESSO_META. -/
def logMeta : Nat := 4

/-- A memory error as the log sees it: canvas, address, MEM, KIND, SOURCE, LOCATION, requester's endpoint, code. -/
structure LogEntry where
  dpa  : Dpa
  mem  : Nat
  kind : Nat
  source : Nat
  location : Val
  requester : Nat
  code : Code
deriving DecidableEq, Repr

/-- The number of unread entries of the log (R517). -/
def State.logUnread (s : State) (c : Nat) : Nat :=
  (s.rdN CNV_ECC_LOG_PTR.LOG_WR c + 64 - s.rdN CNV_ECC_LOG_PTR.LOG_RD c) % 64

/-- The entry among the 8 newest unread ones that a correctable error merges into (R518). -/
def State.logMerge (s : State) (c : Nat) (e : LogEntry) : Option Nat :=
  ((List.range (min 8 (s.logUnread c))).map (fun k => (s.rdN CNV_ECC_LOG_PTR.LOG_WR c + 63 - k) % 64)).find? (fun i =>
    s.rdN CNV_ECC_LOG_WHAT.MEM (c * 64 + i) == e.mem && s.rd CNV_ECC_LOG_WHERE.LOCATION (c * 64 + i) == e.location)

/-- The correction counter of a memory (R507). -/
def ceCounter (mem : Nat) : RegField :=
  if mem = logGlaze then CNV_ECC_CE_GLAZE.COUNT else if mem = logGesso then CNV_ECC_CE_GESSO.COUNT
  else if mem = logMeta then CNV_ECC_CE_GESSO.COUNT else CNV_ECC_CE_WELL.COUNT

/-- The counter of uncorrectable errors of a memory. -/
def ueCounter (mem : Nat) : RegField :=
  if mem = logGlaze then CNV_ECC_UE_GLAZE.COUNT else if mem = logGesso then CNV_ECC_UE_GESSO.COUNT
  else if mem = logMeta then CNV_ECC_UE_GESSO.COUNT else CNV_ECC_UE_WELL.COUNT

/-- The canvas's count of corrections over its memories (R520). -/
def State.ceTotal (s : State) (c : Nat) : Nat :=
  s.rdN CNV_ECC_CE_WELL.COUNT c + s.rdN CNV_ECC_CE_GLAZE.COUNT c + s.rdN CNV_ECC_CE_GESSO.COUNT c

/-- A memory error: its counter, its entry in the log, merged or dropped where R518 and R519 say so, and CE_EVT or
UE_EVT (R520). -/
def State.eccLog (s : State) (c : Nat) (e : LogEntry) : State :=
  let ce := decide (e.kind = 1)
  let thr := max 1 (s.rdN CNV_ECC_CTL.CE_THRESH c)
  let old := s.ceTotal c
  let s1 := s.bump (if ce then ceCounter e.mem else ueCounter e.mem) c 1
  let s2 := if ce then s1.when (decide ((old + 1) / thr > old / thr)) (·.set1 CNV_ECC_STATUS.CE_EVT c)
    else s1.set1 CNV_ECC_STATUS.UE_EVT c
  match (if ce then s.logMerge c e else none) with
  | some i => s2.wrN CNV_ECC_LOG_WHO.COUNT (c * 64 + i) (min 65535 (s2.rdN CNV_ECC_LOG_WHO.COUNT (c * 64 + i) + 1))
  | none =>
    if s.logUnread c = 63 then (s2.bump CNV_ECC_LOG_LOST.COUNT c 1).set1 CNV_ECC_STATUS.LOG_OVERFLOW c
    else
      let i := s.rdN CNV_ECC_LOG_PTR.LOG_WR c
      let j := c * 64 + i
      ((((((((((s2.wrN CNV_ECC_LOG_TIME.TIME j s.now).wrN CNV_ECC_LOG_WHAT.DPA j e.dpa).wrN CNV_ECC_LOG_WHAT.MEM j e.mem).wrN
        CNV_ECC_LOG_WHAT.KIND j e.kind).wrN CNV_ECC_LOG_WHAT.SOURCE j e.source).wr CNV_ECC_LOG_WHERE.LOCATION j e.location).wrN
        CNV_ECC_LOG_WHO.REQUESTER j e.requester).wrN CNV_ECC_LOG_WHO.COUNT j 1).wr CNV_ECC_LOG_WHO.CODE j
        (BitVec.setWidth 64 e.code)).wrN CNV_ECC_LOG_PTR.LOG_WR c ((i + 1) % 64)).when (!ce) (·.errorSummary c e.code 0 e.dpa)

/-! ### Mailboxes (R214, R215, R621, R550) -/

/-- A mailbox. -/
def State.box (s : State) (m : Nat) : Mailbox := Tab.get s.seq.boxes m Mailbox.empty

/-- A mailbox at a content; DEPTH follows its words. -/
def State.setBox (s : State) (m : Nat) (b : Mailbox) : State :=
  { s with seq := { s.seq with boxes := Tab.set s.seq.boxes m b Mailbox.empty } }.wrN CNV_SEQ_MBX_STAT.DEPTH m b.words.length

/-- A word discarded at a full mailbox; a client queue's word clears its PENDING (R215, R550). -/
def State.mailDiscard (s : State) (m : Nat) (q : Option Nat) : State :=
  let s1 := (s.bump CNV_SEQ_MBX_STAT.LOST m 1).set1 CNV_SEQ_STATUS.MBX_OVERFLOW (m / 1024)
  match q with
  | some n => s1.clr QUE_CTL.PENDING n
  | none => s1

/-- A post that has arrived at the tether-port island: the word is queued, or discarded when the mailbox is full
(R215). -/
def State.mailArrive (s : State) (m : Nat) (w : Word32) (q : Option Nat) : State :=
  let b := s.box m
  if b.words.length ≥ 16 then s.mailDiscard m q else s.setBox m { b with words := b.words ++ [(w, q)] }

/-- A post to mailbox m: it arrives at once where the tether-port island is ACTIVE; a LOST or FUSED canvas discards
it (R388); otherwise the carrier retries it under R29 as a packet of its own (R621). -/
def State.post (s : State) (m : Nat) (w : Word32) (q : Option Nat := none) : State :=
  let m := m % 4096
  if s.island (tetherIsland (m / 1024)) = islActive then s.mailArrive m w q
  else if s.island (tetherIsland (m / 1024)) = islLost ∨ s.island (tetherIsland (m / 1024)) = islFused then
    let s1 := s.bump TTH_DROPPED.COUNT (m / 1024) 1
    match q with
    | some n => s1.clr QUE_CTL.PENDING n
    | none => s1
  else
    let p : Packet := ⟨tetherIsland (m / 1024), 0, none, false, s.now, 0, some (m, w, q)⟩
    { s with isl := { s.isl with packets := Tab.set s.isl.packets s.isl.nextId (some p) none, nextId := s.isl.nextId + 1 } }

/-- The oldest word taken from a mailbox by a thread; a client queue's word clears its PENDING (R214, R550). -/
def State.mailTake (s : State) (m : Nat) : Option (Word32 × State) :=
  match (s.box m).words with
  | [] => none
  | (w, q) :: ws =>
    let s1 := s.setBox m { s.box m with words := ws }
    some (w, match q with | some n => s1.clr QUE_CTL.PENDING n | none => s1)

/-! ### Command queues of WO registers (R9) -/

/-- The key of a WO register's command queue: its offset and index. -/
def woKey (f : RegField) (i : Nat) : Nat := f.reg * 4294967296 + i

/-- The queue of a WO register. -/
def State.woQueue (s : State) (f : RegField) (i : Nat) : List Val := Tab.get s.ports.queue (woKey f i) []

/-- A WO register's queue at a content; the QUEUE_DEPTH fields follow. -/
def State.setWo (s : State) (f : RegField) (i : Nat) (q : List Val) : State :=
  let s1 := { s with ports := { s.ports with queue := Tab.set s.ports.queue (woKey f i) q [] } }
  if f.reg = GLB_ISL_CMD.OP.reg then s1.wrN GLB_ISL_STATUS.QUEUE_DEPTH 0 q.length
  else if f.reg = CNV_STM_TRN_CMD.OP.reg then s1.wrN CNV_STM_STATUS.QUEUE_DEPTH i q.length
  else s1

/-- The depth of a WO register's queue: 32 for island and train commands, left open for the others (R9). -/
def woLimit (f : RegField) : Nat :=
  if f.reg = GLB_ISL_CMD.OP.reg ∨ f.reg = CNV_STM_TRN_CMD.OP.reg then 32 else Config.woDepth f.reg

/-- A command that is executed now: with nothing queued it is the write itself, else it must be the oldest queued
one. None where it is not its turn (R9, R43). -/
def State.woTake (s : State) (f : RegField) (i : Nat) (v : Val) : Option State :=
  match s.woQueue f i with
  | [] => some s
  | w :: ws => if w = v then some (s.setWo f i ws) else none

/-- A command that must wait is queued, or held off when the queue is full (R9). -/
def State.woPush (s : State) (f : RegField) (i : Nat) (v : Val) : State :=
  if (s.woQueue f i).length < woLimit f then s.setWo f i (s.woQueue f i ++ [v])
  else { s with ports := { s.ports with held := s.ports.held ++ [HeldWrite.mk f.reg i v] } }

/-- A command executed in its turn, or queued while its unit is busy with nothing queued before it (R9). -/
def State.woRun (s : State) (f : RegField) (i : Nat) (v : Val) (busy : Bool) (go : State → State) : State :=
  if busy then (match s.woQueue f i with | [] => s.woPush f i v | _ => s)
  else match s.woTake f i v with
    | none => s
    | some t => go t

/-! ### Time (R29) -/

/-- The retry schedule in ns after the first refusal. -/
def retryTimes : List Nat := [1000, 3000, 7000, 15000, 31000, 47000, 63000, 79000, 95000, 100000]

/-- When retry number n is due; beyond the last, every 100 µs (R29, R620). -/
def retryDue (first n : Nat) : Nat := first + (if n < 10 then retryTimes.getD n 0 else (n - 8) * 100000)

/-! ### Small helpers -/

/-- A code as a register value. -/
def codeVal (c : Code) : Val := BitVec.setWidth 64 c

/-- The canvases. -/
def canvases : List Nat := [0, 1, 2, 3]

end Sys2Proof.Machine
end

