-- ==== Sys2Proof/Machine/Queues.lean ====
section
/-! DEFINITION. The ring queues at their registers: row, finish, coat and collective queues and DMA channels share
one ring mechanism (R268 to R275, R291, R346, R425, R622, R623). -/

namespace Sys2Proof.Machine

/-- The kinds of ring queue. -/
inductive QKind where
  | row | fin | coat | col | dma
deriving DecidableEq, Repr

/-- A queue: its kind and its number (canvas × 65 + q for row and finish queues). -/
structure QId where
  kind : QKind
  n    : Nat
deriving DecidableEq, Repr

/-- The register fields of a kind of queue. -/
structure QFields where
  enable : RegField
  size   : RegField
  base   : RegField
  dbOn   : RegField
  dbDpa  : RegField
  tail   : RegField
  head   : RegField
  err    : RegField
  done   : RegField
  state  : RegField
  code   : RegField
deriving DecidableEq, Repr

/-- The fields of each kind. -/
def QKind.fields : QKind → QFields
  | .row => ⟨CNV_ROW_Q_CTL.ENABLE, CNV_ROW_Q_CTL.SIZE_LOG2, CNV_ROW_Q_BASE.BASE, CNV_ROW_Q_DB.DB_VALID, CNV_ROW_Q_DB.DB_DPA,
      CNV_ROW_Q_TAIL.TAIL, CNV_ROW_Q_HEAD.HEAD, CNV_ROW_Q_STATUS.ERR, CNV_ROW_Q_STATUS.DONE, CNV_ROW_Q_STATUS.STATE,
      CNV_ROW_Q_STATUS.CODE⟩
  | .fin => ⟨CNV_FIN_Q_CTL.ENABLE, CNV_FIN_Q_CTL.SIZE_LOG2, CNV_FIN_Q_BASE.BASE, CNV_FIN_Q_DB.DB_VALID, CNV_FIN_Q_DB.DB_DPA,
      CNV_FIN_Q_TAIL.TAIL, CNV_FIN_Q_HEAD.HEAD, CNV_FIN_Q_STATUS.ERR, CNV_FIN_Q_STATUS.DONE, CNV_FIN_Q_STATUS.STATE,
      CNV_FIN_Q_STATUS.CODE⟩
  | .coat => ⟨COAT_Q_CTL.ENABLE, COAT_Q_CTL.SIZE_LOG2, COAT_Q_BASE.BASE, COAT_Q_DB.DB_VALID, COAT_Q_DB.DB_DPA,
      COAT_Q_TAIL.TAIL, COAT_Q_HEAD.HEAD, COAT_Q_STATUS.ERR, COAT_Q_STATUS.DONE, COAT_Q_STATUS.STATE, COAT_Q_STATUS.CODE⟩
  | .col => ⟨COL_Q_CTL.ENABLE, COL_Q_CTL.SIZE_LOG2, COL_Q_BASE.BASE, COL_Q_DB.DB_VALID, COL_Q_DB.DB_DPA,
      COL_Q_TAIL.TAIL, COL_Q_HEAD.HEAD, COL_Q_STATUS.ERR, COL_Q_STATUS.DONE, COL_Q_STATUS.STATE, COL_Q_STATUS.CODE⟩
  | .dma => ⟨DMA_CH_CTL.ENABLE, DMA_CH_CTL.SIZE_LOG2, DMA_CH_BASE.BASE, DMA_CH_DB.DB_VALID, DMA_CH_DB.DB_DPA,
      DMA_CH_TAIL.TAIL, DMA_CH_HEAD.HEAD, DMA_CH_STATUS.ERR, DMA_CH_STATUS.DONE, DMA_CH_STATUS.STATE, DMA_CH_STATUS.CODE⟩

/-- The code of an overrun (R270). -/
def QKind.overrun : QKind → Code
  | .row => 0x0908 | .fin => 0x0A0E | .coat => 0x040D | .col => 0x030D | .dma => 0x030D

/-- The bounds code of a ring read (R623). -/
def QKind.bounds : QKind → Code
  | .row => 0x0904 | .fin => 0x0A04 | .coat => 0x0406 | .col => 0x0304 | .dma => 0x0304

/-- The bytes of a command. -/
def QKind.cmdBytes : QKind → Nat
  | .row => 32 | .fin => 128 | .coat => 64 | .col => 64 | .dma => 64

/-- The number of a kind in a ring's key. -/
def QKind.num : QKind → Nat
  | .row => 0 | .fin => 1 | .coat => 2 | .col => 3 | .dma => 4

/-- The key of a queue's ring. -/
def QId.key (q : QId) : Nat := q.kind.num * 65536 + q.n

/-- The ring of a queue. -/
def State.ring (s : State) (q : QId) : Ring := Tab.get s.rings q.key Ring.zero

/-- A queue's ring at a content. -/
def State.setRing (s : State) (q : QId) (r : Ring) : State := { s with rings := Tab.set s.rings q.key r Ring.zero }

/-- The partition that a queue belongs to and its job class (WASH true); none for a system queue or channel. -/
def State.qPart (s : State) (q : QId) : Option (Nat × Bool) :=
  match q.kind with
  | .row => if q.n % 65 < 64 then some (q.n / 65 * 64 + q.n % 65, false) else none
  | .fin => if q.n % 65 < 64 then some (q.n / 65 * 64 + q.n % 65, false) else none
  | .coat => if q.n < 256 then some (q.n, false) else none
  | .col => if q.n < 256 then some (q.n, false) else none
  | .dma => if s.on DMA_CH_OWNER.OWNED q.n then some (s.rdN DMA_CH_OWNER.PARTITION q.n, s.on DMA_CH_OWNER.JOBCLASS q.n)
      else none

/-- The canvas in whose gesso the ring and the doorbell word must lie; none where any canvas does (R268, R346). -/
def QId.canvas (q : QId) : Option Nat :=
  match q.kind with
  | .row => some (q.n / 65)
  | .fin => some (q.n / 65)
  | .coat => if q.n < 256 then some (q.n / 64) else none
  | .col => if q.n < 256 then some (q.n / 64) else none
  | .dma => if q.n < 256 then some (q.n / 64) else none

/-- The queue number that a completion word carries. -/
def QId.number (q : QId) : Nat :=
  match q.kind with
  | .row => q.n % 65
  | .fin => q.n % 65
  | _ => q.n

/-- The number of commands in the ring: SIZE_LOG2 from 4 to 16, other values acting as 16. -/
def State.qSize (s : State) (q : QId) : Nat :=
  let v := s.rdN q.kind.fields.size q.n
  2 ^ (if 4 ≤ v ∧ v ≤ 16 then v else 16)

/-- Whether a queue is HALTED. -/
def State.qHalted (s : State) (q : QId) : Bool := s.rdN q.kind.fields.state q.n == 2

/-- Whether a queue is enabled. -/
def State.qOn (s : State) (q : QId) : Bool := s.on q.kind.fields.enable q.n

/-- The next sequence number, modulo 2^32. -/
def seqNext (n : Nat) : Nat := (n + 1) % 4294967296

/-- How far b lies ahead of a, modulo 2^32. -/
def seqAhead (a b : Nat) : Nat := (b + 4294967296 - a) % 4294967296

/-- The queues of a kind that share one summary bit: their number and the numbers of the group. -/
def QId.group (q : QId) : List Nat :=
  match q.kind with
  | .row => (List.range 65).map (· + q.n / 65 * 65)
  | .fin => (List.range 65).map (· + q.n / 65 * 65)
  | .coat => List.range 257
  | .col => List.range 257
  | .dma => (List.range 64).map (· + q.n / 64 * 64)

/-- The summary bit (Q_ERR, CH_ERR) brought up to date: 1 while any queue of the group is HALTED. -/
def State.qSummary (s : State) (q : QId) : State :=
  let any := q.group.any (fun n => s.qHalted ⟨q.kind, n⟩)
  match q.kind with
  | .row => s.flag CNV_ROW_STATUS.Q_ERR (q.n / 65) any
  | .fin => s.flag CNV_FIN_STATUS.Q_ERR (q.n / 65) any
  | .coat => s
  | .col => s.flag COL_STATUS.Q_ERR 0 any
  | .dma => s.flag DMA_ENG_STATUS.CH_ERR (q.n / 64) any

/-- STATE brought up to date (R622): HALTED and STOPPED stay; otherwise RUNNING while dispatched work is in progress
or an enabled queue has commands, else IDLE. -/
def State.qRefresh (s : State) (q : QId) : State :=
  let f := q.kind.fields
  let st := s.rdN f.state q.n
  if st ≥ 2 then s
  else s.wrN f.state q.n (if (s.ring q).busy || (s.qOn q && s.rd f.head q.n != s.rd f.tail q.n) then 1 else 0)

/-- Whether the queue's dispatched work is in progress, set by the unit that runs it. -/
def State.qBusy (s : State) (q : QId) (b : Bool) : State := (s.setRing q { s.ring q with busy := b }).qRefresh q

/-- A queue halts with a code (R270, R273, R275, R623); ERR is set (R273). -/
def State.qHalt (s : State) (q : QId) (code : Code) : State :=
  let f := q.kind.fields
  (((s.wrN f.state q.n 2).wr f.code q.n (codeVal code)).set1 f.err q.n).qSummary q

/-- TAIL is checked against HEAD and the next command to be read (R270). -/
def State.qTailOk (s : State) (q : QId) : Bool :=
  let f := q.kind.fields
  let h := s.rdN f.head q.n
  let t := s.rdN f.tail q.n
  decide (seqAhead h t ≤ s.qSize q) && decide (seqAhead h (s.ring q).read ≤ seqAhead h t)

/-- An overrun (R270): the queue halts and no command has failed. -/
def State.qOverrun (s : State) (q : QId) : State :=
  (s.setRing q { s.ring q with overrun := true }).qHalt q q.kind.overrun

/-- A new TAIL (R269, R270). -/
def State.qSetTail (s : State) (q : QId) (t : Val) : State :=
  let s1 := s.wr q.kind.fields.tail q.n t
  if s1.qTailOk q then s1.qRefresh q else s1.qOverrun q

/-- HEAD advances over the commands completed in order; fuel bounds the number of commands (R272). -/
def State.qAdvance : Nat → State → QId → State
  | 0, s, _ => s
  | k + 1, s, q =>
    let h := s.rdN q.kind.fields.head q.n
    let r := s.ring q
    if r.done.contains h then
      State.qAdvance k ((s.setRing q { r with done := r.done.erase h }).wrN q.kind.fields.head q.n (seqNext h)) q
    else s

/-- A command counted as completed. -/
def State.qDone (s : State) (q : QId) (seq : Nat) : State :=
  let s1 := s.setRing q { s.ring q with done := (s.ring q).done ++ [seq] }
  (s1.qAdvance ((s1.ring q).done.length) q).qRefresh q

/-- The completion word of a row or finish queue (R272), a collective queue (R436) or a DMA channel (R362). -/
def QId.word (q : QId) (seq : Nat) (err : Bool) : Word32 :=
  let e := if err then 2147483648 else 0
  match q.kind with
  | .row => BitVec.ofNat 32 (e + q.number * 16777216 + seq % 16777216)
  | .fin => BitVec.ofNat 32 (e + q.number * 16777216 + seq % 16777216)
  | _ => BitVec.ofNat 32 (e + q.number * 4194304 + seq % 4194304)

/-- A command completes without error: DONE when IRQ is 1, the word when NOTIFY is 1, HEAD (R272). -/
def State.qComplete (s : State) (q : QId) (seq : Nat) (notify irq : Bool) (mbx : Nat) : State :=
  let s1 := s.when irq (·.set1 q.kind.fields.done q.n)
  let s2 := s1.when notify (·.post mbx (q.word seq false))
  s2.qDone q seq

/-- A command is refused or ends with an execution error: the queue halts with the code, the failed command is kept
for RESUME, and the word with ERROR is posted when NOTIFY is 1 (R273). -/
def State.qFail (s : State) (q : QId) (seq : Nat) (code : Code) (notify : Bool) (mbx : Nat) : State :=
  let s1 := s.setRing q { s.ring q with failed := (s.ring q).failed ++ [seq] }
  let s2 := match q.kind with
    | .row => (s1.wrN CNV_ROW_Q_FAIL.SEQ q.n (seq % 16777216)).wr CNV_ROW_Q_FAIL.DPA q.n 0
    | .fin => (s1.wrN CNV_FIN_Q_FAIL.SEQ q.n (seq % 16777216)).wr CNV_FIN_Q_FAIL.STROKE_CODE q.n 0
    | .dma => (s1.wrN DMA_CH_FAIL.SEQ q.n (seq % 4194304)).wr DMA_CH_FAIL.OFFSET q.n 0
    | _ => s1
  (s2.qHalt q code).when notify (·.post mbx (q.word seq true))

/-- The command at the ring's next place has been taken: the queue's read position moves on. -/
def State.qTake (s : State) (q : QId) : State := s.setRing q { s.ring q with read := seqNext (s.ring q).read }

/-- RESUME (R270, R273): the failed commands count as completed; after an overrun TAIL is checked again. A queue that
is not halted is left alone. -/
def State.qResume (s : State) (q : QId) : State :=
  if s.qHalted q then
    let r := s.ring q
    let s1 := ((s.wrN q.kind.fields.state q.n 0).qSummary q).setRing q
      { r with failed := [], overrun := false, done := r.done ++ r.failed }
    let s2 := s1.qAdvance (r.done.length + r.failed.length) q
    if r.overrun && !s2.qTailOk q then s2.qOverrun q else s2.qRefresh q
  else s

/-- ENABLE at a value (R274, R622). -/
def State.qEnable (s : State) (q : QId) (b : Bool) : State := (s.flag q.kind.fields.enable q.n b).qRefresh q

/-- A Sketch load: the commands not yet started are lost, HEAD is set to TAIL, ENABLE is cleared and a HALTED queue
is released; ERR and CODE keep their values (R275). -/
def State.qLoad (s : State) (q : QId) : State :=
  let f := q.kind.fields
  let t := s.rd f.tail q.n
  ((((s.wr f.head q.n t).clr f.enable q.n).wrN f.state q.n 0).setRing q
    { Ring.zero with read := t.toNat, busy := (s.ring q).busy }).qSummary q |>.qRefresh q

/-- Whether the queue may read its next command: enabled, neither HALTED nor STOPPED, with a command before TAIL. -/
def State.qReady (s : State) (q : QId) : Bool :=
  s.qOn q && decide (s.rdN q.kind.fields.state q.n < 2) && decide ((s.ring q).read ≠ s.rdN q.kind.fields.tail q.n)

/-- The DPA of the ring slot of a sequence number. -/
def State.qSlot (s : State) (q : QId) (seq : Nat) : Dpa :=
  s.rdN q.kind.fields.base q.n * 2048 + seq % s.qSize q * q.kind.cmdBytes

/-- Whether the next command may start beside the earlier ones still running (R271, R327, R425): with FENCE only
after all of them, otherwise with at most the given number of them. -/
def State.qMayStart (s : State) (q : QId) (fence : Bool) (running most : Nat) : Bool :=
  if fence then decide (running = 0) && decide (s.rdN q.kind.fields.head q.n = (s.ring q).read) else decide (running ≤ most)

/-- Whether a queue exists. -/
def QId.exists_ (q : QId) : Bool :=
  match q.kind with
  | .row => decide (q.n < 260)
  | .fin => decide (q.n < 260)
  | .coat => decide (q.n < 257)
  | .col => decide (q.n < 257)
  | .dma => decide (q.n < 320)

/-- The island whose registers hold a queue's: the tether port of its canvas, or hub island 141 (R542). -/
def QId.island (q : QId) : Nat :=
  match q.kind with
  | .row => tetherIsland (q.n / 65)
  | .fin => tetherIsland (q.n / 65)
  | .coat => 141
  | .col => 141
  | .dma => if q.n < 256 then tetherIsland (q.n / 64) else 141

/-- Whether a host request is turned away whole: in confidential mode the device accepts host requests only on the IDE
stream whose keys are installed (R497). -/
def State.hostBarred (s : State) (port : Port) : Bool :=
  s.on SEC_STATUS.CONF 0 && (decide (port = .plain) || (decide (port = .host) && !s.sec.ide))

/-- A register write that the host may not make in confidential mode: it is ignored and sets DENIED (R497). -/
def State.denied (s : State) (port : Port) (forbidden : Bool) (f : State → State) : State :=
  if s.hostBarred port then s
  else if s.on SEC_STATUS.CONF 0 && decide (port = .host) && forbidden then s.set1 SEC_STATUS.DENIED 0 else f s

/-- A write of a queue's register from a port (R267, R497, R542): the host's writes to system queues and channels are
ignored in confidential mode, and registers of an island that is not ACTIVE cannot be reached. -/
def State.qWrite (s : State) (port : Port) (q : QId) (f : State → State) : State :=
  if q.exists_ && decide (s.island q.island = islActive) then s.denied port (s.qPart q).isNone f else s

/-- The doorbell fields, by the register part of their keys. -/
def bellKinds : List (Nat × QKind) :=
  [(CNV_ROW_Q_DB.DB_VALID, QKind.row), (CNV_FIN_Q_DB.DB_VALID, .fin), (COAT_Q_DB.DB_VALID, .coat),
    (COL_Q_DB.DB_VALID, .col), (DMA_CH_DB.DB_VALID, .dma)].map (fun p => (p.1.key 0 / 4294967296, p.2))

/-- The queues whose DB_VALID is 1. -/
def State.belled (s : State) : List QId :=
  s.regs.filterMap (fun (e : Nat × Val) =>
    match bellKinds.find? (fun b => b.1 == e.1 / 4294967296) with
    | some b => if e.2 == 1 then some ⟨b.2, e.1 % 4294967296⟩ else none
    | none => none)

/-- The queues whose doorbell word a performed write touches (R269): a word outside the gesso of the queue's canvas
never rings. -/
def State.rung (s : State) (d n : Nat) : List QId :=
  s.belled.filter (fun q =>
    let w := s.rdN q.kind.fields.dbDpa q.n * 8
    decide (w < d + n) && decide (d < w + 8) &&
      match targetOf w, q.canvas with
      | .gesso c _, some k => decide (c = k)
      | .gesso _ _, none => true
      | _, _ => false)

end Sys2Proof.Machine
end

