-- ==== Sys2Proof/Machine/Memory.lean ====
section
/-! DEFINITION. The glaze and the gesso: lines, fill slots, the victim buffer, tacking, and what each access does at
its home slice (R216 to R221, R224 to R257, R506 to R510). -/

namespace Sys2Proof.Machine

/-! ### Bytes and flags -/

/-- The glaze at a changed content. -/
def State.onGlz (s : State) (f : Glaze → Glaze) : State := { s with glz := f s.glz }

/-- The gesso's side data at a changed content. -/
def State.onGso (s : State) (f : Gesso → Gesso) : State := { s with gso := f s.gso }

/-- Bytes put into a byte table at consecutive keys. -/
def putBytes (m : Tab Byte) (a : Nat) : List Byte → Tab Byte
  | [] => m
  | b :: bs => putBytes (Tab.set m a b 0) (a + 1) bs

/-- Bytes of a byte table at consecutive keys. -/
def getBytes (m : Tab Byte) (a n : Nat) : List Byte := (List.range n).map (fun i => Tab.get m (a + i) 0)

/-- Flags set at keys. -/
def setFlags (m : Tab Bool) (ks : List Nat) (b : Bool) : Tab Bool := ks.foldl (fun t k => Tab.set t k b false) m

/-- The first byte of a line. -/
def lineDpa (c l : Nat) : Dpa := c * 0x1000000000 + l * 2048

/-- The key of a gesso DPA's line. -/
def keyOf (d : Dpa) : Nat := lineKey (d / 0x1000000000) (lineOf d)

/-- The canvas of a line key. -/
def keyCanvas (k : Nat) : Nat := k / 0x2000000

/-- The line number of a line key. -/
def keyLine (k : Nat) : Nat := k % 0x2000000

/-- The sectors of a line that a range of bytes touches. -/
def secMask (d n : Nat) : BitVec 8 :=
  if n = 0 then 0 else
  BitVec.ofNat 8 ((List.range 8).foldl (fun v i => if d % 2048 / 256 ≤ i ∧ i ≤ (d % 2048 + n - 1) / 256 then v + 2 ^ i else v) 0)

/-- The numbers of the sectors of a mask. -/
def secs (m : BitVec 8) : List Nat := (List.range 8).filter (fun i => m.getLsbD i)

/-- The glaze island of a line (R232). -/
def glazeIsland (c l : Nat) : Nat := islandOf c (16 + l % 16 / 4)

/-- The gesso island of a line (R250). -/
def gessoIsland (c l : Nat) : Nat := islandOf c (22 + layerOf l)

/-- The endpoint number of a requester (the endpoint table before R375). -/
def endpointOf : Requester → Nat
  | .panel p => p / 256 * 4096 + p % 256
  | .seq k => k / 16 * 4096 + 0x100 + k % 16
  | .dma ch => if ch < 256 then ch / 64 * 4096 + 0x140 + ch % 64 else 0x4040 + (ch - 256)
  | .finish u => u / 16 * 4096 + 0x120 + u % 16
  | .collective => 0x4080
  | .queues c => c * 4096 + 0x180
  | .coats => 0x4004
  | .sideband => 0x4005
  | .host => 0x4002
  | .rtp => 0x4000

/-- The number that keys a requester in the prefetcher's table; none for those it does not watch (R220). -/
def missKey : Requester → Option Nat
  | .panel p => some p
  | .seq k => some (0x10000 + k)
  | .dma ch => some (0x20000 + ch)
  | _ => none

/-! ### Lines -/

/-- A line of the glaze, none where it is absent. -/
def State.line (s : State) (k : Nat) : Option GlazeLine := Tab.get s.glz.lines k none

/-- A line at a content. -/
def State.setLine (s : State) (k : Nat) (l : Option GlazeLine) : State :=
  s.onGlz (fun g => { g with lines := Tab.set g.lines k l none })

/-- The lines present in the set of a line (R232). -/
def State.setLines (s : State) (k : Nat) : List (Nat × GlazeLine) :=
  s.glz.lines.filterMap (fun (e : Nat × Option GlazeLine) =>
    if e.1 % 32768 = k % 32768 ∧ keyCanvas e.1 = keyCanvas k then e.2.map (fun l => (e.1, l)) else none)

/-- The number of TACKED lines of a canvas. -/
def State.tackCount (s : State) (c : Nat) : Nat :=
  (s.glz.lines.filter (fun (e : Nat × Option GlazeLine) =>
    decide (keyCanvas e.1 = c) && match e.2 with | some l => l.tacked | none => false)).length

/-- TACK_INUSE brought up to date. -/
def State.tackRefresh (s : State) (c : Nat) : State := s.wrN CNV_GLZ_TACK_INUSE.LINES c (s.tackCount c)

/-- A fill slot. -/
def State.slot (s : State) (k : Nat) : Option FillSlot := Tab.get s.glz.slots k none

/-- The fill slots of a canvas, by line key. -/
def State.slotsOf (s : State) (c : Nat) : List (Nat × FillSlot) :=
  s.glz.slots.filterMap (fun (e : Nat × Option FillSlot) => if keyCanvas e.1 = c then e.2.map (fun f => (e.1, f)) else none)

/-- A fill slot at a content; FILL_INUSE follows. -/
def State.setSlot (s : State) (k : Nat) (f : Option FillSlot) : State :=
  let s1 := s.onGlz (fun g => { g with slots := Tab.set g.slots k f none })
  s1.wrN CNV_GLZ_FILL_INUSE.SLOTS (keyCanvas k) (s1.slotsOf (keyCanvas k)).length

/-- The bank of a line, for the limit of R217: its channel and bank position. -/
def State.bankOf (s : State) (k : Nat) : Nat × Nat :=
  let r := s.rowOf (keyCanvas k) (keyLine k)
  (r.1, r.2.1)

/-- A victim waiting for its write-back. -/
def State.victim (s : State) (k : Nat) : Option Victim := Tab.get s.glz.victims k none

/-- A victim at a content; WB_HELD follows (R620). -/
def State.setVictim (s : State) (k : Nat) (v : Option Victim) : State :=
  let s1 := s.onGlz (fun g => { g with victims := Tab.set g.victims k v none })
  s1.flag CNV_GLZ_STATUS.WB_HELD (keyCanvas k) (s1.glz.victims.any (fun (e : Nat × Option Victim) =>
    decide (keyCanvas e.1 = keyCanvas k) && match e.2 with | some w => decide (w.tries > 0) | none => false))

/-- Whether a line is held by a row operation, a retirement or a coat (R276, R522, R329). -/
def State.lineHeld (s : State) (k : Nat) : Bool := (Tab.get s.glz.held k none).isSome

/-- The data bytes of sectors of a line forgotten. -/
def State.dropData (s : State) (k : Nat) (m : BitVec 8) : State :=
  let b := lineDpa (keyCanvas k) (keyLine k)
  let gone := fun a => decide (b ≤ a) && decide (a < b + 2048) && m.getLsbD ((a - b) / 256)
  s.onGlz (fun g => { g with data := g.data.filter (fun e => !gone e.1), bad := g.bad.filter (fun e => !gone (e.1 * 8)) })

/-! ### Rows of the gesso -/

/-- The metadata of a row. -/
def State.rowMeta (s : State) (k : Nat) : RowMeta := Tab.get s.gso.rows k RowMeta.zeroed

/-- The metadata of a row at a value; a row written so has a readable metadata word. -/
def State.setMeta (s : State) (k : Nat) (m : RowMeta) : State :=
  s.onGso (fun g => { g with rows := Tab.set g.rows k m RowMeta.zeroed, badMeta := Tab.set g.badMeta k false false })

/-- Whether codeword i of a row is uncorrectable as stored. -/
def State.cwBad (s : State) (k i : Nat) : Bool :=
  Tab.get s.gso.bad (lineDpa (keyCanvas k) (keyLine k) / 32 + i) false

/-- Codewords of a row marked uncorrectable or good. -/
def State.setCw (s : State) (k : Nat) (is : List Nat) (b : Bool) : State :=
  s.onGso (fun g => { g with bad := setFlags g.bad (is.map (fun i => lineDpa (keyCanvas k) (keyLine k) / 32 + i)) b })

/-- Physical place of a row for the log: channel within the layer and layer, bank, row; a remapped row lies in its
bank's spare rows, which follow the 24,576 rows (R250, R261). -/
def State.rowPlace (s : State) (k : Nat) : Nat × Nat × Nat :=
  let r := s.rowOf (keyCanvas k) (keyLine k)
  let row := r.2.2.2
  let pageKey := ((keyCanvas k * 32 + r.1) * 32 + r.2.2.1) * 1024 + row / 32
  match Tab.get s.gso.remap pageKey none with
  | some j => (r.1, r.2.2.1, 24576 + 32 * j + row % 32)
  | none => (r.1, r.2.2.1, row)

/-- The LOCATION of a gesso codeword in the log. -/
def State.gessoLocation (s : State) (k cw sym : Nat) : Val :=
  let p := s.rowPlace k
  BitVec.ofNat 64 (p.1 % 4 * 2 ^ 62 + p.1 / 4 * 2 ^ 59 + p.2.1 * 2 ^ 54 + p.2.2 % 32768 * 2 ^ 39 + cw % 64 * 2 ^ 33 + sym % 64 * 2 ^ 27)

/-- The LOCATION of a glaze word in the log. -/
def glazeLocation (k way word bit : Nat) : Val :=
  BitVec.ofNat 64 (k % 16 * 2 ^ 60 + k / 16 % 2048 * 2 ^ 49 + way % 16 * 2 ^ 45 + word / 32 % 8 * 2 ^ 42 + word % 32 * 2 ^ 37 + bit % 128 * 2 ^ 30)

/-- The upsets of a row read taken up: an uncorrectable codeword or metadata word is uncorrectable from then on, a
correctable one is counted and logged (R507, R517). -/
def State.rowUpsets (s : State) (k source who : Nat) (ups : List Upset) : State :=
  s.each ups (fun u t =>
    let m := if u.offset = 64 then logMeta else logGesso
    let d := lineDpa (keyCanvas k) (keyLine k)
    if u.correctable then
      t.eccLog (keyCanvas k) ⟨d, m, 1, source, t.gessoLocation k u.offset u.detail, who, 0⟩
    else if u.offset = 64 then t.onGso (fun g => { g with badMeta := Tab.set g.badMeta k true false })
    else if u.offset < 64 then t.setCw k [u.offset] true
    else t)

/-- Whether codeword i of a row reads uncorrectable: of itself, with its metadata word (R281), or with the whole gesso of
a canvas whose gesso is lost (R626, R512). -/
def State.cwUnreadable (s : State) (k i : Nat) : Bool :=
  Tab.get s.isl.gessoLost (keyCanvas k) false || Tab.get s.gso.badMeta k false || s.cwBad k i

/-- The codewords of the sectors of a mask. -/
def cwsOf (m : BitVec 8) : List Nat := (List.range 64).filter (fun i => m.getLsbD (i / 8))

/-- The code of an uncorrectable row (R509). -/
def State.rowCode (s : State) (k : Nat) : Code := if Tab.get s.gso.badMeta k false then 0x0113 else 0x0112

/-- The stored bytes of a sector of a row; a row whose ZT is 1 reads zeros (R281). -/
def State.rowSector (s : State) (k i : Nat) : List Byte :=
  if (s.rowMeta k).zt then List.replicate 256 0
  else (List.range 256).map (fun j => (memRead s.mem (lineDpa (keyCanvas k) (keyLine k) + 256 * i + j)).getD 0)

/-- The invalid sectors of a line in a mask filled from its row: bytes copied, the words of an uncorrectable
codeword poisoned and logged (R235, R509). -/
def State.fillSectors (s : State) (k : Nat) (m : BitVec 8) (source who : Nat) : State :=
  let b := lineDpa (keyCanvas k) (keyLine k)
  let s1 := s.each (secs m) (fun i t => t.onGlz (fun g => { g with data := putBytes g.data (b + 256 * i) (s.rowSector k i) }))
  let bads := if (s.rowMeta k).zt && !Tab.get s.gso.badMeta k false then [] else (cwsOf m).filter (fun i => s.cwUnreadable k i)
  let s2 := s1.onGlz (fun g => { g with
    bad := setFlags (setFlags g.bad ((cwsOf m).flatMap (fun i => (List.range 4).map (fun j => b / 8 + 4 * i + j))) false)
      (bads.flatMap (fun i => (List.range 4).map (fun j => b / 8 + 4 * i + j))) true })
  let s3 := s2.each bads (fun i t => t.eccLog (keyCanvas k)
    ⟨b, if s.rowCode k = 0x0113 then logMeta else logGesso, 2, source, s.gessoLocation k i 0, who, s.rowCode k⟩)
  match s3.line k with
  | some l => s3.setLine k (some { l with valid := l.valid ||| m, dirty := l.dirty &&& ~~~m })
  | none => s3

/-- The sectors of a mask written from the glaze to the row, whose line is dirty or on its way out: bytes, poisoned
codewords, ZT 0 and TAG, and zeros in the sectors left out of a row whose ZT was 1 (R234, R281, R495, R509). -/
def State.writeBack (s : State) (k : Nat) (m : BitVec 8) : State :=
  if m = 0 then s else
  let b := lineDpa (keyCanvas k) (keyLine k)
  let meta0 := s.rowMeta k
  let lost := Tab.get s.gso.badMeta k false
  let tag := if m = 255 ∨ meta0.zt then BitVec.ofNat 32 (keyLine k) else meta0.tag
  let s0 := if meta0.zt then { s with mem := memEraseRange s.mem b 2048 } else s
  let s1 := s0.each (secs m) (fun i t => { t with mem := memWriteBytes t.mem (b + 256 * i) (getBytes s.glz.data (b + 256 * i) 256) })
  let isBad := fun i => (List.range 4).any (fun j => Tab.get s.glz.bad (b / 8 + 4 * i + j) false)
  let s2 := if meta0.zt then s1.setCw k (cwsOf (~~~m)) false else s1
  let s3 := (s2.setCw k ((cwsOf m).filter (fun i => !isBad i)) false).setCw k ((cwsOf m).filter isBad) true
  let s4 := if lost ∧ m ≠ 255 then s3.setCw k (cwsOf (~~~m)) true else s3
  (s4.setMeta k ⟨false, tag⟩).bump CNV_GLZ_WRITEBACK.COUNT (keyCanvas k) 1

/-- A resident line written back and clean; its sectors stay VALID. -/
def State.cleanLine (s : State) (k : Nat) : State :=
  match s.line k with
  | some l => if l.dirty = 0 then s else (s.writeBack k l.dirty).setLine k (some { l with dirty := 0 })
  | none => s

/-- A prefetched line that leaves unused, or is wholly overwritten, before any demand access (R221). -/
def State.unusedPrefetch (s : State) (k : Nat) (l : GlazeLine) : State :=
  s.when l.prefetched (·.bump CNV_GLZ_PF_EVICTED_UNUSED.COUNT (keyCanvas k) 1)

/-- A resident line dropped without write-back. -/
def State.dropLine (s : State) (k : Nat) : State :=
  match s.line k with
  | some l => (((s.unusedPrefetch k l).setLine k none).dropData k 255).tackRefresh (keyCanvas k)
  | none => s

/-- A demand access to a prefetched line (R221). -/
def State.usePrefetch (s : State) (k : Nat) : State :=
  match s.line k with
  | some l => if l.prefetched then
      (s.setLine k (some { l with prefetched := false })).bump CNV_GLZ_PF_USEFUL.COUNT (keyCanvas k) 1 else s
  | none => s

/-! ### What an access does to a resident line -/

/-- The answer of an access: its code, its data and the state. -/
structure Ans where
  code : Code
  data : List Byte
  st   : State
deriving DecidableEq, Repr

/-- Whether a byte lies in the staging range of a load in progress (R183). -/
def State.staged (s : State) (a : Nat) : Bool :=
  decide (s.str.loader.phase ≠ .idle) && decide (s.str.loader.src ≤ a) && decide (a < s.str.loader.src + s.str.loader.len)

/-- Whether a word of the glaze is poisoned. -/
def State.wordBad (s : State) (w : Nat) : Bool := Tab.get s.glz.bad w false

/-- The poisoned words that a read of a range meets: in a sector just filled every word of the sector counts, in
another the words read (R509). -/
def State.badRead (s : State) (fresh : BitVec 8) (d n : Nat) : Bool :=
  (List.range 256).any (fun j =>
    let w := d / 2048 * 256 + j
    s.wordBad w && (secMask d n).getLsbD (j / 32) &&
      (fresh.getLsbD (j / 32) || (decide (d / 8 ≤ w) && decide (w ≤ (d + n - 1) / 8))))

/-- The code of a read that meets a poisoned word: the row's code in a sector just filled, MEM_GLAZE_UE else. -/
def State.readCode (s : State) (fresh : BitVec 8) (d n : Nat) : Code :=
  if s.badRead fresh d n then (if (fresh &&& secMask d n) ≠ 0 then s.rowCode (keyOf d) else 0x0111) else 0

/-- An uncorrectable glaze word met by a reader, in the log. -/
def State.logGlazeUe (s : State) (d : Dpa) (who : Nat) : State :=
  let k := keyOf d
  let way := match s.line k with | some l => l.way | none => 0
  s.eccLog (keyCanvas k) ⟨d, logGlaze, 2, 1, glazeLocation k way (d % 2048 / 8) 0, who, 0x0111⟩

/-- Bytes written into a resident line: bytes in the staging range stay as they are (R183), a poisoned word is
replaced only by a write of all of it (R510), sectors become VALID and DIRTY. -/
def State.putLine (s : State) (d : Dpa) (bs : List Byte) (who : Nat) : Ans :=
  let n := bs.length
  let k := keyOf d
  let staged := (List.range n).any (fun i => s.staged (d + i))
  let whole := fun w => decide (d ≤ w * 8) && decide (w * 8 + 8 ≤ d + n) && (List.range 8).all (fun j => !s.staged (w * 8 + j))
  let words := (List.range ((d + n - 1) / 8 - d / 8 + 1)).map (· + d / 8)
  let part := words.any (fun w => s.wordBad w && !whole w)
  let s1 := s.onGlz (fun g => { g with
    data := ((List.range n).zip bs).foldl (fun m p =>
      let a := d + p.1
      if s.staged a || (s.wordBad (a / 8) && !whole (a / 8)) then m else Tab.set m a p.2 0) g.data
    bad := setFlags g.bad (words.filter whole) false })
  let s2 := match s1.line k with
    | some l => s1.setLine k (some { l with valid := l.valid ||| secMask d n, dirty := l.dirty ||| secMask d n })
    | none => s1
  let s3 := s2.when staged (·.set1 SKT_STATUS.STAGING_WRITE 0)
  if part then
    let way := match s.line k with | some l => l.way | none => 0
    ⟨0x0114, [], s3.eccLog (keyCanvas k) ⟨d, logGlaze, 3, 1, glazeLocation k way (d % 2048 / 8) 0, who, 0x0114⟩⟩
  else ⟨0, [], s3⟩

/-- The new value of an atomic (the AMO row of the instruction table). -/
def atomicNew (op : AtomicOp) (old operand compare : Nat) (bits : Nat) : Nat :=
  match op with
  | .add => (old + operand) % 2 ^ bits
  | .swap => operand % 2 ^ bits
  | .cas => if old = compare % 2 ^ bits then operand % 2 ^ bits else old
  | .maxu => max old (operand % 2 ^ bits)

/-- A doorbell word touched by a performed write or atomic: TAIL takes bits [31:0] of the word (R269). -/
def State.ringBells (s : State) (d n : Nat) : State :=
  s.each (s.rung d n) (fun q t =>
    let w := t.rdN q.kind.fields.dbDpa q.n * 8
    t.qSetTail q (BitVec.ofNat 64 (leNat (getBytes t.glz.data w 4))))

/-- A turn of a line: element (r, c) goes to index 32 c + r (R249). -/
def turned (e : Nat) (bs : List Byte) : List Byte :=
  ((List.range (64 / e)).flatMap (fun c => (List.range 32).map (fun r => (bs.drop (64 * r + e * c)).take e))).flatten

/-- The FP32 sums of add-to-line (R241). -/
def addFp32Bytes : List Byte → List Byte → List Byte
  | a0 :: a1 :: a2 :: a3 :: as, b0 :: b1 :: b2 :: b3 :: bs =>
    leBytes 4 (fp32Add (leNat [a0, a1, a2, a3]) (leNat [b0, b1, b2, b3])).1 ++ addFp32Bytes as bs
  | _, _ => []

/-- One sector of containers combined (R242, R243): 21 containers of 12 B, the last 4 bytes zero; a fault names its
code. -/
def addEx96Sector (old add : List Byte) : Except Code (List Byte) :=
  let one := fun i =>
    match Exact.unpack (leField old (12 * i) 12), Exact.unpack (leField add (12 * i) 12) with
    | some a, some b => if a.g = b.g then Except.ok (leBytes 12 (a.combine b).pack) else Except.error (0x0803 : Code)
    | _, _ => Except.error (0x0805 : Code)
  ((List.range 21).foldl (fun (acc : Except Code (List Byte)) i =>
    match acc, one i with
    | .ok xs, .ok ys => .ok (xs ++ ys)
    | .error e, _ => .error e
    | _, .error e => .error e) (.ok [])).map (· ++ [0, 0, 0, 0])

/-- Each sector of an EXACT96 add: the bytes to store and the faults by sector offset; a faulted sector is left
unchanged. -/
def addEx96 (old add : List Byte) : Nat → List (Nat × Except Code (List Byte))
  | 0 => []
  | n + 1 => addEx96 old add n ++ [(256 * n, addEx96Sector ((old.drop (256 * n)).take 256) ((add.drop (256 * n)).take 256))]

/-- A fault of add-to-line captured in CNV_GLZ_ERR (R243). -/
def State.addFault (s : State) (d : Dpa) (code : Code) : State :=
  let c := d / 0x1000000000
  let s1 := s.set1 CNV_GLZ_STATUS.ADD_FAULT c
  if s1.on CNV_GLZ_ERR.VALID c then s1.set1 CNV_GLZ_ERR.OVERRUN c
  else ((s1.set1 CNV_GLZ_ERR.VALID c).wrN CNV_GLZ_ERR.DPA c d).wr CNV_GLZ_ERR.CODE c (codeVal code)

/-- What a request does on a line whose sectors it needs are VALID (R235, R236); fresh names the sectors that were
filled for it. -/
def State.applyAct (s : State) (fresh : BitVec 8) (j : MemJob) : Ans :=
  let d := j.req.dpa
  let n := j.req.len
  let who := endpointOf j.req.src
  let cur := getBytes s.glz.data d n
  let code := s.readCode fresh d n
  let fail := ⟨code, [], if code = 0x0111 then s.logGlazeUe d who else s⟩
  match j.act with
  | .prefetch => ⟨0, [], s⟩
  | .read => if code = 0 then ⟨0, cur, s⟩ else fail
  | .turn e => if code = 0 then ⟨0, turned e cur, s⟩ else fail
  | .write bs =>
    let a := s.putLine d bs who
    { a with st := a.st.ringBells d n }
  | .atomic op x cmp =>
    if code ≠ 0 then fail
    else if (List.range n).any (fun i => s.staged (d + i)) then ⟨0, cur, s.set1 SKT_STATUS.STAGING_WRITE 0⟩
    else
      let a := s.putLine d (leBytes n (atomicNew op (leNat cur) x.toNat cmp.toNat (8 * n))) who
      ⟨0, cur, a.st.ringBells d n⟩
  | .addFp32 bs =>
    if code ≠ 0 then fail
    else
      let a := s.putLine d (addFp32Bytes cur bs) who
      { a with st := (a.st.bump CNV_GLZ_ADDL_SECTORS.COUNT (d / 0x1000000000) (n / 256)).ringBells d n }
  | .addEx96 bs =>
    if code ≠ 0 then fail
    else
      let rs := addEx96 cur bs (n / 256)
      let t := s.each rs (fun r t => match r.2 with
        | .ok ys => (t.putLine (d + r.1) ys who).st
        | .error e => t.addFault (d + r.1) e)
      let e := (rs.filterMap (fun r => match r.2 with | .error e => some e | .ok _ => none)).getD 0 0
      ⟨e, [], (t.bump CNV_GLZ_ADDL_SECTORS.COUNT (d / 0x1000000000)
        (rs.filter (fun r => match r.2 with | .ok _ => true | .error _ => false)).length).ringBells d n⟩

/-! ### Checks, tacking, ways and slots -/

/-- Whether a request is a whole-sector write (R235). -/
def MemJob.wholeWrite (j : MemJob) : Bool :=
  match j.act with
  | .write _ => decide (j.req.dpa % 256 = 0) && decide (j.req.len % 256 = 0) && decide (j.req.len > 0)
  | _ => false

/-- Whether a request reads, for the hit and miss counters. -/
def MemJob.reads (j : MemJob) : Bool :=
  match j.act with
  | .read => true
  | .turn _ => true
  | _ => false

/-- The alignment rules of the slice (R240, R249, R258). -/
def MemJob.alignOk (j : MemJob) : Bool :=
  let d := j.req.dpa
  let n := j.req.len
  match j.act with
  | .turn e => decide (d % 2048 = 0) && decide (n = 2048) && (e == 1 || e == 2 || e == 4)
  | .atomic _ _ _ => (n == 4 || n == 8) && decide (d % n = 0)
  | .addFp32 bs => decide (d % 256 = 0) && decide (n % 256 = 0) && decide (n > 0) && decide (bs.length = n)
  | .addEx96 bs => decide (d % 256 = 0) && decide (n % 256 = 0) && decide (n > 0) && decide (bs.length = n)
  | .write bs => decide (bs.length = n) && decide (n > 0)
  | _ => true

/-- Whether a line lies in an enabled tack range (R245, R247). -/
def State.inTackRange (s : State) (k : Nat) : Bool :=
  (List.range 64).any (fun e =>
    let i := keyCanvas k * 64 + e
    s.on CNV_GLZ_TACK_RANGE.ENABLE i && decide (s.rdN CNV_GLZ_TACK_RANGE.BASE_LINE i ≤ keyLine k) &&
      decide (keyLine k < s.rdN CNV_GLZ_TACK_RANGE.BASE_LINE i + s.rdN CNV_GLZ_TACK_RANGE.LINES i))

/-- Whether the limits of R246 allow one more TACKED line in the set of a line. -/
def State.tackAllowed (s : State) (k : Nat) : Bool :=
  decide (s.tackCount (keyCanvas k) < min 262144 (s.rdN CNV_GLZ_TACK_BUDGET.BUDGET (keyCanvas k))) &&
    decide (((s.setLines k).filter (fun e => e.2.tacked)).length < 8)

/-- Whether a line must be tacked before the access proceeds: it lies in an enabled range and is not TACKED. -/
def State.wantsTack (s : State) (k : Nat) : Bool :=
  s.inTackRange k && !(match s.line k with | some l => l.tacked | none => false)

/-- A resident line tacked (R247). -/
def State.tack (s : State) (k : Nat) : State :=
  match s.line k with
  | some l => (s.setLine k (some { l with tacked := true })).tackRefresh (keyCanvas k)
  | none => s

/-- The number of victims in the slice of a line. -/
def State.victimsIn (s : State) (k : Nat) : Nat :=
  (s.glz.victims.filter (fun (e : Nat × Option Victim) =>
    e.2.isSome && decide (keyCanvas e.1 = keyCanvas k) && decide (e.1 % 16 = k % 16))).length

/-- A line evicted: its DIRTY sectors wait in the victim buffer (R234). -/
def State.evict (s : State) (k : Nat) (l : GlazeLine) : State :=
  let s1 := (s.unusedPrefetch k l).setLine k none
  if l.dirty = 0 then s1.dropData k 255
  else (s1.dropData k (~~~l.dirty)).setVictim k (some ⟨l.dirty, s.now, 0⟩)

/-- A way for a line: a free one, or a victim among the ways that are neither TACKED, nor filling, nor held, the one
that the slice's pseudo-LRU chose where it qualifies (R233). None where no way qualifies or the victim buffer is
full. -/
def State.getWay (s : State) (k choice : Nat) : Option (Nat × State) :=
  let ls := s.setLines k
  match (List.range 16).find? (fun w => ls.all (fun e => e.2.way != w)) with
  | some w => some (w, s)
  | none =>
    let ok := ls.filter (fun e => !e.2.tacked && (s.slot e.1).isNone && !s.lineHeld e.1)
    match (match ok.find? (fun e => e.2.way == choice) with | some e => some e | none => ok.head?) with
    | none => none
    | some e => if e.2.dirty ≠ 0 ∧ s.victimsIn k ≥ 64 then none else some (e.2.way, s.evict e.1 e.2)

/-- Why a miss may not take a slot now (R164, R217). -/
inductive SlotBar where
  | free | bank | other
deriving DecidableEq, Repr

/-- Whether a miss may take a slot. -/
def State.slotBar (s : State) (k : Nat) (part : Option Nat) (wash : Bool) : SlotBar :=
  let c := keyCanvas k
  let all := s.slotsOf c
  if (all.filter (fun e => s.bankOf e.1 == s.bankOf k)).length ≥ 64 then .bank
  else if all.length ≥ 4096 then .other
  else match part with
    | some p => if wash && decide ((all.filter (fun e => e.2.wash == some p)).length ≥ s.rdN CNV_STM_WASH.FILLS p) then .other else .free
    | none => .free

/-- The wash mark of a slot. -/
def MemJob.washMark (j : MemJob) : Option Nat := if j.req.wash then j.req.part else none

/-- A response sent to a requester. -/
def State.respond (s : State) (j : MemJob) (code : Code) (data : List Byte) : State :=
  match j.act with
  | .prefetch => s
  | _ => s.send (.memory j.req code data)

/-- A request answered from what it did. -/
def State.answer (j : MemJob) (a : Ans) : State := a.st.respond j a.code a.data

/-- The counters of a request that hits, misses or merges (R221 and the glaze counters). -/
def State.countRead (s : State) (j : MemJob) (hit : Bool) : State :=
  let c := j.req.dpa / 0x1000000000
  let s1 := s.when j.reads (fun t => if hit then t.bump CNV_GLZ_READ_HIT.COUNT c 1 else t.bump CNV_GLZ_READ_MISS.COUNT c 1)
  match j.act with
  | .turn _ => s1.bump CNV_GLZ_TURN_LINES.COUNT c 1
  | _ => s1

/-- One prefetch: it takes a slot at once or is discarded (R220). -/
def State.prefetchLine (s : State) (k : Nat) (r : MemReq) : State :=
  let c := keyCanvas k
  let held := ((s.slotsOf c).filter (fun e => e.2.prefetch)).length
  if !s.lineExists c (keyLine k) || (s.line k).isSome || (s.slot k).isSome || (s.victim k).isSome || s.lineHeld k || s.inTackRange k ||
      decide (s.slotBar k r.part r.wash ≠ .free) || decide (held ≥ min 1024 (s.rdN CNV_GLZ_PF_CTL.PF_SLOTS c)) then s
  else
    match s.getWay k r.victim with
    | none => s
    | some (w, t) =>
      ((t.setLine k (some ⟨w, 0, 0, false, false⟩)).setSlot k (some ⟨[], true, if r.wash then r.part else none, false⟩)).bump
        CNV_GLZ_PF_ISSUED.COUNT c 1

/-- A demand miss as the sequential prefetcher sees it: after two consecutive ascending lines it fetches the next
DEPTH lines (R220). -/
def State.noteMiss (s : State) (k : Nat) (r : MemReq) : State :=
  match missKey r.src with
  | none => s
  | some q =>
    if r.wash then s else
    let c := keyCanvas k
    let last := Tab.get s.glz.misses q none
    let s1 := s.onGlz (fun g => { g with misses := Tab.set g.misses q (some k) none })
    if s.on CNV_GLZ_PF_CTL.ENABLE c && decide (last = some (k - 1)) && decide (k ≥ 1) then
      s1.each (List.range (max 1 (s.rdN CNV_GLZ_PF_CTL.DEPTH c))) (fun i t =>
        if keyLine k + i + 1 < 0x2000000 then t.prefetchLine (k + i + 1) r else t)
    else s1

/-- A request put off: it waits at issue and holds no slot; under the bank limit it is counted once (R217, R219). -/
def State.putOff (s : State) (j : MemJob) (bank : Bool) : State :=
  (s.onGlz (fun g => { g with waiting := g.waiting ++ [j] })).when bank (·.bump CNV_GLZ_BANK_HOTSPOT.COUNT (j.req.dpa / 0x1000000000) 1)

/-- The outcome of a request at its slice: answered, or waiting there (for a fill, a slot, a way, a write-back or a
hold), or put off at issue. -/
inductive Arrived where
  | done (a : Ans)
  | merged (s : State)
  | off (bank : Bool)
deriving DecidableEq, Repr

/-- A request merges onto the fill in flight (R216, R221, R236). -/
def State.merge (s : State) (k : Nat) (f : FillSlot) (j : MemJob) : State :=
  let c := keyCanvas k
  let demand := match j.act with | .prefetch => false | _ => true
  let s1 := (s.countRead j false).when (f.prefetch && demand)
    (fun t => (t.bump CNV_GLZ_PF_USEFUL.COUNT c 1).bump CNV_GLZ_PF_LATE.COUNT c 1)
  let s2 := s1.setSlot k (some { f with jobs := f.jobs ++ [j], prefetch := f.prefetch && !demand })
  s2.when (j.reads && demand) (·.noteMiss k j.req)

/-- The sectors that a request needs VALID before it can be applied on a present line. -/
def MemJob.needs (j : MemJob) : BitVec 8 := if j.wholeWrite then 0 else secMask j.req.dpa j.req.len

/-- The clean sectors that hold a poisoned word which the request would meet: they are refetched (R509). -/
def State.refetch (s : State) (k : Nat) (l : GlazeLine) (j : MemJob) : BitVec 8 :=
  if j.wholeWrite then 0 else
  BitVec.ofNat 8 ((secs (secMask j.req.dpa j.req.len &&& l.valid &&& ~~~l.dirty)).foldl (fun v i =>
    if (List.range 32).any (fun w => s.wordBad (lineDpa (keyCanvas k) (keyLine k) / 8 + 32 * i + w)) then v + 2 ^ i else v) 0)

/-- The overflow access of an untackable line (R247): the resident copy is written back and invalidated, and the
access is counted. -/
def State.overflow (s : State) (k : Nat) : State :=
  ((s.cleanLine k).dropLine k |>.bump CNV_GLZ_TACK_OVF.COUNT (keyCanvas k) 1).set1 CNV_GLZ_STATUS.TACK_OVERFLOW (keyCanvas k)

/-- A request on a line that stands in no other request's way: present or absent, tacked or not (R235). -/
def State.arriveLine (s : State) (k : Nat) (j : MemJob) : Arrived :=
  let c := keyCanvas k
  let slotFor := fun (t : State) (ovf : Bool) =>
    Arrived.merged (((t.countRead j false).setSlot k (some ⟨[j], false, j.washMark, ovf⟩)).when j.reads (·.noteMiss k j.req))
  if s.wantsTack k && !s.tackAllowed k then
    -- an overflow access
    let t := s.overflow k
    if j.wholeWrite then
      -- the masked sectors go straight to the row: a line present for the moment, written back and dropped
      let t1 := t.setLine k (some ⟨16, 0, 0, false, false⟩)
      let a := t1.applyAct 0 j
      .done { a with st := (a.st.cleanLine k).dropLine k }
    else
      match s.slotBar k j.req.part j.req.wash with
      | .bank => .off true
      | .other => .off false
      | .free => slotFor t true
  else
    match s.line k with
    | some l =>
      let t0 := if s.wantsTack k then s.tack k else s
      let re := t0.refetch k l j
      let t1 := if re = 0 then t0 else
        ((t0.setLine k ((t0.line k).map (fun l => { l with valid := l.valid &&& ~~~re }))).dropData k re).bump
          CNV_ECC_UE_REFETCH.COUNT c (secs re).length
      let valid := l.valid &&& ~~~re
      if j.needs &&& ~~~valid = 0 then
        let t2 := if j.wholeWrite && decide (j.req.len = 2048) && l.prefetched then
          (t1.unusedPrefetch k l).setLine k ((t1.line k).map (fun l => { l with prefetched := false })) else t1.usePrefetch k
        .done ((t2.countRead j true).applyAct 0 j)
      else
        match s.slotBar k j.req.part j.req.wash with
        | .bank => .off true
        | .other => .off false
        | .free => slotFor (t1.usePrefetch k) false
    | none =>
      if j.wholeWrite then
        match s.getWay k j.req.victim with
        | none => .off false
        | some (w, t) =>
          let t1 := t.setLine k (some ⟨w, 0, 0, false, false⟩)
          .done ((if s.wantsTack k then t1.tack k else t1).applyAct 0 j)
      else
        match s.slotBar k j.req.part j.req.wash, s.getWay k j.req.victim with
        | .bank, _ => .off true
        | .other, _ => .off false
        | .free, none => .off false
        | .free, some (w, t) =>
          let t1 := t.setLine k (some ⟨w, 0, 0, false, false⟩)
          slotFor (if s.wantsTack k then t1.tack k else t1) false

/-! ### The host window (R538, R546, R547) -/

/-- The host address of a host-window DPA and its No Snoop attribute; none where the segment is not VALID. -/
def State.hostAddr (s : State) (d : Dpa) : Option (Nat × Bool) :=
  let o := d - 0xC000000000
  let g := o / 4294967296
  if s.on HUB_HWIN_SEG.VALID g then some (s.rdN HUB_HWIN_SEG.HOST_BASE g * 4096 + o % 4294967296, s.on HUB_HWIN_SEG.NOSNOOP g) else none

/-- An error of the host interface captured in GLB_HOST_ERR. -/
def State.hostErr (s : State) (source addr : Nat) (code : Code) : State :=
  if s.on GLB_HOST_ERR.VALID 0 then s.set1 GLB_HOST_ERR.OVERRUN 0
  else (((s.set1 GLB_HOST_ERR.VALID 0).wrN GLB_HOST_ERR.ADDRESS 0 addr).wrN GLB_HOST_ERR.SOURCE 0 source).wr GLB_HOST_ERR.CODE 0 (codeVal code)

/-- The code with which a host-window request is refused before it is sent. -/
def State.hostRefusal (s : State) (d : Dpa) : Option Code :=
  if !s.host.busMaster || s.host.d3hot then some 0x0309
  else if (s.hostAddr d).isNone then some 0x0101
  else none

/-- A host-window request that is refused before it is sent: CODE of GLB_HOST_ERR can hold MEM_UNPOPULATED for the host
window, so the refusal of R546 sets HWIN_ERR and is captured (DEDUCED); that of R538 is only answered. -/
def State.hostRefuse (s : State) (d : Dpa) (e : Code) : State :=
  if e = 0x0101 then (s.set1 GLB_HOST_STATUS.HWIN_ERR 0).hostErr 3 d e else s

/-- A host-window write: posted, so it completes when it is sent (R548). -/
def State.hostWrite (s : State) (d : Dpa) (bs : List Byte) : Code × State :=
  match s.hostRefusal d, s.hostAddr d with
  | some e, _ => (e, s.hostRefuse d e)
  | none, some (a, ns) => (0, s.send (.hostWrite a bs ns))
  | none, none => (0x0101, s)

/-- The reply to a host-window read, if it has come. -/
def State.hostReply (s : State) (src : Requester) (tag : Nat) (d : Dpa) : Option HostReply :=
  s.host.replies.find? (fun r => decide (r.src = src) && r.tag == tag && r.dpa == d)

/-- Whether a host-window read is outstanding. -/
def State.hostPending (s : State) (src : Requester) (tag : Nat) (d : Dpa) : Bool :=
  s.host.reads.any (fun (e : Nat × Option HostRead) => match e.2 with
    | some r => decide (r.src = src) && r.tag == tag && r.dpa == d
    | none => false)

/-- A host-window read sent, unless it is outstanding already or 4,096 reads are (R536). -/
def State.hostSend (s : State) (src : Requester) (tag : Nat) (d : Dpa) (n : Nat) : State :=
  if s.hostPending src tag d || decide (s.host.reads.length ≥ 4096) then s
  else match s.hostAddr d with
    | some (a, ns) =>
      let h := s.host
      ({ s with host := { h with reads := Tab.set h.reads h.nextRead (some ⟨src, tag, d, n, s.now⟩) none, nextRead := h.nextRead + 1 } }).send
        (.hostRead h.nextRead a n ns)
    | none => s

/-! ### Requests at their targets -/

/-- A request at its home slice: refused islands and missing lines answer with their code; a held line keeps it; a
line in the victim buffer makes it wait; a fill in flight takes it in; wells and the host window are reached directly
(R225, R228, R229, R234 to R236, R251, R258, R276, R546). -/
def State.arrive (s : State) (j : MemJob) : Arrived :=
  match targetOf j.req.dpa with
  | .gesso c o =>
    let l := o / 2048
    let k := lineKey c l
    if !s.lineExists c l then .done ⟨0x0101, [], s⟩
    else if !j.alignOk then .done ⟨0x0103, [], s⟩
    else match s.refusal (glazeIsland c l) with
      | some e => .done ⟨e, [], s⟩
      | none =>
        match Tab.get s.glz.held k none with
        | some js => .merged (s.onGlz (fun g => { g with held := Tab.set g.held k (some (js ++ [j])) none }))
        | none =>
          if (s.victim k).isSome then .off false
          else match s.slot k with
            | some f =>
              if f.overflow then
                .merged (((s.merge k f j).bump CNV_GLZ_TACK_OVF.COUNT c 1).set1 CNV_GLZ_STATUS.TACK_OVERFLOW c)
              else if s.wantsTack k && s.tackAllowed k then .merged ((s.tack k).merge k f j)
              else if s.wantsTack k then
                .merged (((s.merge k { f with overflow := true } j).bump CNV_GLZ_TACK_OVF.COUNT c 1).set1 CNV_GLZ_STATUS.TACK_OVERFLOW c)
              else .merged (s.merge k f j)
            | none => s.arriveLine k j
  | .well p o =>
    match j.act with
    | .read =>
      match s.refusal (panelIsland p), s.wellRead j.req.dpa j.req.len with
      | some e, _ => .done ⟨e, [], s⟩
      | none, some bs => .done ⟨0, bs, s⟩
      | none, none => .done ⟨0x0110, [], s.eccLog (p / 256) ⟨j.req.dpa, logWell, 2, 1,
          BitVec.ofNat 64 ((p / 256 * 4096 + p % 256) * 2 ^ 48 + o / 8 % 2 ^ 18 * 2 ^ 30), endpointOf j.req.src, 0x0110⟩⟩
    | .write bs =>
      match s.refusal (panelIsland p) with
      | some e => .done ⟨e, [], s⟩
      | none =>
        let t := (List.range bs.length).any (fun i => s.staged (j.req.dpa + i))
        let bs' := ((List.range bs.length).zip bs).filter (fun q => !s.staged (j.req.dpa + q.1))
        let s1 := if t then (bs'.foldl (fun u q => u.wellWrite (j.req.dpa + q.1) [q.2]) s).set1 SKT_STATUS.STAGING_WRITE 0
          else s.wellWrite j.req.dpa bs
        if s.wellPartial j.req.dpa bs.length then
          .done ⟨0x0114, [], s1.eccLog (p / 256) ⟨j.req.dpa, logWell, 3, 1,
            BitVec.ofNat 64 ((p / 256 * 4096 + p % 256) * 2 ^ 48 + o / 8 % 2 ^ 18 * 2 ^ 30), endpointOf j.req.src, 0x0114⟩⟩
        else .done ⟨0, [], s1⟩
    | _ => .done ⟨0x0102, [], s⟩
  | .host _ =>
    match j.act with
    | .read =>
      match s.hostRefusal j.req.dpa, s.hostReply j.req.src j.req.tag j.req.dpa with
      | some e, _ => .done ⟨e, [], s.hostRefuse j.req.dpa e⟩
      | none, some r => .done ⟨r.code, r.data, { s with host := { s.host with replies := s.host.replies.erase r } }⟩
      | none, none => .merged (s.hostSend j.req.src j.req.tag j.req.dpa j.req.len)
    | .write bs => let r := s.hostWrite j.req.dpa bs; .done ⟨r.1, [], r.2⟩
    | _ => .done ⟨0x0102, [], s⟩
  | .nowhere => .done ⟨0x0101, [], s⟩

/-- A request arrives: it is answered, waits at the slice, or waits at issue. -/
def State.request (s : State) (j : MemJob) : State :=
  match s.arrive j with
  | .done a => State.answer j a
  | .merged t => t
  | .off bank => s.putOff j bank

/-! ### Fills -/

/-- The jobs of a slot applied in arrival order to the filled line, each answered (R236). -/
def State.deliverJobs (s : State) (fresh : BitVec 8) (js : List MemJob) : State :=
  s.each js (fun j t => State.answer j (t.applyAct fresh j))

/-- A fill is delivered: the invalid sectors are filled from the row, the merged requests applied in order, the slot
released; of an overflow line nothing stays (R216, R235, R236, R247). -/
def State.deliver (s : State) (k : Nat) (ups : List Upset) : State :=
  match s.slot k with
  | none => s
  | some f =>
    let c := keyCanvas k
    match s.refusal (gessoIsland c (keyLine k)) with
    | some e =>
      let t := (s.each f.jobs (fun j t => t.respond j e [])).setSlot k none
      match t.line k with
      | some l => if l.valid = 0 then t.dropLine k else t
      | none => t
    | none =>
      let who := match f.jobs with | j :: _ => endpointOf j.req.src | [] => 0
      let s1 := if (s.line k).isSome then s else s.setLine k (some ⟨16, 0, 0, false, false⟩)
      let valid := match s1.line k with | some l => l.valid | none => 0
      let s2 := ((s1.rowUpsets k 1 who ups).fillSectors k (~~~valid) 1 who).setSlot k none
      let s3 := s2.deliverJobs (~~~valid) f.jobs
      if f.overflow then (s3.cleanLine k).dropLine k
      else if f.prefetch then s3.setLine k ((s3.line k).map (fun l => { l with prefetched := true }))
      else s3

/-- A victim's write-back performed in the gesso (R234). -/
def State.writeVictim (s : State) (k : Nat) (v : Victim) : State :=
  ((s.writeBack k v.dirty).setVictim k none).dropData k 255

/-- A whole command's access, made in one step: a fill in flight and a write-back of the line end first, the line
is filled where it must be, and the answer comes at once. None where the line is held, no way is free, or the
gesso cannot take a write-back. -/
def State.accessLine (s : State) (j : MemJob) : Option Ans :=
  let k := keyOf j.req.dpa
  match targetOf j.req.dpa with
  | .gesso c o =>
    let active := (s.refusal (gessoIsland c (o / 2048))).isNone
    let s0 := match s.victim k with | some v => if active then s.writeVictim k v else s | none => s
    let s1 := if (s0.slot k).isSome then s0.deliver k [] else s0
    if s1.lineHeld k || (s1.victim k).isSome then none
    else match s1.arrive j with
      | .done a => some a
      | .off _ => none
      | .merged t =>
        match t.slot k, s.refusal (gessoIsland c (o / 2048)) with
        | some _, some e =>
          let u := t.setSlot k none
          some ⟨e, [], match u.line k with | some l => if l.valid = 0 then u.dropLine k else u | none => u⟩
        | some f, none =>
          let valid := match t.line k with | some l => l.valid | none => 0
          let t1 := if (t.line k).isSome then t else t.setLine k (some ⟨16, 0, 0, false, false⟩)
          let t2 := (t1.fillSectors k (~~~valid) 1 (endpointOf j.req.src)).setSlot k none
          let a := t2.applyAct (~~~valid) j
          some (if f.overflow then { a with st := (a.st.cleanLine k).dropLine k } else a)
        | none, _ => none
  | _ =>
    match s.arrive j with
    | .done a => some a
    | _ => none

/-! ### Accesses made of several requests -/

/-- The outcome of an access made by a command: done with a code and its data, or waiting (for the host, or for a
line that is held), with the state in which its requests are outstanding. -/
inductive Acc where
  | done (code : Code) (data : List Byte) (s : State)
  | wait (s : State)
deriving DecidableEq, Repr

/-- Who makes an access, and on whose behalf. -/
structure Agent where
  src  : Requester
  tag  : Nat
  part : Option Nat
  wash : Bool
deriving DecidableEq, Repr

/-- One request of an access. -/
def State.access1 (s : State) (ag : Agent) (d n : Nat) (act : MemAct) : Acc :=
  match targetOf d, act with
  | .host _, .read =>
    match s.hostRefusal d with
    | some e => .done e [] (s.hostRefuse d e)
    | none =>
      match s.hostReply ag.src ag.tag d with
      | some r => .done r.code r.data { s with host := { s.host with replies := s.host.replies.erase r } }
      | none => .wait (s.hostSend ag.src ag.tag d n)
  | .host _, .write bs => let r := s.hostWrite d bs; .done r.1 [] r.2
  | .host _, _ => .done 0x0102 [] s
  | _, _ =>
    match s.accessLine ⟨⟨ag.src, ag.tag, d, n, ag.part, ag.wash, 0⟩, act⟩ with
    | some a => .done a.code a.data a.st
    | none => .wait s

/-- The pieces of a range that lie each within one aligned block of b bytes. -/
def piecesOf (b : Nat) : Nat → Nat → Nat → List (Nat × Nat)
  | 0, _, _ => []
  | f + 1, d, n => if n = 0 then [] else
      let m := min n (b - d % b)
      (d, m) :: piecesOf b f (d + m) (n - m)

/-- The requests of at most 256 B that a range is split into. -/
def sectorsOf (d n : Nat) : List (Nat × Nat) := piecesOf 256 (n / 256 + 2) d n

/-- A read of a range, request by request; the code is that of the failed request whose first byte lies lowest
(R619). Where a request of the host window is outstanding every other one is sent too, and the access waits; nothing else of
a waiting access stays, for it is made again. -/
def State.readRange (s : State) (ag : Agent) (d n : Nat) : Acc :=
  (sectorsOf d n).foldl (fun acc p =>
    match acc with
    | .wait t => match targetOf p.1 with
      | .host _ => if (t.hostReply ag.src ag.tag p.1).isSome || (t.hostRefusal p.1).isSome then .wait t
          else .wait (t.hostSend ag.src ag.tag p.1 p.2)
      | _ => .wait t
    | .done c xs t =>
      match t.access1 ag p.1 p.2 .read with
      | .done c' ys u => .done (if c = 0 then c' else c) (xs ++ (if c' = 0 then ys else List.replicate p.2 0)) u
      | .wait _ => .wait (match targetOf p.1 with | .host _ => s.hostSend ag.src ag.tag p.1 p.2 | _ => s)) (.done 0 [] s)

/-- A write of a range, request by request (R619). -/
def State.writeRange (s : State) (ag : Agent) (d : Nat) (bs : List Byte) : Acc :=
  (sectorsOf d bs.length).foldl (fun acc p =>
    match acc with
    | .wait t => .wait t
    | .done c _ t =>
      match t.access1 ag p.1 p.2 (.write ((bs.drop (p.1 - d)).take p.2)) with
      | .done c' _ u => .done (if c = 0 then c' else c) [] u
      | .wait u => .wait u) (.done 0 [] s)

/-- An add-to-line of a range, sector by sector. -/
def State.addRange (s : State) (ag : Agent) (ex96 : Bool) (d : Nat) (bs : List Byte) : Acc :=
  (sectorsOf d bs.length).foldl (fun acc p =>
    match acc with
    | .wait t => .wait t
    | .done c _ t =>
      let part := (bs.drop (p.1 - d)).take p.2
      match t.access1 ag p.1 p.2 (if ex96 then .addEx96 part else .addFp32 part) with
      | .done c' _ u => .done (if c = 0 then c' else c) [] u
      | .wait u => .wait u) (.done 0 [] s)

end Sys2Proof.Machine
end

