-- ==== Sys2Proof/Machine/Glaze.lean ====
section
/-! DEFINITION. The commands of the glaze, the fill slots, the read-only caches and gesso refresh (chapters 06 and
07). -/

namespace Sys2Proof.Machine

/-- Upsets of glaze words met by a read that hits: a correctable one is counted and logged, an uncorrectable one
poisons the word (R507, R509). The number is that of the word in the line. -/
def State.glazeUpsets (s : State) (k who : Nat) (ups : List Upset) : State :=
  match s.line k with
  | none => s
  | some l => s.each ups (fun u t =>
      if l.valid.getLsbD (u.offset / 32) && decide (u.offset < 256) then
        if u.correctable then t.eccLog (keyCanvas k) ⟨lineDpa (keyCanvas k) (keyLine k) + 8 * u.offset, logGlaze, 1, 1,
          glazeLocation k l.way u.offset u.detail, who, 0⟩
        else t.onGlz (fun g => { g with bad := setFlags g.bad [lineDpa (keyCanvas k) (keyLine k) / 8 + u.offset] true })
      else t)

/-- Upsets of well words met by a read of a range: the number counts words from the word of the first byte. -/
def State.wellUpsets (s : State) (p d : Nat) (who : Nat) (ups : List Upset) : State :=
  s.each ups (fun u t =>
    let a := (d / 8 + u.offset) * 8
    if u.correctable then t.eccLog (p / 256) ⟨a, logWell, 1, 1,
      BitVec.ofNat 64 ((p / 256 * 4096 + p % 256) * 2 ^ 48 + (a % 0x200000 / 8) % 2 ^ 18 * 2 ^ 30 + u.detail % 128 * 2 ^ 23), who, 0⟩
    else { t with mem := memEraseRange t.mem a 8 })

/-- The upsets of a read, in the memory that it hits. -/
def State.upsets (s : State) (req : MemReq) (ups : List Upset) : State :=
  match targetOf req.dpa with
  | .gesso _ _ => s.glazeUpsets (keyOf req.dpa) (endpointOf req.src) ups
  | .well p _ => s.wellUpsets p req.dpa (endpointOf req.src) ups
  | _ => s

/-- Whether a request lies within one line; the requesters split larger accesses (R235, R544). -/
def reqInLine (r : MemReq) : Bool := decide (r.len > 0) && decide (r.dpa % 2048 + r.len ≤ 2048)

/-- SLICE_READ (R235): a read, LDNC or cache fill at its home slice. -/
def execSliceRead (req : MemReq) (upsets : List Upset) (s : State) : Res :=
  .next (if reqInLine req then (s.upsets req upsets).request ⟨req, .read⟩ else s)

/-- The store of a sequencer that a request carries leaves its core's store buffer (R210). -/
def State.popStore (s : State) (req : MemReq) (data : List Byte) : State :=
  match req.src with
  | .seq k =>
    let core := Tab.get s.seq.cores k SeqCore.empty
    match core.stores.find? (fun e => e.dpa == req.dpa && decide (e.bytes = data)) with
    | some e => { s with seq := { s.seq with cores := Tab.set s.seq.cores k { core with stores := core.stores.erase e } SeqCore.empty } }
    | none => s
  | _ => s

/-- SLICE_WHOLE_WRITE (R235): a write of whole sectors at its home slice. -/
def execSliceWholeWrite (req : MemReq) (data : List Byte) (s : State) : Res :=
  .next (if reqInLine req && (MemJob.mk req (.write data)).wholeWrite then (s.popStore req data).request ⟨req, .write data⟩ else s)

/-- SLICE_PARTIAL_WRITE (R235): any other write at its home slice. -/
def execSlicePartialWrite (req : MemReq) (data : List Byte) (s : State) : Res :=
  .next (if reqInLine req && !(MemJob.mk req (.write data)).wholeWrite then (s.popStore req data).request ⟨req, .write data⟩ else s)

/-- SLICE_ATOMIC (R235): an atomic at its home slice. -/
def execSliceAtomic (req : MemReq) (op : AtomicOp) (operand compare : Val) (s : State) : Res :=
  .next (if reqInLine req then s.request ⟨req, .atomic op operand compare⟩ else s)

/-- ADD_TO_LINE_FP32 (R241): an FP32 add-to-line at its home slice. -/
def execAddToLineFp32 (req : MemReq) (data : List Byte) (s : State) : Res :=
  .next (if reqInLine req then s.request ⟨req, .addFp32 data⟩ else s)

/-- ADD_TO_LINE_EX96 (R243): an EXACT96 add-to-line at its home slice. -/
def execAddToLineEx96 (req : MemReq) (data : List Byte) (s : State) : Res :=
  .next (if reqInLine req then s.request ⟨req, .addEx96 data⟩ else s)

/-- TURN_READ (R249): a turn read at its home slice. -/
def execTurnRead (req : MemReq) (esize : Nat) (s : State) : Res :=
  .next (if reqInLine req || decide (req.len = 2048) then s.request ⟨req, .turn esize⟩ else s)

/-- Whether the bank of a row is being refreshed: an access to it waits (R253). -/
def State.refreshing (s : State) (k : Nat) : Bool :=
  match Tab.get s.gso.refresh (keyCanvas k * 32 + (s.rowPlace k).2.1) none with
  | some e => decide (s.now < e)
  | none => false

/-- WRITEBACK_DONE (R234): a write-back is performed in the gesso and the line leaves the victim buffer. It waits
for the gesso island and for the bank's refresh. -/
def execWritebackDone (canvas line : Nat) (s : State) : Res :=
  let k := lineKey canvas line
  .next (match s.victim k with
    | some v => if (s.refusal (gessoIsland canvas line)).isNone && !s.refreshing k then s.writeVictim k v else s
    | none => s)

/-- WRITEBACK_RETRY (R620): a write-back that the gesso island refused is tried again; it is never given up. -/
def execWritebackRetry (canvas line : Nat) (s : State) : Res :=
  let k := lineKey canvas line
  .next (match s.victim k with
    | some v =>
      if (s.refusal (gessoIsland canvas line)).isNone then s.writeVictim k v
      else if v.tries = 0 then s.setVictim k (some { v with first := s.now, tries := 1 })
      else if retryDue v.first (v.tries - 1) ≤ s.now then s.setVictim k (some { v with tries := v.tries + 1 })
      else s
    | none => s)

/-- A FLUSH command begins (R239): its range is kept until every write-back of it is performed. -/
def State.flushStart (s : State) (c lines : Nat) (op : Val) : State :=
  s.woRun CNV_GLZ_FLUSH_CMD.OP c (op <<< 30 ||| BitVec.ofNat 64 (lines % 0x2000000)) (s.on CNV_GLZ_STATUS.FLUSH_BUSY c) (fun t =>
    let f : Flush := ⟨t.rdN CNV_GLZ_FLUSH_BASE.BASE_LINE c, lines % 0x2000000, decide (op = 2)⟩
    (t.onGlz (fun g => { g with flush := Tab.set g.flush c (some f) none })).set1 CNV_GLZ_STATUS.FLUSH_BUSY c)

/-- FLUSH_WRITE_BACK (R239): the command WRITE_BACK of CNV_GLZ_FLUSH_CMD. -/
def execFlushWriteBack (canvas lines : Nat) (s : State) : Res := .next (s.flushStart canvas lines 1)

/-- FLUSH_INVALIDATE (R239): the command INVALIDATE of CNV_GLZ_FLUSH_CMD. -/
def execFlushInvalidate (canvas lines : Nat) (s : State) : Res := .next (s.flushStart canvas lines 2)

/-- Whether a line lies in a flush range. -/
def Flush.covers (f : Flush) (c k : Nat) : Bool :=
  decide (keyCanvas k = c) && (f.lines == 0 || (decide (f.base ≤ keyLine k) && decide (keyLine k < f.base + f.lines)))

/-- FLUSH_DONE (R239): every write-back of the flush is performed; FLUSH_BUSY clears and FLUSH_DONE is set. While a
gesso island of the range refuses, the flush stays busy. -/
def execFlushDone (canvas : Nat) (s : State) : Res :=
  .next (match Tab.get s.glz.flush canvas none with
    | none => s
    | some f =>
      let vs := s.glz.victims.filterMap (fun (e : Nat × Option Victim) => if f.covers canvas e.1 then e.2.map (fun v => (e.1, v)) else none)
      let ls := s.glz.lines.filterMap (fun (e : Nat × Option GlazeLine) => if f.covers canvas e.1 then e.2.map (fun l => (e.1, l)) else none)
      if (vs.map Prod.fst ++ (ls.filter (fun e => e.2.dirty != 0)).map Prod.fst).any (fun k =>
          (s.refusal (gessoIsland canvas (keyLine k))).isSome || s.refreshing k) then s
      else
        let s1 := s.each vs (fun e t => t.writeVictim e.1 e.2)
        let s2 := s1.each ls (fun e t => t.cleanLine e.1)
        let s3 := s2.when f.inv (fun t => t.each ls (fun e u =>
          if e.2.tacked || (u.slot e.1).isSome then u else u.dropLine e.1))
        ((s3.onGlz (fun g => { g with flush := Tab.set g.flush canvas none none })).clr CNV_GLZ_STATUS.FLUSH_BUSY canvas).set1
          CNV_GLZ_STATUS.FLUSH_DONE canvas)

/-- RO_INV (R231): a write of GO begins to discard the read-only caches of every panel of the canvas. -/
def execRoInv (canvas : Nat) (s : State) : Res :=
  .next (s.woRun CNV_GLZ_RO_INV.GO canvas 1 (s.on CNV_GLZ_STATUS.INV_BUSY canvas) (·.set1 CNV_GLZ_STATUS.INV_BUSY canvas))

/-- The key of a line of a read-only cache: panel, cache (0 instruction, 1 constant, 2 descriptor) and line. -/
def roKey (p cache d : Nat) : Nat := (p * 4 + cache) * 0x80000000 + d / 512

/-- The read-only caches of some panels emptied (R231). -/
def State.roDrop (s : State) (p : Nat → Bool) : State :=
  s.onGlz (fun g => { g with ro := g.ro.filter (fun e => !p (e.1 / 0x200000000)) })

/-- RO_INV_DONE (R231): the caches are empty and INV_BUSY clears. -/
def execRoInvDone (canvas : Nat) (s : State) : Res :=
  .next (if s.on CNV_GLZ_STATUS.INV_BUSY canvas then
    (s.roDrop (fun p => p / 256 == canvas)).clr CNV_GLZ_STATUS.INV_BUSY canvas else s)

/-- The agent that fills a read-only cache of a panel. -/
def roAgent (p cache : Nat) : Agent := ⟨.panel p, 0x10000 + cache, none, false⟩

/-- A read-only cache line fetched whole from its target (R229). -/
def State.roFill (s : State) (p cache d : Nat) : Acc :=
  match s.readRange (roAgent p cache) (d / 512 * 512) 512 with
  | .done 0 bs t => .done 0 bs (t.onGlz (fun g => { g with ro := Tab.set g.ro (roKey p cache d) (some bs) none }))
  | r => r

/-- RO_FILL_DONE (R229): the reads of a read-only cache line have returned and the line is filled; a fill from the
host window sends its two reads first and takes effect when both have returned. -/
def execRoFillDone (panel cache : Nat) (dpa : Dpa) (s : State) : Res :=
  .next (match s.roFill panel cache dpa with
    | .done _ _ t => t
    | .wait t => t)

/-- The tacks of a range released; the lines stay VALID as they were (R248). -/
def State.untackRange (s : State) (c base lines : Nat) : State :=
  (s.onGlz (fun g => { g with lines := g.lines.map (fun (e : Nat × Option GlazeLine) =>
    if keyCanvas e.1 = c ∧ base ≤ keyLine e.1 ∧ keyLine e.1 < base + lines then (e.1, e.2.map (fun l => { l with tacked := false })) else e) })).tackRefresh c

/-- A commit of a tack range entry (R245, R248): the old range's tacks are released; an entry that overlaps another
enabled one is refused and stays disabled, with CONFLICT and TACK_REFUSED; an entry of no lines is never enabled. -/
def State.tackRangeCommit (s : State) (c e : Nat) (v : Val) : State :=
  let i := c * 64 + e
  let s1 := s.when (s.on CNV_GLZ_TACK_RANGE.ENABLE i)
    (·.untackRange c (s.rdN CNV_GLZ_TACK_RANGE.BASE_LINE i) (s.rdN CNV_GLZ_TACK_RANGE.LINES i))
  let base := v.toNat % 0x2000000
  let lines := v.toNat / 0x2000000 % 0x2000000
  let want := v.getLsbD 63
  let clash := want && decide (lines > 0) && (List.range 64).any (fun x =>
    decide (x ≠ e) && s.on CNV_GLZ_TACK_RANGE.ENABLE (c * 64 + x) &&
      decide (s.rdN CNV_GLZ_TACK_RANGE.BASE_LINE (c * 64 + x) < base + lines) &&
      decide (base < s.rdN CNV_GLZ_TACK_RANGE.BASE_LINE (c * 64 + x) + s.rdN CNV_GLZ_TACK_RANGE.LINES (c * 64 + x)))
  let s2 := (s1.wrN CNV_GLZ_TACK_RANGE.BASE_LINE i base).wrN CNV_GLZ_TACK_RANGE.LINES i lines
  let s3 := (s2.flag CNV_GLZ_TACK_RANGE.ENABLE i (want && decide (lines > 0) && !clash)).flag CNV_GLZ_TACK_RANGE.CONFLICT i clash
  s3.when clash (·.set1 CNV_GLZ_STATUS.TACK_REFUSED c)

/-- TACK_RANGE_WRITE (R245): a committed write of a tack range entry. -/
def execTackRangeWrite (canvas entry : Nat) (data : Val) (s : State) : Res := .next (s.tackRangeCommit canvas entry data)

/-- FILL_SLOT_GRANT (R218): the request that has waited longest among those that may now proceed takes its slot. -/
def execFillSlotGrant (canvas : Nat) (s : State) : Res :=
  .next (match s.glz.waiting.find? (fun j => decide (j.req.dpa / 0x1000000000 = canvas) &&
      match s.arrive j with | .off _ => false | _ => true) with
    | some j => (s.onGlz (fun g => { g with waiting := g.waiting.erase j })).request j
    | none => s)

/-- FILL_DELIVERY (R216): a row fill lands, the merged requests are applied and answered in their order, and the slot
is released. It waits for the bank's refresh. -/
def execFillDelivery (canvas line : Nat) (upsets : List Upset) (s : State) : Res :=
  let k := lineKey canvas line
  .next (if s.refreshing k then s else s.deliver k upsets)

/-- The refresh period of a canvas in ns: 16 µs, halved under R470. -/
def State.refreshPeriod (s : State) (c : Nat) : Nat := if Tab.get s.gso.fast c false then 8000 else 16000

/-- GESSO_REFRESH (R253): physical bank b of each channel begins its refresh at its offset in the period and is
taken for 80 ns. -/
def execGessoRefresh (canvas bank : Nat) (s : State) : Res :=
  .next (if bank < 32 ∧ s.now % s.refreshPeriod canvas = s.refreshPeriod canvas / 32 * bank then
    s.onGso (fun g => { g with refresh := Tab.set g.refresh (canvas * 32 + bank) (some (s.now + 80)) none }) else s)

end Sys2Proof.Machine
end

