-- ==== Sys2Proof/Machine/Containment.lean ====
section
/-! DEFINITION. What ends when a partition faults: the shared endings of coats, DMA descriptors and collectives, the
halts of threads, streams and queues, and the fault itself (R126, R155, R156, R205, R222, R275, R291, R333, R337,
R365, R367, R437, R526, R530). -/

namespace Sys2Proof.Machine

/-- The listed values of a register field, by index. -/
def State.listed (s : State) (f : RegField) : List (Nat × Val) :=
  s.regs.filterMap (fun (e : Nat × Val) => if e.1 / 4294967296 = f.key 0 / 4294967296 then some (e.1 % 4294967296, e.2) else none)

/-! ### Holds on lines (R276, R329) -/

/-- A line held. -/
def State.hold (s : State) (k : Nat) : State :=
  if s.lineHeld k then s else s.onGlz (fun g => { g with held := Tab.set g.held k (some []) none })

/-- A line's hold released; the requests that waited at the slice are applied in arrival order (R277). -/
def State.unhold (s : State) (k : Nat) : State :=
  match Tab.get s.glz.held k none with
  | none => s
  | some js => (s.onGlz (fun g => { g with held := Tab.set g.held k none none })).each js (fun j t => t.request j)

/-! ### Coats (R333, R334) -/

/-- An open coat. -/
def State.coat (s : State) (id : Nat) : Option Coat := Tab.get s.coats.table id none

/-- The open coats with their ids. -/
def State.openCoats (s : State) : List (Nat × Coat) :=
  s.coats.table.filterMap (fun (e : Nat × Option Coat) => e.2.map (fun c => (e.1, c)))

/-- The code of a stage in COAT_ENTRY. -/
def CoatStage.num : CoatStage → Nat
  | .staged => 1 | .preparing => 2 | .prepared => 3 | .inDoubt => 4 | .committed => 5 | .aborted => 6

/-- COAT_INUSE brought up to date (R324). -/
def State.coatInuse (s : State) : State :=
  let cs := s.openCoats
  (s.wrN COAT_INUSE.OPEN 0 cs.length).wrN COAT_INUSE.ACTIONS 0
    ((cs.filter (fun c => c.2.votedAt.isSome && c.2.ended.isNone)).foldl (fun n c => n + c.2.actions.length) 0)

/-- A coat at a content; its entry shows it. -/
def State.setCoat (s : State) (id : Nat) (c : Coat) : State :=
  let s1 := { s with coats := { s.coats with table := Tab.set s.coats.table id (some c) none } }
  ((((((s1.wrN COAT_ENTRY.STATE id c.stage.num).wrN COAT_ENTRY.ROLE id (if !c.wide then 0 else if c.isCoord then 1 else 2)).wrN
    COAT_ENTRY.OWNER id c.owner).wrN COAT_ENTRY.NACT id c.actions.length).wrN COAT_ENTRY.VOTES id
    (if c.isCoord then c.votes.length else 0)).wr COAT_TS.TS id c.ts).coatInuse

/-- The lines that a coat holds: those of the MEM_WRITE actions whose target is held (R329). -/
def Coat.lines (c : Coat) : List Nat :=
  (c.conds.filterMap (fun i => match c.actions[i]? with
    | some a => (match a.2 with | .memWrite d _ _ => some (keyOf d) | _ => none)
    | none => none)).dedup

/-- A part releases its locks, holds and reservations (R333). -/
def State.coatRelease (s : State) (id : Nat) (c : Coat) : State :=
  let s1 := s.setCoat id { c with held := [], wanted := [], descs := [], ended := some (c.ended.getD s.now) }
  if c.ended.isNone then s1.each c.lines (fun k t => t.unhold k) else s1

/-- The completion word of a coat (R334): outcome 1 COMMITTED, 2 ABORTED, 3 REFUSED. -/
def coatWord (id outcome : Nat) (code : Code) : Word32 :=
  BitVec.ofNat 32 ((if code = 0 then 0 else 2147483648) + outcome * 536870912 + code.toNat % 512 * 1048576 + id % 1024)

/-- A coat completes (R334): its entry keeps the outcome and code, the id is free, DONE and the word follow. -/
def State.coatFinish (s : State) (id : Nat) (c : Coat) (committed : Bool) (code : Code) : State :=
  let s1 := ((s.wrN COAT_ENTRY.STATE id (if committed then 5 else 6)).wr COAT_ENTRY_CODE.CODE id (codeVal code))
  let s2 := ({ s1 with coats := { s1.coats with table := Tab.set s1.coats.table id none none } }).coatInuse
  let s3 := if committed then s2.bump COAT_COMMITS.COUNT 0 1 else (s2.bump COAT_ABORTS.COUNT 0 1).set1 COAT_STATUS.ABORTED 0
  let q : QId := ⟨.coat, c.queue⟩
  let s4 := s3.when c.irq (·.set1 COAT_Q_STATUS.DONE c.queue)
  let s5 := s4.when c.notify (·.post c.mbx (coatWord id (if committed then 1 else 2) code))
  let others := s5.openCoats.any (fun o => o.2.queue == c.queue)
  (s5.setRing q { s5.ring q with busy := others }).qDone q c.seq

/-- A part aborts (R330, R331, R333): a local coat completes; a coordinator's coat decides ABORT, tells every device
and waits for the ACKs; a participant votes NO, acknowledges and completes. -/
def State.coatAbort (s : State) (id : Nat) (code : Code) : State :=
  match s.coat id with
  | none => s
  | some c =>
    let t := s.coatRelease id c
    if !c.wide then t.coatFinish id c false code
    else if c.isCoord then
      (t.each c.devices (fun d u => u.send (.coat .abort d c.ts code))).setCoat id
        { c with held := [], wanted := [], descs := [], stage := .aborted, decided := some code, code := code, ended := some s.now, acks := c.devices }
    else ((t.send (.coat (.vote false) c.coord c.ts code)).send (.coat .ack c.coord c.ts code)).coatFinish id c false code

/-- Whether an open coat holds a target of one of its actions (R329). -/
def State.coatHolds (s : State) (p : Nat × CoatAction → Bool) : Bool :=
  s.openCoats.any (fun e => e.2.ended.isNone && e.2.conds.any (fun i => match e.2.actions[i]? with | some a => p a | none => false))

/-- Whether a coat's part on this device may still abort: it has not voted, and no decision is taken. -/
def Coat.unvoted (c : Coat) : Bool := c.votedAt.isNone && c.decided.isNone && c.ended.isNone

/-! ### DMA channels (R365) -/

/-- The started descriptors of a channel. -/
def State.dmaRuns (s : State) (ch : Nat) : List DmaRun := Tab.get s.dma.runs ch []

/-- The tags that a channel's descriptors hold. -/
def DmaRun.tags (r : DmaRun) : Nat :=
  r.flying.foldl (fun n b => n + (if b.again then 0 else b.tags)) 0 + (if r.back.isSome then 1 else 0)

/-- A channel's started descriptors at a content; TAGS, TAGS_FREE and STATE follow (R360). -/
def State.setRuns (s : State) (ch : Nat) (rs : List DmaRun) : State :=
  let s1 := { s with dma := { s.dma with runs := Tab.set s.dma.runs ch rs [] } }
  let s2 := s1.wrN DMA_CH_STATUS.TAGS ch (rs.foldl (fun n r => n + r.tags) 0)
  let e := ch / 64
  let held := (s2.dma.runs.filter (fun (x : Nat × List DmaRun) => decide (x.1 / 64 = e))).foldl
    (fun n x => n + x.2.foldl (fun m r => m + r.tags) 0) 0
  (s2.wrN DMA_ENG_STATUS.TAGS_FREE e (16384 - held)).qBusy ⟨.dma, ch⟩ (!rs.isEmpty)

/-- The failure whose first byte lies lowest in the descriptor (R619). -/
def lowerFail (old : Option (Code × Nat)) (new : Code × Nat) : Code × Nat :=
  match old with
  | some o => if o.2 ≤ new.2 then o else new
  | none => new

/-- NOTIFY of a descriptor. -/
def dmaNotify (desc : List Byte) : Bool := (desc.getD 1 0).getLsbD 1
/-- IRQ of a descriptor. -/
def dmaIrq (desc : List Byte) : Bool := (desc.getD 1 0).getLsbD 2
/-- MBX of a descriptor. -/
def dmaMbx (desc : List Byte) : Nat := leField desc 4 2 % 4096

/-- A started descriptor ends with an error: it leaves the running ones, the channel halts with the code and the
offset, and the descriptor is kept for RESUME (R363, R365, R367). -/
def State.dmaEnd (s : State) (ch : Nat) (r : DmaRun) (code : Code) (off : Nat) : State :=
  let s1 := s.setRuns ch ((s.dmaRuns ch).filter (fun x => x.seq != r.seq))
  let s2 := (s1.qFail ⟨.dma, ch⟩ r.seq code (dmaNotify r.desc) (dmaMbx r.desc)).wrN DMA_CH_FAIL.OFFSET ch off
  { s2 with dma := { s2.dma with broken := Tab.set s2.dma.broken ch (some { r with next := off, flying := [], back := none, tries := 0, failed := none }) none } }

/-- A descriptor that is to fail ends once nothing of it is in flight. -/
def State.dmaSettle (s : State) (ch : Nat) : State :=
  s.each (s.dmaRuns ch) (fun r t =>
    match r.failed with
    | some (c, o) => if r.flying.all (·.again) && r.back.isNone then t.dmaEnd ch r c o else t
    | none => t)

/-! ### Collectives (R437) -/

/-- The group of a collective's descriptor. -/
def Coll.group (c : Coll) : Nat := leField c.desc 6 2
/-- The number within the group. -/
def Coll.num (c : Coll) : Nat := leField c.desc 12 4
/-- The rank of this member. -/
def Coll.rank (c : Coll) : Nat := leField c.desc 9 1

/-- The open collectives at a content; RUNNING follows. -/
def State.setColls (s : State) (cs : List Coll) : State := ({ s with colls := cs }).wrN COL_STATUS.RUNNING 0 cs.length

/-- A halt captured in COL_ERR. -/
def State.colErr (s : State) (group num rank : Nat) (code : Code) (remote : Bool) : State :=
  if s.on COL_ERR.VALID 0 then s.set1 COL_ERR.OVERRUN 0
  else (((((s.set1 COL_ERR.VALID 0).wrN COL_ERR.GROUP 0 group).wrN COL_ERR.SEQ 0 (num % 65536)).flag COL_ERR.REMOTE 0 remote).wrN
    COL_ERR.RANK 0 rank).wr COL_ERR.CODE 0 (codeVal code)

/-- A member's part halts (R437): its queue halts with the code, COL_ERR captures it, and unless the halt came by
FAIL every other member is told. -/
def State.collHalt (s : State) (c : Coll) (code : Code) (remote : Bool) (rank : Nat) : State :=
  let s1 := s.setColls (s.colls.filter (fun x => !(x.queue == c.queue && x.seq == c.seq)))
  let s2 := s1.colErr c.group c.num rank code remote
  let s3 := if remote then s2.set1 COL_STATUS.REMOTE_FAIL 0
    else s2.each ((List.range c.members.length).zip c.members) (fun m t =>
      if m.1 = c.rank then t else t.send (.collFail m.2.1 c.group c.num code))
  let q : QId := ⟨.col, c.queue⟩
  let flags := c.desc.getD 1 0
  (s3.setRing q { s3.ring q with busy := s3.colls.any (fun x => x.queue == c.queue) }).qFail q c.seq code
    (flags.getLsbD 1) (leField c.desc 4 2 % 4096)

/-! ### Panel threads -/

/-- The flights of a panel. -/
def State.panelFlights (s : State) (p : Nat) : List (Nat × Flight) :=
  s.pnl.flights.filterMap (fun (e : Nat × Option Flight) => match e.2 with
    | some f => if f.panel = p then some (e.1, f) else none
    | none => none)

/-- A panel thread's own state. -/
def State.pth (s : State) (q : Nat) : PanelThread := Tab.get s.pnl.threads q PanelThread.idle

/-- A panel thread's own state at a content. -/
def State.setPth (s : State) (q : Nat) (t : PanelThread) : State :=
  { s with pnl := { s.pnl with threads := Tab.set s.pnl.threads q t PanelThread.idle } }

/-- The status of a panel brought up to date: THR_RUNNING, THR_FAULTED, DRAINED, and DRAIN, which clears once every
issued stroke has completed. -/
def State.panelRefresh (s : State) (p : Nat) : State :=
  let mask := fun st => (List.range 8).foldl (fun v t => if s.rdN CNV_PNL_THR_CTL.STATE (8 * p + t) = st then v + 2 ^ t else v) 0
  let none := (s.panelFlights p).isEmpty
  (((s.wrN CNV_PNL_STATUS.THR_RUNNING p (mask 1)).wrN CNV_PNL_STATUS.THR_FAULTED p (mask 3)).flag CNV_PNL_STATUS.DRAINED p none).when
    none (·.clr CNV_PNL_CTL.DRAIN p)

/-- A thread that is stopping or halted reaches its state once its issued strokes have completed (R126, R130). -/
def State.threadSettle (s : State) (q : Nat) : State :=
  let t := s.pth q
  if (s.panelFlights (q / 8)).any (fun f => f.2.thread == q % 8) then s
  else if t.halted then ((s.setPth q { t with stopping := false }).wrN CNV_PNL_THR_CTL.STATE q
      (if t.stopping then 0 else 3)).when t.stopping (fun u => u.setPth q { t with stopping := false, halted := false })
  else if t.stopping then (s.setPth q { t with stopping := false }).wrN CNV_PNL_THR_CTL.STATE q 0
  else s

/-- The partition halts a thread (R126). -/
def State.threadHalt (s : State) (q : Nat) : State :=
  let t := s.pth q
  ((s.setPth q { t with halted := true }).threadSettle q).panelRefresh (q / 8)

/-! ### Sequencer threads (R205, R222) -/

/-- The key of a sequencer thread. -/
def seqKey (th : SeqThread) : Nat := th.canvas * 512 + th.core * 32 + th.thread

/-- A sequencer thread's own state. -/
def State.sth (s : State) (k : Nat) : SeqState := Tab.get s.seq.threads k SeqState.idle

/-- A sequencer thread's own state at a content. -/
def State.setSth (s : State) (k : Nat) (t : SeqState) : State :=
  { s with seq := { s.seq with threads := Tab.set s.seq.threads k t SeqState.idle } }

/-- A sequencer fault captured (R222): with VALID set it only sets OVERRUN. -/
def State.seqCapture (s : State) (k cause : Nat) (code : Code) : State :=
  let c := k / 512
  if s.on CNV_SEQ_FAULT_INFO.VALID c then s.set1 CNV_SEQ_FAULT_INFO.OVERRUN c
  else
    (((((((s.set1 CNV_SEQ_FAULT_INFO.VALID c).wrN CNV_SEQ_FAULT_INFO.CORE c (k % 512 / 32)).wrN CNV_SEQ_FAULT_INFO.THREAD c
      (k % 32)).wrN CNV_SEQ_FAULT_INFO.CAUSE c cause).wr CNV_SEQ_FAULT_INFO.CODE c (codeVal code)).wr CNV_SEQ_FAULT_PC.PC c
      (s.rd CNV_SEQ_THR_PC.PC k)).set1 CNV_SEQ_STATUS.FAULT c)

/-- A stop code (1 IDLE, 2 HALTED, 3 FAULTED) as the thread state it leads to. -/
def stopState (n : Nat) : Nat := if n = 1 then 0 else if n = 2 then 4 else 5

/-- Whether a wait has a load or an atomic outstanding, which completes before the thread stops (R205). -/
def SeqWait.outstanding : SeqWait → Bool
  | .load _ _ _ _ _ => true
  | .amo _ _ _ _ _ _ => true
  | _ => false

/-- A thread leaves every mailbox's waiting list. -/
def State.unwait (s : State) (th : SeqThread) : State :=
  { s with seq := { s.seq with boxes := (s.seq.boxes.map (fun b =>
    (b.1, { b.2 with waiters := b.2.waiters.filter (fun x => decide (x ≠ th)) }))).filter (fun b => decide (b.2 ≠ Mailbox.empty)) } }

/-- The thread of a key. -/
def seqThread (k : Nat) : SeqThread := ⟨k / 512, k % 512 / 32, k % 32⟩

/-- A sequencer thread stops at its next instruction boundary (R205): at once, or when its outstanding load or atomic
has returned. -/
def State.seqStop (s : State) (k stop : Nat) : State :=
  let t := s.sth k
  if (match t.wait with | some w => w.outstanding | none => false) then s.setSth k { t with stop := stop }
  else (((s.unwait (seqThread k)).setSth k { t with wait := none, stop := 0 }).wrN CNV_SEQ_THR_CTL.WAIT k 0).wrN
    CNV_SEQ_THR_CTL.STATE k (stopState stop)

/-! ### Streams (R155, R156) -/

/-- What a stream holds, by the key canvas × 4096 + id of its receiving end. -/
def State.stream (s : State) (k : Nat) : StreamState := Tab.get s.str.streams k StreamState.empty

/-- A stream's content. -/
def State.setStream (s : State) (k : Nat) (t : StreamState) : State :=
  { s with str := { s.str with streams := Tab.set s.str.streams k t StreamState.empty } }

/-- A stream end becomes BROKEN (R155). -/
def State.breakStream (s : State) (k : Nat) : State :=
  if s.rdN CNV_STM_STREAM.STATE k = 1 then
    (((s.wrN CNV_STM_STREAM.STATE k 2).wrN CNV_STM_STREAM.CREDITS k 0).setStream k StreamState.empty).set1
      CNV_STM_STATUS.STREAM_BROKEN (k / 4096)
  else s

/-- Whether a partition is faulted for a class. -/
def State.faulted (s : State) (p : Nat) (wash : Bool) : Bool :=
  if wash then s.on GLB_PART_FAULT.WASH p else s.on GLB_PART_FAULT.PRIMARY p

/-- A flight at a content. -/
def State.setFlight (s : State) (n : Nat) (f : Option Flight) : State :=
  { s with pnl := { s.pnl with flights := Tab.set s.pnl.flights n f none } }

/-- Whether a stroke word is a RECV, and its stream. -/
def recvStream (w : BitVec 128) : Option Nat :=
  if (w.toNat >>> 124) = 4 ∧ (w.toNat >>> 120) % 16 = 2 then some ((w.toNat >>> 52) % 4096) else none

/-- A RECV in progress on a BROKEN stream ends with STROKE_STREAM_BROKEN once its partition is faulted for the
stream's class (R156). -/
def State.endRecvs (s : State) : State :=
  s.each s.pnl.flights (fun (e : Nat × Option Flight) t =>
    match e.2 with
    | some f =>
      match recvStream f.word, t.panelPart f.panel with
      | some id, some p =>
        if !f.done && t.rdN CNV_STM_STREAM.STATE (f.panel / 256 * 4096 + id) == 2 && t.faulted p f.wash then
          t.setFlight e.1 (some { f with done := true, fault := some 0x0820 })
        else t
      | _, _ => t
    | none => t)

/-! ### The partition fault (R526) -/

/-- GLB_PART_FAULT takes a fault: CODE and ORIGIN only while both bits are clear; the partition's latch sets in the
cycle in which it becomes faulted for either class (R526, R554). -/
def State.markFault (s : State) (p : Nat) (wash : Bool) (code : Code) (origin : Option Nat) : State :=
  let fresh := !s.on GLB_PART_FAULT.PRIMARY p && !s.on GLB_PART_FAULT.WASH p
  let new := !s.faulted p wash
  let s1 := if wash then s.set1 GLB_PART_FAULT.WASH p else s.set1 GLB_PART_FAULT.PRIMARY p
  let s2 := s1.when fresh (fun t => ((t.wr GLB_PART_FAULT.CODE p (codeVal code)).flag GLB_PART_FAULT.ORIGIN_VALID p
    origin.isSome).wrN GLB_PART_FAULT.ORIGIN p (origin.getD 0))
  let i := p / 64 * 2 + p % 64 / 32
  s2.when new (fun t => t.wr CNV_PART_VECTOR.BITS i (t.rd CNV_PART_VECTOR.BITS i ||| (1 <<< (p % 32) : Val)))

/-- A row queue stops with a code: operations dispatched complete, the rest of each running command is abandoned. -/
def State.rowStop (s : State) (n : Nat) (code : Code) : State :=
  let q : QId := ⟨.row, n⟩
  let cs := Tab.get s.rows.cmds n []
  let stay := (cs.filter (fun c => !c.flying.isEmpty)).map (fun c =>
    { c with lines := c.next, fail := some (c.fail.getD (code, 0)) })
  let gone := cs.filter (fun c => c.flying.isEmpty)
  let s1 := ({ s with rows := { cmds := Tab.set s.rows.cmds n stay [] } }).qBusy q (!stay.isEmpty)
  (s1.each gone (fun c t => t.qFail q c.seq code c.notify c.mbx)).qHalt q code

/-- The units of a canvas that run tasks: UNITS_BUSY brought up to date. -/
def State.finBusy (s : State) (c : Nat) : State :=
  s.wrN CNV_FIN_STATUS.UNITS_BUSY c ((Tab.get s.fin.tasks c []).foldl (fun n t => n + t.units.length) 0)

/-- A finish task that has ended, in the counters: tasks, unit-cycles at 1.2 GHz since it started, and each event that
it raised (R316). -/
def State.finCount (s : State) (c : Nat) (t : FinTask) : State :=
  let s1 := (s.bump CNV_FIN_TASKS.COUNT c 1).bump CNV_FIN_BUSY.COUNT c (t.units.length * ((s.now - t.start) * 12 / 10))
  (((s1.when (t.events.getLsbD 0) (·.bump CNV_FIN_EVT_OVERFLOW.COUNT c 1)).when (t.events.getLsbD 1)
    (·.bump CNV_FIN_EVT_NAN_PRODUCED.COUNT c 1)).when (t.events.getLsbD 2) (·.bump CNV_FIN_EVT_NAN_TO_INT.COUNT c 1)).when
    (t.events.getLsbD 3) (·.bump CNV_FIN_EVT_INEXACT_GRID.COUNT c 1)

/-- A finish queue of a canvas stops with a code: its running tasks complete with it. -/
def State.finStop (s : State) (c local_ : Nat) (code : Code) : State :=
  let q : QId := ⟨.fin, c * 65 + local_⟩
  let ts := Tab.get s.fin.tasks c []
  let mine := ts.filter (fun t => t.queue == local_)
  let s1 := ({ s with fin := { s.fin with tasks := Tab.set s.fin.tasks c (ts.filter (fun t => t.queue != local_)) [] } }).finBusy c
  ((s1.qBusy q false).each mine (fun t u => (u.finCount c t).qFail q t.seq code ((t.desc.getD 1 0).getLsbD 1) (leField t.desc 2 2 % 4096))).qHalt q code

/-- A partition faults for a job class: the fault is recorded and every unit of the class stops (R126, R155, R205,
R222, R275, R291, R337, R367, R437, R526). -/
def State.partFault (s : State) (p : Nat) (wash : Bool) (code : Code) (origin : Option Nat := none) : State :=
  let s1 := s.markFault p wash code origin
  -- panel threads of the class
  let s2 := s1.each (s1.listed CNV_PNL_THR_CTL.STATE) (fun e t =>
    if e.2 == 1 && t.panelPart (e.1 / 8) == some p && (t.on CNV_PNL_THR_CTL.CLASS e.1 == wash) then t.threadHalt e.1 else t)
  -- streams of the class with an endpoint in the partition
  let s3 := s2.each (s2.listed CNV_STM_STREAM.STATE) (fun e t =>
    if e.2 == 1 && (t.on CNV_STM_STREAM.CLASS e.1 == wash) &&
      (t.panelPart (t.rdN CNV_STM_STREAM.SENDER e.1) == some p || t.panelPart (t.rdN CNV_STM_STREAM.RECEIVER e.1) == some p)
    then t.breakStream e.1 else t)
  let s4 := s3.endRecvs
  -- the PRIMARY-class agents: sequencer threads, row and finish queues, collectives
  let s5 := if wash then s4 else
    let a := s4.each (s4.listed CNV_SEQ_THR_CTL.STATE) (fun e t =>
      if (e.2 == 1 || e.2 == 2 || e.2 == 3) && t.rdN CNV_SEQ_THR_CTL.PARTITION e.1 == p && e.1 / 512 == p / 64 then
        (t.seqCapture e.1 5 0).seqStop e.1 3 else t)
    let b := (a.rowStop (p / 64 * 65 + p % 64) 0x0909).finStop (p / 64) (p % 64) 0x0A0D
    b.each b.colls (fun c t =>
      if (match c.members[c.rank]? with | some m => m.2 == p | none => false) then t.collHalt c 0x030C false c.rank else t)
  -- coats that the partition owns or that name it, before the device votes
  let s6 := s5.each s5.openCoats (fun e t =>
    if e.2.unvoted && (e.2.owner == p || e.2.named.contains p) then t.coatAbort e.1 0x0409 else t)
  -- DMA channels of the partition and class
  s6.each s6.dma.runs (fun (e : Nat × List DmaRun) t =>
    if t.qPart ⟨.dma, e.1⟩ = some (p, wash) then
      (t.setRuns e.1 ((t.dmaRuns e.1).map (fun r => { r with failed := some (lowerFail r.failed (0x030C, r.next)) }))).dmaSettle e.1
    else t)

/-- A stall captured in GLB_STALL (R530). -/
def State.stall (s : State) (kind place object lineHi : Nat) (part : Option Nat) : State :=
  if s.on GLB_STALL.VALID 0 then s.set1 GLB_STALL.OVERRUN 0
  else ((((((s.set1 GLB_STALL.VALID 0).wrN GLB_STALL.KIND 0 kind).wrN GLB_STALL.WHERE 0 place).wrN GLB_STALL.OBJECT 0 object).wrN
    GLB_STALL.LINE_HI 0 lineHi).flag GLB_STALL.PART_VALID 0 part.isSome).wrN GLB_STALL.PARTITION 0 (part.getD 0)

end Sys2Proof.Machine
end

