-- ==== Sys2Proof/Machine/Sketchbook.lean ====
section
/-! DEFINITION. The sketchbook: how every unit of the device enters a record into the write queue, and what a
compaction keeps (R581 to R585). -/

namespace Sys2Proof.Machine

/-- The records of the image, in slot order. -/
def State.jnlRecords (s : State) : List JRecord := s.jnl.slots.filterMap id

/-- Whether a record is a state record among the records of the image (R582). -/
def JRecord.isState (r : JRecord) (all : List JRecord) : Bool :=
  if r.type = 0x10 then !all.any (fun c => c.type == 0x11 && leField c.payload 0 4 == r.seq)
  else if r.type = 0x12 then all.all (fun c => !(c.type == 0x12 && c.source == r.source && decide (r.seq < c.seq)))
  else r.type == 0x11 || r.type == 0x13 || r.type == 0x20 || r.type == 0x21

/-- The THERMAL_TRIP records that no THERMAL_CLEAR names (R573), those still waiting to be written included. -/
def State.openTrips (s : State) : List JRecord :=
  let all := s.jnlRecords ++ s.jnl.queue.map (·.record) ++ s.jnl.waiting
  all.filter (fun r => r.type == 0x10 && r.isState all)

/-- Confidential mode. -/
def State.conf (s : State) : Bool := s.on SEC_STATUS.CONF 0

/-! ### Reading a ring (R268, R623) -/

/-- The requester of a queue's ring reads. -/
def QId.requester (q : QId) : Requester :=
  match q.kind with
  | .row => .queues (q.n / 65)
  | .fin => .queues (q.n / 65)
  | .coat => .coats
  | .col => .collective
  | .dma => .dma q.n

/-- The agent that a queue acts as. -/
def State.qAgent (s : State) (q : QId) : Agent :=
  ⟨q.requester, 0x20000 + q.key, (s.qPart q).map Prod.fst, match s.qPart q with | some p => p.2 | none => false⟩

/-- The next command of a queue read from its ring (R623). -/
def State.ringRead (s : State) (q : QId) : Acc :=
  let d := s.qSlot q (s.ring q).read
  match targetOf d with
  | .gesso c o =>
    if (match q.canvas with | some k => decide (c ≠ k) | none => false) then .done 0x0102 [] s
    else if !s.lineExists c (o / 2048) then .done 0x0101 [] s
    else if !s.windowOk? ((s.qPart q).map Prod.fst) .r d q.kind.cmdBytes then .done q.kind.bounds [] s
    else s.readRange (s.qAgent q) d q.kind.cmdBytes
  | .nowhere => .done 0x0101 [] s
  | _ => .done 0x0102 [] s

/-- A command read from the ring is refused (R273): it is taken, and its queue halts. -/
def State.qRefuse (s : State) (q : QId) (code : Code) (notify : Bool) (mbx : Nat) : State :=
  (s.qTake q).qFail q (s.ring q).read code notify mbx

/-- What a start of a queue's next command finds: nothing to do, a failed ring read, or the command's bytes. -/
inductive Head? where
  | idle (s : State)
  | failed (s : State)
  | cmd (bytes : List Byte) (s : State)
deriving DecidableEq, Repr

/-- The queue's next command, where it may be read; a failed ring read halts the queue (R623). -/
def State.qNext (s : State) (q : QId) : Head? :=
  if !s.qReady q then .idle s
  else match s.ringRead q with
    | .wait t => .idle t
    | .done code bs t => if code = 0 then .cmd bs t else .failed (t.qRefuse q code false 0)

end Sys2Proof.Machine
end

