-- ==== Sys2Proof/Machine/Doorbells.lean ====
section
/-! DEFINITION. What the units of the device share at the hub: client-queue doorbells, the RTP's measurements, and the
fields of GLB_CAPACITY (R51 to R55, R487, R549 to R553). -/

namespace Sys2Proof.Machine

/-! ### Client queues (R549 to R553) -/

/-- A doorbell event in QUE_STATUS (R553): its bit sets, and the queue is captured when neither bit was set before. -/
def State.queEvent (s : State) (q : Nat) (bit : RegField) : State :=
  (if s.on QUE_STATUS.DB_DISABLED 0 || s.on QUE_STATUS.TAILWR_ERR 0 then s
    else (s.set1 QUE_STATUS.VALID 0).wrN QUE_STATUS.QUEUE 0 q).set1 bit 0

/-- A doorbell that is acted on (R549, R553): QUE_TAIL is loaded and the write of the tail word is due; a disabled
queue only sets DB_DISABLED. -/
def State.ringClient (s : State) (q : Nat) (v : Word32) : State :=
  if s.on QUE_CTL.ENABLE q then
    let h := s.host
    (({ s with host := { h with tails := Tab.set h.tails q (Tab.get h.tails q [] ++ [v]) [] } }).wr QUE_TAIL.TAIL q
      (BitVec.setWidth 64 v)).bump QUE_DOORBELLS.COUNT q 1
  else s.queEvent q QUE_STATUS.DB_DISABLED

/-- Whether doorbells are held (R183, R498). -/
def State.bellsHeld (s : State) : Bool := decide (s.str.loader.phase ≠ .idle) || s.on SEC_STATUS.EXITING 0

/-- The doorbells kept during a hold are applied, in ascending queue number (R552). -/
def State.releaseBells (s : State) : State :=
  if s.bellsHeld then s
  else ({ s with host := { s.host with kept := [] } }).each s.host.kept (fun (e : Nat × Option Word32) t =>
    match e.2 with | some v => t.ringClient e.1 v | none => t)

/-! ### Measurements (R487) -/

/-- A measurement that is a digest takes a value: twelve words of SEC_MEAS. -/
def State.setMeas (s : State) (i : Nat) (d : BitVec 384) : State :=
  s.each (List.range 12) (fun k t => t.wrN SEC_MEAS.WORD (i * 12 + k) (d.toNat / 2 ^ (32 * k) % 2 ^ 32))

/-- The bytes of a digest, first byte lowest. -/
def digestBytes (d : BitVec 384) : List Byte := leBytes 48 d.toNat

/-- A measurement as a number. -/
def State.meas (s : State) (i : Nat) : BitVec 384 :=
  BitVec.ofNat 384 ((List.range 12).foldl (fun v k => v + s.rdN SEC_MEAS.WORD (i * 12 + k) * 2 ^ (32 * k)) 0)

/-- M4: the digest of the eight producer-key slots in order, an empty one as 48 zero bytes. -/
def State.measureKeys (s : State) : State :=
  s.setMeas 4 (Config.sha384 (s.sec.slots.flatMap (fun k => match k with | some d => digestBytes d | none => List.replicate 48 0)))

/-- M5, the state record: byte by byte as in R487's table. -/
def State.stateRecord (s : State) : List Byte :=
  let bit := fun (b : Bool) (n : Nat) => if b then 2 ^ n else 0
  [BitVec.ofNat 8 (bit s.conf 0 + bit (s.on SEC_STATUS.TAMPER_LATCH 0) 1 + bit (s.on SKT_STATUS.OVERRIDDEN 0) 2 +
    bit (s.on SKT_STATUS.FALLBACK 0) 3 + bit (s.sec.jtagOpen && !s.conf) 4), 0, 0, 0] ++
  leBytes 4 s.sec.clears ++ leBytes 4 s.sec.loads ++ [BitVec.ofNat 8 (s.rdN GLB_CAPACITY.CANVAS_AVAIL 0), 0] ++
  leBytes 2 (canvases.foldl (fun v c => v + s.rdN CNV_ROW_LAYER_MODE.FALLBACK c * 16 ^ c) 0) ++ List.replicate 32 0

/-! ### Capacity (R51 to R55) -/

/-- An island that works: neither FUSED nor LOST; ASLEEP, CLOSING and WAKING count as working (R54). -/
def State.works (s : State) (i : Nat) : Bool := decide (s.island i ≠ islFused) && decide (s.island i ≠ islLost)

/-- Whether the device gives management service (R51). -/
def State.management (s : State) : Bool := [136, 137, 138, 142, 143].all s.works

/-- Whether a canvas is available (R52, R626). -/
def State.available (s : State) (c : Nat) : Bool :=
  let isl := fun l => s.works (islandOf c l)
  s.management && s.works 141 && decide (s.rdN TTH_STATUS.WIDTH_UP c ≥ 1) && decide (s.rdN TTH_STATUS.WIDTH_DN c ≥ 1) &&
  isl 32 && [16, 17, 18, 19].all isl && !Tab.get s.isl.gessoLost c false && [22, 23, 24, 25].any isl && [26, 27].any isl &&
  (List.range 16).any (fun p => isl p && isl (28 + p / 4))

/-- The canvases that are available. -/
def State.availables (s : State) : List Nat := canvases.filter s.available

/-- The SERVICE of R54. -/
def State.service (s : State) : Nat :=
  if canvases.all s.available && (List.range 144).all s.works &&
      canvases.all (fun c => s.rdN TTH_STATUS.WIDTH_UP c == 3 && s.rdN TTH_STATUS.WIDTH_DN c == 3) then 3
  else if canvases.any s.available then 2
  else if s.management then 1
  else 0

/-- GLB_CAPACITY recomputed; an update that alters a field sets CAP_CHANGED (R55). -/
def State.capacity (s : State) : State :=
  let av := s.availables
  let t := (((s.wrN GLB_CAPACITY.CANVAS_AVAIL 0 (av.foldl (fun v c => v + 2 ^ c) 0)).wrN GLB_CAPACITY.SERVICE 0 s.service).wrN
    GLB_CAPACITY.PANEL_ISLANDS 0 ((av.flatMap (fun c => (List.range 16).map (islandOf c))).filter s.works).length).wrN
    GLB_CAPACITY.GESSO_LAYERS 0 ((av.flatMap (fun c => [22, 23, 24, 25].map (islandOf c))).filter s.works).length
  t.when (decide (t.regs ≠ s.regs)) (·.set1 GLB_ISL_STATUS.CAP_CHANGED 0)

/-! ### Throttle reasons (R461) -/

/-- A bit of PWR_THR_REASON at a value; a rising edge sets it in PWR_THR_SEEN, and PWR_THR_TIME takes the time for which
the bit was 1 when it falls (until then the time since it rose adds to what it reads, State.throttleTime). -/
def State.reason (s : State) (b : Nat) (v : Bool) : State :=
  let m : Val := 1 <<< b
  let old := s.rd PWR_THR_REASON.REASON 0
  let was := decide (old &&& m ≠ 0)
  if v then
    if was then s
    else
      let s1 := (s.wr PWR_THR_REASON.REASON 0 (old ||| m)).wr PWR_THR_SEEN.REASON 0 (s.rd PWR_THR_SEEN.REASON 0 ||| m)
      { s1 with power := { s1.power with since := Tab.set s1.power.since b s.now 0 } }
  else if was then
    (s.wr PWR_THR_REASON.REASON 0 (old &&& ~~~m)).bump PWR_THR_TIME.NS b (s.now - Tab.get s.power.since b 0)
  else s

/-- What PWR_THR_TIME_x reads (R461). -/
def State.throttleTime (s : State) (b : Nat) : Nat :=
  s.rdN PWR_THR_TIME.NS b + (if (s.rdN PWR_THR_REASON.REASON 0).testBit b then s.now - Tab.get s.power.since b 0 else 0)

/-! ### Cyclic redundancy checks (R169, R371) -/

/-- One bit of a reflected CRC. -/
def crcBit {w : Nat} (poly c : BitVec w) : BitVec w := if c.getLsbD 0 then (c >>> 1) ^^^ poly else c >>> 1

/-- One byte of a reflected CRC. -/
def crcByte {w : Nat} (poly c : BitVec w) (b : Byte) : BitVec w :=
  (List.range 8).foldl (fun x _ => crcBit poly x) (c ^^^ BitVec.setWidth w b)

/-- A reflected CRC with initial value and final XOR all ones; the polynomial is given reflected. -/
def crc {w : Nat} (poly : BitVec w) (bs : List Byte) : BitVec w := ~~~(bs.foldl (crcByte poly) (BitVec.allOnes w))

/-- The CRC-64 of R169: polynomial 0x42F0E1EBA9EA3693, reflected. -/
def crc64 (bs : List Byte) : BitVec 64 := crc 0xC96C5795D7870F42 bs

/-- The CRC-32 of R371: polynomial 0x1EDC6F41, reflected. -/
def crc32 (bs : List Byte) : BitVec 32 := crc 0x82F63B78 bs

end Sys2Proof.Machine
end

