-- ==== Sys2Proof/Machine/Sequencers.lean ====
section
/-! DEFINITION. The sequencer cores: threads, their instructions, memory ordering and mailboxes (chapter 06), but for
the instructions that command other units, which stand in SeqCommands.lean. -/

namespace Sys2Proof.Machine

/-- A general register; g0 reads as zero. -/
def SeqState.get (t : SeqState) (r : Nat) : Val := if r % 64 = 0 then 0 else Tab.get t.g (r % 64) 0

/-- A general register written; a write of g0 is ignored. -/
def SeqState.put (t : SeqState) (r : Nat) (v : Val) : SeqState :=
  if r % 64 = 0 then t else { t with g := Tab.set t.g (r % 64) v 0, fresh := t.fresh ||| (1 <<< (r % 64)) }

/-- Whether a general register is readable: one not written since the last change of the epoch salt is uncorrectable
(R499, R501); g0 always is. -/
def SeqState.readable (t : SeqState) (r : Nat) : Bool := decide (r % 64 = 0) || t.fresh.getLsbD (r % 64)

/-- The PC of a thread, as a DPA. -/
def State.seqPc (s : State) (k : Nat) : Dpa := 4 * s.rdN CNV_SEQ_THR_PC.PC k

/-- The partition of a thread. -/
def State.seqPart (s : State) (k : Nat) : Nat := s.rdN CNV_SEQ_THR_CTL.PARTITION k

/-- A core, by canvas × 16 + core; that of a thread's key. -/
def coreKey (k : Nat) : Nat := k / 32

/-- A core's content. -/
def State.core (s : State) (c : Nat) : SeqCore := Tab.get s.seq.cores c SeqCore.empty

/-- A core at a content. -/
def State.setCore (s : State) (c : Nat) (x : SeqCore) : State :=
  { s with seq := { s.seq with cores := Tab.set s.seq.cores c x SeqCore.empty } }

/-- The island of a core. -/
def seqIsland (c : Nat) : Nat := islandOf (c / 16) (26 + c % 16 / 8)

/-- A thread becomes READY, behind those that are READY already (R202). -/
def State.seqReady (s : State) (k : Nat) : State :=
  let s1 := s.setSth k { s.sth k with wait := none, ready := s.seq.order }
  ({ s1 with seq := { s1.seq with order := s1.seq.order + 1 } }.wrN CNV_SEQ_THR_CTL.STATE k 1).wrN CNV_SEQ_THR_CTL.WAIT k 0

/-- The code of a wait reason. -/
def SeqWait.code : SeqWait → Nat
  | .ifetch => 1 | .load _ _ _ _ _ => 2 | .amo _ _ _ _ _ _ => 3 | .storeBuf => 4 | .mailbox _ _ => 5 | .fence _ _ => 6
  | .command _ => 7 | .bankCap _ => 8

/-- A thread becomes WAITING (R202). -/
def State.seqWait (s : State) (k : Nat) (w : SeqWait) : State :=
  ((s.setSth k { s.sth k with wait := some w }).wrN CNV_SEQ_THR_CTL.STATE k 3).wrN CNV_SEQ_THR_CTL.WAIT k w.code

/-- An instruction is done: the PC moves to the next one, and the instruction is counted. -/
def State.seqDone (s : State) (k : Nat) : State :=
  (s.wr CNV_SEQ_THR_PC.PC k (s.rd CNV_SEQ_THR_PC.PC k + 1)).bump CNV_SEQ_INSTR.COUNT (k / 512) 1

/-- An instruction is done and the PC goes to a target. -/
def State.seqJump (s : State) (k : Nat) (target : Dpa) : State :=
  (s.wrN CNV_SEQ_THR_PC.PC k (target / 4)).bump CNV_SEQ_INSTR.COUNT (k / 512) 1

/-- A sequencer fault (R222): recorded, the thread stops FAULTED, the partition faults for PRIMARY. The code that the
partition records for a cause without a code of its own is left open. -/
def State.seqFault (s : State) (k cause : Nat) (code : Code) : State :=
  let s1 := (s.bump CNV_SEQ_INSTR.COUNT (k / 512) 1).seqCapture k cause code
  let s2 := s1.seqStop k 3
  if code ≠ 0 then s2.partFault (s.seqPart k) false code
  else let d := s2.draw; d.2.partFault (s.seqPart k) false (BitVec.setWidth 16 d.1)

/-- Causes. -/
def causeIllegal : Nat := 1
/-- MISALIGNED. -/
def causeMisaligned : Nat := 2
/-- BOUNDS. -/
def causeBounds : Nat := 3
/-- MEM_ERROR. -/
def causeMem : Nat := 4

/-- Whether a thread may issue: it exists, its island is ACTIVE and it is RUNNING. -/
def State.seqIssues (s : State) (th : SeqThread) : Bool :=
  decide (th.canvas < 4) && decide (th.core < 16) && decide (th.thread < 32) &&
    decide (s.island (seqIsland (coreKey (seqKey th))) = islActive) && s.rdN CNV_SEQ_THR_CTL.STATE (seqKey th) == 2

/-- Whether another thread of the core is READY. -/
def State.otherReady (s : State) (k : Nat) : Bool :=
  (List.range 32).any (fun t => decide (k / 32 * 32 + t ≠ k) && s.rdN CNV_SEQ_THR_CTL.STATE (k / 32 * 32 + t) == 1)

/-- An instruction issued by the RUNNING thread: the fetch is checked against the partition's windows (R201), the
core's run of issue cycles is counted (R202), a source register that is uncorrectable faults the thread (R509), and the
body acts. -/
def State.seqExec (s : State) (th : SeqThread) (srcs : List Nat) (body : Nat → State → State) : State :=
  let k := seqKey th
  if !s.seqIssues th then s
  else
    let c := coreKey k
    let s1 := s.setCore c { s.core c with issued := if s.otherReady k then (s.core c).issued + 1 else 0 }
    if !s.windowOk (s.seqPart k) .x (s.seqPc k) 4 then s1.seqFault k causeBounds 0
    else if srcs.all (s.sth k).readable then body k s1
    else s1.seqFault k causeMem 0x0110

/-- An instruction that writes one register from register values. -/
def State.seqReg (s : State) (th : SeqThread) (srcs : List Nat) (rd : Nat) (f : SeqState → State → Val) : State :=
  s.seqExec th srcs (fun k t => ((t.setSth k ((t.sth k).put rd (f (t.sth k) t))).seqDone k))

/-! ### ALU instructions -/

/-- The ALU operations of R206's table. -/
inductive AluOp where
  | add | sub | and | or | xor | andn | shl | shr | sra | slt | sltu | min | max | minu | maxu | mul | mulhu | mulh
  | popc | clz | ctz
deriving DecidableEq, Repr

/-- The number of leading zeros of a 64-bit value. -/
def clz64 (a : Val) : Nat := ((List.range 64).takeWhile (fun i => !a.getLsbD (63 - i))).length

/-- The number of trailing zeros of a 64-bit value. -/
def ctz64 (a : Val) : Nat := ((List.range 64).takeWhile (fun i => !a.getLsbD i)).length

/-- The result of an ALU operation. -/
def AluOp.eval (op : AluOp) (a b : Val) : Val :=
  match op with
  | .add => a + b
  | .sub => a - b
  | .and => a &&& b
  | .or => a ||| b
  | .xor => a ^^^ b
  | .andn => a &&& ~~~b
  | .shl => a <<< (b.toNat % 64)
  | .shr => a >>> (b.toNat % 64)
  | .sra => a.sshiftRight (b.toNat % 64)
  | .slt => if a.slt b then 1 else 0
  | .sltu => if a.ult b then 1 else 0
  | .min => if a.slt b then a else b
  | .max => if a.slt b then b else a
  | .minu => if a.ult b then a else b
  | .maxu => if a.ult b then b else a
  | .mul => a * b
  | .mulhu => BitVec.ofNat 64 (a.toNat * b.toNat / 2 ^ 64)
  | .mulh => BitVec.ofInt 64 (a.toInt * b.toInt / 2 ^ 64)
  | .popc => BitVec.ofNat 64 (popcount a.toNat)
  | .clz => BitVec.ofNat 64 (clz64 a)
  | .ctz => BitVec.ofNat 64 (ctz64 a)

/-- An ALU instruction. -/
def State.alu (s : State) (th : SeqThread) (op : AluOp) (rd ra rb : Nat) : State :=
  s.seqReg th (if op = .popc ∨ op = .clz ∨ op = .ctz then [ra] else [ra, rb]) rd (fun t _ => op.eval (t.get ra) (t.get rb))

/-- ALU ADD. -/
def execAluAdd (th : SeqThread) (rd ra rb : Nat) (s : State) : Res := .next (s.alu th .add rd ra rb)
/-- ALU SUB. -/
def execAluSub (th : SeqThread) (rd ra rb : Nat) (s : State) : Res := .next (s.alu th .sub rd ra rb)
/-- ALU AND. -/
def execAluAnd (th : SeqThread) (rd ra rb : Nat) (s : State) : Res := .next (s.alu th .and rd ra rb)
/-- ALU OR. -/
def execAluOr (th : SeqThread) (rd ra rb : Nat) (s : State) : Res := .next (s.alu th .or rd ra rb)
/-- ALU XOR. -/
def execAluXor (th : SeqThread) (rd ra rb : Nat) (s : State) : Res := .next (s.alu th .xor rd ra rb)
/-- ALU ANDN. -/
def execAluAndn (th : SeqThread) (rd ra rb : Nat) (s : State) : Res := .next (s.alu th .andn rd ra rb)
/-- ALU SHL. -/
def execAluShl (th : SeqThread) (rd ra rb : Nat) (s : State) : Res := .next (s.alu th .shl rd ra rb)
/-- ALU SHR. -/
def execAluShr (th : SeqThread) (rd ra rb : Nat) (s : State) : Res := .next (s.alu th .shr rd ra rb)
/-- ALU SRA. -/
def execAluSra (th : SeqThread) (rd ra rb : Nat) (s : State) : Res := .next (s.alu th .sra rd ra rb)
/-- ALU SLT. -/
def execAluSlt (th : SeqThread) (rd ra rb : Nat) (s : State) : Res := .next (s.alu th .slt rd ra rb)
/-- ALU SLTU. -/
def execAluSltu (th : SeqThread) (rd ra rb : Nat) (s : State) : Res := .next (s.alu th .sltu rd ra rb)
/-- ALU MIN. -/
def execAluMin (th : SeqThread) (rd ra rb : Nat) (s : State) : Res := .next (s.alu th .min rd ra rb)
/-- ALU MAX. -/
def execAluMax (th : SeqThread) (rd ra rb : Nat) (s : State) : Res := .next (s.alu th .max rd ra rb)
/-- ALU MINU. -/
def execAluMinu (th : SeqThread) (rd ra rb : Nat) (s : State) : Res := .next (s.alu th .minu rd ra rb)
/-- ALU MAXU. -/
def execAluMaxu (th : SeqThread) (rd ra rb : Nat) (s : State) : Res := .next (s.alu th .maxu rd ra rb)
/-- ALU MUL. -/
def execAluMul (th : SeqThread) (rd ra rb : Nat) (s : State) : Res := .next (s.alu th .mul rd ra rb)
/-- ALU MULHU. -/
def execAluMulhu (th : SeqThread) (rd ra rb : Nat) (s : State) : Res := .next (s.alu th .mulhu rd ra rb)
/-- ALU MULH. -/
def execAluMulh (th : SeqThread) (rd ra rb : Nat) (s : State) : Res := .next (s.alu th .mulh rd ra rb)
/-- ALU POPC. -/
def execAluPopc (th : SeqThread) (rd ra rb : Nat) (s : State) : Res := .next (s.alu th .popc rd ra rb)
/-- ALU CLZ. -/
def execAluClz (th : SeqThread) (rd ra rb : Nat) (s : State) : Res := .next (s.alu th .clz rd ra rb)
/-- ALU CTZ. -/
def execAluCtz (th : SeqThread) (rd ra rb : Nat) (s : State) : Res := .next (s.alu th .ctz rd ra rb)

/-- The sign extension of IMM14. -/
def sext14 (i : BitVec 14) : Val := BitVec.signExtend 64 i

/-- The zero extension of IMM14. -/
def zext14 (i : BitVec 14) : Val := BitVec.setWidth 64 i

/-- ADDI. -/
def execAddi (th : SeqThread) (rd ra : Nat) (imm : BitVec 14) (s : State) : Res := .next (s.seqReg th [ra] rd (fun t _ => t.get ra + sext14 imm))
/-- ANDI. -/
def execAndi (th : SeqThread) (rd ra : Nat) (imm : BitVec 14) (s : State) : Res := .next (s.seqReg th [ra] rd (fun t _ => t.get ra &&& zext14 imm))
/-- ORI. -/
def execOri (th : SeqThread) (rd ra : Nat) (imm : BitVec 14) (s : State) : Res := .next (s.seqReg th [ra] rd (fun t _ => t.get ra ||| zext14 imm))
/-- XORI. -/
def execXori (th : SeqThread) (rd ra : Nat) (imm : BitVec 14) (s : State) : Res := .next (s.seqReg th [ra] rd (fun t _ => t.get ra ^^^ zext14 imm))

/-- A shift by IMM14[5:0]; a nonzero IMM14[13:6] is ILLEGAL (R206). -/
def State.shiftImm (s : State) (th : SeqThread) (op : AluOp) (rd ra : Nat) (imm : BitVec 14) : State :=
  if imm.toNat ≥ 64 then s.seqExec th [] (fun k t => t.seqFault k causeIllegal 0)
  else s.seqReg th [ra] rd (fun t _ => op.eval (t.get ra) (zext14 imm))

/-- SHLI. -/
def execShli (th : SeqThread) (rd ra : Nat) (imm : BitVec 14) (s : State) : Res := .next (s.shiftImm th .shl rd ra imm)
/-- SHRI. -/
def execShri (th : SeqThread) (rd ra : Nat) (imm : BitVec 14) (s : State) : Res := .next (s.shiftImm th .shr rd ra imm)
/-- SRAI. -/
def execSrai (th : SeqThread) (rd ra : Nat) (imm : BitVec 14) (s : State) : Res := .next (s.shiftImm th .sra rd ra imm)
/-- SLTI. -/
def execSlti (th : SeqThread) (rd ra : Nat) (imm : BitVec 14) (s : State) : Res :=
  .next (s.seqReg th [ra] rd (fun t _ => AluOp.eval .slt (t.get ra) (sext14 imm)))
/-- SLTIU. -/
def execSltiu (th : SeqThread) (rd ra : Nat) (imm : BitVec 14) (s : State) : Res :=
  .next (s.seqReg th [ra] rd (fun t _ => AluOp.eval .sltu (t.get ra) (sext14 imm)))
/-- MOVLO. -/
def execMovlo (th : SeqThread) (rd : Nat) (imm : BitVec 20) (s : State) : Res := .next (s.seqReg th [] rd (fun _ _ => BitVec.setWidth 64 imm))
/-- MOVHI. -/
def execMovhi (th : SeqThread) (rd : Nat) (imm : BitVec 20) (s : State) : Res :=
  .next (s.seqReg th [rd] rd (fun t _ => t.get rd ||| (BitVec.setWidth 64 imm <<< 20)))

/-! ### Loads, stores and atomics (R201, R207, R210, R211) -/

/-- An access of n bytes checked in the order of R207 and R201: the fault's cause, or the DPA. -/
def State.seqAddr (s : State) (k : Nat) (a : Val) (n : Nat) (perm : Perm) : Except Nat Dpa :=
  if a.toNat ≥ 2 ^ 40 then .error causeBounds
  else if a.toNat % n ≠ 0 then .error causeMisaligned
  else if !s.windowOk (s.seqPart k) perm a.toNat n then .error causeBounds
  else .ok a.toNat

/-- The bytes of a range after a thread's posted stores that have not been performed (R210). -/
def forward (stores : List StoreEntry) (d : Dpa) (bs : List Byte) : List Byte :=
  stores.foldl (fun xs e => ((List.range xs.length).zip xs).map (fun (p : Nat × Byte) =>
    if e.dpa ≤ d + p.1 ∧ d + p.1 < e.dpa + e.bytes.length then e.bytes.getD (d + p.1 - e.dpa) p.2 else p.2)) bs

/-- A line of a core's data cache dropped. -/
def SeqCore.dropLine (c : SeqCore) (d : Dpa) : SeqCore := { c with dcache := Tab.del c.dcache (d / 256) }

/-- The agent of a thread's memory accesses. -/
def State.seqAgent (s : State) (k : Nat) : Agent := ⟨.seq (coreKey k), k % 32, some (s.seqPart k), false⟩

/-- The value that a load gives its register. -/
def loadValue (bs : List Byte) (isSigned : Bool) : Val :=
  if isSigned then BitVec.signExtend 64 (BitVec.ofNat 32 (leNat bs)) else BitVec.ofNat 64 (leNat bs)

/-- A load that hits the core's data cache, where the core still holds the line. -/
def State.dcacheHit (s : State) (k : Nat) (d : Dpa) (n : Nat) (cached noncached : Bool) : Option (List Byte) :=
  if noncached || !cached then none
  else (Tab.find (s.core (coreKey k)).dcache (d / 256)).map (fun l =>
    forward ((s.core (coreKey k)).stores.filter (fun e => e.thread == k % 32)) d ((l.drop (d % 256)).take n))

/-- A load instruction: its faults, a hit, or the wait for its data; a miss that the bank limit holds back waits with
BANK_CAP (R219). LDNC first drops its line from the data cache (R211). -/
def State.seqLoad (s : State) (th : SeqThread) (rd ra : Nat) (imm : BitVec 14) (n : Nat) (isSigned noncached cached : Bool) : State :=
  s.seqExec th [ra] (fun k t =>
    match t.seqAddr k ((t.sth k).get ra + sext14 imm) n .r with
    | .error cause => t.seqFault k cause 0
    | .ok d =>
      match t.dcacheHit k d n cached noncached with
      | some bs => (t.setSth k ((t.sth k).put rd (loadValue bs isSigned))).seqDone k
      | none =>
        let t1 := t.setCore (coreKey k) ((t.core (coreKey k)).dropLine d)
        match targetOf d with
        | .gesso _ _ =>
          if decide (t1.slotBar (keyOf d) (some (t1.seqPart k)) false = .bank) && (t1.line (keyOf d)).isNone && (t1.slot (keyOf d)).isNone then
            (t1.bump CNV_GLZ_BANK_HOTSPOT.COUNT (d / 0x1000000000) 1).seqWait k (.bankCap d)
          else t1.seqWait k (.load rd d n isSigned noncached)
        | _ => t1.seqWait k (.load rd d n isSigned noncached))

/-- LD8. -/
def execLd8 (th : SeqThread) (rd ra : Nat) (imm : BitVec 14) (cached : Bool) (s : State) : Res := .next (s.seqLoad th rd ra imm 1 false false cached)
/-- LD16. -/
def execLd16 (th : SeqThread) (rd ra : Nat) (imm : BitVec 14) (cached : Bool) (s : State) : Res := .next (s.seqLoad th rd ra imm 2 false false cached)
/-- LD32. -/
def execLd32 (th : SeqThread) (rd ra : Nat) (imm : BitVec 14) (cached : Bool) (s : State) : Res := .next (s.seqLoad th rd ra imm 4 false false cached)
/-- LD64. -/
def execLd64 (th : SeqThread) (rd ra : Nat) (imm : BitVec 14) (cached : Bool) (s : State) : Res := .next (s.seqLoad th rd ra imm 8 false false cached)
/-- LD32S. -/
def execLd32s (th : SeqThread) (rd ra : Nat) (imm : BitVec 14) (cached : Bool) (s : State) : Res := .next (s.seqLoad th rd ra imm 4 true false cached)
/-- LDNC (R211). -/
def execLdnc (th : SeqThread) (rd ra : Nat) (imm : BitVec 14) (s : State) : Res := .next (s.seqLoad th rd ra imm 8 false true false)

/-- PF (R220): the line is prefetched, or the instruction is dropped; it never waits and never faults on bounds. -/
def execPf (th : SeqThread) (ra : Nat) (imm : BitVec 14) (victim : Nat) (s : State) : Res :=
  .next (s.seqExec th [ra] (fun k t =>
    let a := ((t.sth k).get ra + sext14 imm).toNat
    let t1 := match targetOf a with
      | .gesso c o =>
        if decide (a < 2 ^ 40) && t.windowOk (t.seqPart k) .r a 1 && (t.refusal (glazeIsland c (o / 2048))).isNone then
          t.prefetchLine (lineKey c (o / 2048)) ⟨.seq (coreKey k), k % 32, a, 1, some (t.seqPart k), false, victim⟩
        else t
      | _ => t
    t1.seqDone k))

/-- A store instruction (R210, R211): posted into the core's store buffer, and into the data cache's copy; a store to
the host window is sent at once. With the buffer full the thread waits with STORE_BUF. -/
def State.seqStore (s : State) (th : SeqThread) (rs ra : Nat) (imm : BitVec 14) (n : Nat) : State :=
  s.seqExec th [ra, rs] (fun k t =>
    match t.seqAddr k ((t.sth k).get ra + sext14 imm) n .w with
    | .error cause => t.seqFault k cause 0
    | .ok d =>
      let bs := leBytes n ((t.sth k).get rs).toNat
      let c := t.core (coreKey k)
      match targetOf d with
      | .host _ => (t.hostWrite d bs).2.seqDone k
      | _ =>
        if c.stores.length ≥ 16 then t.seqWait k .storeBuf
        else
          let e : StoreEntry := ⟨k % 32, d, bs⟩
          let dc := match Tab.find c.dcache (d / 256) with
            | some l => Tab.put c.dcache (d / 256) (forward [e] (d / 256 * 256) l)
            | none => c.dcache
          (t.setCore (coreKey k) { c with stores := c.stores ++ [e], dcache := dc }).seqDone k)

/-- ST8. -/
def execSt8 (th : SeqThread) (rs ra : Nat) (imm : BitVec 14) (s : State) : Res := .next (s.seqStore th rs ra imm 1)
/-- ST16. -/
def execSt16 (th : SeqThread) (rs ra : Nat) (imm : BitVec 14) (s : State) : Res := .next (s.seqStore th rs ra imm 2)
/-- ST32. -/
def execSt32 (th : SeqThread) (rs ra : Nat) (imm : BitVec 14) (s : State) : Res := .next (s.seqStore th rs ra imm 4)
/-- ST64. -/
def execSt64 (th : SeqThread) (rs ra : Nat) (imm : BitVec 14) (s : State) : Res := .next (s.seqStore th rs ra imm 8)

/-- An AMO instruction: its faults, then the wait for the old value; its line leaves the data cache (R211). -/
def State.seqAmo (s : State) (th : SeqThread) (op : AtomicOp) (rd ra rb : Nat) (wide : Bool) : State :=
  s.seqExec th (if op = .cas then [ra, rb, rd] else [ra, rb]) (fun k t =>
    let n := if wide then 8 else 4
    match t.seqAddr k ((t.sth k).get ra) n .w with
    | .error cause => t.seqFault k cause 0
    | .ok d => (t.setCore (coreKey k) ((t.core (coreKey k)).dropLine d)).seqWait k
        (.amo rd d op n ((t.sth k).get rb) ((t.sth k).get rd)))

/-- AMO ADD. -/
def execAmoAdd (th : SeqThread) (rd ra rb : Nat) (wide : Bool) (s : State) : Res := .next (s.seqAmo th .add rd ra rb wide)
/-- AMO SWAP. -/
def execAmoSwap (th : SeqThread) (rd ra rb : Nat) (wide : Bool) (s : State) : Res := .next (s.seqAmo th .swap rd ra rb wide)
/-- AMO CAS. -/
def execAmoCas (th : SeqThread) (rd ra rb : Nat) (wide : Bool) (s : State) : Res := .next (s.seqAmo th .cas rd ra rb wide)
/-- AMO MAXU. -/
def execAmoMaxu (th : SeqThread) (rd ra rb : Nat) (wide : Bool) (s : State) : Res := .next (s.seqAmo th .maxu rd ra rb wide)

/-! ### Branches and jumps -/

/-- A misprediction counted (R203, R204: prediction affects timing only). -/
def State.predict (s : State) (k : Nat) (predicted : Bool) : State :=
  s.when (!predicted) (·.bump CNV_SEQ_MISPREDICT.COUNT (k / 512) 1)

/-- A branch to PC + 4 × IMM14 when a comparison holds. -/
def State.seqBranch (s : State) (th : SeqThread) (ra rb : Nat) (imm : BitVec 14) (predicted : Bool) (cond : Val → Val → Bool) : State :=
  s.seqExec th [ra, rb] (fun k t =>
    let t1 := t.predict k predicted
    if cond ((t.sth k).get ra) ((t.sth k).get rb) then
      (t1.wr CNV_SEQ_THR_PC.PC k (t.rd CNV_SEQ_THR_PC.PC k + sext14 imm)).bump CNV_SEQ_INSTR.COUNT (k / 512) 1
    else t1.seqDone k)

/-- BEQ. -/
def execBeq (th : SeqThread) (ra rb : Nat) (imm : BitVec 14) (predicted : Bool) (s : State) : Res := .next (s.seqBranch th ra rb imm predicted (fun a b => a == b))
/-- BNE. -/
def execBne (th : SeqThread) (ra rb : Nat) (imm : BitVec 14) (predicted : Bool) (s : State) : Res := .next (s.seqBranch th ra rb imm predicted (fun a b => a != b))
/-- BLT. -/
def execBlt (th : SeqThread) (ra rb : Nat) (imm : BitVec 14) (predicted : Bool) (s : State) : Res := .next (s.seqBranch th ra rb imm predicted (fun a b => a.slt b))
/-- BGE. -/
def execBge (th : SeqThread) (ra rb : Nat) (imm : BitVec 14) (predicted : Bool) (s : State) : Res := .next (s.seqBranch th ra rb imm predicted (fun a b => !a.slt b))
/-- BLTU. -/
def execBltu (th : SeqThread) (ra rb : Nat) (imm : BitVec 14) (predicted : Bool) (s : State) : Res := .next (s.seqBranch th ra rb imm predicted (fun a b => a.ult b))
/-- BGEU. -/
def execBgeu (th : SeqThread) (ra rb : Nat) (imm : BitVec 14) (predicted : Bool) (s : State) : Res := .next (s.seqBranch th ra rb imm predicted (fun a b => !a.ult b))

/-- The return address of a jump. -/
def State.returnAddr (s : State) (k : Nat) : Val := BitVec.ofNat 64 ((s.seqPc k + 4) % 2 ^ 40)

/-- JAL. -/
def execJal (th : SeqThread) (rd : Nat) (imm : BitVec 20) (predicted : Bool) (s : State) : Res :=
  .next (s.seqExec th [] (fun k t =>
    let t1 := (t.predict k predicted).setSth k ((t.sth k).put rd (t.returnAddr k))
    (t1.wr CNV_SEQ_THR_PC.PC k (t.rd CNV_SEQ_THR_PC.PC k + BitVec.signExtend 64 imm)).bump CNV_SEQ_INSTR.COUNT (k / 512) 1))

/-- JALR (R207): the target must be 4 B aligned, and an address. -/
def execJalr (th : SeqThread) (rd ra : Nat) (imm : BitVec 14) (predicted : Bool) (s : State) : Res :=
  .next (s.seqExec th [ra] (fun k t =>
    let a := ((t.sth k).get ra + sext14 imm).toNat
    if a ≥ 2 ^ 40 then t.seqFault k causeBounds 0
    else if a % 4 ≠ 0 then t.seqFault k causeMisaligned 0
    else ((t.predict k predicted).setSth k ((t.sth k).put rd (t.returnAddr k))).seqJump k a))

/-! ### Fences, CSRs, mailboxes -/

/-- Whether a thread has posted stores that are not yet performed. -/
def State.seqStores (s : State) (k : Nat) : Bool := (s.core (coreKey k)).stores.any (fun e => e.thread == k % 32)

/-- The whole data cache of a thread's core dropped (R212). -/
def State.seqInvalidate (s : State) (k : Nat) : State := s.setCore (coreKey k) { s.core (coreKey k) with dcache := [] }

/-- FENCE (R212). -/
def execFence (th : SeqThread) (rel acq : Bool) (s : State) : Res :=
  .next (s.seqExec th [] (fun k t =>
    if rel && t.seqStores k then t.seqWait k (.fence acq false)
    else (t.when acq (·.seqInvalidate k)).seqDone k))

/-- An instruction that acts as if a FENCE with REL preceded it (R213). -/
def State.seqReleased (s : State) (th : SeqThread) (srcs : List Nat) (body : Nat → State → State) : State :=
  s.seqExec th srcs (fun k t => if t.seqStores k then t.seqWait k (.fence false true) else body k t)

/-- CSRR: the CSR table; an index outside it is ILLEGAL (R206). The count of the island's clock cycles is left open. -/
def execCsrr (th : SeqThread) (rd : Nat) (csr : BitVec 14) (s : State) : Res :=
  .next (s.seqExec th [] (fun k t =>
    let give := fun (v : Val) (u : State) => (u.setSth k ((u.sth k).put rd v)).seqDone k
    match csr.toNat with
    | 0 => give (BitVec.ofNat 64 (k % 32 + k % 512 / 32 * 32 + k / 512 * 512 + t.seqPart k * 2048)) t
    | 1 => let d := t.draw; give d.1 d.2
    | 2 => give (t.rd GLB_TIME.NS 0) t
    | 3 => give (t.rd CNV_FIN_STEP.STEP (t.seqPart k)) t
    | 4 => give (t.rd SPR_COORD.COORD 0) t
    | 5 => give (t.sth k).scratch t
    | _ => t.seqFault k causeIllegal 0))

/-- CSRW (R206): SCRATCH is the one CSR that can be written. -/
def execCsrw (th : SeqThread) (ra : Nat) (csr : BitVec 14) (s : State) : Res :=
  .next (s.seqExec th (if csr = 5 then [ra] else []) (fun k t =>
    if csr = 5 then (t.setSth k { t.sth k with scratch := (t.sth k).get ra }).seqDone k
    else t.seqFault k causeIllegal 0))

/-- The value that a mailbox word gives a register. -/
def mailValue (w : Word32) : Val := BitVec.setWidth 64 w + 4294967296

/-- MBXWAIT (R214): a word that no other thread waits for is taken at once; otherwise the thread waits, or with TRY
goes on with 0. -/
def execMbxwait (th : SeqThread) (rd ra : Nat) (tryOnly : Bool) (s : State) : Res :=
  .next (s.seqExec th [ra] (fun k t =>
    let m := ((t.sth k).get ra).toNat % 4096
    let free := t.island (tetherIsland (m / 1024)) = islActive ∧ (t.box m).waiters = []
    match (if free then t.mailTake m else none) with
    | some (w, t1) => (t1.setSth k ((t1.sth k).put rd (mailValue w))).seqDone k
    | none =>
      if tryOnly then (t.setSth k ((t.sth k).put rd 0)).seqDone k
      else (t.setBox m { t.box m with waiters := (t.box m).waiters ++ [th] }).seqWait k (.mailbox rd m)))

/-- MBXPOST (R213, R215). -/
def execMbxpost (th : SeqThread) (ra rb : Nat) (s : State) : Res :=
  .next (s.seqReleased th [ra, rb] (fun k t =>
    (t.post (((t.sth k).get ra).toNat % 4096) (BitVec.setWidth 32 ((t.sth k).get rb))).seqDone k))

/-- YIELD (R202): the turn ends; the thread stays READY. -/
def execYield (th : SeqThread) (s : State) : Res := .next (s.seqExec th [] (fun k t => (t.seqDone k).seqReady k))

/-- HALT (R205). -/
def execHalt (th : SeqThread) (s : State) : Res := .next (s.seqExec th [] (fun k t => (t.seqDone k).seqStop k 2))

/-- Whether an instruction word is ILLEGAL (R206): a reserved OP or FN, or a nonzero unused field; a CSR index
outside the table, or a CSRW to a read-only CSR. -/
def seqIllegal (w : Word32) : Bool :=
  let n := w.toNat
  let op := n / 2 ^ 26
  let rd := n / 2 ^ 20 % 64
  let ra := n / 2 ^ 14 % 64
  let rb := n / 2 ^ 8 % 64
  let fn := n % 256
  let imm := n % 2 ^ 14
  if op = 0 then fn == 15 || fn == 19 || decide (fn > 22)
  else if op ≤ 4 then false
  else if op ≤ 7 then decide (imm ≥ 64)
  else if op ≤ 9 then false
  else if op = 0x0A ∨ op = 0x0B then false
  else if 0x10 ≤ op ∧ op ≤ 0x15 then false
  else if op = 0x16 then decide (rd ≠ 0)
  else if 0x18 ≤ op ∧ op ≤ 0x1B then false
  else if op = 0x1C then decide (fn ≥ 8)
  else if 0x20 ≤ op ∧ op ≤ 0x25 then false
  else if op = 0x28 ∨ op = 0x29 then false
  else if op = 0x30 then decide (imm ≥ 4) || decide (rd ≠ 0) || decide (ra ≠ 0)
  else if op = 0x31 then decide (ra ≠ 0) || decide (imm > 5)
  else if op = 0x32 then decide (rd ≠ 0) || decide (imm ≠ 5)
  else if op = 0x33 then decide (rb ≠ 0) || decide (fn > 1)
  else if op = 0x34 then decide (rd ≠ 0) || decide (fn ≠ 0)
  else if op = 0x35 then decide (rd ≠ 0) || decide (rb ≠ 0) || (fn != 1 && fn != 2)
  else if op = 0x36 ∨ op = 0x37 then decide (fn ≠ 0)
  else if op = 0x38 ∨ op = 0x39 then decide (n % 2 ^ 26 ≠ 0)
  else true

/-- ILLEGAL_INSTRUCTION (R206): an illegal word faults its thread with cause ILLEGAL. -/
def execIllegalInstruction (th : SeqThread) (word : Word32) (s : State) : Res :=
  .next (if seqIllegal word then s.seqExec th [] (fun k t => t.seqFault k causeIllegal 0) else s)

/-! ### Switching, waits, enabling -/

/-- The READY thread of a core that has waited longest, the lowest number among equals (R202). -/
def State.longestReady (s : State) (c : Nat) : Option Nat :=
  (List.range 32).foldl (fun (best : Option Nat) t =>
    let k := c * 32 + t
    if s.rdN CNV_SEQ_THR_CTL.STATE k == 1 then
      match best with
      | some b => if (s.sth k).ready < (s.sth b).ready then some k else some b
      | none => some k
    else best) none

/-- THREAD_SWITCH (R202): with no RUNNING thread, or after 64 consecutive issue cycles with another READY, the core
makes the longest-READY thread RUNNING. -/
def execThreadSwitch (canvas core : Nat) (s : State) : Res :=
  let c := canvas * 16 + core
  let running := (List.range 32).find? (fun t => s.rdN CNV_SEQ_THR_CTL.STATE (c * 32 + t) == 2)
  .next (if !(decide (canvas < 4) && decide (core < 16) && decide (s.island (seqIsland c) = islActive)) then s
    else match s.longestReady c with
    | none => s
    | some k =>
      if running.isNone || decide ((s.core c).issued ≥ 64) then
        let s1 := match running with | some t => s.seqReady (c * 32 + t) | none => s
        ((s1.setCore c { s1.core c with issued := 0 }).wrN CNV_SEQ_THR_CTL.STATE k 2).bump CNV_SEQ_SWITCH.COUNT canvas 1
      else s)

/-- A wait with data outstanding ends: a thread that is stopping discards it, an error faults the thread, otherwise
the register takes its value and the thread is READY. -/
def State.seqReturn (s : State) (k rd : Nat) (code : Code) (v : Val) : State :=
  let t := s.sth k
  if t.stop ≠ 0 then (s.setSth k { t with wait := none }).seqStop k t.stop
  else if code ≠ 0 then (s.setSth k { t with wait := none }).seqFault k causeMem code
  else ((s.setSth k (t.put rd v)).seqDone k).seqReady k

/-- A load's data (R210, R211): the line is filled into the data cache unless the load bypasses it. -/
def State.loadReturn (s : State) (k rd : Nat) (d : Dpa) (n : Nat) (isSigned noncached : Bool) : State :=
  match s.readRange (s.seqAgent k) d n with
  | .wait t => t
  | .done code bs t =>
    let c := t.core (coreKey k)
    let mine := c.stores.filter (fun e => e.thread == k % 32)
    let t1 := match targetOf d, noncached with
      | .gesso _ _, false =>
        let l := t.glz.data
        if code = 0 ∧ (t.line (keyOf d)).isSome then
          t.setCore (coreKey k) { c with dcache := Tab.put c.dcache (d / 256) (forward c.stores (d / 256 * 256) (getBytes l (d / 256 * 256) 256)) }
        else t
      | _, _ => t
    t1.seqReturn k rd code (loadValue (forward mine d bs) isSigned)

/-- SEQ_WAIT_END (R202): what the thread waits for occurs, where the state lets it. -/
def execSeqWaitEnd (th : SeqThread) (s : State) : Res :=
  let k := seqKey th
  .next (if s.rdN CNV_SEQ_THR_CTL.STATE k != 3 then s else
  match (s.sth k).wait with
  | none => s
  | some .ifetch => s.seqReady k
  | some (.load rd d n sg nc) => s.loadReturn k rd d n sg nc
  | some (.amo rd d op n x cmp) =>
    match s.access1 (s.seqAgent k) d n (.atomic op x cmp) with
    | .wait _ => s
    | .done code bs t => t.seqReturn k rd code (BitVec.ofNat 64 (leNat bs))
  | some .storeBuf => if (s.core (coreKey k)).stores.length < 16 then s.seqReady k else s
  | some (.mailbox _ _) => s
  | some (.fence acq implied) =>
    if s.seqStores k then s
    else if implied then s.seqReady k
    else ((s.when acq (·.seqInvalidate k)).seqDone k).seqReady k
  | some (.command c) => if (s.woQueue CNV_STM_TRN_CMD.OP c).length < 32 then s.seqReady k else s
  | some (.bankCap d) => if s.slotBar (keyOf d) (some (s.seqPart k)) false ≠ .bank then s.seqReady k else s)

/-- SEQ_ENABLE (R200): a write of 1 to ENABLE starts a thread that is IDLE, HALTED or FAULTED from its PC; SCRATCH is
cleared. -/
def execSeqEnable (th : SeqThread) (s : State) : Res :=
  let k := seqKey th
  let st := s.rdN CNV_SEQ_THR_CTL.STATE k
  .next (if !(decide (th.canvas < 4) && decide (th.core < 16) && decide (th.thread < 32) &&
      decide (s.island (seqIsland (coreKey k)) = islActive)) then s
    else
      let s1 := s.set1 CNV_SEQ_THR_CTL.ENABLE k
      if st = 0 ∨ st = 4 ∨ st = 5 then (s1.setSth k { s1.sth k with scratch := 0, stop := 0 }).seqReady k else s1)

/-- SEQ_DISABLE (R205): a write of 0 to ENABLE stops the thread at its next boundary. -/
def execSeqDisable (th : SeqThread) (s : State) : Res :=
  let k := seqKey th
  let st := s.rdN CNV_SEQ_THR_CTL.STATE k
  .next (if !(decide (th.canvas < 4) && decide (th.core < 16) && decide (th.thread < 32) &&
      decide (s.island (seqIsland (coreKey k)) = islActive)) then s
    else
      let s1 := s.clr CNV_SEQ_THR_CTL.ENABLE k
      if st = 0 then s1 else s1.seqStop k 1)

/-- MAILBOX_POST (R215, R621): a post arrives at its mailbox. -/
def execMailboxPost (mbx : Nat) (word : Word32) (s : State) : Res := .next (s.post mbx word)

/-- MBX_POST_REGISTER (R215): a write of CNV_SEQ_MBX_POST. -/
def execMbxPostRegister (mbx : Nat) (word : Word32) (s : State) : Res := .next (s.post mbx word)

/-- MAILBOX_DELIVER (R214): the oldest word goes to the thread that has waited longest, which becomes READY. -/
def execMailboxDeliver (mbx : Nat) (s : State) : Res :=
  let m := mbx % 4096
  .next (if s.island (tetherIsland (m / 1024)) ≠ islActive then s else
  match (s.box m).waiters, s.mailTake m with
  | th :: _, some (w, t) =>
    let k := seqKey th
    let t1 := t.setBox m { t.box m with waiters := (t.box m).waiters.drop 1 }
    match (t1.sth k).wait with
    | some (.mailbox rd _) => ((t1.setSth k ((t1.sth k).put rd (mailValue w))).seqDone k).seqReady k
    | _ => t1
  | _, _ => s)

end Sys2Proof.Machine
end

