-- ==== Sys2Proof/Machine/Rows.lean ====
section
/-! DEFINITION. The row engines and their queues (chapter 08). -/

namespace Sys2Proof.Machine

/-- A row queue. -/
def rowQ (c q : Nat) : QId := ⟨.row, c * 65 + q⟩

/-- The row operations (R262). -/
inductive RowOp where
  | copy | fill | zero | and | or | xor | andn | xnor | not | select
deriving DecidableEq, Repr

/-- The operation of a code. -/
def rowOpOf : Nat → Option RowOp
  | 1 => some .copy | 2 => some .fill | 3 => some .zero | 4 => some .and | 5 => some .or | 6 => some .xor
  | 7 => some .andn | 8 => some .xnor | 9 => some .not | 10 => some .select | _ => none

/-- Whether an operation reads A. -/
def RowOp.readsA : RowOp → Bool
  | .fill => false | .zero => false | _ => true

/-- Whether an operation reads B. -/
def RowOp.readsB : RowOp → Bool
  | .and => true | .or => true | .xor => true | .andn => true | .xnor => true | .select => true | _ => false

/-- A signed number of w bits. -/
def signed (w v : Nat) : Int := if v ≥ 2 ^ (w - 1) then (v : Int) - 2 ^ w else v

/-- The fields of a row command (R264). -/
def rowFields (seq : Nat) (bs : List Byte) : RowCmd :=
  let f1 := bs.getD 1 0
  { seq := seq, op := leField bs 0 1, notify := f1.getLsbD 1, irq := f1.getLsbD 2, mbx := leField bs 2 2 % 4096,
    lines := leField bs 4 4 % 33554432 + 1,
    dst := leField bs 8 5, dstStep := signed 16 (leField bs 13 2),
    a := leField bs 16 5, aStep := signed 16 (leField bs 21 2),
    b := leField bs 24 5, bStep := signed 16 (leField bs 29 2),
    pattern := BitVec.ofNat 64 (leField bs 24 8), next := 0, flying := [], fail := none }

/-- Line i of an operand (R265). -/
def rowLine (d : Dpa) (step : Int) (i : Nat) : Int := (d % 0x1000000000 / 2048 : Nat) + step * i

/-- The lines that row operation i names, each with whether it is read and whether it is written. -/
def RowCmd.operands (k : RowCmd) (op : RowOp) (i : Nat) : List (Int × Bool × Bool) :=
  (if op.readsA then [(rowLine k.a k.aStep i, true, false)] else []) ++
  (if op.readsB then [(rowLine k.b k.bStep i, true, false)] else []) ++
  [(rowLine k.dst k.dstStep i, op == .select, true)]

/-- Whether the form of a command breaks R264 or R265. -/
def rowBadForm (k : RowCmd) (op : RowOp) (bs : List Byte) : Bool :=
  decide (leField bs 1 1 / 8 ≠ 0) || decide (leField bs 2 2 / 4096 ≠ 0) || decide (leField bs 4 4 / 33554432 ≠ 0) ||
  decide (leField bs 15 1 ≠ 0) || decide (k.dst % 2048 ≠ 0) ||
  (if op.readsA then decide (leField bs 23 1 ≠ 0) || decide (k.a % 2048 ≠ 0) else decide (leField bs 16 8 ≠ 0)) ||
  (if op.readsB then decide (leField bs 31 1 ≠ 0) || decide (k.b % 2048 ≠ 0)
    else if op = .fill then false else decide (leField bs 24 8 ≠ 0)) ||
  (decide (k.dstStep = 0) && decide (k.lines > 1))

/-- Whether a line of the canvas exists, as an integer. -/
def State.lineInt (s : State) (c : Nat) (l : Int) : Bool := decide (0 ≤ l) && s.lineExists c l.toNat

/-- Whether a DPA lies in the gesso window of a canvas. -/
def inCanvas (c : Nat) (d : Dpa) : Bool :=
  match targetOf d with
  | .gesso k _ => decide (k = c)
  | .nowhere => decide (d < 0x4000000000) && decide (d / 0x1000000000 = c)
  | _ => false

/-- Whether the placement of R260 holds between two lines; neighbour positions are allowed to a copy. -/
def State.placed (s : State) (c : Nat) (copy : Bool) (x y : Nat) : Bool :=
  let r := s.rowOf c x
  let q := s.rowOf c y
  decide (r.1 = q.1) && (decide (r.2.1 = q.2.1) || (copy && (decide (r.2.1 = q.2.1 + 1) || decide (q.2.1 = r.2.1 + 1))))

/-- The first operation of a command that has an operand satisfying a test: the operand's line as a DPA. -/
def RowCmd.firstBad (k : RowCmd) (op : RowOp) (c : Nat) (bad : Int × Bool × Bool → Bool) : Nat → Nat → Option Dpa
  | 0, _ => none
  | n + 1, i =>
    match (k.operands op i).find? bad with
    | some x => some (lineDpa c (max 0 x.1).toNat)
    | none => RowCmd.firstBad k op c bad n (i + 1)

/-- The check of R266: the refusal's code and the line it is tied to, none where the command may run. -/
def State.rowCheck (s : State) (c q : Nat) (k : RowCmd) (op : RowOp) (bs : List Byte) : Option (Code × Dpa) :=
  if rowBadForm k op bs then some (0x0902, 0)
  else if !inCanvas c k.dst then some (0x0903, k.dst)
  else if op.readsA && !inCanvas c k.a then some (0x0903, k.a)
  else if op.readsB && !inCanvas c k.b then some (0x0903, k.b)
  else match k.firstBad op c (fun x => !s.lineInt c x.1) k.lines 0 with
  | some d => some (0x0903, d)
  | none =>
    match (if q < 64 then k.firstBad op c (fun x =>
        (x.2.1 && !s.windowOk (c * 64 + q) .r (lineDpa c x.1.toNat) 2048) ||
        (x.2.2 && !s.windowOk (c * 64 + q) .w (lineDpa c x.1.toNat) 2048)) k.lines 0 else none) with
    | some d => some (0x0904, d)
    | none =>
      match (List.range k.lines).find? (fun i => (k.operands op i).any (fun x =>
          !s.placed c (decide (op = .copy)) x.1.toNat (rowLine k.dst k.dstStep i).toNat)) with
      | some i => some (0x0905, lineDpa c (rowLine k.dst k.dstStep i).toNat)
      | none => if s.conf && decide (op ≠ .copy) && decide (op ≠ .zero) then some (0x0906, 0) else none

/-- The running commands of a row queue. -/
def State.rowCmds (s : State) (c q : Nat) : List RowCmd := Tab.get s.rows.cmds (c * 65 + q) []

/-- The running commands at a content; STATE follows (R622). -/
def State.setRowCmds (s : State) (c q : Nat) (ks : List RowCmd) : State :=
  ({ s with rows := { cmds := Tab.set s.rows.cmds (c * 65 + q) ks [] } }).qBusy (rowQ c q) (ks.any (fun k => !k.flying.isEmpty))

/-- A failed row command (R273), with the line it is tied to. -/
def State.rowFail (s : State) (c q seq : Nat) (code : Code) (line : Dpa) (notify : Bool) (mbx : Nat) : State :=
  (s.qFail (rowQ c q) seq code notify mbx).wrN CNV_ROW_Q_FAIL.DPA (c * 65 + q) line

/-- A row queue reads its next command where its operation is the given one (none: a reserved one), checks it and
starts it, or refuses it (R266, R271). -/
def State.rowStart (s : State) (c q : Nat) (want : Option RowOp) : State :=
  if !(decide (c < 4) && decide (q < 65)) then s else
  match s.qNext (rowQ c q) with
  | .idle t => t
  | .failed t => t
  | .cmd bs t =>
    let k := rowFields (t.ring (rowQ c q)).read bs
    if rowOpOf k.op ≠ want then s
    else if !t.qMayStart (rowQ c q) ((bs.getD 1 0).getLsbD 0) (t.rowCmds c q).length 7 then s
    else
      let refuse := fun (code : Code) (d : Dpa) => (t.qTake (rowQ c q)).rowFail c q k.seq code d k.notify k.mbx
      match want with
      | none => refuse 0x0901 0
      | some op =>
        match t.rowCheck c q k op bs with
        | some e => refuse e.1 e.2
        | none => (t.qTake (rowQ c q)).setRowCmds c q (t.rowCmds c q ++ [k])

/-- ROW_COPY (R262, R263). -/
def execRowCopy (canvas queue : Nat) (s : State) : Res := .next (s.rowStart canvas queue (some .copy))
/-- ROW_FILL (R262). -/
def execRowFill (canvas queue : Nat) (s : State) : Res := .next (s.rowStart canvas queue (some .fill))
/-- ROW_ZERO (R262). -/
def execRowZero (canvas queue : Nat) (s : State) : Res := .next (s.rowStart canvas queue (some .zero))
/-- ROW_AND (R262). -/
def execRowAnd (canvas queue : Nat) (s : State) : Res := .next (s.rowStart canvas queue (some .and))
/-- ROW_OR (R262). -/
def execRowOr (canvas queue : Nat) (s : State) : Res := .next (s.rowStart canvas queue (some .or))
/-- ROW_XOR (R262). -/
def execRowXor (canvas queue : Nat) (s : State) : Res := .next (s.rowStart canvas queue (some .xor))
/-- ROW_ANDN (R262). -/
def execRowAndn (canvas queue : Nat) (s : State) : Res := .next (s.rowStart canvas queue (some .andn))
/-- ROW_XNOR (R262). -/
def execRowXnor (canvas queue : Nat) (s : State) : Res := .next (s.rowStart canvas queue (some .xnor))
/-- ROW_NOT (R262). -/
def execRowNot (canvas queue : Nat) (s : State) : Res := .next (s.rowStart canvas queue (some .not))
/-- ROW_SELECT (R262). -/
def execRowSelect (canvas queue : Nat) (s : State) : Res := .next (s.rowStart canvas queue (some .select))
/-- ROW_OP_RESERVED (R266): a command whose OP is reserved is refused. -/
def execRowOpReserved (canvas queue : Nat) (s : State) : Res := .next (s.rowStart canvas queue none)

/-- The keys of the lines that row operation i names, the written one last, each once. -/
def RowCmd.keys (k : RowCmd) (op : RowOp) (c i : Nat) : List Nat :=
  ((k.operands op i).map (fun x => lineKey c x.1.toNat)).dedup

/-- What the probe of a row operation does to the glaze (R276): lines read are written back and stay, the line written is
dropped without write-back; an in-place copy keeps its clean copy. A gesso island that refuses the operation takes no
write-back either, and the lines stay as they are. -/
def State.rowClean (s : State) (k : RowCmd) (op : RowOp) (c i : Nat) : State :=
  let d := (rowLine k.dst k.dstStep i).toNat
  let dst := lineKey c d
  let reads := ((k.operands op i).filter (fun x => x.2.1)).map (fun x => lineKey c x.1.toNat)
  if (s.refusal (gessoIsland c d)).isSome then s
  else
    let s1 := s.each reads (fun x t => t.cleanLine x)
    if op = .copy ∧ reads.contains dst then s1 else s1.dropLine dst

/-- The probe of a row operation (R276): from it until the row is written every line named is held. -/
def State.rowProbe (s : State) (k : RowCmd) (op : RowOp) (c i : Nat) : State :=
  (s.rowClean k op c i).each (k.keys op c i) (fun x t => t.hold x)

/-- The row operations of the canvas dispatched and not performed that share the dispatch buffer of a line: those of its
bank, or on a FALLBACK layer those of its channel (R283). -/
def State.bankLoad (s : State) (c l : Nat) : Nat :=
  let slow := (s.rdN CNV_ROW_LAYER_MODE.FALLBACK c).testBit (layerOf l)
  ((List.range 65).flatMap (fun q => (s.rowCmds c q).flatMap (fun k => k.flying.map (fun i => rowLine k.dst k.dstStep i)))).countP
    (fun x => if slow then decide (x.toNat % 32 = l % 32) else s.placed c false x.toNat l)

/-- ROW_OP_DISPATCH (R271, R276, R277, R283): the next row operation of a running command is dispatched, unless the
queue is disabled, a line it names is held, filling or waiting to be written back, or its dispatch buffer is full. -/
def execRowOpDispatch (canvas queue seq : Nat) (s : State) : Res :=
  .next (match (s.rowCmds canvas queue).find? (fun k => k.seq == seq) with
    | none => s
    | some k =>
      match rowOpOf k.op with
      | none => s
      | some op =>
        if !s.qOn (rowQ canvas queue) || decide (k.lines ≤ k.next) ||
            (k.keys op canvas k.next).any (fun x => s.lineHeld x || (s.slot x).isSome || (s.victim x).isSome) ||
            decide (s.bankLoad canvas (rowLine k.dst k.dstStep k.next).toNat ≥ 64) then s
        else (s.rowProbe k op canvas k.next).setRowCmds canvas queue ((s.rowCmds canvas queue).map (fun x =>
          if x.seq = seq then { x with next := x.next + 1, flying := x.flying ++ [k.next] } else x)))

/-- A row as a row engine sees it: its bytes, its unreadable codewords, its metadata. -/
structure RowImage where
  bytes : List Byte
  bad   : List Nat
  info  : RowMeta
deriving DecidableEq, Repr

/-- A row read by a row engine; an uncorrectable metadata word makes every codeword uncorrectable (R281). -/
def State.rowImage (s : State) (k : Nat) : RowImage :=
  let lost := Tab.get s.gso.badMeta k false
  ⟨(List.range 8).flatMap (fun i => s.rowSector k i),
    if (s.rowMeta k).zt && !lost then [] else (List.range 64).filter (fun i => s.cwUnreadable k i),
    if lost then ⟨false, (s.rowMeta k).tag⟩ else s.rowMeta k⟩

/-- A row written by a row engine: bytes, poisoned codewords, metadata (R262, R280). -/
def State.putRow (s : State) (k : Nat) (r : RowImage) : State :=
  let s1 := { s with mem := memWriteBytes s.mem (lineDpa (keyCanvas k) (keyLine k)) r.bytes }
  ((s1.setCw k (List.range 64) false).setCw k r.bad true).setMeta k r.info

/-- The eight bytes of a fill pattern over a row. -/
def fillBytes (p : Val) : List Byte := (List.replicate 256 (leBytes 8 p.toNat)).flatten

/-- A bitwise operation over two rows, or three. -/
def bitwise (op : RowOp) (a b d : List Byte) : List Byte :=
  match op with
  | .and => List.zipWith (· &&& ·) a b
  | .or => List.zipWith (· ||| ·) a b
  | .xor => List.zipWith (· ^^^ ·) a b
  | .andn => List.zipWith (fun x y => x &&& ~~~y) a b
  | .xnor => List.zipWith (fun x y => ~~~(x ^^^ y)) a b
  | .not => a.map (~~~·)
  | .select => List.zipWith (· ||| ·) (List.zipWith (· &&& ·) b a) (List.zipWith (fun y z => ~~~y &&& z) b d)
  | _ => a

/-- What the written row becomes (R262, R280). -/
def rowResult (op : RowOp) (p : Val) (a b d : RowImage) : RowImage :=
  match op with
  | .copy => a
  | .fill => ⟨fillBytes p, [], ⟨false, 0⟩⟩
  | .zero => ⟨List.replicate 2048 0, [], RowMeta.zeroed⟩
  | .not => ⟨bitwise .not a.bytes [] [], a.bad, ⟨false, 0⟩⟩
  | .select => ⟨bitwise .select a.bytes b.bytes d.bytes, (a.bad ++ b.bad ++ d.bad).dedup, ⟨false, 0⟩⟩
  | o => ⟨bitwise o a.bytes b.bytes [], (a.bad ++ b.bad).dedup, ⟨false, 0⟩⟩

/-- Uncorrectable codewords met by a reader of a row, in the log. -/
def State.logRow (s : State) (k source : Nat) (bad : List Nat) : State :=
  let who := match source with | 2 => 0 | _ => keyCanvas k * 4096 + 0x180
  s.each bad (fun i t => t.eccLog (keyCanvas k) ⟨lineDpa (keyCanvas k) (keyLine k),
    if Tab.get s.gso.badMeta k false then logMeta else logGesso, 2, source, s.gessoLocation k i 0, who, s.rowCode k⟩)

/-- Upsets of the source rows of a row operation: numbers 0 to 64 lie in A, 65 to 129 in B, 130 to 194 in D. -/
def upsetsOf (n : Nat) (ups : List Upset) : List Upset :=
  (ups.filter (fun u => u.offset / 65 == n)).map (fun u => { u with offset := u.offset % 65 })

/-- A row operation performed on rows that the canvas's gesso islands hold: the destination, the counters, and the
first source line that was uncorrectable (R262, R279, R280). -/
def State.rowPerform (s : State) (k : RowCmd) (op : RowOp) (c i : Nat) (ups : List Upset) : State × Option Dpa :=
  let who := c * 4096 + 0x180
  let ka := lineKey c (rowLine k.a k.aStep i).toNat
  let kb := lineKey c (rowLine k.b k.bStep i).toNat
  let kd := lineKey c (rowLine k.dst k.dstStep i).toNat
  let s1 := if op.readsA then s.rowUpsets ka 3 who (upsetsOf 0 ups) else s
  let s2 := if op.readsB then s1.rowUpsets kb 3 who (upsetsOf 1 ups) else s1
  let s3 := if op = .select then s2.rowUpsets kd 3 who (upsetsOf 2 ups) else s2
  let a := s3.rowImage ka
  let b := s3.rowImage kb
  let d := s3.rowImage kd
  let srcs := (if op.readsA then [(ka, a.bad)] else []) ++ (if op.readsB then [(kb, b.bad)] else []) ++
    (if op = .select then [(kd, d.bad)] else [])
  let s4 := s3.each srcs (fun x t => t.logRow x.1 3 x.2)
  let fixed := (ups.filter (fun u => u.correctable && decide (u.offset % 65 < 64))).length
  let s5 := ((s4.putRow kd (rowResult op k.pattern a b d)).bump CNV_ROW_OPS.COUNT c 1).bump CNV_ROW_CE.COUNT c fixed
  let s6 := s5.when ((s5.rdN CNV_ROW_LAYER_MODE.FALLBACK c).testBit (layerOf (keyLine kd))) (·.bump CNV_ROW_FALLBACK_OPS.COUNT c 1)
  (s6, (srcs.find? (fun x => !x.2.isEmpty)).map (fun x => lineDpa c (keyLine x.1)))

/-- A running command whose operations have all been performed completes (R272, R273). -/
def State.rowEnd (s : State) (c q : Nat) (k : RowCmd) : State :=
  let s1 := s.setRowCmds c q ((s.rowCmds c q).filter (fun x => x.seq != k.seq))
  match k.fail with
  | some (code, d) => s1.rowFail c q k.seq code d k.notify k.mbx
  | none => s1.qComplete (rowQ c q) k.seq k.notify k.irq k.mbx

/-- ROW_OP_PERFORMED (R272, R276, R279, R280, R286): a dispatched row operation is performed, the lines are released
and the requests that waited on them applied; a gesso island that refuses ends the command. -/
def execRowOpPerformed (canvas queue seq op : Nat) (upsets : List Upset) (s : State) : Res :=
  .next (match (s.rowCmds canvas queue).find? (fun k => k.seq == seq) with
    | none => s
    | some k =>
      match rowOpOf k.op with
      | none => s
      | some o =>
        let dst := (rowLine k.dst k.dstStep op).toNat
        if !k.flying.contains op || (k.keys o canvas op).any (fun x => s.refreshing x) then s
        else
          let r := match s.refusal (gessoIsland canvas dst) with
            | some e => (s, some (e, 0))
            | none => let x := (s.rowClean k o canvas op).rowPerform k o canvas op upsets; (x.1, x.2.map (fun d => ((0x0907 : Code), d)))
          let stop := (s.refusal (gessoIsland canvas dst)).isSome
          let s1 := r.1.each (k.keys o canvas op) (fun x t => t.unhold x)
          let k1 := { k with flying := k.flying.erase op, fail := match k.fail with | some f => some f | none => r.2,
                             lines := if stop then k.next else k.lines }
          if k1.next ≥ k1.lines ∧ k1.flying = [] then s1.rowEnd canvas queue k1
          else s1.setRowCmds canvas queue ((s1.rowCmds canvas queue).map (fun x => if x.seq = seq then k1 else x)))

/-- ROW_Q_TAIL (R269, R270): a write of a row queue's TAIL. -/
def execRowQTail (port : Port) (canvas queue : Nat) (tail : Word32) (s : State) : Res :=
  .next (s.qWrite port (rowQ canvas queue) (·.qSetTail (rowQ canvas queue) (BitVec.setWidth 64 tail)))

/-- ROW_Q_RESUME (R270, R273): a write of RESUME. -/
def execRowQResume (port : Port) (canvas queue : Nat) (s : State) : Res :=
  .next (s.qWrite port (rowQ canvas queue) (·.qResume (rowQ canvas queue)))

/-- ROW_Q_ENABLE (R274): a write of ENABLE. -/
def execRowQEnable (port : Port) (canvas queue : Nat) (enable : Bool) (s : State) : Res :=
  .next (s.qWrite port (rowQ canvas queue) (·.qEnable (rowQ canvas queue) enable))

end Sys2Proof.Machine
end

