-- ==== Sys2Proof/Machine/Strokes.lean ====
section
/-! DEFINITION. The 128-bit stroke: its fields (R104 to R122), the checks made at decode that need no state, the
regions it reads and writes, and the values that the arithmetic strokes compute from the bytes of their operand
regions (R107 to R117). -/

namespace Sys2Proof.Machine

/-- Bits [hi:lo] of a stroke. -/
def strokeBits (w : BitVec 128) (hi lo : Nat) : Nat := w.toNat / 2 ^ lo % 2 ^ (hi - lo + 1)

/-- One bit of a stroke. -/
def strokeBit (w : BitVec 128) (i : Nat) : Bool := decide (strokeBits w i i = 1)

/-- A field read as a signed number of n bits. -/
def signedOf (n v : Nat) : Int := if v ≥ 2 ^ (n - 1) then (v : Int) - (2 ^ n : Nat) else v

/-- The fields of an MMA stroke (the MMA table before R107). -/
structure MmaFields where
  add : Bool
  fmtA : Nat
  fmtB : Nat
  fmtD : Nat
  ha : Nat
  hb : Nat
  hc : Nat
  hd : Nat
  ca : Bool
  cb : Bool
  cc : Bool
  sat : Bool
  g : BitVec 8
  m : Nat
  n : Nat
  steps : Nat
  hsa : Nat
  hsb : Nat
deriving DecidableEq, Repr

/-- The fields of a VEC stroke. -/
structure VecFields where
  op : Nat
  fmt : Nat
  ha : Nat
  hb : Nat
  hc : Nat
  hd : Nat
  ca : Bool
  cb : Bool
  cc : Bool
  immb : Bool
  brow : Bool
  count : Nat
  rowlen : Nat
  imm : Nat
deriving DecidableEq, Repr

/-- The fields of a RED stroke. -/
structure RedFields where
  op : Nat
  fmtIn : Nat
  fmtP : Nat
  ha : Nat
  hs : Nat
  hd : Nat
  hx : Nat
  ca : Bool
  rows : Nat
  cols : Nat
deriving DecidableEq, Repr

/-- The fields of a CVT stroke. -/
structure CvtFields where
  fmtS : Nat
  fmtD : Nat
  hs : Nat
  hss : Nat
  hd : Nat
  hds : Nat
  cs : Bool
  sat : Bool
  sr : Bool
  baxis : Bool
  spow : Int
  rows : Nat
  cols : Nat
  desc : Nat
deriving DecidableEq, Repr

/-- The fields of a MOV stroke; rlen is in bytes, stride in bytes. -/
structure MovFields where
  op : Nat
  hs : Nat
  hd : Nat
  cs : Bool
  ab : Nat
  offset : Int
  stream : Nat
  rows : Nat
  rlen : Nat
  stride : Nat
  fmt : Nat
deriving DecidableEq, Repr

/-- The fields of a TOK stroke. -/
structure TokFields where
  op : Nat
  h : Nat
  lc : Nat
  ab : Nat
  imm : Nat
deriving DecidableEq, Repr

/-- The fields of a GATHER stroke; rbytes and pitch are in bytes. -/
structure GatherFields where
  op : Nat
  hi : Nat
  hd : Nat
  ci : Bool
  cd : Bool
  ab : Nat
  count : Nat
  rbytes : Nat
  pitch : Nat
deriving DecidableEq, Repr

/-- A stroke of one of the seven classes (R104). -/
inductive Stroke where
  | mma (f : MmaFields)
  | vec (f : VecFields)
  | red (f : RedFields)
  | cvt (f : CvtFields)
  | mov (f : MovFields)
  | tok (f : TokFields)
  | gather (f : GatherFields)
deriving DecidableEq, Repr

/-- The stroke codes of R128 and the arithmetic codes of R88. -/
def codeDtypeReserved : Code := 0x0801
/-- ARITH_FORMAT_PAIR. -/
def codeFormatPair : Code := 0x0802
/-- ARITH_GRID_MISMATCH. -/
def codeGridMismatch : Code := 0x0803
/-- ARITH_MX_SPLIT. -/
def codeMxSplit : Code := 0x0804
/-- ARITH_CONTAINER_RESERVED. -/
def codeContainerReserved : Code := 0x0805
/-- STROKE_CLASS_RESERVED. -/
def codeClassReserved : Code := 0x0810
/-- STROKE_OP_RESERVED. -/
def codeOpReserved : Code := 0x0811
/-- STROKE_RESERVED_BITS. -/
def codeReservedBits : Code := 0x0812
/-- STROKE_HANDLE_INVALID. -/
def codeHandleInvalid : Code := 0x0813
/-- STROKE_REGION_BOUNDS. -/
def codeRegionBounds : Code := 0x0814
/-- STROKE_SHAPE. -/
def codeShape : Code := 0x0815
/-- STROKE_FORMAT. -/
def codeFormat : Code := 0x0816
/-- STROKE_ROLE_CONFLICT. -/
def codeRoleConflict : Code := 0x0817
/-- STROKE_ADDR_BOUNDS. -/
def codeAddrBounds : Code := 0x0818
/-- STROKE_ADDR_ALIGN. -/
def codeAddrAlign : Code := 0x0819
/-- STROKE_STREAM_INVALID. -/
def codeStreamInvalid : Code := 0x081A
/-- STROKE_DESC_INVALID. -/
def codeDescInvalid : Code := 0x081B
/-- STROKE_FETCH_ERROR. -/
def codeFetchError : Code := 0x081C
/-- STROKE_WELL_UE. -/
def codeWellUe : Code := 0x081D
/-- GATHER_INDEX_BOUNDS. -/
def codeGatherBounds : Code := 0x081E
/-- STROKE_MEM_ERROR. -/
def codeMemError : Code := 0x081F
/-- STROKE_STREAM_BROKEN. -/
def codeStreamBroken : Code := 0x0820

/-- The class code of a stroke, bits [127:124]. -/
def strokeClass (w : BitVec 128) : Nat := strokeBits w 127 124

/-- The operation code of a stroke, bits [123:120]. -/
def strokeOp (w : BitVec 128) : Nat := strokeBits w 123 120

/-- The first reserved operation code of a class; a finish program also has VEC 14 and 15 (R306). -/
def firstReservedOp (finish : Bool) : Nat → Nat
  | 0 => 2 | 1 => if finish then 16 else 14 | 2 => 5 | 3 => 1 | 4 => 7 | 5 => 13 | _ => 3

/-- Whether a reserved bit of the stroke's class is nonzero, or SETBASE's IMM[63:40] is (R104, TOK table). -/
def strokeReservedBits (w : BitVec 128) : Bool :=
  match strokeClass w with
  | 0 => decide (strokeBits w 18 0 ≠ 0)
  | 1 => decide (strokeBits w 38 32 ≠ 0)
  | 2 => decide (strokeBits w 42 0 ≠ 0)
  | 3 => decide (strokeBits w 17 0 ≠ 0)
  | 4 => decide (strokeBits w 9 0 ≠ 0)
  | 5 => decide (strokeBits w 104 64 ≠ 0) || (strokeOp w == 6 && decide (strokeBits w 63 40 ≠ 0))
  | _ => decide (strokeBits w 46 0 ≠ 0)

/-- The fields of a stroke, or STROKE_CLASS_RESERVED, STROKE_OP_RESERVED or STROKE_RESERVED_BITS in that order
(R104, R627). -/
def decodeStroke (finish : Bool) (w : BitVec 128) : Except Code Stroke :=
  if strokeClass w > 6 then .error codeClassReserved
  else if strokeOp w ≥ firstReservedOp finish (strokeClass w) then .error codeOpReserved
  else if strokeReservedBits w then .error codeReservedBits
  else
    match strokeClass w with
    | 0 => .ok (.mma ⟨strokeOp w == 1, strokeBits w 119 116, strokeBits w 115 112, strokeBits w 111 108,
        strokeBits w 107 98, strokeBits w 97 88, strokeBits w 87 78, strokeBits w 77 68, strokeBit w 67,
        strokeBit w 66, strokeBit w 65, strokeBit w 64, BitVec.ofNat 8 (strokeBits w 63 56),
        4 * (strokeBits w 55 53 + 1), 4 * (strokeBits w 52 50 + 1), strokeBits w 49 39 + 1,
        strokeBits w 38 29, strokeBits w 28 19⟩)
    | 1 => .ok (.vec ⟨strokeOp w, strokeBits w 119 116, strokeBits w 115 106, strokeBits w 105 96,
        strokeBits w 95 86, strokeBits w 85 76, strokeBit w 75, strokeBit w 74, strokeBit w 73, strokeBit w 72,
        strokeBit w 71, strokeBits w 70 51 + 1, strokeBits w 50 39 + 1, strokeBits w 31 0⟩)
    | 2 => .ok (.red ⟨strokeOp w, strokeBits w 119 116, strokeBits w 115 112, strokeBits w 111 102,
        strokeBits w 101 92, strokeBits w 91 82, strokeBits w 81 72, strokeBit w 71, strokeBits w 70 59 + 1,
        strokeBits w 58 43 + 1⟩)
    | 3 => .ok (.cvt ⟨strokeBits w 119 116, strokeBits w 115 112, strokeBits w 111 102, strokeBits w 101 92,
        strokeBits w 91 82, strokeBits w 81 72, strokeBit w 71, strokeBit w 70, strokeBit w 69, strokeBit w 68,
        signedOf 6 (strokeBits w 67 62), strokeBits w 61 50 + 1, strokeBits w 49 34 + 1, strokeBits w 33 18⟩)
    | 4 => .ok (.mov ⟨strokeOp w, strokeBits w 119 110, strokeBits w 109 100, strokeBit w 99, strokeBits w 98 96,
        signedOf 32 (strokeBits w 95 64), strokeBits w 63 52, strokeBits w 51 42 + 1, 256 * (strokeBits w 41 34 + 1),
        256 * strokeBits w 33 14, strokeBits w 13 10⟩)
    | 5 => .ok (.tok ⟨strokeOp w, strokeBits w 119 110, strokeBits w 109 108, strokeBits w 107 105,
        strokeBits w 63 0⟩)
    | _ => .ok (.gather ⟨strokeOp w, strokeBits w 119 110, strokeBits w 109 100, strokeBit w 99, strokeBit w 98,
        strokeBits w 97 95, strokeBits w 94 79 + 1, 4 * (strokeBits w 78 67 + 1), 4 * strokeBits w 66 47⟩)

/-! ### Operands -/

/-- The K per dab step of a pair (R72). -/
def kPerStep (a b : Format) : Nat :=
  if a.bits = 4 ∧ b.bits = 4 then 16 else if a.bits ≤ 8 ∧ b.bits ≤ 8 then 8 else 4

/-- The bytes that n elements of a format occupy from the start of a region (R60, R242). -/
def extentBytes (f : Format) (n : Nat) : Nat :=
  match f with
  | .exact96 => 256 * ((n + 20) / 21)
  | g => (n * g.bits + 7) / 8

/-- The format of a code; the reserved code reads as FP32 and is refused elsewhere. -/
def fmtOf (c : Nat) : Format := (Format.ofCode c).getD .fp32

/-- The K of an MMA stroke. -/
def MmaFields.k (f : MmaFields) : Nat := f.steps * kPerStep (fmtOf f.fmtA) (fmtOf f.fmtB)

/-- Whether the MMA stroke's operands are MX types. -/
def MmaFields.mx (f : MmaFields) : Bool := (fmtOf f.fmtA).isMx && (fmtOf f.fmtB).isMx

/-- The format in which an MMA stroke reads C (R110). -/
def MmaFields.cFmt (f : MmaFields) : Format :=
  match accOf (fmtOf f.fmtA) (fmtOf f.fmtB) with
  | some (.exact _) => .exact96
  | _ => .fp32

/-- Whether a VEC operation uses operand b. -/
def vecUsesB (op : Nat) : Bool := decide (op ≤ 5) || op == 7 || op == 15

/-- One use of a region by a stroke: its handle, whether it is read, whether it is written, its consume bit and
the bytes it must hold. -/
structure RegionUse where
  handle  : Nat
  reads   : Bool
  writes  : Bool
  consume : Bool
  bytes   : Nat
deriving DecidableEq, Repr

/-- The regions a stroke names, in the roles it names them (R95, R106). -/
def Stroke.uses : Stroke → List RegionUse
  | .mma f =>
    let k := f.k
    let cBytes := extentBytes f.cFmt (32 * (f.m - 1) + f.n)
    let dBytes := extentBytes (fmtOf f.fmtD) (32 * (f.m - 1) + f.n)
    let a : RegionUse := ⟨f.ha, true, false, f.ca, extentBytes (fmtOf f.fmtA) (32 * k)⟩
    let b : RegionUse := ⟨f.hb, true, false, f.cb, extentBytes (fmtOf f.fmtB) (32 * k)⟩
    let scales : List RegionUse :=
      if f.mx then [⟨f.hsa, true, false, false, 32 * ((k + 31) / 32 - 1) + f.m⟩,
        ⟨f.hsb, true, false, false, 32 * ((k + 31) / 32 - 1) + f.n⟩] else []
    let cd : List RegionUse :=
      if f.add then
        if f.hc = f.hd then [⟨f.hd, true, true, f.cc, max cBytes dBytes⟩]
        else [⟨f.hc, true, false, f.cc, cBytes⟩, ⟨f.hd, false, true, false, dBytes⟩]
      else [⟨f.hd, false, true, false, dBytes⟩]
    a :: b :: scales ++ cd
  | .vec f =>
    let e := (fmtOf f.fmt).bits / 8
    let n := f.count * e
    let ad : List RegionUse :=
      if f.ha = f.hd then [⟨f.hd, true, true, f.ca, n⟩] else [⟨f.ha, true, false, f.ca, n⟩, ⟨f.hd, false, true, false, n⟩]
    let b : List RegionUse :=
      if vecUsesB f.op && !f.immb then
        [⟨f.hb, true, false, f.cb, if f.brow then f.count / f.rowlen * e else n⟩] else []
    let c : List RegionUse := if f.op = 3 then [⟨f.hc, true, false, f.cc, n⟩] else []
    ad ++ b ++ c
  | .red f =>
    let n := f.rows * f.cols * ((fmtOf f.fmtIn).bits / 8)
    if f.op = 4 then
      [⟨f.ha, true, false, f.ca, n⟩, ⟨f.hs, true, true, false, f.rows * 8⟩,
       ⟨f.hd, false, true, false, f.rows * f.cols * ((fmtOf f.fmtP).bits / 8)⟩, ⟨f.hx, false, true, false, f.rows * 4⟩]
    else [⟨f.ha, true, false, f.ca, n⟩, ⟨f.hd, false, true, false, f.rows * 4⟩]
  | .cvt f =>
    let n := f.rows * f.cols
    [⟨f.hs, true, false, f.cs, extentBytes (fmtOf f.fmtS) n⟩] ++
    (if (fmtOf f.fmtS).isMx then [⟨f.hss, true, false, false, n / 32⟩] else []) ++
    [⟨f.hd, false, true, false, extentBytes (fmtOf f.fmtD) n⟩] ++
    (if (fmtOf f.fmtD).isMx then [⟨f.hds, false, true, false, n / 32⟩] else [])
  | .mov f =>
    let n := f.rows * f.rlen
    (if f.op = 0 ∨ f.op = 1 ∨ f.op = 4 ∨ f.op = 5 then [⟨f.hs, true, false, f.cs, n⟩] else []) ++
    (if f.op = 0 ∨ f.op = 2 ∨ f.op = 3 ∨ f.op = 6 then [⟨f.hd, false, true, false, n⟩] else [])
  | .tok f =>
    match f.op with
    | 0 => [⟨f.h, false, true, false, 0⟩]
    | 1 => [⟨f.h, true, false, true, 0⟩]
    | 2 => [⟨f.h, true, false, false, 0⟩]
    | _ => []
  | .gather f =>
    let n := f.count * f.rbytes
    ⟨f.hi, true, false, f.ci, 4 * f.count⟩ ::
      (if f.op = 0 then [⟨f.hd, false, true, false, n⟩] else [⟨f.hd, true, false, f.cd, n⟩])

/-- The handles a stroke may name twice: HA and HB of an MMA (R106). -/
def Stroke.pairAllowed : Stroke → Nat → Bool
  | .mma f, h => f.ha == f.hb && h == f.ha
  | _, _ => false

/-- Whether a handle is repeated outside the pairs that R106 allows. -/
def Stroke.roleConflict (s : Stroke) : Bool :=
  let hs := s.uses.map (·.handle)
  hs.any (fun h =>
    let n := hs.count h
    decide (n > 2) || (decide (n = 2) && !s.pairAllowed h)) ||
  (match s with
   | .mma f => f.add && f.hc == f.hd && decide ((fmtOf f.fmtD).bits < f.cFmt.bits)
   | _ => false)

/-- Whether a stroke names the reserved format code in an operand or result field (R56). -/
def Stroke.dtypeReserved : Stroke → Bool
  | .mma f => f.fmtA == 15 || f.fmtB == 15 || f.fmtD == 15
  | .vec f => f.fmt == 15
  | .red f => f.fmtIn == 15 || (f.op == 4 && f.fmtP == 15)
  | .cvt f => f.fmtS == 15 || f.fmtD == 15
  | .mov f => (f.op == 5 || f.op == 6) && f.fmt == 15
  | _ => false

/-- The result formats that an accumulation permits (R109). -/
def resultAllowed (exact : Bool) : Format → Bool
  | .fp32 => true | .bf16 => true | .fp16 => true | .e4m3 => true | .e5m2 => true | .fp4 => true
  | .exact96 => exact | .int8 => exact | .int32 => exact
  | _ => false

/-- STROKE_FORMAT: a format not allowed in its field (R109, R128). Where the operand pair is itself not in the
table of R72, only a result format that no accumulation permits counts here (DEDUCED from the order of R627). -/
def Stroke.formatBad : Stroke → Bool
  | .mma f =>
    match accOf (fmtOf f.fmtA) (fmtOf f.fmtB) with
    | some (.fp32 _) => !resultAllowed false (fmtOf f.fmtD)
    | _ => !resultAllowed true (fmtOf f.fmtD)
  | .vec f => decide (f.fmt > 1)
  | .red f => decide (f.fmtIn > 1) || (f.op == 4 && decide (f.fmtP > 1))
  | .cvt f => f.fmtS == 13 || f.fmtD == 12 || f.fmtD == 13
  | .mov f =>
    if f.op = 5 then !(f.fmt == 0 || f.fmt == 12)
    else if f.op = 6 then !((fmtOf f.fmt).bits == 8 || (fmtOf f.fmt).bits == 16 || (fmtOf f.fmt).bits == 32)
    else false
  | _ => false

/-- ARITH_FORMAT_PAIR (R72). -/
def Stroke.pairBad : Stroke → Bool
  | .mma f => (accOf (fmtOf f.fmtA) (fmtOf f.fmtB)).isNone
  | _ => false

/-- STROKE_SHAPE (R112, R116, R119, R128). -/
def Stroke.shapeBad : Stroke → Bool
  | .vec f => vecUsesB f.op && f.brow && !f.immb && decide (f.count % f.rowlen ≠ 0)
  | .cvt f =>
    ((fmtOf f.fmtS).isMx || (fmtOf f.fmtD).isMx) &&
      (if f.baxis then decide (f.rows % 32 ≠ 0) else decide (f.cols % 32 ≠ 0))
  | .mov f => (f.op == 6 && decide (f.rlen ≠ 2048)) || (decide (3 ≤ f.op) && decide (f.rows > 1) && f.stride == 0)
  | .gather f => decide (f.count > 1) && f.pitch == 0
  | _ => false

/-- ARITH_MX_SPLIT (R80). -/
def Stroke.mxSplit : Stroke → Bool
  | .mma f => f.mx && decide (f.k % 32 ≠ 0)
  | _ => false

/-- The unit that a stroke needs (R101). -/
inductive PanelUnit where
  | dab | vector | move | gather | none
deriving DecidableEq, Repr

/-- The unit of a stroke. -/
def Stroke.unit : Stroke → PanelUnit
  | .mma _ => .dab
  | .vec _ => .vector
  | .red _ => .vector
  | .cvt _ => .vector
  | .mov _ => .move
  | .gather _ => .gather
  | .tok _ => .none

/-- The occupancy C of a stroke's unit, in panel cycles (R91, R123). -/
def Stroke.occupancy : Stroke → Nat
  | .mma f => f.steps * (if f.fmtA = 0 ∧ f.fmtB = 0 then 8 else 1)
  | .vec f =>
    let c := if f.fmt = 1 then (f.count + 127) / 128 else (f.count + 63) / 64
    if f.op = 12 then 2 * c else c
  | .red f => (if f.op = 4 then 3 else 1) * f.rows * ((f.cols + 63) / 64)
  | .cvt f =>
    let n := f.rows * f.cols
    let c := if f.fmtS = 12 then (n + 31) / 32 else (n + 127) / 128
    if (fmtOf f.fmtD).isMx then 2 * c else c
  | .mov f => if f.op = 0 then f.rows * f.rlen / 512 else f.rows * f.rlen / 256
  | .gather f => 4 * f.count
  | .tok _ => 1

/-- How many cycles after its last occupied cycle a stroke's result is READY (R123); for memory and stream strokes
the memory decides and this is 0. -/
def Stroke.latency : Stroke → Nat
  | .mma f => if decide (f.fmtD = 0 ∧ f.cFmt = .fp32) || decide (f.fmtD = 12) then 11 else 15
  | .vec f => if 8 ≤ f.op ∧ f.op ≤ 12 then 13 else 7
  | .red f => if f.op = 4 then 29 else 15
  | .cvt _ => 7
  | .mov f => if f.op = 0 then 3 else 0
  | _ => 0

/-! ### Elements in a region -/

/-- A reader of a region's bytes by offset; none where the word is uncorrectable. -/
abbrev ByteReader := Nat → Option Byte

/-- The little-endian number of the n bytes at an offset, or STROKE_WELL_UE. -/
def readLe (rd : ByteReader) : Nat → Nat → Except Code Nat
  | _, 0 => .ok 0
  | o, n + 1 =>
    match rd o with
    | none => .error codeWellUe
    | some b =>
      match readLe rd (o + 1) n with
      | .ok v => .ok (b.toNat + 256 * v)
      | .error c => .error c

/-- Element i of an array of a format at the start of a region (R60, R61, R242). -/
def readElem (rd : ByteReader) (f : Format) (i : Nat) : Except Code Nat :=
  match f with
  | .exact96 => readLe rd (256 * (i / 21) + 12 * (i % 21)) 12
  | g =>
    let bit := i * g.bits
    let first := bit / 8
    let last := (bit + g.bits - 1) / 8
    match readLe rd first (last - first + 1) with
    | .ok v => .ok (v / 2 ^ (bit % 8) % 2 ^ g.bits)
    | .error c => .error c

/-- A run of bits to be written into a region: the first bit's position, the number of bits and their value. Only
these bits change (R60). -/
structure BitRun where
  handle : Nat
  bit    : Nat
  bits   : Nat
  value  : Nat
deriving DecidableEq, Repr

/-- The runs that write element i of an array (R60); the container array also zeroes bytes 252 to 255 of its
sector (R242). -/
def elemRuns (h : Nat) (f : Format) (i v : Nat) : List BitRun :=
  match f with
  | .exact96 =>
    ⟨h, 8 * (256 * (i / 21) + 12 * (i % 21)), 96, v⟩ ::
      (if i % 21 = 0 then [⟨h, 8 * (256 * (i / 21) + 252), 32, 0⟩] else [])
  | g => [⟨h, i * g.bits, g.bits, v⟩]

/-- What an arithmetic stroke writes and raises. -/
structure StrokeResult where
  runs   : List BitRun
  events : Events
deriving DecidableEq, Repr

/-- Run a list of computations in order, stopping at the first error: the fault at the lowest position (R627). -/
def runAll {α β : Type} (f : α → Except Code β) : List α → Except Code (List β)
  | [] => .ok []
  | x :: xs =>
    match f x with
    | .error c => .error c
    | .ok y =>
      match runAll f xs with
      | .error c => .error c
      | .ok ys => .ok (y :: ys)

/-- The value of an element, or its fault: an uncorrectable word or a container with a reserved bit (R88). -/
def readVal (rd : ByteReader) (f : Format) (i : Nat) : Except Code Num :=
  match readElem rd f i with
  | .error c => .error c
  | .ok w =>
    match f with
    | .exact96 => match Exact.unpack w with | some x => .ok x.value | none => .error codeContainerReserved
    | g => .ok (elemVal g w)

/-! ### MMA (R107 to R110) -/

/-- The operand values of one output element over K, in ascending k. -/
def mmaOperands (f : MmaFields) (ra rb : ByteReader) (m n : Nat) : Except Code (List (Num × Num)) :=
  runAll (fun k =>
    match readVal ra (fmtOf f.fmtA) (32 * k + m) with
    | .error c => .error c
    | .ok a =>
      match readVal rb (fmtOf f.fmtB) (32 * k + n) with
      | .error c => .error c
      | .ok b => .ok (a, b)) (List.range f.k)

/-- The scale codes of the blocks of one output element (R108). -/
def mmaScales (f : MmaFields) (rsa rsb : ByteReader) (m n : Nat) : Except Code (List (Nat × Nat)) :=
  runAll (fun b =>
    match readLe rsa (32 * b + m) 1 with
    | .error c => .error c
    | .ok x =>
      match readLe rsb (32 * b + n) 1 with
      | .error c => .error c
      | .ok y => .ok (x, y)) (List.range (f.k / 32))

/-- The value of a result converted to FMT_D, as an element code (R110). -/
def mmaConvert (f : MmaFields) (x : Num) : Nat × Events := convert (fmtOf f.fmtD) .rne f.sat x.isNan x

/-- One output element with FP32 accumulation. -/
def mmaElemFp32 (f : MmaFields) (parts : Bool) (ra rb rc : ByteReader) (m n : Nat) : Except Code (Nat × Events) :=
  match mmaOperands f ra rb m n with
  | .error c => .error c
  | .ok ps =>
    let t := dotFp32 parts ps
    let withC : Except Code (Nat × Events) :=
      if f.add then
        match readElem rc .fp32 (32 * m + n) with
        | .error c => .error c
        | .ok c =>
          let r := fp32Add c t.1
          .ok (r.1, Events.add t.2 r.2)
      else .ok t
    match withC with
    | .error c => .error c
    | .ok (w, e) =>
      if f.fmtD = 0 then .ok (w, e)
      else
        let r := mmaConvert f (fp32Val w)
        .ok (r.1, Events.add e r.2)

/-- The container that MMA_ADD reads as C, with the faults of its position in the order of their codes. -/
def mmaC (f : MmaFields) (rc : ByteReader) (m n : Nat) : Except Code (Option Exact) :=
  if f.add then
    match readElem rc .exact96 (32 * m + n) with
    | .error c => .error c
    | .ok w =>
      if BitVec.ofNat 8 (w / 2 ^ 80) ≠ f.g then .error codeGridMismatch
      else match Exact.unpack w with | some x => .ok (some x) | none => .error codeContainerReserved
  else .ok none

/-- One output element with exact-K accumulation. -/
def mmaElemExact (f : MmaFields) (ra rb rc rsa rsb : ByteReader) (m n : Nat) : Except Code (Nat × Events) :=
  match mmaC f rc m n with
  | .error c => .error c
  | .ok c0 =>
    match mmaOperands f ra rb m n with
    | .error c => .error c
    | .ok ps =>
      let sum : Except Code (Exact × Events) :=
        if f.mx then
          match mmaScales f rsa rsb m n with
          | .error c => .error c
          | .ok sc => .ok (dotExactMx (Exact.zero f.g)
              ((sc.zip (pieces 32 ps)).map (fun p => (p.1.1, p.1.2, p.2))))
        else .ok (dotExact (Exact.zero f.g) ps)
      match sum with
      | .error c => .error c
      | .ok (x0, e0) =>
        let x := match c0 with | some c => Exact.combine x0 c | none => x0
        if f.fmtD = 12 then .ok (x.pack, e0)
        else
          let r := convert (fmtOf f.fmtD) .rne f.sat x.nan x.value
          .ok (r.1, Events.add e0 (Events.add x.events r.2))

/-- The result of an MMA stroke: every element inside M and N, row by row (R107, R110). -/
def mmaResult (f : MmaFields) (rd : Nat → ByteReader) : Except Code StrokeResult :=
  let idx := (List.range f.m).flatMap (fun m => (List.range f.n).map (fun n => (m, n)))
  let elem := fun (p : Nat × Nat) =>
    match accOf (fmtOf f.fmtA) (fmtOf f.fmtB) with
    | some (.exact _) => mmaElemExact f (rd f.ha) (rd f.hb) (rd f.hc) (rd f.hsa) (rd f.hsb) p.1 p.2
    | some (.fp32 parts) => mmaElemFp32 f parts (rd f.ha) (rd f.hb) (rd f.hc) p.1 p.2
    | none => .error codeFormatPair
  match runAll elem idx with
  | .error c => .error c
  | .ok rs =>
    .ok ⟨(idx.zip rs).flatMap (fun p => elemRuns f.hd (fmtOf f.fmtD) (32 * p.1.1 + p.1.2) p.2.1),
      rs.foldl (fun e r => Events.add e r.2) .none⟩

/-! ### VEC (R112, R113, R306) -/

/-- The larger of two values; NaN where either is, and −0 below +0 (R112). -/
def numMax (a b : Num) : Num :=
  if a.isNan || b.isNan then .nan
  else if a.lt b then b
  else if b.lt a then a
  else if a.isZero && a.isNeg then b else a

/-- The smaller of two values; NaN where either is, and −0 below +0 (R112). -/
def numMin (a b : Num) : Num :=
  if a.isNan || b.isNan then .nan
  else if a.lt b then a
  else if b.lt a then b
  else if a.isZero && a.isNeg then a else b

/-- The FP32 result of a special function, with its special values (R113); inside the bound it is the device's
fixed function, whose bits the spec leaves open. -/
def specialFp32 (op : Nat) (a : Num) : Nat × Events :=
  let ff := FloatFmt.fp32
  let free : Nat × Events :=
    let w := (Config.specialFn op (BitVec.ofNat 32 (ff.round .rne false false a).1)).toNat
    (w, if (fp32Val w).isInf then .ovf else if (fp32Val w).isNan then .nanp else .none)
  match op, a with
  | _, .nan => (ff.nanCode, .none)
  | 8, .inf n => (if n then 0 else ff.infCode false, .none)
  | 9, .inf n => if n then (ff.nanCode, .nanp) else (ff.infCode false, .none)
  | 9, .fin n m _ => if m = 0 then (ff.infCode true, .none) else if n then (ff.nanCode, .nanp) else free
  | 10, .inf n => (ff.pack n 0 0, .none)
  | 10, .fin n m _ => if m = 0 then (ff.infCode n, .none) else free
  | 11, .inf n => if n then (ff.nanCode, .nanp) else (0, .none)
  | 11, .fin n m _ => if m = 0 then (ff.infCode n, .none) else if n then (ff.nanCode, .nanp) else free
  | 12, .inf n => (ff.pack n 1 0, .none)
  | 12, .fin n m _ => if m = 0 then (ff.pack n 0 0, .none) else free
  | _, _ => free

/-- One element of a VEC operation in FP32 or BF16 (R112, R113), SQRT and DIV included (R306). -/
def vecElem (op : Nat) (f : Format) (a b c : Num) : Nat × Events :=
  let ff := f.float.getD .fp32
  let rnd := fun (nanIn : Bool) (x : Num) => ff.round .rne false nanIn x
  match op with
  | 0 => rnd (a.isNan || b.isNan) (Num.sum [a, b])
  | 1 => rnd (a.isNan || b.isNan) (Num.sum [a, b.negate])
  | 2 => rnd (a.isNan || b.isNan) (a.mul b)
  | 3 => rnd (a.isNan || b.isNan || c.isNan) (Num.sum [a.mul b, c])
  | 4 => rnd (a.isNan || b.isNan) (numMax a b)
  | 5 => rnd (a.isNan || b.isNan) (numMin a b)
  | 6 => rnd a.isNan a.abs
  | 7 => rnd false (if b.lt a then .fin false 1 0 else .zero)
  | 13 => rnd a.isNan a
  | 14 => rnd a.isNan a.sqrt
  | 15 => rnd (a.isNan || b.isNan) (a.div b)
  | _ =>
    let r := specialFp32 op a
    match f with
    | .fp32 => r
    | _ =>
      let q := ff.round .rne false (fp32Val r.1).isNan (fp32Val r.1)
      (q.1, Events.add r.2 q.2)

/-- Operand b of element i (R112). -/
def vecB (f : VecFields) (rb : ByteReader) (i : Nat) : Except Code Num :=
  if f.immb then .ok (fp32Val f.imm)
  else if vecUsesB f.op then readVal rb (fmtOf f.fmt) (if f.brow then i / f.rowlen else i)
  else .ok .zero

/-- The result of a VEC stroke. -/
def vecResult (f : VecFields) (rd : Nat → ByteReader) : Except Code StrokeResult :=
  let fm := fmtOf f.fmt
  match runAll (fun i =>
      match readVal (rd f.ha) fm i with
      | .error c => .error c
      | .ok a =>
        match vecB f (rd f.hb) i with
        | .error c => .error c
        | .ok b =>
          match (if f.op = 3 then readVal (rd f.hc) fm i else .ok .zero) with
          | .error c => .error c
          | .ok c => .ok (i, vecElem f.op fm a b c)) (List.range f.count) with
  | .error c => .error c
  | .ok rs => .ok ⟨rs.flatMap (fun r => elemRuns f.hd fm r.1 r.2.1), rs.foldl (fun e r => Events.add e r.2.2) .none⟩

/-! ### RED (R114, R115) -/

/-- One lane step of SUM or SUMSQ. -/
def laneStep (sq : Bool) (acc : Nat × Events) (x : Num) : Nat × Events :=
  let a := fp32Val acc.1
  let r := fp32Round (a.isNan || x.isNan) (Num.sum [a, if sq then x.mul x else x])
  (r.1, Events.add acc.2 r.2)

/-- Every n-th element from the j-th on; fuel is the length. -/
def everyFuel {α : Type} : Nat → Nat → List α → List α
  | 0, _, _ => []
  | f + 1, n, xs => match xs with | [] => [] | x :: r => x :: everyFuel f n (r.drop (n - 1))

/-- The sum of a row over `lanes` lanes combined pairwise (R114, R289). -/
def rowSum (lanes : Nat) (sq : Bool) (xs : List Num) : Nat × Events :=
  let ls := (List.range lanes).map (fun j => (everyFuel xs.length lanes (xs.drop j)).foldl (laneStep sq) (0, .none))
  let t := tree (ls.map Prod.fst)
  (t.1, ls.foldl (fun e l => Events.add e l.2) t.2)

/-- A row of values. -/
def readRow (rd : ByteReader) (f : Format) (r cols : Nat) : Except Code (List Num) :=
  runAll (fun c => readVal rd f (r * cols + c)) (List.range cols)

/-- The FP32 code of a value that FP32 holds exactly. -/
def fp32Of (x : Num) : Nat := (fp32Round true x).1

/-- The greatest or least of a row. -/
def rowMax (xs : List Num) : Num := match xs with | [] => .inf true | x :: r => r.foldl numMax x
/-- The least of a row. -/
def rowMin (xs : List Num) : Num := match xs with | [] => .inf false | x :: r => r.foldl numMin x

/-- One row of SOFTMAX_STEP: the codes of P, the new m and l, and alpha (R115). -/
def softmaxRow (fp : Format) (xs : List Num) (mOld lOld : Num) : List Nat × Nat × Nat × Nat × Events :=
  let b := rowMax xs
  let mNew := numMax mOld b
  if mNew = .inf true then (xs.map (fun _ => 0), fp32Of mNew, fp32Of lOld, fp32Of (.fin false 1 0), .none)
  else
    let ps := xs.map (fun x =>
      let d := fp32Round (x.isNan || mNew.isNan) (Num.sum [x, mNew.negate])
      let e := specialFp32 8 (fp32Val d.1)
      let q := convert fp .rne false (fp32Val e.1).isNan (fp32Val e.1)
      (q.1, Events.add d.2 (Events.add e.2 q.2)))
    let da := fp32Round (mOld.isNan || mNew.isNan) (Num.sum [mOld, mNew.negate])
    let al := specialFp32 8 (fp32Val da.1)
    let s := rowSum 64 false (ps.map (fun p => elemVal fp p.1))
    let l := fp32Round ((fp32Val al.1).isNan || lOld.isNan || (fp32Val s.1).isNan)
      (Num.sum [(fp32Val al.1).mul lOld, fp32Val s.1])
    (ps.map Prod.fst, fp32Of mNew, l.1, al.1,
      ps.foldl (fun e p => Events.add e p.2) (Events.add da.2 (Events.add al.2 (Events.add s.2 l.2))))

/-- The result of a RED stroke. -/
def redResult (f : RedFields) (rd : Nat → ByteReader) : Except Code StrokeResult :=
  let fi := fmtOf f.fmtIn
  if f.op = 4 then
    match runAll (fun r =>
        match readRow (rd f.ha) fi r f.cols with
        | .error c => .error c
        | .ok xs =>
          match readVal (rd f.hs) .fp32 (2 * r) with
          | .error c => .error c
          | .ok m =>
            match readVal (rd f.hs) .fp32 (2 * r + 1) with
            | .error c => .error c
            | .ok l => .ok (r, softmaxRow (fmtOf f.fmtP) xs m l)) (List.range f.rows) with
    | .error c => .error c
    | .ok rs => .ok ⟨rs.flatMap (fun q =>
        let r := q.1
        let (ps, m, l, al, _) := q.2
        ((List.range f.cols).zip ps).flatMap (fun p => elemRuns f.hd (fmtOf f.fmtP) (r * f.cols + p.1) p.2) ++
          elemRuns f.hs .fp32 (2 * r) m ++ elemRuns f.hs .fp32 (2 * r + 1) l ++ elemRuns f.hx .fp32 r al),
        rs.foldl (fun e q => Events.add e q.2.2.2.2.2) .none⟩
  else
    match runAll (fun r =>
        match readRow (rd f.ha) fi r f.cols with
        | .error c => .error c
        | .ok xs =>
          .ok (r, if f.op = 0 then rowSum 64 false xs else if f.op = 3 then rowSum 64 true xs
            else if f.op = 1 then (fp32Of (rowMax xs), .none) else (fp32Of (rowMin xs), Events.none)))
        (List.range f.rows) with
    | .error c => .error c
    | .ok rs => .ok ⟨rs.flatMap (fun q => elemRuns f.hd .fp32 q.1 q.2.1), rs.foldl (fun e q => Events.add e q.2.2) .none⟩

/-! ### CVT (R64 to R70, R116, R117) -/

/-- The rounding descriptor of R117. -/
structure RoundDesc where
  tensor : Nat
  base   : Nat
  stride : Nat
deriving DecidableEq, Repr

/-- The descriptor that 64 bytes spell; none where a reserved byte is not 0 (R117). -/
def RoundDesc.ofBytes (bs : List Byte) : Option RoundDesc :=
  let le := fun (o n : Nat) => ((bs.drop o).take n).foldr (fun b v => b.toNat + 256 * v) 0
  if le 4 4 ≠ 0 ∨ le 24 40 ≠ 0 then none else some ⟨le 0 4, le 8 8, le 16 8⟩

/-- The rounding mode of element (r, c) (R69, R70, R117). -/
def cvtMode (f : CvtFields) (d : RoundDesc) (seed step r c : Nat) : RMode :=
  if f.sr then .sr (srWord seed (d.base + r * d.stride + c) d.tensor step) else .rne

/-- The exact source value of element (r, c), its power-of-two scales included, with the container's own events
and whether the source is a NaN (R64, R86, R116). -/
def cvtSource (f : CvtFields) (rd : Nat → ByteReader) (r c : Nat) : Except Code (Num × Events × Bool) :=
  let fs := fmtOf f.fmtS
  let i := r * f.cols + c
  if fs.isMx then
    let sIdx := if f.baxis then r / 32 * f.cols + c else (r * f.cols + c) / 32
    match readLe (rd f.hss) sIdx 1 with
    | .error e => .error e
    | .ok sc =>
      match readElem (rd f.hs) fs i with
      | .error e => .error e
      | .ok w =>
        let x := mxVal fs sc w
        .ok (x.scale f.spow, .none, x.isNan)
  else
    match readElem (rd f.hs) fs i with
    | .error e => .error e
    | .ok w =>
      match fs with
      | .exact96 =>
        match Exact.unpack w with
        | none => .error codeContainerReserved
        | some x => .ok (x.value.scale f.spow, x.events, x.nan)
      | g =>
        let x := elemVal g w
        .ok (x.scale f.spow, .none, x.isNan)

/-- One block of a conversion into an MX type: its scale at byte sIdx and its elements. -/
def cvtBlock (f : CvtFields) (rd : Nat → ByteReader) (d : RoundDesc) (seed step : Nat) (sIdx : Nat)
    (cells : List (Nat × Nat)) : Except Code (List BitRun × Events) :=
  match runAll (fun p => cvtSource f rd p.1 p.2) cells with
  | .error c => .error c
  | .ok xs =>
    let fd := fmtOf f.fmtD
    let r := convertMx fd (cells.map (fun p => cvtMode f d seed step p.1 p.2)) (xs.map (fun x => x.1))
    let nanp : Events := if xs.any (fun x => x.2.2) then { r.2.2 with nanProduced := 0 } else
      (if r.1 = 255 then { r.2.2 with nanProduced := 1 } else r.2.2)
    .ok (⟨f.hds, 8 * sIdx, 8, r.1⟩ ::
        (cells.zip r.2.1).flatMap (fun p => elemRuns f.hd fd (p.1.1 * f.cols + p.1.2) p.2),
      xs.foldl (fun e x => Events.add e x.2.1) nanp)

/-- The result of a CVT stroke under a rounding descriptor, the job seed and the thread's STEP. -/
def cvtResult (f : CvtFields) (rd : Nat → ByteReader) (d : RoundDesc) (seed step : Nat) : Except Code StrokeResult :=
  let fd := fmtOf f.fmtD
  if fd.isMx then
    let blocks : List (Nat × List (Nat × Nat)) :=
      if f.baxis then
        (List.range (f.rows / 32)).flatMap (fun b => (List.range f.cols).map (fun c =>
          (b * f.cols + c, (List.range 32).map (fun j => (32 * b + j, c)))))
      else
        (List.range f.rows).flatMap (fun r => (List.range (f.cols / 32)).map (fun b =>
          (r * f.cols / 32 + b, (List.range 32).map (fun j => (r, 32 * b + j)))))
    match runAll (fun b => cvtBlock f rd d seed step b.1 b.2) blocks with
    | .error c => .error c
    | .ok rs => .ok ⟨rs.flatMap Prod.fst, rs.foldl (fun e r => Events.add e r.2) .none⟩
  else
    let idx := (List.range f.rows).flatMap (fun r => (List.range f.cols).map (fun c => (r, c)))
    match runAll (fun p =>
        match cvtSource f rd p.1 p.2 with
        | .error c => .error c
        | .ok (x, e, nanIn) =>
          let q := convert fd (cvtMode f d seed step p.1 p.2) f.sat nanIn x
          .ok (p, q.1, Events.add e q.2)) idx with
    | .error c => .error c
    | .ok rs => .ok ⟨rs.flatMap (fun r => elemRuns f.hd fd (r.1.1 * f.cols + r.1.2) r.2.1),
        rs.foldl (fun e r => Events.add e r.2.2) .none⟩

end Sys2Proof.Machine
end

