-- ==== Sys2Proof/Machine/Panels.lean ====
section
/-! DEFINITION. Panels: stroke fetch and decode, the firing rule, issue and completion, and the arithmetic and token
strokes (chapter 03). The strokes that move data stand in Moves.lean. -/

namespace Sys2Proof.Machine

/-! ### Regions (R93 to R96) -/

/-- The index of a region of a panel. -/
def regIx (p h : Nat) : Nat := p * 1024 + h % 1024

/-- The token of a region: 0 FREE, 1 FILLING, 2 READY, 3 RETIRING, 4 UPDATING (R94). -/
def State.token (s : State) (p h : Nat) : Nat := s.rdN CNV_PNL_REGION.TOKEN (regIx p h)

/-- The readers of a region. -/
def State.readers (s : State) (p h : Nat) : Nat := s.rdN CNV_PNL_REGION.READERS (regIx p h)

/-- The token of a region set. -/
def State.setToken (s : State) (p h t : Nat) : State := s.wrN CNV_PNL_REGION.TOKEN (regIx p h) t

/-- The DPA of byte o of a region. -/
def State.regionDpa (s : State) (p h o : Nat) : Dpa := wellDpa p (s.rdN CNV_PNL_REGION.BASE (regIx p h) * 256 + o)

/-- The readers of the regions of a panel, by handle and offset. -/
def State.wellReader (s : State) (p h : Nat) : ByteReader := fun o => Tab.find s.mem (s.regionDpa p h o)

/-- The uses of a stroke with each handle once (R95): a region named in two roles counts once. -/
def mergeUses (us : List RegionUse) : List RegionUse :=
  us.foldl (fun acc u =>
    if acc.any (fun v => v.handle == u.handle) then acc.map (fun v => if v.handle = u.handle then
      { v with reads := v.reads || u.reads, writes := v.writes || u.writes, consume := v.consume || u.consume,
               bytes := max v.bytes u.bytes } else v)
    else acc ++ [u]) []

/-- Whether a coat holds a region (R329). -/
def State.regionHeld (s : State) (p h : Nat) : Bool :=
  s.coatHolds (fun a => match a.2 with
    | .routePatch r => leField r 0 1 == 2 && leField r 8 2 == p && leField r 2 2 % 1024 == h
    | _ => false)

/-- Whether a coat holds a stream of a canvas (R329). -/
def State.streamHeld (s : State) (c id : Nat) : Bool :=
  s.coatHolds (fun a => match a.2 with
    | .routePatch r => leField r 0 1 == 1 && leField r 1 1 == c && leField r 2 2 == id
    | _ => false)

/-! ### Decode (R104 to R122, R627) -/

/-- The job class of a thread (WASH true). -/
def State.thrWash (s : State) (q : Nat) : Bool := s.on CNV_PNL_THR_CTL.CLASS q

/-- The memory addresses of the rows of a MOV stroke (R119). -/
def movRows (f : MovFields) (base : BitVec 40) : List Int :=
  (List.range f.rows).map (fun i => (base.toNat : Int) + f.offset + (i * f.stride : Nat))

/-- The permission that a memory MOV needs. -/
def movPerm (op : Nat) : Perm := if op = 4 then .w else if op = 5 then .a else .r

/-- Whether the primer forbids a stroke's formats (R191): its code. -/
def primerFault (st : Stroke) : Option Code :=
  match st with
  | .mma f => if f.fmtA = 1 ∧ f.fmtB = 1 then none else some codeFormatPair
  | .cvt f => if f.fmtS ≤ 1 ∧ f.fmtD ≤ 1 then none else some codeFormat
  | _ => none

/-- STROKE_STREAM_INVALID (R120). -/
def State.streamBad (s : State) (p : Nat) (wash : Bool) (f : MovFields) : Bool :=
  if f.op = 1 ∨ f.op = 2 then
    match Tab.get s.str.sketch.streams (p / 256 * 4096 + f.stream) none with
    | none => true
    | some r => !(r.wash == wash && (if f.op = 1 then r.sender == p && r.ends != 2 else r.receiver == p && r.ends != 1))
  else false

/-- STROKE_ADDR_ALIGN (R119, SETDESC). -/
def addrAlignBad (th : PanelThread) : Stroke → Bool
  | .mov f => decide (3 ≤ f.op) && (movRows f (th.ab.getD f.ab 0)).any (fun a => decide (a % (if f.op = 6 then 2048 else 256) ≠ 0))
  | .tok f => f.op == 7 && decide (f.imm % 64 ≠ 0)
  | _ => false

/-- STROKE_ADDR_BOUNDS (R119). -/
def State.addrBoundsBad (s : State) (th : PanelThread) (part : Nat) : Stroke → Bool
  | .mov f => decide (3 ≤ f.op) && (movRows f (th.ab.getD f.ab 0)).any (fun a =>
      decide (a < 0) || decide (a + f.rlen > 2 ^ 40) || !s.windowOk part (movPerm f.op) a.toNat f.rlen)
  | _ => false

/-- The first decode fault of a stroke at the head of a thread, in the order of R627; none where it is sound. -/
def State.decodeFault (s : State) (p t : Nat) (w : BitVec 128) : Option Code :=
  let q := 8 * p + t
  let th := s.pth q
  let wash := s.thrWash q
  match decodeStroke false w with
  | .error c => some c
  | .ok st =>
    let us := st.uses
    let prim := if s.str.sketch.primer then primerFault st else none
    if st.dtypeReserved then some codeDtypeReserved
    else if st.formatBad || prim == some codeFormat then some codeFormat
    else if st.pairBad || prim == some codeFormatPair then some codeFormatPair
    else if us.any (fun u => s.rdN CNV_PNL_REGION.LEN (regIx p u.handle) == 0 ||
        s.on CNV_PNL_REGION.JOB (regIx p u.handle) != wash) then some codeHandleInvalid
    else if st.roleConflict then some codeRoleConflict
    else if us.any (fun u => decide (u.bytes > 256 * s.rdN CNV_PNL_REGION.LEN (regIx p u.handle))) then some codeRegionBounds
    else if st.shapeBad then some codeShape
    else if st.mxSplit then some codeMxSplit
    else if (match st with | .mov f => s.streamBad p wash f | _ => false) then some codeStreamInvalid
    else if addrAlignBad th st then some codeAddrAlign
    else if (match s.panelPart p with | some x => s.addrBoundsBad th x st | none => true) then
      (match st, s.panelPart p with | .mov _, _ => some codeAddrBounds | _, some _ => some codeAddrBounds | _, none => none)
    else none

/-! ### Faults (R124 to R127) -/

/-- A stroke fault: the thread halts FAULTED, CNV_PNL_FAULT captures it, and the partition faults for the thread's
class (R126, R127). -/
def State.strokeFault (s : State) (p t : Nat) (dpa : Dpa) (wash : Bool) (code : Code) : State :=
  let q := 8 * p + t
  let s1 := s.wrN CNV_PNL_THR_CTL.STATE q 3
  let s2 := if s1.on CNV_PNL_FAULT.VALID p then s1.set1 CNV_PNL_FAULT.OVERRUN p
    else (((s1.set1 CNV_PNL_FAULT.VALID p).wrN CNV_PNL_FAULT.STROKE_DPA p dpa).wrN CNV_PNL_FAULT.THREAD p t).wr
      CNV_PNL_FAULT.CODE p (codeVal code)
  let s3 := (s2.set1 CNV_PNL_STATUS.FAULT p).panelRefresh p
  match s3.panelPart p with
  | some x => s3.partFault x wash code
  | none => s3

/-! ### Fetch -/

/-- Whether a panel can act: it exists and its island is ACTIVE. -/
def State.panelUp (s : State) (p : Nat) : Bool := decide (p < 1024) && decide (s.island (panelIsland p) = islActive)

/-- Whether a thread runs: RUNNING, neither stopping nor halted by its partition. -/
def State.thrRuns (s : State) (q : Nat) : Bool :=
  s.rdN CNV_PNL_THR_CTL.STATE q == 1 && !(s.pth q).stopping && !(s.pth q).halted

/-- The class of a flight's stroke. -/
def Flight.cls (f : Flight) : Nat := strokeClass f.word

/-- Whether a panel has a TOK stroke that has not taken its effect: it completes in its issue cycle. -/
def State.tokPending (s : State) (p : Nat) : Bool := (s.panelFlights p).any (fun f => f.2.cls == 5)

/-- STROKE_FETCH_DONE (R124): the fetch of the stroke at PC returns, through the panel's instruction cache, and the
stroke is decoded at the head of its thread; a fault at decode faults the thread. -/
def execStrokeFetchDone (panel thread : Nat) (refetch : Bool) (s : State) : Res :=
  let q := 8 * panel + thread
  .next (if !s.panelUp panel || decide (8 ≤ thread) || !s.thrRuns q || (s.pth q).head.isSome || s.tokPending panel then s
  else
    let d := s.rdN CNV_PNL_THR_PC.PC q * 16
    let wash := s.thrWash q
    match s.panelPart panel with
    | none => s
    | some x =>
      if !s.windowOk x .x d 16 then s.strokeFault panel thread d wash codeFetchError
      else
        let r := match (if refetch then none else Tab.get s.glz.ro (roKey panel 0 d) none) with
          | some bs => Acc.done 0 bs s
          | none => s.roFill panel 0 d
        match r with
        | .wait t => t
        | .done code bs t =>
          if code ≠ 0 then t.strokeFault panel thread d wash codeFetchError
          else
            let w := BitVec.ofNat 128 (leField bs (d % 512) 16)
            match t.decodeFault panel thread w with
            | some c => t.strokeFault panel thread d wash c
            | none => t.setPth q { t.pth q with head := some ⟨d, w, none⟩ })

/-! ### The firing rule (R101, R102) -/

/-- The unit of a flight. -/
def Flight.unit (f : Flight) : PanelUnit := match decodeStroke false f.word with | .ok st => st.unit | .error _ => .none

/-- The occupancy of a flight. -/
def Flight.occupancy (f : Flight) : Nat := match decodeStroke false f.word with | .ok st => st.occupancy | .error _ => 1

/-- The flights of a unit of a panel. -/
def State.unitFlights (s : State) (p : Nat) (u : PanelUnit) : List (Nat × Flight) := (s.panelFlights p).filter (fun f => f.2.unit = u)

/-- The units that a SEND carries. -/
def movUnits (f : MovFields) : Nat := f.rows * f.rlen / 256

/-- The key of a stream's content for its end on a canvas: that of its receiving end. -/
def State.recvKey (s : State) (c id : Nat) : Nat :=
  match Tab.get s.str.sketch.streams (c * 4096 + id) none with
  | some r => if r.ends = 1 then r.peerCanvas * 4096 + r.peerId else c * 4096 + id
  | none => c * 4096 + id

/-- The key of a stream's sending end, from its receiving end. -/
def State.sendKey (s : State) (k : Nat) : Nat :=
  match Tab.get s.str.sketch.streams k none with
  | some r => if r.ends = 2 then r.peerCanvas * 4096 + r.peerId else k
  | none => k

/-- The DPA of a CVT's rounding descriptor (R117). -/
def descDpa (th : PanelThread) (f : CvtFields) : Dpa := (th.desc.toNat + 64 * f.desc) % 2 ^ 40

/-- The read of a rounding descriptor through the descriptor cache: its bytes, none where the read fails. -/
def State.readDesc (s : State) (p : Nat) (d : Dpa) : Acc :=
  match s.panelPart p with
  | none => .done codeDescInvalid [] s
  | some x =>
    if !s.windowOk x .r d 64 then .done codeDescInvalid [] s
    else match Tab.get s.glz.ro (roKey p 2 d) none with
      | some bs => .done 0 ((bs.drop (d % 512)).take 64) s
      | none => match s.roFill p 2 d with
        | .done 0 bs t => .done 0 ((bs.drop (d % 512)).take 64) t
        | .done _ _ t => .done codeDescInvalid [] t
        | .wait t => .wait t

/-- The first region that keeps a stroke from firing, with the reason: 2 OPERAND_TOKEN, 7 READERS_FULL,
3 RESULT_TOKEN. -/
def State.regionBar (s : State) (p : Nat) (us : List RegionUse) : Option (Nat × Nat) :=
  us.findSome? (fun u =>
    let tok := s.token p u.handle
    let held := s.regionHeld p u.handle
    if u.reads && !u.writes then
      if tok ≠ 2 ∨ held then some (2, u.handle) else if s.readers p u.handle ≥ 15 then some (7, u.handle) else none
    else if u.reads then
      if tok ≠ 2 ∨ held then some (2, u.handle) else if s.readers p u.handle ≠ 0 then some (3, u.handle) else none
    else if u.writes then if tok ≠ 0 ∨ held then some (3, u.handle) else none
    else none)

/-- Why a stroke's unit cannot take it: 4 UNIT_BUSY, 5 CREDIT, 8 WASH_DEFER, 6 FENCE. -/
def State.unitBar (s : State) (p t : Nat) (wash : Bool) (st : Stroke) : Option Nat :=
  let fl := s.unitFlights p st.unit
  let c := p / 256
  let unitB : Option Nat := match st with
    | .mma _ => if fl.any (fun f => f.2.start.isNone) then some 4 else none
    | .vec _ => if fl.any (fun f => f.2.start.isNone) then some 4 else none
    | .red _ => if fl.any (fun f => f.2.start.isNone) then some 4 else none
    | .cvt _ => if fl.any (fun f => f.2.start.isNone) then some 4 else none
    | .mov f =>
      if fl.length ≥ 4 then some 4
      else if f.op = 1 then
        if s.rdN CNV_STM_STREAM.STATE (c * 4096 + f.stream) != 1 || s.streamHeld c f.stream ||
          decide (s.rdN CNV_STM_STREAM.CREDITS (c * 4096 + f.stream) < movUnits f) then some 5 else none
      else if f.op = 2 ∧ s.streamHeld c f.stream then some 5
      else none
    | .gather _ => if fl.isEmpty then none else some 4
    | .tok f => if (f.op = 10 ∨ f.op = 12) ∧ (s.panelFlights p).any (fun x => x.2.thread == t) then some 6 else none
  match unitB with
  | some r => some r
  | none =>
    if !wash then none
    else
      let hold := match s.panelPart p with | some x => s.rdN CNV_STM_WASH.HOLD x | none => 0
      let limited := match st with | .mov _ => false | .tok _ => false | _ => true
      if limited && decide (st.occupancy > hold) then some 8
      else if (match st with | .tok _ => false | .mov _ => !fl.isEmpty | .gather _ => !fl.isEmpty | _ => fl.any (fun f => !f.2.released)) then some 8
      else none

/-- Whether the next stroke of a thread is fired in cycle n (R101): the stroke, or the wait reason and handle. -/
def State.fireCheck (s : State) (p t n : Nat) : Except (Nat × Nat) Stroke :=
  let q := 8 * p + t
  let th := s.pth q
  match th.head with
  | none => .error (1, 0)
  | some h =>
    if (match th.branch with | some b => decide (n < b + 4) | none => false) then .error (9, 0)
    else match decodeStroke false h.word with
      | .error _ => .error (1, 0)
      | .ok st =>
        let descWait := match st with
          | .cvt f => f.sr && (match s.readDesc p (descDpa th f) with | .wait _ => true | .done _ _ _ => false)
          | _ => false
        if descWait then .error (1, 0)
        else match s.regionBar p (mergeUses st.uses) with
          | some b => .error b
          | none => match s.unitBar p t (s.thrWash q) st with
            | some r => .error (r, 0)
            | none => .ok st

/-- The marks of strokes that can never fire: a WASH stroke over HOLD (R163), a SEND larger than LAND (R148). -/
def State.oversizeMarks (s : State) (p t : Nat) : State :=
  let q := 8 * p + t
  match (s.pth q).head, s.panelPart p with
  | some h, some x =>
    match decodeStroke false h.word with
    | .ok (.mov f) =>
      let k := p / 256 * 4096 + f.stream
      if f.op = 1 ∧ movUnits f > s.rdN CNV_STM_STREAM.LAND k then (s.set1 CNV_STM_STREAM.OVERSIZE k).set1 CNV_STM_STATUS.OVERSIZE (p / 256) else s
    | .ok (.tok _) => s
    | .ok st =>
      if s.thrWash q ∧ st.occupancy > s.rdN CNV_STM_WASH.HOLD x then
        s.wr CNV_STM_WASH_OVERSIZE.PART (p / 256) (s.rd CNV_STM_WASH_OVERSIZE.PART (p / 256) ||| (1 <<< (x % 64) : Val))
      else s
    | .error _ => s
  | _, _ => s

/-- A flight's operands released (R96): each region loses a reader, and a RETIRING one without readers is FREE. -/
def State.releaseOps (s : State) (n : Nat) (f : Flight) : State :=
  if f.released then s else
  let us := match decodeStroke false f.word with | .ok st => mergeUses st.uses | .error _ => []
  (s.each (us.filter (·.reads)) (fun u t =>
    let r := t.readers f.panel u.handle - 1
    let t1 := t.wrN CNV_PNL_REGION.READERS (regIx f.panel u.handle) r
    if r = 0 ∧ t1.token f.panel u.handle = 3 then t1.setToken f.panel u.handle 0 else t1)).setFlight n (some { f with released := true })

/-- The operands of strokes whose unit has taken its last step before cycle n released (R96, R123). -/
def State.releaseEnded (s : State) (p n : Nat) : State :=
  s.each (s.panelFlights p) (fun e t =>
    if decide (e.2.unit = .dab ∨ e.2.unit = .vector) && (match e.2.start with | some a => decide (a + e.2.occupancy ≤ n) | none => false)
    then t.releaseOps e.1 e.2 else t)

/-- A stroke issued in cycle n (R95, R147): its regions are claimed, the PC moves on, a SEND spends its credits, a
CVT takes its rounding descriptor (R117). -/
def State.issue (s : State) (p t n : Nat) (h : Head) (st : Stroke) : State :=
  let q := 8 * p + t
  let th := s.pth q
  let wash := s.thrWash q
  let us := match st with | .tok _ => [] | _ => mergeUses st.uses
  let s1 := s.each us (fun u x =>
    let x1 := x.when u.reads (·.wrN CNV_PNL_REGION.READERS (regIx p u.handle) (x.readers p u.handle + 1))
    if u.writes then x1.setToken p u.handle (if u.reads then 4 else 1)
    else if u.consume then x1.setToken p u.handle 3 else x1)
  let s2 := match st with
    | .mov f => if f.op = 1 then
        s1.wrN CNV_STM_STREAM.CREDITS (p / 256 * 4096 + f.stream) (s1.rdN CNV_STM_STREAM.CREDITS (p / 256 * 4096 + f.stream) - movUnits f) else s1
    | _ => s1
  let d : Option (List Byte) × Option Code × State := match st with
    | .cvt f => if f.sr then
        (match s2.readDesc p (descDpa th f) with
          | .done 0 bs u => if (RoundDesc.ofBytes bs).isSome then (some bs, none, u) else (none, some codeDescInvalid, u)
          | .done _ _ u => (none, some codeDescInvalid, u)
          | .wait u => (none, some codeDescInvalid, u))
      else (none, none, s2)
    | _ => (none, none, s2)
  let s3 := d.2.2
  let fl := s3.unitFlights p st.unit
  let start := if st.unit = .dab ∨ st.unit = .vector then (if fl.all (fun f => f.2.released) then some n else none) else some n
  let f : Flight := ⟨p, t, h.dpa, h.word, wash, s3.rdN CNV_PNL_THR_STEP.STEP q, d.1, n, start, d.2.1.isSome, false, d.2.1, 0, 0⟩
  let s4 := { s3.setFlight s3.pnl.next (some f) with pnl := { (s3.setFlight s3.pnl.next (some f)).pnl with next := s3.pnl.next + 1 } }
  let s5 := (s4.setPth q { s4.pth q with head := none, lastIss := n }).wrN CNV_PNL_THR_PC.PC q (h.dpa / 16 + 1)
  let key := panelIsland p * 8 + s5.rdN CNV_PNL_THR_CTL.PHASE q
  let s6 := { s5 with power := { s5.power with issued := Tab.set s5.power.issued key (Tab.get s5.power.issued key 0 + 1) 0 } }
  (s6.bump CNV_PNL_ISSUED.COUNT p 1).when wash (·.bump CNV_PNL_WASH_ISSUED.COUNT p 1)

/-- The thread among some that has gone longest without issuing, the lowest number first (R102). -/
def State.longestIdle (s : State) (p : Nat) (ts : List Nat) : Option Nat :=
  ts.foldl (fun (b : Option Nat) t => match b with
    | some x => if (s.pth (8 * p + t)).lastIss < (s.pth (8 * p + x)).lastIss then some t else some x
    | none => some t) none

/-- The beginning of a panel cycle (R96, R148, R163): the cycle is counted, memory errors in the panel's well show, the
operands of strokes that have taken their last step are released, and strokes that can never fire are marked. -/
def State.cycleBegin (s : State) (panel : Nat) (upsets : List Upset) : State :=
  let n := Tab.get s.pnl.cycle panel 0 + 1
  let s0 := { s with pnl := { s.pnl with cycle := Tab.set s.pnl.cycle panel n 0 } }
  let s1 := (s0.wellUpsets panel (wellDpa panel 0) (endpointOf (.panel panel)) upsets).releaseEnded panel n
  s1.each ((List.range 8).filter (fun t => s1.thrRuns (8 * panel + t))) (fun t u => u.oversizeMarks panel t)

/-- What the firing rule says of each running thread of a panel in its cycle (R101). -/
def State.fireChecks (s : State) (panel : Nat) : List (Nat × Except (Nat × Nat) Stroke) :=
  ((List.range 8).filter (fun t => s.thrRuns (8 * panel + t))).map (fun t => (t, s.fireCheck panel t (Tab.get s.pnl.cycle panel 0)))

/-- Whether a panel issues strokes: ISSUE_EN is set, it does not drain, and its quad belongs to a partition. -/
def State.mayIssue (s : State) (panel : Nat) : Bool :=
  s.on CNV_PNL_CTL.ISSUE_EN panel && !s.on CNV_PNL_CTL.DRAIN panel && (s.panelPart panel).isSome

/-- The threads of a panel that are fired in its cycle. -/
def State.firedThreads (s : State) (panel : Nat) : List Nat :=
  if s.mayIssue panel then
    ((s.fireChecks panel).filter (fun c => match c.2 with | .ok _ => true | .error _ => false)).map Prod.fst
  else []

/-- The thread that issues: the PRIMARY one fired that has gone longest without issuing, else such a WASH one (R102). -/
def State.issuePick (s : State) (panel : Nat) : Option Nat :=
  let f := s.firedThreads panel
  match s.longestIdle panel (f.filter (fun t => !s.thrWash (8 * panel + t))) with
  | some t => some t
  | none => s.longestIdle panel (f.filter (fun t => s.thrWash (8 * panel + t)))

/-- The wait reasons of a panel's threads shown, and a cycle without a fired stroke counted. -/
def State.showWaits (s : State) (panel : Nat) : State :=
  let checks := s.fireChecks panel
  let s3 := s.each (List.range 8) (fun t u =>
    let w : Nat × Nat := match checks.find? (fun c => c.1 == t) with
      | some (_, .error e) => e
      | _ => (0, 0)
    (u.wrN CNV_PNL_THR_WAIT.REASON (8 * panel + t) w.1).wrN CNV_PNL_THR_WAIT.HANDLE (8 * panel + t) w.2)
  s3.when ((s.firedThreads panel).isEmpty && (List.range 8).any (fun t => s.on CNV_PNL_THR_CTL.ENABLE (8 * panel + t)))
    (·.bump CNV_PNL_NO_FIRE.COUNT panel 1)

/-- STROKE_ISSUE (R101, R102): one panel cycle: the operands of strokes that have taken their last step are released,
the firing rule is evaluated for every thread, its wait reason shown, and one fired stroke is issued, PRIMARY before
WASH. upsets are memory errors in the panel's well, by word. -/
def execStrokeIssue (panel : Nat) (upsets : List Upset) (s : State) : Res :=
  .next (if !s.panelUp panel || s.tokPending panel then s
  else
    let s2 := s.cycleBegin panel upsets
    let n := Tab.get s2.pnl.cycle panel 0
    let s4 := s2.showWaits panel
    let s5 := match s2.issuePick panel with
      | none => s4
      | some t => match (s2.pth (8 * panel + t)).head, s2.fireCheck panel t n with
        | some h, .ok st => s4.issue panel t n h st
        | _, _ => s4
    (s5.when ((s5.unitFlights panel .dab).any (fun f => f.2.start.isSome && !f.2.released)) (·.bump CNV_PNL_DAB_BUSY.COUNT panel 1)).panelRefresh panel)

/-- UNIT_START (R91, R92): the queued stroke of the dab array or the vector unit starts in the cycle after the last
step of the stroke ahead of it. -/
def execUnitStart (panel : Nat) (vector : Bool) (s : State) : Res :=
  let fl := s.unitFlights panel (if vector then .vector else .dab)
  .next (match fl.find? (fun f => f.2.start.isNone) with
    | none => s
    | some f =>
      let ahead := fl.filter (fun g => g.2.start.isSome)
      let free := ahead.foldl (fun m g => max m ((g.2.start.getD 0) + g.2.occupancy)) 0
      let now := Tab.get s.pnl.cycle panel 0
      if ahead.any (fun g => !g.2.released && decide (g.2.start.getD 0 + g.2.occupancy > now + 1)) then s
      else s.setFlight f.1 (some { f.2 with start := some (max free (f.2.issue + 1)) }))

/-! ### Results -/

/-- The bytes that runs of bits change: for each well address the mask of bits changed and their new values. -/
def runBytes (addr : Nat → Nat → Dpa) (runs : List BitRun) : Tab (Nat × Nat) :=
  runs.foldl (fun m r =>
    (List.range ((r.bit % 8 + r.bits + 7) / 8)).foldl (fun m i =>
      let a := addr r.handle (r.bit / 8 + i)
      let v := r.value * 2 ^ (r.bit % 8) / 2 ^ (8 * i) % 256
      let k := (2 ^ r.bits - 1) * 2 ^ (r.bit % 8) / 2 ^ (8 * i) % 256
      let o := Tab.get m a (0, 0)
      Tab.put m a (o.1 ||| k, (o.2 &&& (255 - k)) ||| (v &&& k))) m) []

/-- Runs of bits written into a well: a word that they cover whole is replaced, another changes where it is readable,
and an uncorrectable one stays so and is logged (R60, R510). -/
def State.putRuns (s : State) (p : Nat) (runs : List BitRun) : State :=
  let bs := runBytes (s.regionDpa p) runs
  let whole := fun (w : Nat) => (List.range 8).all (fun j => (Tab.get bs (8 * w + j) (0, 0)).1 == 255)
  let words := (bs.map (fun e => e.1 / 8)).dedup
  let ok := fun (w : Nat) => whole w || wellWordOk s.mem (8 * w)
  let m := bs.foldl (fun m (e : Nat × (Nat × Nat)) =>
    if ok (e.1 / 8) then
      let old := match Tab.find s.mem e.1 with | some b => b.toNat | none => 0
      memWrite m e.1 (BitVec.ofNat 8 ((old &&& (255 - e.2.1)) ||| (e.2.2 &&& e.2.1)))
    else m) s.mem
  ({ s with mem := m }).each (words.filter (fun w => !ok w)) (fun w t => t.eccLog (p / 256) ⟨8 * w, logWell, 3, 1,
    BitVec.ofNat 64 ((p / 256 * 4096 + p % 256) * 2 ^ 48 + (8 * w % 0x200000 / 8) % 2 ^ 18 * 2 ^ 30), endpointOf (.panel p), 0x0114⟩)

/-- Which events a stroke raised, one bit each (R88, R129). -/
def eventBits (e : Events) : BitVec 4 :=
  BitVec.ofNat 4 ((if e.overflow > 0 then 1 else 0) + (if e.nanProduced > 0 then 2 else 0) + (if e.nanToInt > 0 then 4 else 0) +
    (if e.inexactGrid > 0 then 8 else 0))

/-- A flight by number. -/
def State.flight (s : State) (n : Nat) : Option Flight := Tab.get s.pnl.flights n none

/-- The operand words that made a stroke fault with STROKE_WELL_UE are logged once (R509). -/
def State.logWellUe (s : State) (f : Flight) (c : Code) : State :=
  if c = codeWellUe then s.eccLog (f.panel / 256) ⟨f.dpa, logWell, 2, 1,
    BitVec.ofNat 64 ((f.panel / 256 * 4096 + f.panel % 256) * 2 ^ 48), endpointOf (.panel f.panel), 0x0110⟩ else s

/-- A flight's work ends with a fault; nothing is written (R125). -/
def State.flightFault (s : State) (n : Nat) (f : Flight) (c : Code) : State :=
  (s.logWellUe f c).setFlight n (some { f with done := true, fault := some c })

/-- The work of an arithmetic stroke that has started: its result is written, or its fault is kept (R110, R125). -/
def State.compute (s : State) (n cls op : Nat) (work : Flight → State → Stroke → Except Code StrokeResult) : State :=
  match s.flight n with
  | none => s
  | some f =>
    if f.cls ≠ cls ∨ strokeOp f.word ≠ op ∨ f.done ∨ f.start.isNone then s
    else match decodeStroke false f.word with
      | .error _ => s
      | .ok st =>
        match work f s st with
        | .error c => s.flightFault n f c
        | .ok r => (s.putRuns f.panel r.runs).setFlight n (some { f with done := true, events := eventBits r.events })

/-- The work of an MMA stroke. -/
def mmaWork (f : Flight) (s : State) (st : Stroke) : Except Code StrokeResult :=
  match st with | .mma x => mmaResult x (s.wellReader f.panel) | _ => .error codeOpReserved

/-- The work of a VEC stroke. -/
def vecWork (f : Flight) (s : State) (st : Stroke) : Except Code StrokeResult :=
  match st with | .vec x => vecResult x (s.wellReader f.panel) | _ => .error codeOpReserved

/-- The work of a RED stroke. -/
def redWork (f : Flight) (s : State) (st : Stroke) : Except Code StrokeResult :=
  match st with | .red x => redResult x (s.wellReader f.panel) | _ => .error codeOpReserved

/-- The seed of a thread's job (R70, R174). -/
def State.jobSeed (s : State) (part : Option Nat) (wash : Bool) : Nat :=
  match part with
  | none => 0
  | some x => match s.part x with
    | none => 0
    | some q => ((Tab.get s.str.sketch.seeds (if wash then q.washJob else q.job) none).getD 0).toNat

/-- The work of a CVT stroke (R116, R117). -/
def cvtWork (f : Flight) (s : State) (st : Stroke) : Except Code StrokeResult :=
  match st with
  | .cvt x => cvtResult x (s.wellReader f.panel) ((RoundDesc.ofBytes (f.desc.getD (List.replicate 64 0))).getD ⟨0, 0, 0⟩)
      (s.jobSeed (s.panelPart f.panel) f.wash) f.step
  | _ => .error codeOpReserved

/-- MMA_NEW (R110). -/
def execMmaNew (flight : Nat) (s : State) : Res := .next (s.compute flight 0 0 mmaWork)
/-- MMA_ADD (R110). -/
def execMmaAdd (flight : Nat) (s : State) : Res := .next (s.compute flight 0 1 mmaWork)
/-- VEC ADD (R112, R113). -/
def execVecAdd (flight : Nat) (s : State) : Res := .next (s.compute flight 1 0 vecWork)
/-- VEC SUB (R112, R113). -/
def execVecSub (flight : Nat) (s : State) : Res := .next (s.compute flight 1 1 vecWork)
/-- VEC MUL (R112, R113). -/
def execVecMul (flight : Nat) (s : State) : Res := .next (s.compute flight 1 2 vecWork)
/-- VEC FMA (R112, R113). -/
def execVecFma (flight : Nat) (s : State) : Res := .next (s.compute flight 1 3 vecWork)
/-- VEC MAX (R112, R113). -/
def execVecMax (flight : Nat) (s : State) : Res := .next (s.compute flight 1 4 vecWork)
/-- VEC MIN (R112, R113). -/
def execVecMin (flight : Nat) (s : State) : Res := .next (s.compute flight 1 5 vecWork)
/-- VEC ABS (R112, R113). -/
def execVecAbs (flight : Nat) (s : State) : Res := .next (s.compute flight 1 6 vecWork)
/-- VEC CMPGT (R112, R113). -/
def execVecCmpgt (flight : Nat) (s : State) : Res := .next (s.compute flight 1 7 vecWork)
/-- VEC EXP2 (R112, R113). -/
def execVecExp2 (flight : Nat) (s : State) : Res := .next (s.compute flight 1 8 vecWork)
/-- VEC LOG2 (R112, R113). -/
def execVecLog2 (flight : Nat) (s : State) : Res := .next (s.compute flight 1 9 vecWork)
/-- VEC RCP (R112, R113). -/
def execVecRcp (flight : Nat) (s : State) : Res := .next (s.compute flight 1 10 vecWork)
/-- VEC RSQRT (R112, R113). -/
def execVecRsqrt (flight : Nat) (s : State) : Res := .next (s.compute flight 1 11 vecWork)
/-- VEC TANH (R112, R113). -/
def execVecTanh (flight : Nat) (s : State) : Res := .next (s.compute flight 1 12 vecWork)
/-- VEC COPY (R112, R113). -/
def execVecCopy (flight : Nat) (s : State) : Res := .next (s.compute flight 1 13 vecWork)
/-- RED SUM (R114, R115). -/
def execRedSum (flight : Nat) (s : State) : Res := .next (s.compute flight 2 0 redWork)
/-- RED MAX (R114, R115). -/
def execRedMax (flight : Nat) (s : State) : Res := .next (s.compute flight 2 1 redWork)
/-- RED MIN (R114, R115). -/
def execRedMin (flight : Nat) (s : State) : Res := .next (s.compute flight 2 2 redWork)
/-- RED SUMSQ (R114, R115). -/
def execRedSumsq (flight : Nat) (s : State) : Res := .next (s.compute flight 2 3 redWork)
/-- RED SOFTMAX_STEP (R115). -/
def execRedSoftmaxStep (flight : Nat) (s : State) : Res := .next (s.compute flight 2 4 redWork)
/-- CVT (R116, R117). -/
def execCvt (flight : Nat) (s : State) : Res := .next (s.compute flight 3 0 cvtWork)

/-! ### Token and control strokes (the TOK table) -/

/-- A flight leaves the panel: its thread and panel settle (R126, R130). -/
def State.flightGone (s : State) (n : Nat) (f : Flight) : State :=
  ((s.setFlight n none).threadSettle (8 * f.panel + f.thread)).panelRefresh f.panel

/-- A TOK stroke takes its effect and completes in its issue cycle. -/
def State.tok (s : State) (n op : Nat) (eff : Flight → TokFields → State → State) : State :=
  match s.flight n with
  | none => s
  | some f =>
    match decodeStroke false f.word with
    | .ok (.tok x) => if x.op = op then (eff f x s).flightGone n f else s
    | _ => s

/-- The thread of a flight. -/
def Flight.thr (f : Flight) : Nat := 8 * f.panel + f.thread

/-- A taken branch: the PC counts strokes from the branch itself, and the cycle is kept (R101). -/
def State.branchTo (s : State) (f : Flight) (imm : Nat) : State :=
  let target := ((f.dpa : Int) + 16 * signedOf 32 (imm % 2 ^ 32)) % 2 ^ 40
  (s.setPth f.thr { s.pth f.thr with branch := some f.issue }).wrN CNV_PNL_THR_PC.PC f.thr (target.toNat / 16)

/-- TOK SIGNAL. -/
def execTokSignal (flight : Nat) (s : State) : Res := .next (s.tok flight 0 (fun f x t => t.setToken f.panel x.h 2))
/-- TOK FREE: H is read with consume and released at once. -/
def execTokFree (flight : Nat) (s : State) : Res :=
  .next (s.tok flight 1 (fun f x t => t.setToken f.panel x.h (if t.readers f.panel x.h = 0 then 0 else 3)))
/-- TOK WAIT. -/
def execTokWait (flight : Nat) (s : State) : Res := .next (s.tok flight 2 (fun _ _ t => t))
/-- TOK JUMP. -/
def execTokJump (flight : Nat) (s : State) : Res := .next (s.tok flight 3 (fun f x t => t.branchTo f x.imm))
/-- TOK LOOP. -/
def execTokLoop (flight : Nat) (s : State) : Res :=
  .next (s.tok flight 4 (fun f x t =>
    let th := t.pth f.thr
    let v := th.lc.getD x.lc 0 - 1
    let t1 := t.setPth f.thr { th with lc := th.lc.set x.lc v }
    if v = 0 then t1 else t1.branchTo f x.imm))
/-- TOK SETCNT. -/
def execTokSetcnt (flight : Nat) (s : State) : Res :=
  .next (s.tok flight 5 (fun f x t => t.setPth f.thr { t.pth f.thr with lc := (t.pth f.thr).lc.set x.lc (BitVec.ofNat 32 x.imm) }))
/-- TOK SETBASE. -/
def execTokSetbase (flight : Nat) (s : State) : Res :=
  .next (s.tok flight 6 (fun f x t => t.setPth f.thr { t.pth f.thr with ab := (t.pth f.thr).ab.set x.ab (BitVec.ofNat 40 x.imm) }))
/-- TOK SETDESC. -/
def execTokSetdesc (flight : Nat) (s : State) : Res :=
  .next (s.tok flight 7 (fun f x t => t.setPth f.thr { t.pth f.thr with desc := BitVec.ofNat 40 x.imm }))
/-- TOK SETSTEP. -/
def execTokSetstep (flight : Nat) (s : State) : Res :=
  .next (s.tok flight 8 (fun f x t => t.wrN CNV_PNL_THR_STEP.STEP f.thr (x.imm % 2 ^ 32)))
/-- TOK LOADSTEP: the partition's last committed step. -/
def execTokLoadstep (flight : Nat) (s : State) : Res :=
  .next (s.tok flight 9 (fun f _ t => match t.panelPart f.panel with
    | some p => t.wr CNV_PNL_THR_STEP.STEP f.thr (t.rd CNV_FIN_STEP.STEP p)
    | none => t))
/-- TOK FENCE. -/
def execTokFence (flight : Nat) (s : State) : Res := .next (s.tok flight 10 (fun _ _ t => t))
/-- TOK NOTIFY. -/
def execTokNotify (flight : Nat) (s : State) : Res :=
  .next (s.tok flight 11 (fun _ x t => t.post (x.imm / 2 ^ 32 % 4096) (BitVec.ofNat 32 x.imm)))
/-- TOK HALT. -/
def execTokHalt (flight : Nat) (s : State) : Res := .next (s.tok flight 12 (fun f _ t => t.wrN CNV_PNL_THR_CTL.STATE f.thr 2))

/-! ### Completion, enabling, draining -/

/-- The event counters of a panel count a stroke's events once (R129). -/
def State.countEvents (s : State) (p : Nat) (e : BitVec 4) : State :=
  (((s.when (e.getLsbD 0) (·.bump CNV_PNL_EVT_OVERFLOW.COUNT p 1)).when (e.getLsbD 1) (·.bump CNV_PNL_EVT_NAN_PRODUCED.COUNT p 1)).when
    (e.getLsbD 2) (·.bump CNV_PNL_EVT_NAN_TO_INT.COUNT p 1)).when (e.getLsbD 3) (·.bump CNV_PNL_EVT_INEXACT_GRID.COUNT p 1)

/-- STROKE_COMPLETE (R96, R125, R126): a stroke whose work is done finishes: operands are released, its result
regions become READY, or FREE after a fault (an updated region READY as before), and a fault halts the thread and its
class in the partition. -/
def execStrokeComplete (flight : Nat) (s : State) : Res :=
  .next (match s.flight flight with
    | none => s
    | some f =>
      if !f.done then s
      else
        let us := match decodeStroke false f.word with | .ok st => mergeUses st.uses | .error _ => []
        let s1 := (s.releaseOps flight f).each (us.filter (·.writes)) (fun u t =>
          t.setToken f.panel u.handle (if f.fault.isSome && !u.reads then 0 else 2))
        let s2 := s1.countEvents f.panel f.events
        let s3 := s2.setFlight flight none
        let s4 := match f.fault with | some c => s3.strokeFault f.panel f.thread f.dpa f.wash c | none => s3
        (s4.threadSettle f.thr).panelRefresh f.panel)

/-- A thread enabled (R130): ENABLE from 0 to 1 makes it RUNNING from PC. -/
def State.threadStart (s : State) (q : Nat) : State :=
  if s.on CNV_PNL_THR_CTL.ENABLE q then s
  else (((s.set1 CNV_PNL_THR_CTL.ENABLE q).wrN CNV_PNL_THR_CTL.STATE q 1).setPth q
    { s.pth q with head := none, branch := none, lastIss := 0, stopping := false, halted := false }).panelRefresh (q / 8)

/-- A thread disabled (R130): it stops issuing and is IDLE once its issued strokes have completed. -/
def State.threadStop (s : State) (q : Nat) : State :=
  if s.on CNV_PNL_THR_CTL.ENABLE q then
    (((s.clr CNV_PNL_THR_CTL.ENABLE q).setPth q { s.pth q with head := none, stopping := true }).threadSettle q).panelRefresh (q / 8)
  else s

/-- THREAD_ENABLE (R130). -/
def execThreadEnable (panel thread : Nat) (s : State) : Res :=
  .next (if s.panelUp panel && decide (thread < 8) then s.threadStart (8 * panel + thread) else s)

/-- THREAD_DISABLE (R130). -/
def execThreadDisable (panel thread : Nat) (s : State) : Res :=
  .next (if s.panelUp panel && decide (thread < 8) then s.threadStop (8 * panel + thread) else s)

/-- PANEL_DRAIN (R101): DRAIN stops the panel issuing; the bit clears when every issued stroke has completed. -/
def execPanelDrain (panel : Nat) (s : State) : Res :=
  .next (if s.panelUp panel then (s.set1 CNV_PNL_CTL.DRAIN panel).panelRefresh panel else s)

end Sys2Proof.Machine
end

