-- ==== Sys2Proof/Machine/Moves.lean ====
section
/-! DEFINITION. The strokes that move data: MOV and GATHER, and the streams' landing of units and return of credits
(chapters 03 and 04). -/

namespace Sys2Proof.Machine

/-- The agent of a flight's memory requests. -/
def State.flightAgent (s : State) (n : Nat) (f : Flight) : Agent := ⟨.panel f.panel, 0x100000 + n, s.panelPart f.panel, f.wash⟩

/-- The code of a stroke whose memory request met an error (R628). -/
def memCode (c : Code) : Code := if 0x0110 ≤ c.toNat ∧ c.toNat ≤ 0x0114 then codeMemError else c

/-- The earlier of two codes in the order of work, 0 where there is none (R627). -/
def firstCode (a b : Code) : Code := if a = 0 then b else a

/-- Bytes written into a region; a part of an uncorrectable word stays so and is logged (R510). -/
def State.putRegion (s : State) (p h o : Nat) (bs : List Byte) : State :=
  let d := s.regionDpa p h o
  (s.wellWrite d bs).when (s.wellPartial d bs.length) (fun t => t.eccLog (p / 256) ⟨d, logWell, 3, 1,
    BitVec.ofNat 64 ((p / 256 * 4096 + p % 256) * 2 ^ 48 + (d % 0x200000 / 8) % 2 ^ 18 * 2 ^ 30), endpointOf (.panel p), 0x0114⟩)

/-- One request of a stroke: its address, the offset of its first byte in the stroke's order of work, its length. -/
structure Piece where
  dpa : Dpa
  off : Nat
  len : Nat
deriving DecidableEq, Repr

/-- Reads of several pieces: the bytes and the code of the lowest failed one. Every read of the host window is sent,
and the access waits until all have returned (R546, R619). -/
def State.readPieces (s : State) (ag : Agent) (act : MemAct) (ps : List Piece) : Acc :=
  ps.foldl (fun acc p =>
    match acc with
    | .wait t => match targetOf p.dpa with
      | .host _ => if (t.hostReply ag.src ag.tag p.dpa).isSome || (t.hostRefusal p.dpa).isSome then .wait t
          else .wait (t.hostSend ag.src ag.tag p.dpa p.len)
      | _ => .wait t
    | .done c xs t =>
      match t.access1 ag p.dpa p.len act with
      | .done c' ys u => .done (firstCode c (memCode c')) (xs ++ (if c' = 0 then ys else List.replicate p.len 0)) u
      | .wait _ => .wait (match targetOf p.dpa with | .host _ => s.hostSend ag.src ag.tag p.dpa p.len | _ => s)) (.done 0 [] s)

/-- Whether a whole extent lies in a CONST destination of the resident Sketch, so that the constant cache serves it (the table
before R229, R181). -/
def State.inConst (s : State) (ps : List Piece) : Bool :=
  s.str.sketch.consts.any (fun k => ps.all (fun p => decide (k.1 ≤ p.dpa) && decide (p.dpa + p.len ≤ k.1 + k.2)))

/-- Reads of several pieces through a panel's constant cache (R229, R231): a line that it holds is served from its copy, one that
it does not hold is fetched whole; a line that replacement has driven out in between is fetched by RO_FILL_DONE. -/
def State.readConsts (s : State) (p : Nat) (ps : List Piece) : Acc :=
  ps.foldl (fun acc x =>
    match acc with
    | .wait t => .wait t
    | .done c xs t =>
      match Tab.get t.glz.ro (roKey p 1 x.dpa) none with
      | some bs => .done c (xs ++ (bs.drop (x.dpa % 512)).take x.len) t
      | none =>
        match t.roFill p 1 x.dpa with
        | .done c' bs u => .done (firstCode c (memCode c')) (xs ++ (if c' = 0 then (bs.drop (x.dpa % 512)).take x.len else List.replicate x.len 0)) u
        | .wait _ => .wait s) (.done 0 [] s)

/-- The reads of a MOV LOAD: through the constant cache where it serves them, else at their targets. -/
def State.loadPieces (s : State) (n : Nat) (f : Flight) (ps : List Piece) : Acc :=
  if s.inConst ps then s.readConsts f.panel ps else s.readPieces (s.flightAgent n f) .read ps

/-- Writes or adds of several pieces from a region: an uncorrectable source word or an error response is the stroke's
code, the lowest one first; none of a piece whose source is uncorrectable is written. None where a line is held. -/
def State.writePieces (s : State) (ag : Agent) (p h : Nat) (act : List Byte → MemAct) (ps : List Piece) : Option (Code × State) :=
  ps.foldl (fun acc x =>
    match acc with
    | none => none
    | some (c, t) =>
      match t.wellRead (t.regionDpa p h x.off) x.len with
      | none => some (firstCode c codeWellUe, t)
      | some bs =>
        match t.access1 ag x.dpa x.len (act bs) with
        | .done c' _ u => some (firstCode c (memCode c'), u)
        | .wait _ => none) (some (0, s))

/-- A stroke's work ends: with its code, or done. -/
def State.workEnd (s : State) (n : Nat) (f : Flight) (c : Code) : State :=
  if c = 0 then s.setFlight n (some { f with done := true }) else s.flightFault n f c

/-- A MOV stroke in flight whose work is not done, of the given operation. -/
def State.mov (s : State) (n op : Nat) (go : Flight → MovFields → State) : State :=
  match s.flight n with
  | none => s
  | some f =>
    if f.done then s
    else match decodeStroke false f.word with
      | .ok (.mov x) => if x.op = op then go f x else s
      | _ => s

/-- The requests of a MOV's memory side, row after row, of b bytes each (R119). -/
def movPieces (x : MovFields) (base : BitVec 40) (b : Nat) : List Piece :=
  ((List.range x.rows).zip (movRows x base)).flatMap (fun r =>
    (List.range (x.rlen / b)).map (fun j => ⟨r.2.toNat + b * j, r.1 * x.rlen + b * j, b⟩))

/-- The address bases of the thread that issued a flight. -/
def State.flightBase (s : State) (f : Flight) (ab : Nat) : BitVec 40 := (s.pth f.thr).ab.getD ab 0

/-- MOV COPY: HS to HD. -/
def execMovCopy (flight : Nat) (s : State) : Res :=
  .next (s.mov flight 0 (fun f x =>
    match s.wellRead (s.regionDpa f.panel x.hs 0) (x.rows * x.rlen) with
    | none => s.flightFault flight f codeWellUe
    | some bs => (s.putRegion f.panel x.hd 0 bs).workEnd flight f 0))

/-- The 256 B units of a run of bytes. -/
def unitsOf (bs : List Byte) : List (BitVec 2048) :=
  (List.range (bs.length / 256)).map (fun i => BitVec.ofNat 2048 (leField bs (256 * i) 256))

/-- MOV SEND (R147, R156): the units of HS enter the fabric; on a BROKEN stream they are discarded. -/
def execMovSend (flight : Nat) (s : State) : Res :=
  .next (s.mov flight 1 (fun f x =>
    match s.wellRead (s.regionDpa f.panel x.hs 0) (x.rows * x.rlen) with
    | none => s.flightFault flight f codeWellUe
    | some bs =>
      let c := f.panel / 256
      let k := s.recvKey c x.stream
      let t := if s.rdN CNV_STM_STREAM.STATE (c * 4096 + x.stream) = 1 then
        s.setStream k { s.stream k with flying := (s.stream k).flying ++ unitsOf bs } else s
      t.workEnd flight f 0))

/-- The bytes of a unit. -/
def unitBytes (u : BitVec 2048) : List Byte := leBytes 256 u.toNat

/-- The RECV strokes of a stream that are not done, in issue order. -/
def State.recvs (s : State) (c id : Nat) : List (Nat × Flight) :=
  s.pnl.flights.filterMap (fun (e : Nat × Option Flight) => match e.2 with
    | some f => if f.panel / 256 = c ∧ recvStream f.word = some id ∧ !f.done then some (e.1, f) else none
    | none => none)

/-- Landed units moved into the region of the RECV that was issued first among those not done (R120, R146): each
returns a credit, and with its last one the RECV is done. -/
def State.recvMove (s : State) (n : Nat) (f : Flight) (x : MovFields) : State :=
  let k := f.panel / 256 * 4096 + x.stream
  let st := s.stream k
  let take := min st.landed.length (movUnits x - f.moved)
  let us := st.landed.take take
  let s1 := s.putRegion f.panel x.hd (256 * f.moved) (us.flatMap unitBytes)
  let s2 := s1.setStream k { st with landed := st.landed.drop take, returns := st.returns + take }
  s2.setFlight n (some { f with moved := f.moved + take, done := decide (f.moved + take = movUnits x) })

/-- MOV RECV (R120, R146, R156). -/
def execMovRecv (flight : Nat) (s : State) : Res :=
  .next (s.mov flight 2 (fun f x =>
    if s.rdN CNV_STM_STREAM.STATE (f.panel / 256 * 4096 + x.stream) = 1 then
      (if ((s.recvs (f.panel / 256) x.stream).head?).map Prod.fst = some flight then s.recvMove flight f x else s)
    else s.endRecvs))

/-- MOV LOAD: memory to HD, packed row after row. -/
def execMovLoad (flight : Nat) (s : State) : Res :=
  .next (s.mov flight 3 (fun f x =>
    match s.loadPieces flight f (movPieces x (s.flightBase f x.ab) 256) with
    | .wait t => t
    | .done c bs t => if c = 0 then (t.putRegion f.panel x.hd 0 bs).workEnd flight f 0 else t.flightFault flight f c))

/-- MOV STORE: HS to memory. -/
def execMovStore (flight : Nat) (s : State) : Res :=
  .next (s.mov flight 4 (fun f x =>
    match s.writePieces (s.flightAgent flight f) f.panel x.hs .write (movPieces x (s.flightBase f x.ab) 256) with
    | none => s
    | some (c, t) => t.workEnd flight f c))

/-- MOV ADDL: HS added into memory (R240 to R243). -/
def execMovAddl (flight : Nat) (s : State) : Res :=
  .next (s.mov flight 5 (fun f x =>
    match s.writePieces (s.flightAgent flight f) f.panel x.hs (if fmtOf x.fmt = .exact96 then .addEx96 else .addFp32)
        (movPieces x (s.flightBase f x.ab) 256) with
    | none => s
    | some (c, t) => t.workEnd flight f c))

/-- MOV TLOAD: each 2 KiB line lands in HD as its transposed tile (R249). -/
def execMovTload (flight : Nat) (s : State) : Res :=
  .next (s.mov flight 6 (fun f x =>
    match s.readPieces (s.flightAgent flight f) (.turn ((fmtOf x.fmt).bits / 8)) (movPieces x (s.flightBase f x.ab) 2048) with
    | .wait t => t
    | .done c bs t => if c = 0 then (t.putRegion f.panel x.hd 0 bs).workEnd flight f 0 else t.flightFault flight f c))

/-! ### GATHER (R121, R122) -/

/-- A GATHER stroke in flight whose work is not done, of the given operation. -/
def State.gath (s : State) (n op : Nat) (go : Flight → GatherFields → State) : State :=
  match s.flight n with
  | none => s
  | some f =>
    if f.done then s
    else match decodeStroke false f.word with
      | .ok (.gather x) => if x.op = op then go f x else s
      | _ => s

/-- The row of index i: its DPA, or the code with which the stroke faults when the index is reached. -/
def State.gatherRow (s : State) (f : Flight) (x : GatherFields) (perm : Perm) (i : Nat) : Except Code Dpa :=
  match s.wellRead (s.regionDpa f.panel x.hi (4 * i)) 4 with
  | none => .error codeWellUe
  | some bs =>
    let a := ((s.flightBase f x.ab).toNat : Int) + signed 32 (leNat bs) * (x.pitch : Int)
    if decide (a < 0) || decide (a + x.rbytes > 2 ^ 40) ||
        !(match s.panelPart f.panel with | some p => s.windowOk p perm a.toNat x.rbytes | none => false) then .error codeGatherBounds
    else .ok a.toNat

/-- The requests of the rows before the first index that faults, and that fault's code, 0 where there is none. -/
def State.gatherPieces (s : State) (f : Flight) (x : GatherFields) (perm : Perm) : List Piece × Code :=
  (List.range x.count).foldl (fun acc i =>
    if acc.2 ≠ 0 then acc
    else match s.gatherRow f x perm i with
      | .error e => (acc.1, e)
      | .ok d => (acc.1 ++ (sectorsOf d x.rbytes).map (fun q => ⟨q.1, i * x.rbytes + (q.1 - d), q.2⟩), 0)) ([], 0)

/-- GATHER: rows of memory to HD. -/
def execGather (flight : Nat) (s : State) : Res :=
  .next (s.gath flight 0 (fun f x =>
    let ps := s.gatherPieces f x .r
    match s.readPieces (s.flightAgent flight f) .read ps.1 with
    | .wait t => t
    | .done c bs t =>
      let e := firstCode c ps.2
      if e = 0 then (t.putRegion f.panel x.hd 0 bs).workEnd flight f 0 else t.flightFault flight f e))

/-- SCATTER: rows of HD to memory, in ascending position. -/
def execScatter (flight : Nat) (s : State) : Res :=
  .next (s.gath flight 1 (fun f x =>
    let ps := s.gatherPieces f x .w
    match s.writePieces (s.flightAgent flight f) f.panel x.hd .write ps.1 with
    | none => s
    | some (c, t) => t.workEnd flight f (firstCode c ps.2)))

/-- SCATTER_ADD: rows of HD added into memory as FP32, in ascending position. -/
def execScatterAdd (flight : Nat) (s : State) : Res :=
  .next (s.gath flight 2 (fun f x =>
    let ps := s.gatherPieces f x .a
    match s.writePieces (s.flightAgent flight f) f.panel x.hd .addFp32 ps.1 with
    | none => s
    | some (c, t) => t.workEnd flight f (firstCode c ps.2)))

/-! ### Streams (R145 to R147) -/

/-- STREAM_UNIT_LAND (R146): the oldest unit in the fabric lands at its receiver, and a RECV that waits takes it. -/
def execStreamUnitLand (canvas stream : Nat) (s : State) : Res :=
  let k := s.recvKey canvas stream
  .next (match (s.stream k).flying with
    | [] => s
    | u :: us =>
      if s.rdN CNV_STM_STREAM.STATE k ≠ 1 then s
      else
        let t := s.setStream k { s.stream k with flying := us, landed := (s.stream k).landed ++ [u], count := (s.stream k).count + 1 }
        match t.recvs (k / 4096) (k % 4096) with
        | (n, f) :: _ => (match decodeStroke false f.word with | .ok (.mov x) => t.recvMove n f x | _ => t)
        | [] => t)

/-- STREAM_CREDIT_RETURN (R147): a returned credit reaches the stream's sender. -/
def execStreamCreditReturn (canvas stream : Nat) (s : State) : Res :=
  let k := s.recvKey canvas stream
  let snd := s.sendKey k
  .next (if (s.stream k).returns = 0 then s
    else
      let t := s.setStream k { s.stream k with returns := (s.stream k).returns - 1 }
      if t.rdN CNV_STM_STREAM.STATE snd = 1 then t.bump CNV_STM_STREAM.CREDITS snd 1 else t)

end Sys2Proof.Machine
end

