-- ==== Sys2Proof/Machine/Trains.lean ====
section
/-! DEFINITION. Trains: launch, stop, derived state and LINKED propagation (chapter 04). -/

namespace Sys2Proof.Machine

/-- An entry of the train tables, by canvas × 4096 + entry; none where it is EMPTY. -/
def State.train (s : State) (k : Nat) : Option Train := Tab.get s.str.sketch.trains k none

/-- The key of an entry's parent. -/
def Train.parentKey (t : Train) : Option Nat := t.parent.map (fun p => p.1 * 4096 + p.2)

/-- Whether entry k is e or lies below it; fuel bounds the depth (R134: the table has 16,384 entries). -/
def State.isBelow (s : State) (e : Nat) : Nat → Nat → Bool
  | 0, _ => false
  | f + 1, k =>
    if k = e then true
    else match s.train k with
      | none => false
      | some t => match t.parentKey with | some p => s.isBelow e f p | none => false

/-- The leaves at or below an entry. -/
def State.leaves (s : State) (e : Nat) : List (Nat × Train) :=
  s.str.sketch.trains.filterMap (fun (x : Nat × Option Train) => match x.2 with
    | some t => if !t.group && s.isBelow e 16384 x.1 then some (x.1, t) else none
    | none => none)

/-- The start records of a leaf (R139). -/
def State.leafStarts (s : State) (l : Nat × Train) : List StartRecord :=
  (List.range l.2.count).filterMap (fun i => Tab.get s.str.sketch.starts (l.1 / 4096 * 65536 + l.2.first + i) none)

/-- The thread number (panel × 8 + thread) of a start record. -/
def StartRecord.thr (r : StartRecord) : Nat := 8 * r.panel + r.thread

/-- The threads of the leaves at or below an entry. -/
def State.trainThreads (s : State) (e : Nat) : List Nat := (s.leaves e).flatMap (fun l => (s.leafStarts l).map (·.thr))

/-- The partitions of a train: those of the panels of its leaves (R135). -/
def State.trainParts (s : State) (e : Nat) : List Nat := ((s.trainThreads e).filterMap (fun q => s.panelPart (q / 8))).dedup

/-- The job class of an entry. -/
def State.trainWash (s : State) (e : Nat) : Bool := match s.train e with | some t => t.wash | none => false

/-- The derived STATE of an entry (R137). -/
def State.trainState (s : State) (e : Nat) : Nat :=
  let st := fun (v : Nat) => (s.trainThreads e).any (fun q => s.rdN CNV_PNL_THR_CTL.STATE q == v)
  if (s.train e).isNone then 0
  else if st 3 || (s.trainParts e).any (fun p => s.faulted p (s.trainWash e)) then 4
  else if st 1 then 2
  else if st 2 then 3
  else 1

/-- TRAIN_STATE_CHANGE (R137, R138): STATE takes its derived value; an entry that becomes FAULTED sets TRAIN_FAULT and
takes the code of the first fault unless it holds one since its last LAUNCH. -/
def execTrainStateChange (canvas entry : Nat) (s : State) : Res :=
  let k := canvas * 4096 + entry
  let v := s.trainState k
  let t := s.wrN CNV_STM_TRN_STATUS.STATE k v
  .next (if v = 4 ∧ s.rdN CNV_STM_TRN_STATUS.STATE k ≠ 4 then
    let code := match (s.trainParts k).find? (fun p => s.faulted p (s.trainWash k)) with
      | some p => s.rd GLB_PART_FAULT.CODE p
      | none => match (s.trainThreads k).find? (fun q => s.rdN CNV_PNL_THR_CTL.STATE q == 3) with
        | some q => s.rd CNV_PNL_FAULT.CODE (q / 8)
        | none => 0
    (t.set1 CNV_STM_STATUS.TRAIN_FAULT canvas).when (s.rd CNV_STM_TRN_STATUS.CODE k == 0) (·.wr CNV_STM_TRN_STATUS.CODE k code)
  else t)

/-- LINKED_PROPAGATION (R158): the root of a LINKED train is FAULTED, and every other partition with a leaf of the
train faults for its class, with the original code and the partition where the fault arose. -/
def execLinkedPropagation (canvas entry : Nat) (s : State) : Res :=
  let k := canvas * 4096 + entry
  .next (match s.train k with
    | none => s
    | some t =>
      if !t.linked || t.parent.isSome || decide (s.rdN CNV_STM_TRN_STATUS.STATE k ≠ 4) then s
      else
        let ps := s.trainParts k
        let bad := ps.filter (fun p => s.faulted p t.wash)
        match (match bad.find? (fun p => !s.on GLB_PART_FAULT.ORIGIN_VALID p) with | some p => some p | none => bad.head?) with
        | none => s
        | some o =>
          let code := BitVec.setWidth 16 (s.rd GLB_PART_FAULT.CODE o)
          s.each (ps.filter (fun p => !s.faulted p t.wash)) (fun p u => u.partFault p t.wash code (some o)))

/-! ### Launch and stop -/

/-- The command value of CNV_STM_TRN_CMD. -/
def trainCmd (op entry : Nat) : Val := BitVec.ofNat 64 (op * 65536 + entry % 4096)

/-- The launch in progress on a canvas. -/
def State.launching (s : State) (c : Nat) : Option Launch := Tab.get s.str.launch c none

/-- The launch of a canvas at a content. -/
def State.setLaunch (s : State) (c : Nat) (l : Option Launch) : State :=
  { s with str := { s.str with launch := Tab.set s.str.launch c l none } }

/-- A train command taken up in its turn (R143): none while a launch runs or another command is queued first; the
queue still holds the command, which counts until it has finished. -/
def State.trainTurn (s : State) (c : Nat) (v : Val) : Option State :=
  if (s.launching c).isSome then none
  else match s.woQueue CNV_STM_TRN_CMD.OP c with
    | [] => some (s.setWo CNV_STM_TRN_CMD.OP c [v])
    | w :: _ => if w = v then some s else none

/-- The oldest train command of a canvas has finished. -/
def State.trainFinish (s : State) (c : Nat) : State := s.setWo CNV_STM_TRN_CMD.OP c ((s.woQueue CNV_STM_TRN_CMD.OP c).drop 1)

/-- A LAUNCH's first phase (R141): the streams that lie whole below the entry are reset. -/
def State.resetStreams (s : State) (e : Nat) : State :=
  let ps := ((s.trainThreads e).map (· / 8)).dedup
  s.each s.str.sketch.streams (fun (x : Nat × Option StreamRecord) t =>
    match x.2 with
    | some r =>
      if r.wash == s.trainWash e && ps.contains r.sender && ps.contains r.receiver then
        ((t.setStream x.1 StreamState.empty).wrN CNV_STM_STREAM.STATE x.1 1).wr CNV_STM_STREAM.CREDITS x.1 (t.rd CNV_STM_STREAM.LAND x.1)
      else t
    | none => t)

/-- LAUNCH (R140, R141): refused, or its stream resets are made and the start of its threads is due. -/
def execLaunch (canvas entry : Nat) (s : State) : Res :=
  let k := canvas * 4096 + entry % 4096
  .next (match s.trainTurn canvas (trainCmd 1 entry) with
    | none => s
    | some t =>
      if (t.train k).isNone || (t.trainThreads k).any (fun q => t.rdN CNV_PNL_THR_CTL.STATE q != 0) ||
          (t.trainParts k).any (fun p => t.faulted p (t.trainWash k)) then
        (t.set1 CNV_STM_STATUS.CMD_REFUSED canvas).trainFinish canvas
      else
        let below := t.str.sketch.trains.filterMap (fun (x : Nat × Option Train) => if t.isBelow k 16384 x.1 then some x.1 else none)
        ((t.resetStreams k).each below (fun x u => u.wrN CNV_STM_TRN_STATUS.CODE x 0)).setLaunch canvas (some ⟨entry % 4096⟩))

/-- A leaf thread started from its start record (R141). -/
def State.startLeafThread (s : State) (l : Train) (r : StartRecord) : State :=
  let q := r.thr
  let s1 := s.wrN CNV_PNL_THR_PC.PC q (r.pc / 16)
  let s2 := s1.setPth q { s1.pth q with ab := (s1.pth q).ab.set 0 (BitVec.ofNat 40 r.ab0) }
  ((s2.flag CNV_PNL_THR_CTL.CLASS q l.wash).wrN CNV_PNL_THR_CTL.PHASE q l.phase).threadStart q

/-- LAUNCH_THREADS_START (R141): every canvas has acknowledged, the leaf threads take their start records and are
enabled, and the command has finished. A panel whose island cannot be reached takes nothing. -/
def execLaunchThreadsStart (canvas : Nat) (s : State) : Res :=
  .next (match s.launching canvas with
    | none => s
    | some l =>
      ((s.each (s.leaves (canvas * 4096 + l.entry)) (fun x t =>
        t.each (s.leafStarts x) (fun r u => if u.panelUp r.panel then u.startLeafThread x.2 r else u))).setLaunch canvas none).trainFinish canvas)

/-- STOP (R142): ENABLE cleared for every leaf thread; refused for an EMPTY entry. -/
def execStop (canvas entry : Nat) (s : State) : Res :=
  let k := canvas * 4096 + entry % 4096
  .next (match s.trainTurn canvas (trainCmd 2 entry) with
    | none => s
    | some t =>
      (if (t.train k).isNone then t.set1 CNV_STM_STATUS.CMD_REFUSED canvas
        else t.each (t.trainThreads k) (fun q u => u.threadStop q)).trainFinish canvas)

end Sys2Proof.Machine
end

