-- ==== Sys2Proof/Machine/Sketch.lean ====
section
/-! DEFINITION. The Sketch: the image, the loader's checks in their order, the apply phase, and the primer (chapter 05). -/

namespace Sys2Proof.Machine

/-! ### Codes (R199) -/

/-- SKT_BUSY. -/
def sktBusy : Code := 0x0501
/-- SKT_FORMAT. -/
def sktFormat : Code := 0x0502
/-- SKT_CRC. -/
def sktCrc : Code := 0x0503
/-- SKT_SIGNATURE. -/
def sktSignature : Code := 0x0504
/-- SKT_PART. -/
def sktPart : Code := 0x0505
/-- SKT_SECTION_UNKNOWN. -/
def sktSectionUnknown : Code := 0x0506
/-- SKT_VERSION_UNTESTED. -/
def sktVersionUntested : Code := 0x0507
/-- SKT_STRUCTURE. -/
def sktStructure : Code := 0x0508
/-- SKT_CREDIT_CYCLE. -/
def sktCreditCycle : Code := 0x0509
/-- SKT_CANVAS_UNAVAILABLE. -/
def sktUnavailable : Code := 0x050A
/-- SKT_APPLY_INTERRUPTED. -/
def sktInterrupted : Code := 0x050B
/-- SKT_PATCH_INVALID. -/
def sktPatchInvalid : Code := 0x050C
/-- SKT_STAGING. -/
def sktStaging : Code := 0x050D
/-- SKT_THERMAL_HOLD. -/
def sktThermalHold : Code := 0x050E

/-! ### Reading the image -/

/-- The byte that memory would give a reader of a gesso address, where it is readable: from the line in the glaze, the
victim buffer, or the row. -/
def State.peek (s : State) (d : Dpa) : Option Byte :=
  let k := keyOf d
  let i := d % 2048 / 256
  let inGlaze := (match s.line k with | some l => l.valid.getLsbD i | none => false) ||
    (match s.victim k with | some v => v.dirty.getLsbD i | none => false)
  if inGlaze then (if s.wordBad (d / 8) then none else some (Tab.get s.glz.data d 0))
  else if (s.rowMeta k).zt && !Tab.get s.gso.badMeta k false then some 0
  else if s.cwUnreadable k (d % 2048 / 32) then none
  else memRead s.mem d

/-- A run of bytes as a reader would find it; none where one of them is unreadable. -/
def State.peekBytes (s : State) (d n : Nat) : Option (List Byte) :=
  ((List.range n).map (fun i => s.peek (d + i))).foldr
    (fun b acc => match b, acc with | some x, some xs => some (x :: xs) | _, _ => none) (some [])

/-- A section of an image (R171). -/
structure Section where
  type   : Nat
  canvas : Nat
  flags  : Nat
  count  : Nat
  at_    : Nat
  body   : List Byte
deriving DecidableEq, Repr

/-- Whether every byte is zero. -/
def allZero (bs : List Byte) : Bool := bs.all (· == 0)

/-- The sections that fill a run of bytes exactly, each body with its offset in the image. -/
def parseSections : Nat → Nat → List Byte → Option (List Section)
  | 0, _, bs => if bs.isEmpty then some [] else none
  | n + 1, at_, bs =>
    let len := leField bs 4 4
    if bs.length < 16 ∨ len % 16 ≠ 0 ∨ bs.length < 16 + len ∨ leField bs 12 4 ≠ 0 ∨ leField bs 3 1 ≥ 2 then none
    else (parseSections n (at_ + 16 + len) (bs.drop (16 + len))).map (fun ss =>
      ⟨leField bs 0 2, leField bs 2 1, leField bs 3 1, leField bs 8 4, at_ + 16, (bs.drop 16).take len⟩ :: ss)

/-- The sections of an image whose header gives their number. -/
def imageSections (bs : List Byte) : Option (List Section) :=
  parseSections (leField bs 12 4) 64 ((bs.take (leField bs 24 8)).drop 64)

/-- The record size of a section type of fixed records. -/
def recordSize : Nat → Option Nat
  | 0x02 => some 16 | 0x03 => some 8 | 0x10 => some 272 | 0x11 => some 8 | 0x12 => some 48 | 0x13 => some 24
  | 0x14 => some 32 | 0x15 => some 8 | _ => none

/-- Whether a section type is known. -/
def knownType (t : Nat) : Bool := [0x01, 0x02, 0x03, 0x10, 0x11, 0x12, 0x13, 0x14, 0x15, 0x20, 0x21, 0x22].contains t

/-- Whether a section's CANVAS fits its scope (R171, R172). -/
def Section.scopeOk (x : Section) : Bool :=
  if x.type ≤ 3 ∧ x.type ≥ 1 then x.canvas == 255
  else if x.type = 0x15 ∨ !knownType x.type then decide (x.canvas < 4) || x.canvas == 255
  else decide (x.canvas < 4)

/-- Whether a section's LENGTH and COUNT agree (R171, R173, R181). -/
def Section.countOk (x : Section) : Bool :=
  let len := x.body.length
  let pad := fun (n : Nat) => decide (len = (n + 15) / 16 * 16) && allZero (x.body.drop n)
  match recordSize x.type with
  | some z => pad (x.count * z) && (x.type != 3 || x.count == 1)
  | none =>
    if x.type = 0x01 then
      decide (1 ≤ x.count) && decide (x.count ≤ 64) && leField x.body 4 4 == x.count && pad (8 + 8 * x.count)
    else if x.type = 0x20 then leField x.body 4 4 == x.count && decide (16 + 16 * x.count ≤ len)
    else if x.type = 0x21 then leField x.body 8 4 == x.count && decide (16 + 16 * x.count ≤ len)
    else if x.type = 0x22 then x.count == 1 && decide (16 + leField x.body 8 8 ≤ len)
    else true

/-- Whether sections stand in ascending (TYPE, CANVAS) order, each pair once but for CONST (R172). -/
def orderOk : List Section → Bool
  | [] => true
  | [_] => true
  | a :: b :: xs =>
    (decide (a.type * 256 + a.canvas < b.type * 256 + b.canvas) ||
      (a.type == 0x22 && b.type == 0x22 && a.canvas == b.canvas)) && orderOk (b :: xs)

/-- Check 1 of R184: the code of its failure, or the sections. -/
def checkFormat (bs : List Byte) (len : Nat) : Except Code (List Section) :=
  let size := leField bs 16 8
  let sig := leField bs 24 8
  let n := leField bs 12 4
  if leField bs 0 4 ≠ 0x4B53444E ∨ leField bs 4 2 ≠ 1 ∨ leField bs 6 2 ≠ 64 ∨ size ≠ len ∨ bs.length ≠ len ∨ size % 16 ≠ 0 ∨
      size > 67108864 ∨ size ≠ sig + 208 ∨ n = 0 ∨ n > 4096 ∨ leField bs 11 1 ≠ 0 ∨ leField bs 40 24 ≠ 0 then .error sktFormat
  else match imageSections bs with
    | none => .error sktFormat
    | some ss =>
      if !ss.all (·.scopeOk) || !ss.all (·.countOk) || !orderOk ss || !ss.any (·.type == 1) || !ss.any (·.type == 2) then
        .error sktFormat
      else if ss.any (fun x => !knownType x.type && x.flags == 1) then .error sktSectionUnknown
      else .ok ss

/-- The key slots that a Sketch key is matched against (R489): tenant slots in confidential mode, else platform slots. -/
def State.keySlots (s : State) : List (Option (BitVec 384)) := if s.conf then s.sec.slots.drop 4 else s.sec.slots.take 4

/-- Check 3 of R184: the signature and the key (R170). -/
def State.signatureOk (s : State) (bs : List Byte) : Bool :=
  let sig := leField bs 24 8
  let key := (bs.drop sig).take 96
  leField bs (sig + 192) 8 == 0 && s.keySlots.contains (some (Config.sha384 key)) &&
    Config.ecdsaGood key (bs.take sig) ((bs.drop (sig + 96)).take 96)

/-! ### Records -/

/-- The records of a section. -/
def Section.records (x : Section) : List (List Byte) :=
  match recordSize x.type with
  | some z => (List.range x.count).map (fun i => (x.body.drop (i * z)).take z)
  | none => []

/-- The records of the sections of a type, each with its canvas. -/
def recordsOf (ss : List Section) (t : Nat) : List (Nat × List Byte) :=
  (ss.filter (fun x => x.type == t)).flatMap (fun x => x.records.map (fun r => (x.canvas, r)))

/-- A bounds window (R175). -/
def parseWindow (r : List Byte) : Window :=
  let b := leField r 0 8
  let l := leField r 8 8
  ⟨b % 2 ^ 40, l % 2 ^ 40, l.testBit 59, l.testBit 58, l.testBit 57, l.testBit 56, l.testBit 63⟩

/-- Whether a window's reserved bits and alignment are right (R175). -/
def windowFormOk (r : List Byte) : Bool :=
  let b := leField r 0 8
  let l := leField r 8 8
  decide (b < 2 ^ 40) && decide (l / 2 ^ 40 % 2 ^ 16 = 0) && decide (l / 2 ^ 60 % 8 = 0) &&
    (!l.testBit 63 || (decide (b % 256 = 0) && decide (l % 256 = 255)))

/-- The windows of a PARTITION record, as bytes. -/
def windowBytes (r : List Byte) : List (List Byte) := (List.range 16).map (fun i => (r.drop (16 + 16 * i)).take 16)

/-- A PARTITION record (R175). -/
def parsePartition (r : List Byte) : Partition :=
  ⟨leField r 1 1, leField r 2 1, leField r 4 2, leField r 6 2, BitVec.ofNat 64 (leField r 8 8), (windowBytes r).map parseWindow⟩

/-- A WELL record (R176). -/
def parseWell (r : List Byte) : WellRecord :=
  ⟨leField r 0 2, leField r 2 2 % 1024, (leField r 2 2).testBit 15, leField r 4 2, leField r 6 2⟩

/-- A TRAIN record (R177). -/
def parseTrain (r : List Byte) : Train :=
  let f := leField r 3 1
  ⟨leField r 2 1 == 2, f.testBit 0, f / 2 % 8, f.testBit 4,
    if f.testBit 5 then some (leField r 6 1, leField r 4 2) else none, leField r 8 4, leField r 12 2,
    (List.range 8).map (fun i => leField r (16 + 2 * i) 2), (List.range 8).map (fun i => leField r (32 + 2 * i) 2)⟩

/-- A THREAD record (R178). -/
def parseStart (r : List Byte) : StartRecord := ⟨leField r 0 2, leField r 2 1, leField r 8 8, leField r 16 8⟩

/-- A STREAM record (R179). -/
def parseStream (r : List Byte) : StreamRecord :=
  ⟨leField r 2 1, (leField r 3 1).testBit 0, leField r 4 2, leField r 6 2, leField r 8 2, leField r 10 2, leField r 12 1, leField r 14 2⟩

/-- The start records of the MICROCODE sections (R181, R200). -/
def parseSeqs (ss : List Section) : List SeqStart :=
  (ss.filter (fun x => x.type == 0x20)).flatMap (fun x => (List.range x.count).map (fun i =>
    ⟨x.canvas, leField x.body (16 + 16 * i) 1, leField x.body (17 + 16 * i) 1, leField x.body (18 + 16 * i) 1,
      leField x.body (24 + 16 * i) 8⟩))

/-- The FINISH directory (R181). -/
def parseFins (ss : List Section) : List FinProgram :=
  (ss.filter (fun x => x.type == 0x21)).flatMap (fun x => (List.range x.count).map (fun i =>
    ⟨x.canvas, leField x.body (16 + 16 * i) 2, leField x.body 0 8 + leField x.body (20 + 16 * i) 4, leField x.body (24 + 16 * i) 4⟩))

/-- The bodies that the apply phase copies: destination, offset in the image, length (R181). -/
def parseCopies (ss : List Section) : List (Nat × Dpa × Nat × Nat) :=
  ss.filterMap (fun x =>
    if x.type = 0x20 then some (x.canvas, leField x.body 8 8, x.at_ + 16 + 16 * x.count, x.body.length - 16 - 16 * x.count)
    else if x.type = 0x21 then some (x.canvas, leField x.body 0 8, x.at_ + 16 + 16 * x.count, x.body.length - 16 - 16 * x.count)
    else if x.type = 0x22 then some (x.canvas, leField x.body 0 8, x.at_ + 16, leField x.body 8 8)
    else none)

/-- The configuration that the sections of an image describe. -/
def parseSketch (imageId : Val) (ss : List Section) : Sketch :=
  { primer := false
    imageId := imageId
    seeds := (recordsOf ss 0x02).foldl (fun m r => Tab.put m (leField r.2 0 1) (some (BitVec.ofNat 64 (leField r.2 8 8)))) []
    phases := match (recordsOf ss 0x03).head? with | some r => r.2.map (fun b => b.toNat) | none => List.replicate 8 1
    parts := (recordsOf ss 0x10).foldl (fun m r => Tab.put m (leField r.2 0 1) (some (parsePartition r.2))) []
    wells := (recordsOf ss 0x11).map (fun r => parseWell r.2)
    trains := (recordsOf ss 0x12).foldl (fun m r => Tab.put m (r.1 * 4096 + leField r.2 0 2) (some (parseTrain r.2))) []
    starts := (canvases.flatMap (fun c => (((recordsOf ss 0x13).filter (fun r => r.1 == c)).zipIdx).map (fun p => (c * 65536 + p.2, p.1.2)))).foldl
      (fun m p => Tab.put m p.1 (some (parseStart p.2))) []
    streams := (recordsOf ss 0x14).foldl (fun m r => Tab.put m (r.1 * 4096 + leField r.2 0 2) (some (parseStream r.2))) []
    dma := (recordsOf ss 0x15).foldl (fun m r => Tab.put m (leField r.2 0 2)
      (some ((leField r.2 2 1).testBit 0, (leField r.2 2 1).testBit 1, leField r.2 3 1))) []
    seqs := parseSeqs ss
    fins := parseFins ss
    consts := (ss.filter (fun x => x.type == 0x22)).map (fun x => (leField x.body 0 8, leField x.body 8 8))
    copies := (parseCopies ss).map (fun c => c.2)
    canvases := (canvases.filter (fun c => ss.any (fun x => x.canvas == c))) }

/-! ### Check 6: structure -/

/-- The partition that a configuration gives a quad. -/
def Sketch.quadPart (k : Sketch) (q : Nat) : Option Nat :=
  (k.parts.find? (fun (e : Nat × Option Partition) => e.1 / 64 == q / 64 && match e.2 with | some p => p.quads.getLsbD (q % 64) | none => false)).map Prod.fst

/-- The partition of a panel. -/
def Sketch.panelPart (k : Sketch) (p : Nat) : Option Nat := k.quadPart (p / 4)

/-- A partition's record. -/
def Sketch.part (k : Sketch) (p : Nat) : Option Partition := Tab.get k.parts p none

/-- Whether a panel may hold wash work: its quad is assigned to a partition whose HOLD is not 0 (R162). -/
def Sketch.washPanel (k : Sketch) (p : Nat) : Bool :=
  match k.panelPart p with
  | some x => (match k.part x with | some q => decide (q.hold ≠ 0) | none => false)
  | none => false

/-- Whether no element of a list stands in it twice. -/
def distinct (xs : List Nat) : Bool := decide xs.Nodup

/-- The ranges of slots of a panel's well that regions take. -/
def Sketch.regionsOf (k : Sketch) (p : Nat) : List (Nat × Nat) :=
  (k.wells.filter (fun w => w.panel == p && decide (w.len > 0))).map (fun w => (w.base, w.len))

/-- Whether two ranges (start, length) overlap. -/
def overlap (a b : Nat × Nat) : Bool := decide (a.1 < b.1 + b.2) && decide (b.1 < a.1 + a.2)

/-- Whether no two ranges of a list overlap. -/
def disjoint : List (Nat × Nat) → Bool
  | [] => true
  | a :: as => !as.any (overlap a) && disjoint as

/-- The partitions' records (R47, R48, R161, R162, R175). -/
def partsOk (ss : List Section) (k : Sketch) : Bool :=
  let rs := recordsOf ss 0x10
  distinct (rs.map (fun r => leField r.2 0 1)) &&
  rs.all (fun r =>
    let p := parsePartition r.2
    leField r.2 0 1 / 64 == r.1 && leField r.2 3 1 == 0 && (windowBytes r.2).all windowFormOk &&
    (p.hold == 0 || (decide (16 ≤ p.hold) && decide (p.hold ≤ 4096))) && decide (p.fills ≤ 1024) &&
    (Tab.get k.seeds p.job none).isSome && (p.hold == 0 || (Tab.get k.seeds p.washJob none).isSome)) &&
  canvases.all (fun c => decide (((rs.filter (fun r => r.1 == c)).map (fun r => leField r.2 6 2)).sum ≤ 1024)) &&
  (List.range 256).all (fun q => decide ((k.parts.filter (fun (e : Nat × Option Partition) =>
    e.1 / 64 == q / 64 && match e.2 with | some p => p.quads.getLsbD (q % 64) | none => false)).length ≤ 1))

/-- The regions (R93, R162, R176). -/
def wellsOk (ss : List Section) (k : Sketch) : Bool :=
  let rs := recordsOf ss 0x11
  distinct (k.wells.map (fun w => w.panel * 1024 + w.handle)) &&
  rs.all (fun r =>
    let w := parseWell r.2
    decide (w.panel / 256 = r.1) && decide (leField r.2 2 2 / 1024 % 32 = 0) && decide (w.base + w.len ≤ 8192) &&
    (!w.wash || k.washPanel w.panel)) &&
  ((k.wells.map (·.panel)).dedup).all (fun p => disjoint (k.regionsOf p))

/-- An entry of the trains of a configuration. -/
def Sketch.train (k : Sketch) (e : Nat) : Option Train := Tab.get k.trains e none

/-- Whether the chain of parents of an entry ends within a number of steps: no cycle (R134). -/
def Sketch.rooted (k : Sketch) : Nat → Nat → Bool
  | 0, _ => false
  | f + 1, e => match k.train e with
    | none => false
    | some t => match t.parentKey with | none => true | some p => k.rooted f p

/-- The root of an entry. -/
def Sketch.rootOf (k : Sketch) : Nat → Nat → Nat
  | 0, e => e
  | f + 1, e => match k.train e with
    | none => e
    | some t => match t.parentKey with | none => e | some p => k.rootOf f p

/-- Whether an entry is e or lies below it. -/
def Sketch.isBelow (k : Sketch) (e : Nat) : Nat → Nat → Bool
  | 0, _ => false
  | f + 1, x =>
    if x = e then true
    else match k.train x with
      | none => false
      | some t => match t.parentKey with | some p => k.isBelow e f p | none => false

/-- The start records of a leaf. -/
def Sketch.leafStarts (k : Sketch) (e : Nat) (t : Train) : List StartRecord :=
  (List.range t.count).filterMap (fun i => Tab.get k.starts (e / 4096 * 65536 + t.first + i) none)

/-- The leaves of a configuration. -/
def Sketch.leaves (k : Sketch) : List (Nat × Train) :=
  k.trains.filterMap (fun (x : Nat × Option Train) => match x.2 with | some t => if t.group then none else some (x.1, t) | none => none)

/-- The panels of the leaves below an entry. -/
def Sketch.panelsBelow (k : Sketch) (e : Nat) : List Nat :=
  (k.leaves.filter (fun l => k.isBelow e 16384 l.1)).flatMap (fun l => (k.leafStarts l.1 l.2).map (·.panel))

/-- Whether a port word names a stream end at a leaf below the train (R136, R177). -/
def Sketch.portOk (k : Sketch) (e : Nat) (inward : Bool) (w : Nat) : Bool :=
  if w.testBit 15 then
    !w.testBit 14 && match Tab.get k.streams (w / 4096 % 4 * 4096 + w % 4096) none with
      | some r => (if inward then r.ends != 1 && (k.panelsBelow e).contains r.receiver else r.ends != 2 && (k.panelsBelow e).contains r.sender)
      | none => false
  else w == 0

/-- The trains (R132 to R136, R139, R162, R177). -/
def trainsOk (ss : List Section) (k : Sketch) : Bool :=
  let rs := recordsOf ss 0x12
  let threads := k.leaves.flatMap (fun l => (k.leafStarts l.1 l.2).map (fun r => r.panel * 8 + r.thread))
  distinct (rs.map (fun r => r.1 * 65536 + leField r.2 0 2)) && distinct threads &&
  rs.all (fun r =>
    let e := r.1 * 4096 + leField r.2 0 2
    let t := parseTrain r.2
    decide (leField r.2 0 2 < 4096) && (leField r.2 2 1 == 1 || leField r.2 2 1 == 2) && decide (leField r.2 3 1 < 64) &&
    leField r.2 7 1 == 0 && leField r.2 14 2 == 0 && k.rooted 16385 e &&
    (match t.parent with
      | none => true
      | some p => decide (p.1 < 4) && decide (p.2 < 4096) &&
        (match k.train (p.1 * 4096 + p.2) with | some g => g.group && g.wash == t.wash | none => false)) &&
    (if t.group then t.count == 0 else decide (1 ≤ t.count) && decide (t.count ≤ 2048) && (k.leafStarts e t).length == t.count &&
      (k.leafStarts e t).all (fun x => (k.panelPart x.panel).isSome && (!t.wash || k.washPanel x.panel))) &&
    t.inPorts.all (k.portOk e true) && t.outPorts.all (k.portOk e false) &&
    -- one partition on each canvas, and one job
    (let ps := ((k.panelsBelow e).filterMap k.panelPart).dedup
     distinct (ps.map (· / 64)) &&
     decide (((ps.filterMap k.part).map (fun p => if t.wash then p.washJob else p.job)).dedup.length ≤ 1)))

/-- The THREAD records (R139, R178). -/
def startsOk (ss : List Section) : Bool :=
  (recordsOf ss 0x13).all (fun r =>
    let x := parseStart r.2
    decide (x.panel / 256 = r.1) && decide (x.thread < 8) && decide (x.pc < 2 ^ 40) && decide (x.pc % 16 = 0) && decide (x.ab0 < 2 ^ 40) &&
    allZero ((r.2.drop 3).take 5))

/-- Whether a stream's record and its peer's agree (R144, R179). -/
def Sketch.peerOk (k : Sketch) (c id : Nat) (x : StreamRecord) : Bool :=
  if x.ends = 0 then true
  else match Tab.get k.streams (x.peerCanvas * 4096 + x.peerId) none with
    | none => false
    | some y => decide (x.peerCanvas < 4) && decide (x.peerCanvas ≠ c) && x.ends + y.ends == 3 && y.peerCanvas == c && y.peerId == id &&
        y.wash == x.wash && y.sender == x.sender && y.receiver == x.receiver && y.land == x.land && y.landBase == x.landBase

/-- The streams (R144, R146, R162, R179). -/
def streamsOk (ss : List Section) (k : Sketch) : Bool :=
  let rs := recordsOf ss 0x14
  distinct (rs.map (fun r => r.1 * 65536 + leField r.2 0 2)) &&
  rs.all (fun r =>
    let x := parseStream r.2
    let sc := x.sender / 256
    let rc := x.receiver / 256
    decide (leField r.2 0 2 < 4096) && decide (x.ends ≤ 2) && decide (leField r.2 3 1 ≤ 1) && leField r.2 13 1 == 0 && allZero (r.2.drop 16) &&
    (if x.ends = 0 then sc == r.1 && rc == r.1 else if x.ends = 1 then sc == r.1 && rc == x.peerCanvas else sc == x.peerCanvas && rc == r.1) &&
    decide (x.sender < 1024) && decide (x.receiver < 1024) &&
    decide (1 ≤ x.land) && decide (x.land ≤ 8192) && decide (x.landBase + x.land ≤ 8192) &&
    !(k.regionsOf x.receiver).any (overlap (x.landBase, x.land)) && k.peerOk r.1 (leField r.2 0 2) x &&
    (!x.wash || (k.washPanel x.sender && k.washPanel x.receiver)))

/-- The DMA channels (R162, R180). -/
def dmaOk (ss : List Section) (k : Sketch) : Bool :=
  let rs := recordsOf ss 0x15
  distinct (rs.map (fun r => leField r.2 0 2)) &&
  rs.all (fun r =>
    let ch := leField r.2 0 2
    let f := leField r.2 2 1
    let p := leField r.2 3 1
    decide (ch < 320) && decide (f < 4) && leField r.2 4 4 == 0 &&
    (if r.1 = 255 then decide (256 ≤ ch) else ch / 64 == r.1 && decide (ch < 256) && p / 64 == r.1) &&
    (!f.testBit 0 || (k.part p).isSome) &&
    (!f.testBit 1 || (match k.part p with | some q => decide (q.hold ≠ 0) | none => false)))

/-- The sequencer start records and the copied bodies (R181, R200): every destination aligned, in its canvas's gesso,
and clear of the staging range and of the others. -/
def copiesOk (s : State) (ss : List Section) (k : Sketch) (src len : Nat) : Bool :=
  let cs := parseCopies ss
  cs.all (fun c => decide (c.2.1 % 256 = 0) && decide (c.2.1 / 0x1000000000 = c.1) && s.rangePopulated c.2.1 c.2.2.2 &&
    (match targetOf c.2.1, targetOf (c.2.1 + (c.2.2.2 - 1)) with | .gesso a _, .gesso b _ => decide (a = c.1) && decide (b = c.1) | _, _ => false) &&
    !overlap (c.2.1, c.2.2.2) (src, len)) &&
  disjoint (cs.map (fun c => (c.2.1, c.2.2.2))) &&
  distinct (k.seqs.map (fun q => q.canvas * 512 + q.core * 32 + q.thread)) &&
  (ss.filter (fun x => x.type == 0x20)).all (fun x => (List.range x.count).all (fun i => leField x.body (19 + 16 * i) 5 == 0)) &&
  k.seqs.all (fun q => decide (q.core < 16) && decide (q.thread < 32) && (k.part q.part).isSome && q.part / 64 == q.canvas &&
    decide (q.pc < 2 ^ 40) && decide (q.pc % 4 = 0)) &&
  (ss.filter (fun x => x.type == 0x21)).all (fun x => leField x.body 12 4 == 0) &&
  (recordsOf ss 0x03).all (fun r => r.2.all (fun b => decide (b.toNat < 8)))

/-- The islands on which threads, stream ends and quads of a configuration lie. -/
def Sketch.islands (k : Sketch) : List Nat :=
  k.starts.filterMap (fun (e : Nat × Option StartRecord) => e.2.map (fun r => panelIsland r.panel)) ++
  k.streams.flatMap (fun (e : Nat × Option StreamRecord) => match e.2 with | some r => [panelIsland r.sender, panelIsland r.receiver] | none => []) ++
  (List.range 256).filterMap (fun q => (k.quadPart q).map (fun _ => panelIsland (4 * q))) ++
  k.seqs.map (fun q => islandOf q.canvas (26 + q.core / 8))

/-- Check 6 of R184. -/
def State.structureOk (s : State) (ss : List Section) (k : Sketch) (src len : Nat) : Bool :=
  partsOk ss k && wellsOk ss k && trainsOk ss k && startsOk ss && streamsOk ss k && dmaOk ss k && copiesOk s ss k src len &&
    k.islands.all s.works

/-- The edges of the credit-dependency graph as sender and receiver of each stream of a class (R154). -/
def Sketch.creditEdges (k : Sketch) (wash : Bool) : List (Nat × Nat) :=
  k.streams.filterMap (fun (e : Nat × Option StreamRecord) => match e.2 with
    | some r => if r.wash = wash ∧ r.ends ≠ 2 then some (r.sender, r.receiver) else none
    | none => none)

/-- Streams from which no other stream goes on are dropped, as often as there are streams; what stays lies on or leads
to a cycle. -/
def peel : Nat → List (Nat × Nat) → List (Nat × Nat)
  | 0, es => es
  | n + 1, es => peel n (es.filter (fun a => es.any (fun b => b.1 == a.2)))

/-- Check 7 of R184: no cycle in the credit-dependency graph (R154). -/
def Sketch.acyclic (k : Sketch) : Bool :=
  [false, true].all (fun w => (peel (k.creditEdges w).length (k.creditEdges w)).isEmpty)

/-! ### The primer (R191) -/

/-- Partition 64c of the primer. -/
def primerPart (c : Nat) : Partition :=
  let w := fun (b l : Nat) => Window.mk b l true true true true true
  ⟨0, 0, 0, 0, BitVec.allOnes 64, [w (c * 0x1000000000) (c * 0x1000000000 + 0xFFFFFFFFF),
    w (0x8000000000 + c * 0x20000000) (0x8000000000 + c * 0x20000000 + 0x1FFFFFFF), w 0xC000000000 0xFFFFFFFFFF]⟩

/-- The primer on some canvases (R190, R191, R578). -/
def primerSketch (cs : List Nat) : Sketch :=
  { Sketch.empty with
    seeds := [(0, some 0)]
    parts := cs.map (fun c => (64 * c, some (primerPart c)))
    wells := cs.flatMap (fun c => (List.range 256).flatMap (fun p => (List.range 8).map (fun h => ⟨256 * c + p, h, false, 1024 * h, 1024⟩)))
    dma := cs.flatMap (fun c => (List.range 32).map (fun i => (64 * c + i, some (true, false, 64 * c))))
    canvases := cs }

/-! ### Applying a configuration (R185, R186, R166, R131) -/

/-- Every field of some registers back at reset. -/
def State.clearFields (s : State) (fs : List RegField) : State :=
  let ks := fs.map (fun f => f.key 0 / 4294967296)
  { s with regs := s.regs.filter (fun e => !ks.contains (e.1 / 4294967296)) }

/-- The registers that a configuration defines whole. -/
def configFields : List RegField :=
  [CNV_STM_TRN_STATUS.STATE, CNV_STM_TRN_STATUS.CLASS, CNV_STM_TRN_STATUS.PHASE, CNV_STM_TRN_STATUS.LINKED,
   CNV_STM_TRN_STATUS.PARTITION, CNV_STM_TRN_STATUS.CODE,
   CNV_STM_STREAM.STATE, CNV_STM_STREAM.ENDS, CNV_STM_STREAM.CLASS, CNV_STM_STREAM.OVERSIZE, CNV_STM_STREAM.LAND,
   CNV_STM_STREAM.CREDITS, CNV_STM_STREAM.SENDER, CNV_STM_STREAM.RECEIVER, CNV_STM_WASH.HOLD, CNV_STM_WASH.FILLS,
   CNV_PNL_REGION.LEN, CNV_PNL_REGION.BASE, CNV_PNL_REGION.TOKEN, CNV_PNL_REGION.READERS, CNV_PNL_REGION.JOB,
   CNV_PNL_CTL.ISSUE_EN, GLB_QUAD_PART.ASSIGNED, GLB_QUAD_PART.PARTITION,
   DMA_CH_OWNER.OWNED, DMA_CH_OWNER.JOBCLASS, DMA_CH_OWNER.PARTITION, CNV_FIN_STEP.STEP, CNV_SEQ_THR_CTL.PARTITION]

/-- The sequencer threads stopped: all IDLE, waiting for nothing. -/
def State.stopSeqs (s : State) : State :=
  let ks := (s.listed CNV_SEQ_THR_CTL.STATE).map Prod.fst ++ (s.listed CNV_SEQ_THR_CTL.ENABLE).map Prod.fst
  s.each ks.dedup (fun k t => ((((t.unwait (seqThread k)).setSth k { t.sth k with wait := none, stop := 0 }).wrN CNV_SEQ_THR_CTL.STATE k 0).wrN
    CNV_SEQ_THR_CTL.WAIT k 0).clr CNV_SEQ_THR_CTL.ENABLE k)

/-- A region as the stretcher's copy holds it (R131). -/
def regionCopy (w : WellRecord) : Val := BitVec.ofNat 64 (w.len * 2 ^ 32 + w.base * 2 + (if w.wash then 1 else 0))

/-- A region written from a WELL record, FREE, with the stretcher's copy. -/
def State.putWell (s : State) (w : WellRecord) : State :=
  let i := regIx w.panel w.handle
  let s1 := ((((s.wrN CNV_PNL_REGION.LEN i w.len).wrN CNV_PNL_REGION.BASE i w.base).flag CNV_PNL_REGION.JOB i w.wash).wrN
    CNV_PNL_REGION.TOKEN i 0).wrN CNV_PNL_REGION.READERS i 0
  { s1 with pnl := { s1.pnl with copyReg := Tab.set s1.pnl.copyReg i (if w.len = 0 then 0 else regionCopy w) 0 } }

/-- The queues at a load (R275, R291, R367, R426): row and finish queues 0 to 63, collective queues 0 to 255, and every
owned channel, whose ENABLE stays. -/
def State.loadQueues (s : State) (k : Sketch) : State :=
  let s1 := s.each canvases (fun c t => t.each (List.range 64) (fun q u => (u.qLoad ⟨.row, c * 65 + q⟩).qLoad ⟨.fin, c * 65 + q⟩))
  let s2 := s1.each (List.range 256) (fun q t => t.qLoad ⟨.col, q⟩)
  s2.each (List.range 320) (fun ch t =>
    if t.on DMA_CH_OWNER.OWNED ch || (match Tab.get k.dma ch none with | some d => d.1 | none => false) then
      let en := t.rd DMA_CH_CTL.ENABLE ch
      let u := ((t.qLoad ⟨.dma, ch⟩).wr DMA_CH_CTL.ENABLE ch en).qRefresh ⟨.dma, ch⟩
      { u with dma := { u.dma with broken := Tab.set u.dma.broken ch none none } }
    else t)

/-- The rows of a channel re-keyed when its working banks change (R252): each physical row keeps its contents, and
lines take the rows of the new interleave. None where the row's bank leaves. -/
def rekeyLine (old new : List Nat) (l : Nat) : Option Nat :=
  let wo := old.length
  let wn := new.length
  let row := l / 32 / wo
  match old[l / 32 % wo]? with
  | none => none
  | some b => match new.idxOf? b with
    | some p => some ((row * wn + p) * 32 + l % 32)
    | none => none

/-- The working banks of a value, in ascending order. -/
def banksOf (v : Nat) : List Nat := (List.range 32).filter (fun b => v.testBit b)

/-- A sparse table re-keyed; keys without a new place go. -/
def rekey {α : Type} (m : Tab α) (f : Nat → Option Nat) : Tab α :=
  m.foldl (fun t e => match f e.1 with | some k => Tab.put t k e.2 | none => t) []

/-- Memory re-keyed; bytes without a new place go, and each byte that stays is written at its new place. -/
def rekeyMem (m : List Host.Cell) (f : Nat → Option Nat) : List Host.Cell :=
  m.foldl (fun t e => match f e.1 with | some k => memWrite t k e.2 | none => t) []

/-- A channel's working banks changed (R251, R252, R524): lines move to new rows, and CNV_GSO_POP_LIMIT follows. -/
def State.rebank (s : State) (c g : Nat) (new : Nat) : State :=
  let old := banksOf (s.rdN CNV_GSO_BANKS.WORKING (c * 32 + g))
  let mine := fun (k : Nat) => decide (keyCanvas k = c) && decide (keyLine k % 32 = g)
  let onLine := fun (k : Nat) => if mine k then (rekeyLine old (banksOf new) (keyLine k)).map (lineKey c) else some k
  let unit := fun (u : Nat) (a : Nat) => (onLine (keyOf (a * u))).map (fun k => (lineDpa (keyCanvas k) (keyLine k) + a * u % 2048) / u)
  let s1 := { s with mem := rekeyMem s.mem (fun a => if a < 0x4000000000 then unit 1 a else some a) }
  let s2 := s1.onGso (fun x => { x with rows := rekey x.rows onLine, badMeta := rekey x.badMeta onLine, bad := rekey x.bad (unit 32) })
  let s3 := s2.wrN CNV_GSO_BANKS.WORKING (c * 32 + g) new
  s3.wrN CNV_GSO_POP_LIMIT.OFFSET c (0x60000000 * ((List.range 32).foldl (fun m i => min m (s3.working c i)) 32))

/-- The pending bank retirements applied, each with its record (R185, R524, R525). -/
def State.applyRetirements (s : State) : State :=
  s.each (s.listed CNV_ECC_BANK_RETIRE.PENDING) (fun e t =>
    let c := e.1 / 32
    let g := e.1 % 32
    let working := t.rdN CNV_GSO_BANKS.WORKING e.1
    let gone := (banksOf e.2.toNat).filter (fun b => working.testBit b)
    let u := (t.rebank c g (working - gone.foldl (fun v b => v + 2 ^ b) 0)).wrN CNV_ECC_BANK_RETIRE.PENDING e.1 0
    u.each gone (fun b x => x.journal 0x21 c [BitVec.ofNat 8 (g % 4), BitVec.ofNat 8 (g / 4), BitVec.ofNat 8 b]))

/-- A configuration becomes resident, but for the bodies that it copies (R185, R186, R166, R131, R299). -/
def State.applyConfig (s : State) (k : Sketch) : State :=
  let a := (((s.stopSeqs).loadQueues k).clearFields configFields)
  let b := { a with str := { a.str with sketch := k, streams := [], launch := [] }, pnl := { a.pnl with copyReg := [], copyEn := [] } }
  -- partitions, quads, wash reservations
  let c1 := b.each k.parts (fun (e : Nat × Option Partition) t => match e.2 with
    | some p => (((t.wrN CNV_STM_WASH.HOLD e.1 p.hold).wrN CNV_STM_WASH.FILLS e.1 p.fills).each (banks64 p.quads) (fun q u =>
        (u.set1 GLB_QUAD_PART.ASSIGNED (e.1 / 64 * 64 + q)).wrN GLB_QUAD_PART.PARTITION (e.1 / 64 * 64 + q) e.1))
    | none => t)
  let c2 := c1.each k.wells (fun w t => t.putWell w)
  let c3 := c2.each k.streams (fun (e : Nat × Option StreamRecord) t => match e.2 with
    | some r => ((((((t.wrN CNV_STM_STREAM.STATE e.1 1).wrN CNV_STM_STREAM.ENDS e.1 r.ends).flag CNV_STM_STREAM.CLASS e.1 r.wash).wrN
        CNV_STM_STREAM.LAND e.1 r.land).wrN CNV_STM_STREAM.CREDITS e.1 r.land).wrN CNV_STM_STREAM.SENDER e.1 r.sender).wrN
        CNV_STM_STREAM.RECEIVER e.1 r.receiver
    | none => t)
  let c4 := c3.each k.trains (fun (e : Nat × Option Train) t => match e.2 with
    | some x => ((((t.flag CNV_STM_TRN_STATUS.CLASS e.1 x.wash).wrN CNV_STM_TRN_STATUS.PHASE e.1 x.phase).flag
        CNV_STM_TRN_STATUS.LINKED e.1 x.linked).wrN CNV_STM_TRN_STATUS.PARTITION e.1
        (((k.panelsBelow e.1).filterMap k.panelPart).find? (fun p => p / 64 == e.1 / 4096) |>.getD 0)).wrN
        CNV_STM_TRN_STATUS.STATE e.1 (t.trainState e.1)
    | none => t)
  let c5 := c4.each k.dma (fun (e : Nat × Option (Bool × Bool × Nat)) t => match e.2 with
    | some d => if d.1 then ((t.set1 DMA_CH_OWNER.OWNED e.1).flag DMA_CH_OWNER.JOBCLASS e.1 d.2.1).wrN DMA_CH_OWNER.PARTITION e.1 d.2.2 else t
    | none => t)
  let c6 := c5.each ((List.range 8).zip k.phases) (fun e t => t.wrN PWR_PHASE_PO.PO e.1 e.2)
  -- tacks released, read-only caches emptied
  let c7 := (c6.each canvases (fun c t => t.untackRange c 0 0x2000000)).roDrop (fun _ => true)
  let c8 := c7.applyRetirements
  let c9 := c8.each ((List.range 256).filter (fun q => (k.quadPart q).isSome)) (fun q t =>
    t.each (List.range 4) (fun i u =>
      let p := 4 * q + i
      { u.set1 CNV_PNL_CTL.ISSUE_EN p with pnl := { u.pnl with copyEn := Tab.set u.pnl.copyEn p true false } }))
  let d := c9.each k.seqs (fun q t =>
    let key := q.canvas * 512 + q.core * 32 + q.thread
    let u := ((t.wrN CNV_SEQ_THR_CTL.PARTITION key q.part).wrN CNV_SEQ_THR_PC.PC key (q.pc / 4)).set1 CNV_SEQ_THR_CTL.ENABLE key
    (u.setSth key { u.sth key with scratch := 0 }).seqReady key)
  ((d.wr SKT_IMAGE_ID.IMAGE_ID 0 k.imageId).wrN SKT_PATCH_COUNT.COUNT 0 0).clr SKT_STATUS.PATCHED 0
where
  /-- The quads of a set. -/
  banks64 (v : BitVec 64) : List Nat := (List.range 64).filter (fun i => v.getLsbD i)

/-- The primer applied to the available canvases (R190, R191, R192, R448, R578): the service thread of each canvas runs
from a place in ROM that is left open; M3 becomes M2. -/
def State.applyPrimer (s : State) : State :=
  let cs := s.availables
  let a := s.applyConfig (primerSketch cs)
  let b := a.each cs (fun c t =>
    let k := c * 512
    let d := t.draw
    let u := ((d.2.wrN CNV_SEQ_THR_CTL.PARTITION k (64 * c)).wr CNV_SEQ_THR_PC.PC k d.1).set1 CNV_SEQ_THR_CTL.ENABLE k
    (u.setSth k { u.sth k with scratch := 0 }).seqReady k)
  (((b.setMeas 3 (b.meas 2)).clr SKT_STATUS.OVERRIDDEN 0).wrN SKT_MC_VERSION.MC_VERSION 0 0).reason 11 true

/-! ### The commands of the loader -/

/-- STATE codes of SKT_STATUS: 0 PRIMER, 1 VERIFY, 2 APPLY, 3 RESIDENT, 4 PRIMER_APPLY. -/
def State.sktState (s : State) (v : Nat) : State := s.wrN SKT_STATUS.STATE 0 v

/-- The load in progress at a content. -/
def State.setLoader (s : State) (l : Loader) : State := { s with str := { s.str with loader := l } }

/-- Whether a LOAD is refused with SKT_BUSY (R182); before bring-up has reached READY no load is accepted. -/
def State.loadBusy (s : State) : Bool :=
  decide (s.str.loader.phase ≠ .idle) || decide (s.rdN GLB_BOOT_STATUS.STAGE 0 ≠ 5) ||
  (s.listed CNV_PNL_THR_CTL.STATE).any (fun e => e.2 != 0) ||
  (List.range 320).any (fun ch => s.rdN DMA_CH_STATUS.STATE ch == 1) || !s.colls.isEmpty || !s.openCoats.isEmpty

/-- Whether a range lies within the gesso of one available canvas (R182). -/
def State.stagingOk (s : State) (d n : Nat) : Bool :=
  decide (n > 0) && match targetOf d, targetOf (d + n - 1) with
    | .gesso a _, .gesso b _ => decide (a = b) && s.available a && s.rangePopulated d n
    | _, _ => false

/-- LOAD (R182, R183, R192): refused, or accepted: the staging range is locked and the checks begin. -/
def execLoad (s : State) : Res :=
  let src := s.rdN SKT_SRC.DPA 0 * 256
  let len := s.rdN SKT_LEN.LEN 0
  let refuse := fun (c : Code) => s.wr SKT_STATUS.LAST_CODE 0 (codeVal c)
  .next (if s.loadBusy then refuse sktBusy
  else if !s.openTrips.isEmpty || s.on JNL_THERMAL_RECORD.PRESENT 0 then refuse sktThermalHold
  else if !s.stagingOk src len then refuse sktStaging
  else
    let t := (((s.setLoader ⟨.verify, src, len, 0⟩).sktState 1).clr SKT_STATUS.FALLBACK 0).clr SKT_STATUS.VERSION_UNTESTED 0
    { t.clr SKT_STATUS.OVERRIDDEN 0 with sec := { t.sec with loads := t.sec.loads + 1 } })

/-- A load fails (R188): the primer is being applied. -/
def State.loadFails (s : State) (code : Code) : State :=
  (s.setLoader { s.str.loader with phase := .primer, code := code }).sktState 4

/-- Check 5 of R184 on the sections: the versions of the image, and whether the running firmware is tested (R173, R193,
R194): an error where the microcode versions disagree. -/
def State.versionCheck (s : State) (ss : List Section) : Except Code (Nat × Bool) :=
  match ss.find? (fun x => x.type == 1) with
  | none => .error sktFormat
  | some x =>
    let mc := leField x.body 0 4
    if (ss.filter (fun y => y.type == 0x20)).any (fun y => leField y.body 0 4 != mc) then .error sktVersionUntested
    else .ok (mc, (List.range x.count).any (fun i => leField x.body (8 + 8 * i) 4 == s.rdN GLB_FW_VERSION.VERSION 0))

/-- LOAD_CHECKS_DONE (R184, R188, R193 to R195): the checks in their order; the first that fails ends the load in the
primer, and when all pass the apply phase begins. -/
def execLoadChecksDone (s : State) : Res :=
  let l := s.str.loader
  .next (if l.phase ≠ .verify then s
  else match s.peekBytes l.src l.len with
    | none => s.loadFails sktInterrupted
    | some bs =>
      match checkFormat bs l.len with
      | .error c => s.loadFails c
      | .ok ss =>
        if leField bs (l.len - 8) 8 ≠ (crc64 (bs.take (l.len - 8))).toNat then s.loadFails sktCrc
        else if !s.signatureOk bs then s.loadFails sktSignature
        else if leField bs 8 2 ≠ 0x4800 ∨ leField bs 10 1 ≠ s.rdN GLB_ID.STEP_LETTER 0 * 16 + s.rdN GLB_ID.STEP_DIGIT 0 then
          s.loadFails sktPart
        else match s.versionCheck ss with
          | .error c => s.loadFails c
          | .ok (mc, tested) =>
            let allow := s.on SKT_CTL.ALLOW_UNTESTED 0 && !s.conf
            if !tested && !allow then (s.loadFails sktVersionUntested).set1 SKT_STATUS.VERSION_UNTESTED 0
            else
              let t := if tested then s else (s.set1 SKT_STATUS.OVERRIDDEN 0).journal 0x41 255
                (leBytes 4 (s.rdN GLB_FW_VERSION.VERSION 0) ++ leBytes 4 mc ++ (bs.drop 32).take 8)
              let k := parseSketch (BitVec.ofNat 64 (leField bs 32 8)) ss
              if !t.structureOk ss k l.src l.len then t.loadFails sktStructure
              else if !k.acyclic then t.loadFails sktCreditCycle
              else if !k.canvases.all t.available then t.loadFails sktUnavailable
              else (t.setLoader { l with phase := .apply }).sktState 2)

/-- The bodies of an image copied to their places (R181, R185); none where a write cannot be made now, a code where one
fails. -/
def State.copyBodies (s : State) (bs : List Byte) (cs : List (Dpa × Nat × Nat)) : Option (Code × State) :=
  cs.foldl (fun acc c => match acc with
    | none => none
    | some (e, t) => match t.writeRange ⟨.rtp, 0x30000, none, false⟩ c.1 ((bs.drop c.2.1).take c.2.2) with
      | .done e' _ u => some (firstCode e e', u)
      | .wait _ => none) (some (0, s))

/-- A Sketch load clears every partition fault, whichever way it ends (R527). -/
def State.clearPartFaults (s : State) : State := s.clearFields [GLB_PART_FAULT.PRIMARY, GLB_PART_FAULT.WASH]

/-- APPLY_DONE (R185, R189): the apply phase ends with the Sketch RESIDENT, the doorbells released; or it is interrupted
because a canvas of the image is lost, an island of it has gone, or the image can no longer be read. -/
def execApplyDone (s : State) : Res :=
  let l := s.str.loader
  .next (if l.phase ≠ .apply then s
  else match s.peekBytes l.src l.len with
    | none => s.loadFails sktInterrupted
    | some bs =>
      match checkFormat bs l.len with
      | .error _ => s.loadFails sktInterrupted
      | .ok ss =>
        let k := parseSketch (BitVec.ofNat 64 (leField bs 32 8)) ss
        if !k.canvases.all s.available || !k.islands.all s.works then s.loadFails sktInterrupted
        else match s.copyBodies bs k.copies with
          | none => s
          | some (e, t) =>
            if e ≠ 0 then t.loadFails sktInterrupted
            else
              let mc := match ss.find? (fun x => x.type == 1) with | some x => leField x.body 0 4 | none => 0
              let u := ((t.applyConfig k).wrN SKT_MC_VERSION.MC_VERSION 0 mc).setMeas 3 (Config.sha384 (bs.take (leField bs 24 8)))
              ((((u.clearPartFaults.setLoader ⟨.idle, 0, 0, 0⟩).sktState 3).set1 SKT_STATUS.LOAD_DONE 0).wr SKT_STATUS.LAST_CODE 0 0).reason 11 false |>.releaseBells)

/-- PRIMER_APPLY_DONE (R188, R190): after a failed load the primer is applied, and the failure is reported, recorded and
the doorbells released. -/
def execPrimerApplyDone (s : State) : Res :=
  let l := s.str.loader
  .next (if l.phase ≠ .primer then s
  else
    let img := match s.peekBytes (l.src + 32) 8 with | some b => b | none => List.replicate 8 0
    let t := ((((s.applyPrimer.clearPartFaults).setLoader ⟨.idle, 0, 0, 0⟩).sktState 0).set1 SKT_STATUS.FALLBACK 0).set1 SKT_STATUS.LOAD_FAILED 0
    (((t.wr SKT_STATUS.LAST_CODE 0 (codeVal l.code)).journal 0x40 255 (leBytes 2 l.code.toNat ++ List.replicate 6 0 ++ img))).releaseBells)

end Sys2Proof.Machine
end

