-- ==== Sys2Proof/Machine/Dma.lean ====
section
/-! DEFINITION. The DMA engines: posts, descriptors, bursts, responses and completion (chapter 11). -/

namespace Sys2Proof.Machine

/-- A DMA channel as a queue. -/
def dmaQ (ch : Nat) : QId := ⟨.dma, ch⟩

/-- DMA_ALIGN_ERR. -/
def dmaAlignErr : Code := 0x0301
/-- DMA_BAD_DESC. -/
def dmaBadDesc : Code := 0x0302
/-- DMA_CLASS. -/
def dmaClass : Code := 0x0303
/-- DMA_BOUNDS. -/
def dmaBounds : Code := 0x0304
/-- DMA_REMOTE_BOUNDS. -/
def dmaRemoteBounds : Code := 0x0305
/-- DMA_RING_FULL. -/
def dmaRingFull : Code := 0x0306
/-- DMA_NOT_OWNER. -/
def dmaNotOwner : Code := 0x0307
/-- DMA_TIMEOUT. -/
def dmaTimeout : Code := 0x0308
/-- DMA_LINK. -/
def dmaLink : Code := 0x0309
/-- DMA_ADD_UNCERTAIN. -/
def dmaAddUncertain : Code := 0x030A
/-- DMA_SIGNAL_STATE. -/
def dmaSignalState : Code := 0x030B

/-! ### The descriptor (R350 to R352) -/

/-- The fields of a descriptor. -/
structure DmaDesc where
  op        : Nat
  fence     : Bool
  signal    : Bool
  cls       : Nat
  fmt       : Nat
  handle    : Nat
  panel     : Nat
  srcCoord  : Nat
  dstCoord  : Nat
  srcRemote : Bool
  dstRemote : Bool
  part      : Nat
  src       : Dpa
  dst       : Dpa
  rowBytes  : Nat
  rows      : Nat
  srcPitch  : Nat
  dstPitch  : Nat
deriving DecidableEq, Repr

/-- A descriptor read from its bytes. -/
def dmaDesc (b : List Byte) : DmaDesc :=
  ⟨leField b 0 1, (leField b 1 1).testBit 0, (leField b 1 1).testBit 3, leField b 2 1, leField b 3 1, leField b 6 2 % 1024,
    leField b 8 2, leField b 10 2, leField b 12 2, (leField b 14 1).testBit 0, (leField b 14 1).testBit 1, leField b 15 1,
    leField b 16 8, leField b 24 8, leField b 32 4, leField b 36 4, leField b 40 8, leField b 48 8⟩

/-- The bytes that a descriptor moves. -/
def DmaDesc.total (d : DmaDesc) : Nat := d.rowBytes * d.rows

/-- DMA_BAD_DESC (R351). -/
def dmaBad (b : List Byte) : Bool :=
  let d := dmaDesc b
  decide (d.op > 2) || decide (leField b 1 1 ≥ 16) || decide (d.cls > 2) ||
  (if d.op = 1 then d.fmt != 0 && d.fmt != 12 else if d.op = 2 then d.fmt != 1 && d.fmt != 2 && d.fmt != 4 else d.fmt != 0) ||
  decide (leField b 4 2 ≥ 4096) || decide (leField b 6 2 ≥ 1024) || decide (d.panel ≥ 1024) || decide (leField b 14 1 ≥ 4) ||
  decide (d.src ≥ 2 ^ 40) || decide (d.dst ≥ 2 ^ 40) || decide (d.rowBytes = 0) || decide (d.rowBytes > 2 ^ 31) || decide (d.rows = 0) ||
  decide (d.rows > 2 ^ 24) || decide (leField b 56 8 ≠ 0) || (d.srcRemote && d.dstRemote) ||
  (decide (d.rows > 1) && decide (d.dstPitch < d.rowBytes))

/-- Whether a DPA lies in the host window. -/
def inHost (a : Dpa) : Bool := decide (0xC000000000 ≤ a) && decide (a < 0x10000000000)

/-- DMA_CLASS (R351, R352): the ends and the operation that a class allows. -/
def DmaDesc.badClass (d : DmaDesc) : Bool :=
  let hs := !d.srcRemote && inHost d.src
  let hd := !d.dstRemote && inHost d.dst
  if d.cls = 0 then hs || hd
  else if d.cls = 1 then d.op != 0 || d.srcRemote || d.dstRemote || hs == hd
  else d.op != 0 || d.srcRemote || d.dstRemote || hs || hd

/-- DMA_ALIGN_ERR (R352). -/
def DmaDesc.badAlign (d : DmaDesc) : Bool :=
  let off := fun (n v : Nat) => decide (v % n ≠ 0)
  if d.cls = 0 then
    off 256 d.src || off 256 d.dst || off 256 d.rowBytes || off 256 d.srcPitch || off 256 d.dstPitch ||
      (d.op == 2 && (off 2048 d.src || off 2048 d.rowBytes || off 2048 d.srcPitch))
  else d.cls == 2 && decide (d.total > 1048576)

/-- The address of row i at an end. -/
def rowAt (base pitch i : Nat) : Nat := base + i * pitch

/-- MEM_TARGET_TYPE (R228, R351): an ADD goes to gesso and a TURN reads it. -/
def DmaDesc.badTarget (d : DmaDesc) : Bool :=
  let gesso := fun (a : Nat) => match targetOf a with | .gesso _ _ => true | .nowhere => decide (a < 0x4000000000) | _ => false
  (d.op == 1 && !d.dstRemote && !gesso d.dst) || (d.op == 2 && !d.srcRemote && !gesso d.src)

/-- The permission that an operation needs at its destination. -/
def DmaDesc.dstPerm (d : DmaDesc) : Perm := if d.op = 1 then .a else .w

/-- DMA_BOUNDS (R351). -/
def State.dmaBadBounds (s : State) (ch : Nat) (d : DmaDesc) : Bool :=
  match s.qPart (dmaQ ch) with
  | none => false
  | some (p, _) => (List.range d.rows).any (fun i =>
      (!d.srcRemote && !s.windowOk p .r (rowAt d.src d.srcPitch i) d.rowBytes) ||
      (!d.dstRemote && !s.windowOk p d.dstPerm (rowAt d.dst d.dstPitch i) d.rowBytes))

/-- The check of R351: the first code that applies, 0 where the descriptor may run. -/
def State.dmaCheck (s : State) (ch : Nat) (b : List Byte) : Code :=
  let d := dmaDesc b
  if dmaBad b then dmaBadDesc
  else if d.badClass then dmaClass
  else if d.badAlign then dmaAlignErr
  else if d.badTarget then 0x0102
  else if s.dmaBadBounds ch d then dmaBounds
  else 0

/-- A channel reads its next descriptor where its OP is the given one (3: a reserved one), checks it and starts it, or
halts (R346, R351, R358, R366). -/
def State.dmaStart (s : State) (ch op : Nat) : State :=
  let q := dmaQ ch
  if !q.exists_ || s.on DMA_CH_CTL.STOP ch then s
  else match s.qNext q with
    | .idle t => t
    | .failed t => t.wrN DMA_CH_FAIL.OFFSET ch 0
    | .cmd b t =>
      let d := dmaDesc b
      let rs := t.dmaRuns ch
      if min d.op 3 ≠ op then s
      else if !t.qMayStart q d.fence rs.length rs.length || !rs.all (fun r => decide (r.next ≥ (dmaDesc r.desc).total) && r.failed.isNone) then s
      else
        let seq := (t.ring q).read
        let code := t.dmaCheck ch b
        if code = 0 then (t.qTake q).setRuns ch (rs ++ [⟨seq, b, 0, [], none, 0, none⟩])
        else
          let u := (t.qTake q).qFail q seq code (dmaNotify b) (dmaMbx b)
          { u with dma := { u.dma with broken := Tab.set u.dma.broken ch (some ⟨seq, b, 0, [], none, 0, none⟩) none } }

/-- DMA_COPY (R352). -/
def execDmaCopy (channel : Nat) (s : State) : Res := .next (s.dmaStart channel 0)
/-- DMA_ADD (R353). -/
def execDmaAdd (channel : Nat) (s : State) : Res := .next (s.dmaStart channel 1)
/-- DMA_TURN (R353). -/
def execDmaTurn (channel : Nat) (s : State) : Res := .next (s.dmaStart channel 2)
/-- DMA_OP_RESERVED (R351). -/
def execDmaOpReserved (channel : Nat) (s : State) : Res := .next (s.dmaStart channel 3)

/-! ### Bursts (R354, R357) -/

/-- A run of bytes of a burst within one row: its offset, source, destination and length. -/
structure BurstPart where
  off : Nat
  src : Nat
  dst : Nat
  len : Nat
deriving DecidableEq, Repr

/-- The parts of the burst that begins at an offset: the destination bytes that lie in one 2 KiB block, row after row;
of a TURN the bytes of one source line. Fuel bounds the rows. -/
def DmaDesc.burst (d : DmaDesc) (block : Option Nat) : Nat → Nat → List BurstPart
  | 0, _ => []
  | f + 1, o =>
    if o ≥ d.total then []
    else
      let i := o / d.rowBytes
      let r := o % d.rowBytes
      let a := rowAt d.dst d.dstPitch i + r
      let b := block.getD (a / 2048)
      if d.op = 2 then (if block.isSome then [] else [⟨o, rowAt d.src d.srcPitch i + r, a, 2048⟩])
      else if a / 2048 ≠ b then []
      else
        let n := min (d.rowBytes - r) (2048 - a % 2048)
        ⟨o, rowAt d.src d.srcPitch i + r, a, n⟩ :: (if n = d.rowBytes - r then d.burst (some b) f (o + n) else [])

/-- The burst of a descriptor at an offset. -/
def DmaDesc.burstAt (d : DmaDesc) (o : Nat) : List BurstPart := d.burst none 2049 o

/-- The length of a burst. -/
def partsLen (ps : List BurstPart) : Nat := (ps.map (·.len)).sum

/-- Ascending accesses, each the largest naturally aligned power of two of at most 128 B that fits. -/
def smallAccesses : Nat → Nat → Nat → List (Nat × Nat)
  | 0, _, _ => []
  | f + 1, a, n =>
    if n = 0 then []
    else
      let m := ((List.range 8).map (2 ^ ·)).foldl (fun best w => if a % w = 0 ∧ w ≤ n then w else best) 1
      (a, m) :: smallAccesses f (a + m) (n - m)

/-- The destination accesses of the funnel: head, whole sectors, tail (R354). -/
def funnel (a n : Nat) : List (Nat × Nat) :=
  let h := min n ((256 - a % 256) % 256)
  let body := (n - h) / 256
  smallAccesses 256 a h ++ (List.range body).map (fun i => (a + h + 256 * i, 256)) ++ smallAccesses 256 (a + h + 256 * body) (n - h - 256 * body)

/-- The requests with which a burst writes its destination. -/
def DmaDesc.writes (d : DmaDesc) (p : BurstPart) : List (Nat × Nat) := if d.cls = 0 then sectorsOf p.dst p.len else funnel p.dst p.len

/-- The tags of a burst: one for each request it issues, reads and writes (R357). -/
def DmaDesc.burstTags (d : DmaDesc) (ps : List BurstPart) : Nat :=
  (ps.map (fun p => (d.writes p).length + (if d.op = 2 then 1 else (sectorsOf p.src p.len).length))).sum

/-- The agent of a channel's requests for a burst. -/
def State.dmaAgent (s : State) (ch seq off : Nat) : Agent :=
  ⟨.dma ch, seq * 2 ^ 64 + off, (s.qPart (dmaQ ch)).map Prod.fst, match s.qPart (dmaQ ch) with | some p => p.2 | none => false⟩

/-- The source bytes of a burst read locally. -/
def State.burstRead (s : State) (ag : Agent) (d : DmaDesc) (ps : List BurstPart) : Acc :=
  ps.foldl (fun acc p => match acc with
    | .wait t => .wait t
    | .done c xs t =>
      match (if d.op = 2 then t.access1 ag p.src 2048 (.turn d.fmt) else t.readRange ag p.src p.len) with
      | .done c' ys u => .done (firstCode c c') (xs ++ ys) u
      | .wait u => .wait { u with host := { u.host with replies := s.host.replies } }) (.done 0 [] s)

/-- The destination of a burst written locally from its bytes; none where a line is held. -/
def State.burstWrite (s : State) (ag : Agent) (d : DmaDesc) (ps : List BurstPart) (bs : List Byte) : Option (Code × State) :=
  let o := match ps with | p :: _ => p.off | [] => 0
  ps.foldl (fun acc p => match acc with
    | none => none
    | some e => (d.writes p).foldl (fun acc w => match acc with
      | none => none
      | some (c, t) =>
        let data := (bs.drop (p.off - o + (w.1 - p.dst))).take w.2
        match t.access1 ag w.1 w.2 (if d.op = 1 then (if d.fmt = 12 then .addEx96 data else .addFp32 data) else .write data) with
        | .done c' _ u => some (firstCode c c', u)
        | .wait _ => none) (some e)) (some (0, s))

/-- The requests of a burst's remote end sent (R355). -/
def State.burstRemote (s : State) (d : DmaDesc) (ps : List BurstPart) (bs : List Byte) : State :=
  let o := match ps with | p :: _ => p.off | [] => 0
  if d.srcRemote then s.each ps (fun p t => t.send (.remote d.srcCoord d.part (if d.op = 2 then 6 else 1) p.src p.len []))
  else if d.dstRemote then s.each ps (fun p t => t.each (sectorsOf p.dst p.len) (fun w u =>
    u.send (.remote d.dstCoord d.part (if d.op = 1 then (if d.fmt = 12 then 4 else 3) else 2) w.1 w.2 ((bs.drop (p.off - o + (w.1 - p.dst))).take w.2))))
  else s

/-- The host reads of a burst sent (R546). -/
def State.burstHost (s : State) (ag : Agent) (d : DmaDesc) (ps : List BurstPart) : State :=
  if d.cls = 1 && inHost d.src then s.each ps (fun p t => t.each (sectorsOf p.src p.len) (fun w u =>
    if (u.hostRefusal w.1).isNone then u.hostSend ag.src ag.tag w.1 w.2 else u))
  else s

/-! ### Issue (R358) -/

/-- The next burst that a channel would issue: its descriptor's sequence number and offset, a failed one first. None
where a descriptor of the channel is to fail. -/
def State.dmaNext (s : State) (ch : Nat) : Option (DmaRun × Nat) :=
  let rs := s.dmaRuns ch
  if rs.any (fun r => r.failed.isSome) then none
  else rs.findSome? (fun r =>
    match r.flying.find? (·.again) with
    | some b => some (r, b.offset)
    | none => if r.next < (dmaDesc r.desc).total then some (r, r.next) else none)

/-- The tags that a channel holds. -/
def State.dmaTags (s : State) (ch : Nat) : Nat := ((s.dmaRuns ch).map (·.tags)).sum

/-- The tags that an engine holds. -/
def State.engineTags (s : State) (e : Nat) : Nat := ((List.range 64).map (fun k => s.dmaTags (64 * e + k))).sum

/-- Whether a channel has a burst ready and the tags for it are free. -/
def State.dmaReady (s : State) (ch : Nat) : Bool :=
  match s.dmaNext ch with
  | none => false
  | some (r, o) =>
    let n := (dmaDesc r.desc).burstTags ((dmaDesc r.desc).burstAt o)
    decide (s.dmaTags ch + n ≤ 1024) && decide (s.engineTags (ch / 64) + n ≤ 16384)

/-- The rank of a channel in the arbitration: PRIMARY before WASH, then PRIO. -/
def State.dmaRank (s : State) (ch : Nat) : Nat :=
  (if (match s.qPart (dmaQ ch) with | some p => p.2 | none => false) then 0 else 8) + s.rdN DMA_CH_CTL.PRIO ch

/-- The channel that an engine grants (R358): round robin after the one served last among the highest in rank. -/
def State.dmaGrant (s : State) (e : Nat) : Option Nat :=
  let last := Tab.get s.dma.turn e 0
  let cs := ((List.range 64).map (fun k => 64 * e + (last + 1 + k) % 64)).filter s.dmaReady
  let top := cs.foldl (fun m c => max m (s.dmaRank c)) 0
  cs.find? (fun c => s.dmaRank c == top)

/-- A run of a channel changed. -/
def State.setRun (s : State) (ch : Nat) (r : DmaRun) : State :=
  s.setRuns ch ((s.dmaRuns ch).map (fun x => if x.seq = r.seq then r else x))

/-- BURST_ISSUE (R355, R358): the granted channel issues its burst: tags are taken, host reads and remote requests are
sent, and a local burst awaits its responses. -/
def execBurstIssue (engine : Nat) (s : State) : Res :=
  .next (match (if engine < 5 then s.dmaGrant engine else none) with
    | none => s
    | some ch => match s.dmaNext ch with
      | none => s
      | some (r, o) =>
        let d := dmaDesc r.desc
        let ps := d.burstAt o
        let ag := s.dmaAgent ch r.seq o
        let go := fun (t : State) (bs : List Byte) =>
          let u := ((t.burstHost ag d ps).burstRemote d ps bs)
          let old := r.flying.find? (fun b => b.offset == o)
          let b : DmaBurst := ⟨o, partsLen ps, d.burstTags ps, match old with | some x => x.retries | none => 0, t.now, false⟩
          let v := u.setRun ch { r with flying := r.flying.filter (fun b => b.offset != o) ++ [b], next := max r.next (o + partsLen ps) }
          { v with dma := { v.dma with turn := Tab.set v.dma.turn engine (ch % 64) 0 } }
        if d.dstRemote then
          match s.burstRead ag d ps with
          | .wait t => t
          | .done code bs t => if code = 0 then go t bs
              else (t.setRun ch { r with failed := some (lowerFail r.failed (code, o)) }).dmaSettle ch
        else go s [])

/-! ### Responses (R360 to R365) -/

/-- Whether a code is a bus error (R363). -/
def busError (c : Code) : Bool := c == dmaLink || c == dmaTimeout

/-- A burst has failed (R363, R364): it is issued again, or its descriptor is to end with the code at its offset. -/
def State.burstFail (s : State) (ch : Nat) (r : DmaRun) (b : DmaBurst) (code : Code) (delivered : Bool) : State :=
  let d := dmaDesc r.desc
  let rest := r.flying.filter (fun x => x.offset != b.offset)
  let unsure := d.op == 1 && busError code && (delivered || code == dmaTimeout)
  if busError code ∧ !unsure ∧ b.retries < s.rdN DMA_CH_RETRY.RETRY ch ∧ r.failed.isNone then
    s.setRun ch { r with flying := rest ++ [{ b with retries := b.retries + 1, again := true }] }
  else (s.setRun ch { r with flying := rest, failed := some (lowerFail r.failed (if unsure then dmaAddUncertain else code, b.offset)) }).dmaSettle ch

/-- The last bytes that a descriptor writes, as its read-back reads them (R360): that sector or funnel access. -/
def DmaDesc.backPiece (d : DmaDesc) : Nat × Nat :=
  let row := rowAt d.dst d.dstPitch (d.rows - 1)
  ((d.writes ⟨0, 0, row, d.rowBytes⟩).getLast?).getD (row, 1)

/-- A burst has all its responses: it leaves, its tags are free, and after the last one the read-back is issued. -/
def State.burstDone (s : State) (ch : Nat) (r : DmaRun) (b : DmaBurst) : State :=
  let d := dmaDesc r.desc
  let r1 := { r with flying := r.flying.filter (fun x => x.offset != b.offset) }
  if r1.flying.isEmpty ∧ r1.next ≥ d.total ∧ r1.failed.isNone then
    let t := s.setRun ch { r1 with back := some s.now }
    if d.dstRemote then t.send (.remote d.dstCoord d.part 1 d.backPiece.1 d.backPiece.2 []) else t
  else (s.setRun ch r1).dmaSettle ch

/-- A started descriptor. -/
def State.dmaRun (s : State) (ch seq : Nat) : Option DmaRun := (s.dmaRuns ch).find? (fun r => r.seq == seq)

/-- DMA_RESPONSE (R355, R357, R363): the responses of a burst. A local end is read and written at its home slices; a
remote end's outcome comes with the reply, and a reply with a bus error stands for a transport failure. -/
def execDmaResponse (channel seq offset : Nat) (reply : Option DmaReply) (s : State) : Res :=
  .next (match s.dmaRun channel seq with
    | none => s
    | some r => match r.flying.find? (fun b => b.offset == offset && !b.again) with
      | none => s
      | some b =>
        let d := dmaDesc r.desc
        let ps := d.burstAt offset
        let ag := s.dmaAgent channel seq offset
        let local_ := fun (_ : Unit) => match s.burstRead ag d ps with
          | .wait t => (none, t)
          | .done code bs t => if code ≠ 0 then (some code, t)
              else match t.burstWrite ag d ps bs with | none => (none, s) | some (e, u) => (some e, u)
        let finish := fun (p : Option Code × State) => match p.1 with
          | none => p.2
          | some code => if code = 0 then p.2.burstDone channel r b else p.2.burstFail channel r b code false
        if !d.srcRemote && !d.dstRemote then
          match reply with
          | none => finish (local_ ())
          | some y =>
            if !busError y.code then s
            else if y.delivered then (match local_ () with
              | (some _, t) => t.burstFail channel r b y.code true
              | (none, t) => t)
            else s.burstFail channel r b y.code false
        else match reply with
          | none => s
          | some y =>
            if y.code ≠ 0 then s.burstFail channel r b y.code y.delivered
            else if d.dstRemote then s.burstDone channel r b
            else match s.burstWrite ag d ps y.data with
              | none => s
              | some (e, t) => finish (some e, t))

/-- DMA_REQUEST_TIMEOUT (R363): a burst without a response 1 ms after its issue. -/
def execDmaRequestTimeout (channel seq offset : Nat) (s : State) : Res :=
  .next (match s.dmaRun channel seq with
    | none => s
    | some r => match r.flying.find? (fun b => b.offset == offset && !b.again) with
      | none => s
      | some b => if s.now ≥ b.sent + 1000000 then s.burstFail channel r b dmaTimeout true else s)

/-- A channel that is to stop becomes STOPPED once no started descriptor is left (R366). -/
def State.dmaStopSettle (s : State) (ch : Nat) : State :=
  if s.on DMA_CH_CTL.STOP ch && (s.dmaRuns ch).isEmpty && !s.qHalted (dmaQ ch) then
    (s.wrN DMA_CH_STATUS.STATE ch 3).clr DMA_CH_CTL.STOP ch
  else s

/-- A descriptor's read-back has returned (R360, R361): the SIGNAL region becomes READY, HEAD advances, and the
completion is reported; a SIGNAL region in another state halts the channel. -/
def State.dmaComplete (s : State) (ch : Nat) (r : DmaRun) : State :=
  let d := dmaDesc r.desc
  let s1 := s.setRuns ch ((s.dmaRuns ch).filter (fun x => x.seq != r.seq))
  let i := regIx d.panel d.handle
  let wash := match s.qPart (dmaQ ch) with | some p => p.2 | none => false
  let ok := s1.rdN CNV_PNL_REGION.TOKEN i == 0 && s1.rdN CNV_PNL_REGION.LEN i != 0 && s1.on CNV_PNL_REGION.JOB i == wash
  let s2 := s1.bump DMA_CH_BYTES.COUNT ch d.total
  if d.signal && !ok then (s2.qFail (dmaQ ch) r.seq dmaSignalState (dmaNotify r.desc) (dmaMbx r.desc)).wrN DMA_CH_FAIL.OFFSET ch d.total
  else ((s2.when d.signal (·.wrN CNV_PNL_REGION.TOKEN i 2)).qComplete (dmaQ ch) r.seq (dmaNotify r.desc) (dmaIrq r.desc) (dmaMbx r.desc)).dmaStopSettle ch

/-- DMA_READBACK_DONE (R360, R363): the read-back returns; a bus error makes it again, up to RETRY times. -/
def execDmaReadbackDone (channel seq : Nat) (reply : Option DmaReply) (s : State) : Res :=
  .next (match s.dmaRun channel seq with
    | none => s
    | some r => match r.back with
      | none => s
      | some _ =>
        let d := dmaDesc r.desc
        let p := d.backPiece
        let last := d.total - min d.total 2048
        let fail := fun (t : State) (code : Code) =>
          if busError code ∧ r.tries < t.rdN DMA_CH_RETRY.RETRY channel then
            let u := t.setRun channel { r with back := some t.now, tries := r.tries + 1 }
            if d.dstRemote then u.send (.remote d.dstCoord d.part 1 p.1 p.2 []) else u
          else (t.setRun channel { r with back := none, failed := some (lowerFail r.failed (code, last)) }).dmaSettle channel
        let end_ := fun (t : State) (code : Code) => if code = 0 then t.dmaComplete channel r else fail t code
        match reply, d.dstRemote with
        | none, true => s
        | some y, true => end_ s y.code
        | some y, false => if busError y.code then fail s y.code else s
        | none, false =>
          if inHost d.dst then (match s.hostRefusal p.1 with | some e => end_ (s.hostRefuse p.1 e) e | none => (match s.readRange (s.dmaAgent channel seq d.total) p.1 p.2 with
            | .wait t => t
            | .done code _ t => end_ t code))
          else match s.readRange (s.dmaAgent channel seq d.total) p.1 p.2 with
            | .wait t => t
            | .done code _ t => end_ t code)

/-- REMOTE_REQUEST (R355, R356): a request from another device is checked against the windows of REMOTE_PART and then
performed at its home slice. -/
def execRemoteRequest (req : MemReq) (act : RemoteAct) (s : State) : Res :=
  let perm : Perm := match act with | .read => .r | .turn _ => .r | .write _ => .w | .addFp32 _ => .a | .addEx96 _ => .a
  let mem : MemAct := match act with
    | .read => .read | .turn e => .turn e | .write b => .write b | .addFp32 b => .addFp32 b | .addEx96 b => .addEx96 b
  .next (if !reqInLine req && decide (req.len ≠ 2048) then s
    else if s.windowOk? req.part perm req.dpa req.len && req.part.isSome then s.request ⟨req, mem⟩
    else s.respond ⟨req, mem⟩ dmaRemoteBounds [])

/-! ### The registers of a channel (R348, R365, R366) -/

/-- DMA_RESUME_RETRY (R365): the failed descriptor runs again from the recorded offset. After an overrun or a failed
ring read, RESUME acts as for every ring (R270, R623). -/
def execDmaResumeRetry (port : Port) (channel : Nat) (s : State) : Res :=
  let q := dmaQ channel
  .next (s.qWrite port q (fun t =>
    if !t.qHalted q then t
    else match Tab.get t.dma.broken channel none with
      | none => t.qResume q
      | some r =>
        let u := { t with dma := { t.dma with broken := Tab.set t.dma.broken channel none none } }
        let v := (u.setRing q { u.ring q with failed := (u.ring q).failed.erase r.seq }).wrN DMA_CH_STATUS.STATE channel 0
        ((v.qSummary q).setRuns channel (r :: v.dmaRuns channel)).qRefresh q))

/-- DMA_RESUME_SKIP (R365): the failed descriptor counts as completed. -/
def execDmaResumeSkip (port : Port) (channel : Nat) (s : State) : Res :=
  let q := dmaQ channel
  .next (s.qWrite port q (fun t =>
    if !t.qHalted q then t
    else ({ t with dma := { t.dma with broken := Tab.set t.dma.broken channel none none } }.qResume q).dmaStopSettle channel))

/-- DMA_STOP (R366): no further descriptor starts; the channel is STOPPED once the started ones have completed. -/
def execDmaStop (port : Port) (channel : Nat) (s : State) : Res :=
  .next (s.qWrite port (dmaQ channel) (fun t => (t.set1 DMA_CH_CTL.STOP channel).dmaStopSettle channel))

/-- DMA_ENABLE (R366): ENABLE written; a 1 restarts a STOPPED channel. -/
def execDmaEnable (port : Port) (channel : Nat) (enable : Bool) (s : State) : Res :=
  .next (s.qWrite port (dmaQ channel) (fun t =>
    let u := if enable && decide (t.rdN DMA_CH_STATUS.STATE channel = 3) then t.wrN DMA_CH_STATUS.STATE channel 0 else t
    u.qEnable (dmaQ channel) enable))

/-- DMA_TAIL_WRITE (R346, R349). -/
def execDmaTailWrite (port : Port) (channel : Nat) (tail : Word32) (s : State) : Res :=
  .next (s.qWrite port (dmaQ channel) (·.qSetTail (dmaQ channel) (BitVec.setWidth 64 tail)))

/-- The ring slots of a channel that open coats have reserved (R348). -/
def State.dmaReserved (s : State) (ch : Nat) : Nat :=
  (s.openCoats.flatMap (fun (e : Nat × Coat) => e.2.descs.filter (fun (d : Nat × List Byte) => match e.2.actions[d.1]? with
    | some a => (match a.2 with | .dmaLaunch c _ => decide (c = ch) | _ => false)
    | none => false))).length

/-- DMA_OWNER_WRITE (R348, R497): the owner is set, unless a coat holds a ring slot of the channel; in confidential mode
the host may not write it. -/
def execDmaOwnerWrite (port : Port) (channel : Nat) (data : Word32) (s : State) : Res :=
  .next (if !(dmaQ channel).exists_ || decide (s.island (dmaQ channel).island ≠ islActive) then s
    else s.denied port true (fun t =>
      if t.dmaReserved channel ≠ 0 then t
      else ((t.flag DMA_CH_OWNER.OWNED channel (data.getLsbD 9)).flag DMA_CH_OWNER.JOBCLASS channel (data.getLsbD 8)).wrN
        DMA_CH_OWNER.PARTITION channel (data.toNat % 256)))

/-! ### Posts (R347) -/

/-- The job of a partition for a class. -/
def State.jobOf (s : State) (p : Nat) (wash : Bool) : Option Nat := (s.part p).map (fun x => if wash then x.washJob else x.job)

/-- The checks of a post by a partition's PRIMARY job, but for the read of the descriptor (R347): 0 where it may post. -/
def State.postCheck (s : State) (ch p : Nat) : Code :=
  if ch > 319 then dmaNotOwner
  else match s.qPart (dmaQ ch) with
    | none => dmaNotOwner
    | some (o, w) =>
      if (s.jobOf o w).isNone ∨ s.jobOf o w ≠ s.jobOf p false then dmaNotOwner
      else if seqAhead (s.rdN DMA_CH_HEAD.HEAD ch) (s.rdN DMA_CH_TAIL.TAIL ch) + s.dmaReserved ch ≥ s.qSize (dmaQ ch) then dmaRingFull
      else 0

/-- A descriptor written into the ring and TAIL advanced; none where the slot's line is held. -/
def State.postWrite (s : State) (ch : Nat) (b : List Byte) : Option State :=
  let q := dmaQ ch
  let tail := s.rdN DMA_CH_TAIL.TAIL ch
  match s.writeRange ⟨.dma ch, 0x50000, none, false⟩ (s.qSlot q tail) b with
  | .done _ _ t => some (t.qSetTail q (BitVec.ofNat 64 (seqNext tail)))
  | .wait _ => none

/-- A post (R347): its result, or none where it must wait for a line, with the state. -/
def State.dmaPost (s : State) (ch p : Nat) (d : Dpa) : Option Code × State :=
  let c := s.postCheck ch p
  if c ≠ 0 then (some c, s)
  else match s.readRange ⟨.dma ch, 0x60000, none, false⟩ d 64 with
    | .wait t => (none, t)
    | .done e b t =>
      if e ≠ 0 then (some e, t)
      else match t.postWrite ch b with
        | some u => (some 0, u)
        | none => (none, s)

end Sys2Proof.Machine
end

