-- ==== Sys2Proof/Machine/Errors.lean ====
section
/-! DEFINITION. Scrubbing, retirement, the clearing of partition faults, and the stall detector (chapter 17). -/

namespace Sys2Proof.Machine

/-- Whether a canvas's registers can be reached (R542): its tether-port island is ACTIVE. -/
def State.canvasUp (s : State) (c : Nat) : Bool := decide (c < 4) && decide (s.island (tetherIsland c) = islActive)

/-! ### The gesso scrubber (R513 to R516) -/

/-- Whether a channel of a canvas has a row at some height that the scrubber can reach. -/
def State.scrubReach (s : State) (c l : Nat) : Bool :=
  s.lineExists c l && decide (s.island (gessoIsland c l) = islActive)

/-- Whether the scrubber visits a line (R515). -/
def State.scrubbable (s : State) (c l : Nat) : Bool :=
  let k := lineKey c l
  s.scrubReach c l && (match s.line k with | some x => decide (x.dirty = 0) | none => true) &&
    (s.victim k).isNone && !s.lineHeld k

/-- The next line that the scrubber visits, none at the end of the lap; fuel bounds the lines skipped. -/
def State.scrubNext (s : State) (c : Nat) : Nat → Nat → Option Nat
  | 0, _ => none
  | f + 1, l =>
    if s.scrubbable c l then some l
    else if (List.range 32).any (fun g => s.scrubReach c (l / 32 * 32 + g)) then State.scrubNext s c f (l + 1)
    else none

/-- The fuel of a search: enough for every dirty, waiting or held line. -/
def State.scrubFuel (s : State) : Nat := 32 * (s.glz.lines.length + s.glz.victims.length + s.glz.held.length + 2)

/-- The end of a gesso lap (R516): its time recorded, the next lap begun. -/
def State.lapEnd (s : State) (c : Nat) : State :=
  (s.wrN CNV_ECC_SCRUB_LAP_US.US c ((s.now - Tab.get s.gso.lapStart c 0) / 1000)).onGso (fun g => { g with
    scrubAt := Tab.set g.scrubAt c 0 0, lapStart := Tab.set g.lapStart c s.now 0, lapLate := Tab.set g.lapLate c false false })

/-- A lap that runs past LAP_WARN_MS sets LAP_SLOW once (R516). -/
def State.lapWarn (s : State) (c : Nat) : State :=
  let ms := s.rdN CNV_ECC_LAP_WARN.LAP_WARN_MS c
  if ms ≠ 0 ∧ s.now - Tab.get s.gso.lapStart c 0 > ms * 1000000 ∧ Tab.get s.gso.lapLate c false = false then
    (s.set1 CNV_ECC_STATUS.LAP_SLOW c).onGso (fun g => { g with lapLate := Tab.set g.lapLate c true false })
  else s

/-- GESSO_SCRUB_OP (R513, R515, R516): an in-place copy of the next row; what could be corrected is rewritten, an
uncorrectable codeword is rewritten poisoned and logged. -/
def execGessoScrubOp (canvas : Nat) (upsets : List Upset) (s : State) : Res :=
  .next (if !(decide (canvas < 4) && s.on CNV_ECC_CTL.SCRUB_EN canvas) then s
  else match s.scrubNext canvas s.scrubFuel (Tab.get s.gso.scrubAt canvas 0) with
    | none => (s.lapWarn canvas).lapEnd canvas
    | some l =>
      let k := lineKey canvas l
      if s.refreshing k then s
      else
        let s1 := s.rowUpsets k 2 0 upsets
        let r := s1.rowImage k
        let s2 := ((s1.logRow k 2 r.bad).putRow k r).bump CNV_ECC_SCRUB_FIXED.COUNT canvas
          ((upsets.filter (fun u => u.correctable && decide (u.offset < 65))).length)
        let s3 := (s2.onGso (fun g => { g with scrubAt := Tab.set g.scrubAt canvas (l + 1) 0 })).lapWarn canvas
        match s3.scrubNext canvas s3.scrubFuel (l + 1) with
        | none => s3.lapEnd canvas
        | some _ => s3)

/-! ### The glaze scrubber -/

/-- GLAZE_SCRUB_OP (R509, R513, R516): a VALID sector is read; a correctable word is rewritten; an uncorrectable one
makes a clean sector be filled again, and stays poisoned in a dirty one. -/
def execGlazeScrubOp (canvas line sector : Nat) (upsets : List Upset) (lapEnd : Bool) (s : State) : Res :=
  let k := lineKey canvas line
  .next (if !(decide (canvas < 4) && s.on CNV_ECC_CTL.GLZ_SCRUB_EN canvas) then s
  else
    let t := match s.line k with
      | none => s
      | some l =>
        if !l.valid.getLsbD sector || decide (sector > 7) then s
        else
          let mine := upsets.filter (fun u => decide (u.offset / 32 = sector))
          let base := lineDpa canvas line
          let fixed := mine.filter (·.correctable)
          let s1 := (s.each fixed (fun u t => t.eccLog canvas ⟨base + 8 * u.offset, logGlaze, 1, 2,
            glazeLocation k l.way u.offset u.detail, 0, 0⟩)).bump CNV_ECC_SCRUB_FIXED.COUNT canvas fixed.length
          let gone := mine.filter (fun u => !u.correctable)
          if gone.isEmpty then s1
          else if l.dirty.getLsbD sector then
            s1.each gone (fun u t => (t.onGlz (fun g => { g with bad := setFlags g.bad [base / 8 + u.offset] true })).eccLog canvas
              ⟨base + 8 * u.offset, logGlaze, 2, 2, glazeLocation k l.way u.offset u.detail, 0, 0x0111⟩)
          else
            let s2 := (s1.bump CNV_ECC_UE_REFETCH.COUNT canvas 1).setLine k (some { l with valid := l.valid &&& ~~~((1 : BitVec 8) <<< sector) })
            if s2.island (gessoIsland canvas line) = islActive then s2.fillSectors k ((1 : BitVec 8) <<< sector) 2 0 else s2
    if lapEnd then (t.wrN CNV_ECC_GLZ_LAP_US.US canvas ((t.now - Tab.get t.gso.glzStart canvas 0) / 1000)).onGso
      (fun g => { g with glzStart := Tab.set g.glzStart canvas t.now 0 })
    else t)

/-! ### Retirement (R522 to R525) -/

/-- The key of a page of a physical bank in the remap table. -/
def pageKey (c g b page : Nat) : Nat := ((c * 32 + g) * 32 + b) * 1024 + page

/-- The number of retired pages of a bank, in CNV_ECC_SPARE_USED. -/
def State.sparesUsed (s : State) (c g b : Nat) : Nat := s.rdN CNV_ECC_SPARE_USED.PAGES (c * 32 + g) / 4 ^ b % 4

/-- The check of a page retirement (R523). -/
def State.retireCheck (s : State) (c g b page : Nat) : Code :=
  if s.sparesUsed c g b ≥ 2 then 0x0118
  else if page ≥ 768 || (Tab.get s.gso.remap (pageKey c g b page) none).isSome then 0x0119
  else if (s.rdN CNV_ECC_BANK_RETIRE.PENDING (c * 32 + g)).testBit b || !(s.rdN CNV_GSO_BANKS.WORKING (c * 32 + g)).testBit b then 0x0119
  else 0

/-- RETIRE_PAGE (R522, R523): refused with its code, or the copying begins. -/
def execRetirePage (canvas layer channel bank page : Nat) (s : State) : Res :=
  let g := channel % 8 * 4 + layer % 4
  let b := bank % 32
  let p := page % 1024
  let v : Val := BitVec.ofNat 64 (2 ^ 30 + layer % 4 * 2 ^ 22 + channel % 8 * 2 ^ 19 + b * 2 ^ 14 + p)
  .next (if !s.canvasUp canvas then s
    else s.woRun CNV_ECC_RETIRE.OP canvas v (s.on CNV_ECC_STATUS.RETIRE_BUSY canvas) (fun t =>
      let e := t.retireCheck canvas g b p
      if e ≠ 0 then (t.set1 CNV_ECC_STATUS.RETIRE_ERR canvas).wr CNV_ECC_RETIRE_CODE.CODE canvas (codeVal e)
      else (t.set1 CNV_ECC_STATUS.RETIRE_BUSY canvas).onGso (fun x => { x with retiring := Tab.set x.retiring canvas (some (g, b, p)) none })))

/-- The lines whose rows make up a page of a working bank. -/
def State.pageLines (s : State) (c g b page : Nat) : List Nat :=
  let w := s.working c g
  let pos := (banksOf (s.rdN CNV_GSO_BANKS.WORKING (c * 32 + g))).idxOf b
  (List.range 32).map (fun i => ((32 * page + i) * w + pos) * 32 + g)

/-- RETIRE_PAGE_DONE (R522, R523, R525): the rows are copied with their poison, ZT and TAG, the remap entries switch,
and the record is written. While a line is held or the gesso island is not ACTIVE the copying waits. -/
def execRetirePageDone (canvas : Nat) (upsets : List Upset) (s : State) : Res :=
  .next (match Tab.get s.gso.retiring canvas none with
    | none => s
    | some (g, b, page) =>
      let ls := s.pageLines canvas g b page
      if ls.any (fun l => s.lineHeld (lineKey canvas l)) || decide (s.island (gessoIsland canvas g) ≠ islActive) then s
      else
        let j := s.sparesUsed canvas g b
        let s1 := s.each ((List.range 32).zip ls) (fun x t =>
          let k := lineKey canvas x.2
          let u := t.rowUpsets k 5 0 (upsetsOf x.1 upsets)
          let r := u.rowImage k
          (u.logRow k 5 r.bad).putRow k r)
        let s2 := s1.onGso (fun x => { x with
          remap := Tab.set x.remap (pageKey canvas g b page) (some j) none, retiring := Tab.set x.retiring canvas none none })
        let s3 := s2.wrN CNV_ECC_SPARE_USED.PAGES (canvas * 32 + g) (s2.rdN CNV_ECC_SPARE_USED.PAGES (canvas * 32 + g) + 4 ^ b)
        (((s3.clr CNV_ECC_STATUS.RETIRE_BUSY canvas).set1 CNV_ECC_STATUS.RETIRE_DONE canvas).wrN CNV_ECC_RETIRE_CODE.CODE canvas 0).journal
          0x20 canvas ([BitVec.ofNat 8 (g % 4), BitVec.ofNat 8 (g / 4), BitVec.ofNat 8 b] ++ leBytes 2 page ++ [BitVec.ofNat 8 j]))

/-- BANK_RETIRE_REQUEST (R524): bits set in PENDING, unless the channel would be left with fewer than 24 banks. -/
def execBankRetireRequest (canvas channel : Nat) (mask : Word32) (s : State) : Res :=
  let i := canvas * 32 + channel
  .next (if !s.canvasUp canvas || decide (channel > 31) then s
    else
      let new := s.rdN CNV_ECC_BANK_RETIRE.PENDING i ||| mask.toNat
      let left := (banksOf (s.rdN CNV_GSO_BANKS.WORKING i)).filter (fun b => !new.testBit b)
      if left.length < 24 then (s.set1 CNV_ECC_STATUS.RETIRE_ERR canvas).wrN CNV_ECC_RETIRE_CODE.CODE canvas 0x0118
      else s.wrN CNV_ECC_BANK_RETIRE.PENDING i new)

/-! ### Partition faults (R526, R527) -/

/-- Whether a class of a partition still has something running or waiting (R527): panel threads, sequencer threads,
started row, finish and coat commands, DMA descriptors, collectives. -/
def State.classBusy (s : State) (p : Nat) (wash : Bool) : Bool :=
  (s.listed CNV_PNL_THR_CTL.STATE).any (fun e => e.2 == 1 && s.panelPart (e.1 / 8) == some p && s.on CNV_PNL_THR_CTL.CLASS e.1 == wash) ||
  s.pnl.flights.any (fun (e : Nat × Option Flight) => match e.2 with
    | some f => f.wash == wash && s.panelPart f.panel == some p
    | none => false) ||
  s.dma.runs.any (fun (e : Nat × List DmaRun) => !e.2.isEmpty && decide (s.qPart ⟨.dma, e.1⟩ = some (p, wash))) ||
  (!wash &&
    ((s.listed CNV_SEQ_THR_CTL.STATE).any (fun e => (e.2 == 1 || e.2 == 2 || e.2 == 3) && decide (e.1 / 512 = p / 64) &&
        decide (s.rdN CNV_SEQ_THR_CTL.PARTITION e.1 = p)) ||
      !(Tab.get s.rows.cmds (p / 64 * 65 + p % 64) []).isEmpty ||
      (Tab.get s.fin.tasks (p / 64) []).any (fun t => t.queue == p % 64) ||
      s.openCoats.any (fun e => e.2.queue == p) ||
      s.colls.any (fun c => match c.members[c.rank]? with | some m => m.2 == p | none => false)))

/-- PART_FAULT_CLEAR (R527, R624): each class bit written 1 clears unless its class is busy, which sets CLEAR_REFUSED. -/
def execPartFaultClear (part : Nat) (data : Word32) (s : State) : Res :=
  .next (if part > 255 then s else
    let s1 := s.when (data.getLsbD 29) (·.clr GLB_PART_FAULT.CLEAR_REFUSED part)
    let one := fun (t : State) (f : RegField) (w bit : Bool) =>
      if !bit then t else if s.classBusy part w then t.set1 GLB_PART_FAULT.CLEAR_REFUSED part else t.clr f part
    one (one s1 GLB_PART_FAULT.PRIMARY false (data.getLsbD 31)) GLB_PART_FAULT.WASH true (data.getLsbD 30))

/-! ### The stall detector (R528 to R530) -/

/-- The code STALL. -/
def codeStall : Code := 0x0120

/-- Partitions faulted by a stall, each for its class. -/
def State.stallFaults (s : State) (ps : List (Nat × Bool)) : State := s.each ps.dedup (fun p t => t.partFault p.1 p.2 codeStall)

/-- Whether a thread's head stroke is a SEND on a stream that waits with CREDIT. -/
def State.sendWaits (s : State) (c id : Nat) : Bool :=
  let p := s.rdN CNV_STM_STREAM.SENDER (c * 4096 + id)
  decide (p / 256 = c) && (List.range 8).any (fun t => match (s.pth (8 * p + t)).head with
    | some h => (match decodeStroke false h.word with
      | .ok (.mov f) => decide (f.op = 1) && decide (f.stream = id) &&
          decide (s.rdN CNV_STM_STREAM.CREDITS (c * 4096 + id) < movUnits f)
      | _ => false)
    | none => false)

/-- STREAM_STALL (R528, R530): a stream with demand had no progress for 10 ms; the partitions of both ends fault. -/
def execStreamStall (canvas stream : Nat) (s : State) : Res :=
  let k := canvas * 4096 + stream
  .next (if s.rdN CNV_STM_STREAM.STATE k ≠ 1 || (!s.sendWaits canvas stream && (s.recvs canvas stream).isEmpty) then s
    else
      let w := s.on CNV_STM_STREAM.CLASS k
      let a := s.panelPart (s.rdN CNV_STM_STREAM.SENDER k)
      let b := s.panelPart (s.rdN CNV_STM_STREAM.RECEIVER k)
      (s.stall 1 canvas stream 0 b).stallFaults ((a.toList ++ b.toList).map (fun p => (p, w))))

/-- COAT_PART_STALL (R528): a part that has not voted 10 ms after it opened aborts with COAT_STALL. -/
def execCoatPartStall (id : Nat) (s : State) : Res :=
  .next (match s.coat id with
    | none => s
    | some c => if c.unvoted && decide (c.start + 10000000 ≤ s.now) then (s.stall 4 4 id 0 none).coatAbort id 0x040B else s)

/-- IN_DOUBT_STALL (R338, R528): a part in doubt is reported only. -/
def execInDoubtStall (id : Nat) (s : State) : Res :=
  .next (match s.coat id with
    | none => s
    | some c => if c.stage = .inDoubt then s.stall 4 4 id 0 none else s)

/-- FILL_SLOT_STALL (R528, R530): a fill without delivery for 10 ms completes with STALL for each merged requester. -/
def execFillSlotStall (canvas line : Nat) (s : State) : Res :=
  let k := lineKey canvas line
  .next (match s.slot k with
    | none => s
    | some f =>
      let t := ((s.stall 6 canvas (line % 65536) (line / 65536 % 512) none).each f.jobs (fun j t => t.respond j codeStall [])).setSlot k none
      match t.line k with
      | some l => if l.valid = 0 then t.dropLine k else t
      | none => t)

end Sys2Proof.Machine
end

