-- ==== Sys2Proof/Machine/Coats.lean ====
section
/-! DEFINITION. Coats (chapter 10) up to their apply phase: the check of a descriptor, prepare, locks and wound-wait,
votes, decisions, tokens, doubt; and the route patches of chapter 05 that prepare checks (R196, R197, R625). -/

namespace Sys2Proof.Machine

/-! ### Route patches (R196, R625) -/

/-- The flags byte of a TRAIN record (R177). -/
def Train.flags (t : Train) : Nat :=
  (if t.wash then 1 else 0) + t.phase * 2 + (if t.linked then 16 else 0) + (if t.parent.isSome then 32 else 0)

/-- A STREAM patch: RECEIVER, LAND and LAND_BASE take new values, every other field equals the resident record's. -/
def Sketch.patchStream (k : Sketch) (r : List Byte) : Option Sketch :=
  let key := leField r 1 1 * 4096 + leField r 2 2
  let v := r.drop 8
  let x := parseStream v
  if leField r 2 2 ≥ 4096 then none
  else match Tab.get k.streams key none with
    | none => none
    | some y =>
      if leField v 0 2 == leField r 2 2 && decide (leField v 3 1 ≤ 1) && leField v 13 1 == 0 && allZero (v.drop 16) &&
          decide ({ x with receiver := y.receiver, land := y.land, landBase := y.landBase } = y) then
        some { k with streams := Tab.put k.streams key (some x) }
      else none

/-- A REGION patch: a WELL record for a handle of a panel of an assigned quad. -/
def Sketch.patchRegion (k : Sketch) (r : List Byte) : Option Sketch :=
  let w := parseWell (r.drop 8)
  if decide (leField r 2 2 < 1024) && decide (w.panel / 256 = leField r 1 1) && decide (w.handle = leField r 2 2) &&
      decide (leField r 10 2 / 1024 % 32 = 0) && allZero (r.drop 16) && (k.panelPart w.panel).isSome then
    some { k with wells := k.wells.filter (fun x => !(x.panel == w.panel && x.handle == w.handle)) ++ [w] }
  else none

/-- A WINDOW patch. -/
def Sketch.patchWindow (k : Sketch) (r : List Byte) : Option Sketch :=
  let p := leField r 2 1
  match k.part p with
  | none => none
  | some x =>
    if decide (p / 64 = leField r 1 1) && decide (leField r 3 1 < 16) && windowFormOk ((r.drop 8).take 16) && allZero (r.drop 24) then
      some { k with parts := Tab.put k.parts p (some { x with windows := x.windows.set (leField r 3 1) (parseWindow ((r.drop 8).take 16)) }) }
    else none

/-- A START patch: a THREAD record of the same panel and thread. -/
def Sketch.patchStart (k : Sketch) (r : List Byte) : Option Sketch :=
  let key := leField r 1 1 * 65536 + leField r 2 2
  let v := r.drop 8
  let x := parseStart v
  match Tab.get k.starts key none with
  | none => none
  | some y =>
    if x.panel == y.panel && x.thread == y.thread && decide (x.pc < 2 ^ 40) && decide (x.pc % 16 = 0) && decide (x.ab0 < 2 ^ 40) &&
        allZero ((v.drop 3).take 5) then
      some { k with starts := Tab.put k.starts key (some x) }
    else none

/-- A PHASE patch: only PHASE differs from the resident entry. -/
def Sketch.patchPhase (k : Sketch) (r : List Byte) : Option Sketch :=
  let key := leField r 1 1 * 4096 + leField r 2 2
  let f := leField r 8 1
  if leField r 2 2 ≥ 4096 then none
  else match k.train key with
    | none => none
    | some t =>
      let u := { t with phase := f / 2 % 8 }
      if u.flags == f && allZero (r.drop 9) then some { k with trains := Tab.put k.trains key (some u) } else none

/-- A configuration after one patch record; none where the record breaks R625 or names nothing resident. -/
def Sketch.patch (k : Sketch) (r : List Byte) : Option Sketch :=
  if !allZero ((r.drop 4).take 4) || decide (leField r 1 1 > 3) then none
  else match leField r 0 1 with
    | 1 => k.patchStream r
    | 2 => k.patchRegion r
    | 3 => k.patchWindow r
    | 4 => k.patchStart r
    | 5 => k.patchPhase r
    | _ => none

/-- Check 6 over what patches can change: regions, streams and their landing spaces, train ports, islands. -/
def State.patchedOk (s : State) (k : Sketch) : Bool :=
  distinct (k.wells.map (fun w => w.panel * 1024 + w.handle)) &&
  k.wells.all (fun w => decide (w.base + w.len ≤ 8192) && (!w.wash || k.washPanel w.panel)) &&
  ((k.wells.map (·.panel)).dedup).all (fun p => disjoint (k.regionsOf p)) &&
  k.streams.all (fun (e : Nat × Option StreamRecord) => match e.2 with
    | none => true
    | some x =>
      let c := e.1 / 4096
      (if x.ends = 0 then x.sender / 256 == c && x.receiver / 256 == c
        else if x.ends = 1 then x.sender / 256 == c && x.receiver / 256 == x.peerCanvas
        else x.sender / 256 == x.peerCanvas && x.receiver / 256 == c) &&
      decide (x.receiver < 1024) && decide (1 ≤ x.land) && decide (x.land ≤ 8192) && decide (x.landBase + x.land ≤ 8192) &&
      !(k.regionsOf x.receiver).any (overlap (x.landBase, x.land)) && k.peerOk c (e.1 % 4096) x &&
      (!x.wash || (k.washPanel x.sender && k.washPanel x.receiver))) &&
  k.trains.all (fun (e : Nat × Option Train) => match e.2 with
    | none => true
    | some t => t.inPorts.all (k.portOk e.1 true) && t.outPorts.all (k.portOk e.1 false)) &&
  k.islands.all s.works && k.acyclic

/-- The patch records of a coat's actions. -/
def Coat.patches (c : Coat) : List (List Byte) :=
  c.actions.filterMap (fun a => match a.2 with | .routePatch r => some r | _ => none)

/-- A configuration after several patches. -/
def Sketch.patchAll (k : Sketch) (rs : List (List Byte)) : Option Sketch :=
  rs.foldl (fun o r => match o with | some x => x.patch r | none => none) (some k)

/-- The check of R196. -/
def State.patchCheck (s : State) (c : Coat) : Bool :=
  c.patches.isEmpty || (match s.str.sketch.patchAll c.patches with | some k => s.patchedOk k | none => false)

/-- The partitions to which the target of a patch belongs (R320). -/
def State.patchParts (s : State) (r : List Byte) : List Nat :=
  let k := s.str.sketch
  let c := leField r 1 1
  let t := leField r 2 2
  match leField r 0 1 with
  | 1 => match Tab.get k.streams (c * 4096 + t) none with
    | some x => ([x.sender, x.receiver].filterMap k.panelPart).dedup
    | none => []
  | 2 => (k.panelPart (leField r 8 2)).toList
  | 3 => if (k.part (leField r 2 1)).isSome then [leField r 2 1] else []
  | 4 => match Tab.get k.starts (c * 65536 + t) none with
    | some x => (k.panelPart x.panel).toList
    | none => []
  | 5 => ((k.panelsBelow (c * 4096 + t)).filterMap k.panelPart).dedup
  | _ => []

/-! ### Actions (R317 to R320) -/

/-- The canvas of a BAR0 offset, 255 for the hub (R319, R540). -/
def barCanvas (o : Nat) : Nat :=
  if o ≥ 0x2000000 then (o - 0x2000000) / 0x800000 else if 0x800000 ≤ o ∧ o < 0xC00000 then (o - 0x800000) / 0x100000 else 255

/-- Whether a REG_WRITE may not name an offset (R319): the coats and collectives block, the security and RTP mailbox
block, SKT_CTL. -/
def barForbidden (o n : Nat) : Bool :=
  [(0xC00000, 0x1000000), (0x200000, 0x300000), (0x1000, 0x1004)].any (fun (p : Nat × Nat) => decide (p.1 < o + n) && decide (o < p.2))

/-- An action record (R317 to R319): its CANVAS byte and the action, none where it breaks R319. -/
def State.parseAction (s : State) (b : List Byte) : Option (Nat × CoatAction) :=
  let param := leField b 4 4
  let t := leField b 8 8
  let pay := b.drop 16
  let a : Option (Nat × CoatAction) := match leField b 0 1 with
    | 1 =>
      let wide := decide (param = 1)
      let n := if wide then 8 else 4
      if decide (t < 2 ^ 26) && decide (t % n = 0) && allZero (pay.drop 16) && !barForbidden t n then
        some (barCanvas t, .regWrite t wide (BitVec.ofNat 64 (leField pay 0 8)) (BitVec.ofNat 64 (leField pay 8 8)))
      else none
    | 2 => match targetOf t with
      | .gesso c o =>
        if decide (t % 8 = 0) && allZero (pay.drop 16) && s.lineExists c (o / 2048) then
          some (c, .memWrite t (BitVec.ofNat 64 (leField pay 0 8)) (BitVec.ofNat 64 (leField pay 8 8)))
        else none
      | _ => none
    | 3 => if decide (t < 320) && allZero (pay.drop 8) then
        some (if t < 256 then t / 64 else 255, .dmaLaunch t (leField pay 0 8)) else none
    | 4 => if decide (t < 256) && allZero pay then some (t / 64, .versionFlip t) else none
    | 5 => if decide (t = 0) && decide (leField pay 1 1 < 4) then some (leField pay 1 1, .routePatch (pay.take 32)) else none
    | _ => none
  match a with
  | none => none
  | some x =>
    if allZero ((b.drop 2).take 2) && (match x.2 with | .regWrite _ _ _ _ => decide (param < 2) | _ => decide (param = 0)) &&
        decide (leField b 1 1 = x.1) then some x else none

/-- The partition whose row or finish queue has its TAIL at an offset (R320). -/
def tailPart (o : Nat) : Option Nat :=
  let c := (o - 0x2000000) / 0x800000
  let q := fun (base : Nat) => if base ≤ o % 0x800000 ∧ (o % 0x800000 - base) % 0x40 = 0 ∧ (o % 0x800000 - base) / 0x40 < 64 then
    some (c * 64 + (o % 0x800000 - base) / 0x40) else none
  if o < 0x2000000 then none else match q 0x701018 with | some p => some p | none => q 0x781018

/-- The partitions that an action names. -/
def State.actionParts (s : State) : CoatAction → List Nat
  | .regWrite o _ _ _ => (tailPart o).toList
  | .memWrite _ _ _ => []
  | .dmaLaunch ch _ => match Tab.get s.str.sketch.dma ch none with
    | some d => if d.1 then [d.2.2] else []
    | none => []
  | .versionFlip p => [p]
  | .routePatch r => s.patchParts r

/-- Whether a partition queue's coat may contain an action (R320). -/
def State.actionAllowed (s : State) (owner : Nat) (a : CoatAction) : Bool :=
  let mine := fun (p : Nat) => (s.jobOf owner false).isSome && s.jobOf p false == s.jobOf owner false
  match a with
  | .regWrite o _ _ _ => (match tailPart o with | some p => mine p | none => false)
  | .memWrite d _ _ => s.windowOk owner .w d 8
  | .dmaLaunch ch _ => (match Tab.get s.str.sketch.dma ch none with
    | some d => d.1 && s.jobOf d.2.2 d.2.1 == s.jobOf owner false && (s.jobOf owner false).isSome
    | none => false)
  | .versionFlip p => mine p
  | .routePatch r => !(s.patchParts r).isEmpty && (s.patchParts r).all mine

/-- The lock key of an action (R318). -/
def CoatAction.key : CoatAction → Option LockKey
  | .regWrite o _ _ _ => some ⟨1, o / 8 * 8, 0, 0⟩
  | .memWrite d _ _ => some ⟨2, d / 2048, 0, 0⟩
  | .dmaLaunch _ _ => none
  | .versionFlip p => some ⟨4, p, 0, 0⟩
  | .routePatch r => some ⟨5, leField r 0 1, leField r 1 1, leField r 2 2⟩

/-! ### Submission (R326, R327) -/

/-- A coat queue. -/
def coatQ (n : Nat) : QId := ⟨.coat, n⟩

/-- This device's coordinate. -/
def State.coord (s : State) : Nat := s.rdN SPR_COORD.COORD 0

/-- The agent of the coat engine. -/
def coatAgent (tag : Nat) : Agent := ⟨.coats, tag, none, false⟩

/-- Whether a descriptor is well formed (R326, R327). -/
def State.coatDescOk (s : State) (q : Nat) (b : List Byte) : Bool :=
  let flags := leField b 4 1
  let wide := flags.testBit 3
  let isCoord := flags.testBit 4
  let npart := leField b 28 4
  let list := leField b 16 8
  decide (leField b 0 2 < 1024) && decide (leField b 2 2 < 4096) && decide (flags < 32) && allZero ((b.drop 5).take 3) &&
  allZero (b.drop 43) && (decide (q = 256) || leField b 42 1 == 0) &&
  (if !wide then !isCoord && npart == 0 && leField b 32 8 == 0 && leField b 40 2 == 0
    else if isCoord then decide (2 ≤ npart) && decide (npart ≤ 65536) && leField b 40 2 == 0
    else npart == 0 && leField b 32 8 == 0) &&
  ((wide && !isCoord) || leField b 10 2 == s.coord) &&
  decide (list % 256 = 0) && (match targetOf list with | .gesso c o => s.lineExists c (o / 2048) | _ => false)

/-- The device coordinates of PLIST. -/
def coordsOf (bs : List Byte) : List Nat := (List.range (bs.length / 2)).map (fun i => leField bs (2 * i) 2)

/-- A coat command refused (R327, R334): its queue halts, ABORTED sets, the entry of an id that is not held shows the
code, and the word with outcome REFUSED is posted. -/
def State.coatRefuse (s : State) (q : Nat) (b : List Byte) (code : Code) : State :=
  let id := leField b 0 2 % 1024
  let s1 := (((s.qRefuse (coatQ q) code false 0).set1 COAT_STATUS.ABORTED 0).bump COAT_ABORTS.COUNT 0 1)
  let s2 := if (s.coat id).isSome then s1 else (s1.wrN COAT_ENTRY.STATE id 6).wr COAT_ENTRY_CODE.CODE id (codeVal code)
  s2.when ((leField b 4 1).testBit 1) (·.post (leField b 2 2 % 4096) (coatWord id 3 code))

/-! ### Locks and wound-wait (R335) -/

/-- The open coat that holds a key. -/
def State.lockHolder (s : State) (key : LockKey) : Option (Nat × Coat) := s.openCoats.find? (fun e => e.2.held.contains key)

/-- Whether an older coat than a timestamp waits for a key. -/
def State.olderWaits (s : State) (key : LockKey) (ts : Val) : Bool :=
  s.openCoats.any (fun e => e.2.wanted.contains key && e.2.ts.ult ts)

/-- A key granted to a coat. -/
def State.grantKey (s : State) (id : Nat) (key : LockKey) : State :=
  match s.coat id with
  | some c => s.setCoat id { c with held := c.held ++ [key], wanted := c.wanted.erase key }
  | none => s

/-- A coat's first request of a key: granted, or its younger holder is wounded where it may still abort, or a WOUND
goes to the holder's coordinator, or it only waits. -/
def State.requestKey (s : State) (id : Nat) (key : LockKey) : State :=
  match s.coat id with
  | none => s
  | some c => match s.lockHolder key with
    | none => if s.olderWaits key c.ts then s else s.grantKey id key
    | some h =>
      if !c.ts.ult h.2.ts then s
      else if h.2.unvoted || (h.2.isCoord && h.2.decided.isNone) then
        let s1 := (s.bump COAT_WOUNDS.COUNT 0 1).coatAbort h.1 0x0408
        let s2 := if h.2.wide && !h.2.isCoord then s1.send (.coat .wound h.2.coord h.2.ts 0x0408) else s1
        if s2.olderWaits key c.ts then s2 else s2.grantKey id key
      else if h.2.wide && !h.2.isCoord && h.2.learnt.isNone then s.send (.coat .wound h.2.coord h.2.ts 0x0408)
      else s

/-! ### Prepare (R324, R328, R337) -/

/-- The action slots that are taken in a store (a canvas, or 255 for the hub): those of the coats that have begun to
prepare and have not released. -/
def State.slotsTaken (s : State) (store : Nat) : Nat :=
  ((s.openCoats.filter (fun e => e.2.prepAt.isSome && e.2.ended.isNone)).map (fun e => e.2.actions.countP (fun a => a.1 == store))).sum

/-- Whether a coat has an action on a LOST canvas (R337). -/
def State.coatOnLost (s : State) (c : Coat) : Bool :=
  c.actions.any (fun a => decide (a.1 < 4) && decide (s.island (tetherIsland a.1) = islLost))

/-- A part begins to prepare (R328): the slots, the check of R196 and the requests for its keys. -/
def State.prepareBegin (s : State) (id : Nat) : State :=
  match s.coat id with
  | none => s
  | some c =>
    if s.coatOnLost c then s.coatAbort id 0x0409
    else if [0, 1, 2, 3, 255].any (fun st => decide (s.slotsTaken st + c.actions.countP (fun a => a.1 == st) > 2048)) then
      s.coatAbort id 0x0404
    else if !s.patchCheck c then s.coatAbort id sktPatchInvalid
    else
      let keys := (c.actions.filterMap (fun a => a.2.key)).dedup
      (s.setCoat id { c with stage := .preparing, prepAt := some s.now, wanted := keys }).each keys (fun k t => t.requestKey id k)

/-- COAT_START (R326, R327): a coat queue reads its next descriptor and starts the coat, or refuses it; none starts
during a Sketch load. -/
def execCoatStart (queue : Nat) (s : State) : Res :=
  .next (if !decide (queue < 257) || decide (s.str.loader.phase ≠ .idle) then s else
  match s.qNext (coatQ queue) with
  | .idle t => t
  | .failed t => t
  | .cmd b t =>
    let flags := leField b 4 1
    let nact := leField b 24 4
    let wide := flags.testBit 3
    let isCoord := flags.testBit 4
    let id := leField b 0 2
    let ts := BitVec.ofNat 64 (leField b 8 8)
    if !t.qMayStart (coatQ queue) (flags.testBit 0) (t.openCoats.countP (fun e => e.2.queue == queue)) 15 then s
    else if !t.coatDescOk queue b then t.coatRefuse queue b 0x0401
    else if (t.coat id).isSome then t.coatRefuse queue b 0x0402
    else if t.openCoats.any (fun e => e.2.ts == ts) then t.coatRefuse queue b 0x0403
    else if nact = 0 ∨ nact > 1024 then t.coatRefuse queue b 0x0404
    else match t.readRange (coatAgent (0x70000 + queue)) (leField b 16 8) (48 * nact) with
      | .wait u => u
      | .done e bytes u =>
        if e ≠ 0 then u.coatRefuse queue b e
        else
          let recs := pieces 48 bytes
          if canvases.any (fun c => decide (recs.countP (fun r => leField r 1 1 == c) > 256)) then u.coatRefuse queue b 0x0404
          else
            let acts := recs.filterMap u.parseAction
            let owner := if queue < 256 then queue else leField b 42 1
            if acts.length ≠ nact then u.coatRefuse queue b 0x0405
            else if decide (queue < 256) && !acts.all (fun a => u.actionAllowed owner a.2) then u.coatRefuse queue b 0x0406
            else
              let open_ := fun (v : State) (devices : List Nat) =>
                let c : Coat := {
                  ts := ts, queue := queue, seq := (v.ring (coatQ queue)).read, mbx := leField b 2 2, notify := flags.testBit 1,
                  irq := flags.testBit 2, wide := wide, isCoord := isCoord, owner := owner, coord := leField b 40 2,
                  devices := devices, actions := acts, stage := .staged, votes := [], decided := none, code := 0,
                  start := v.now, prepAt := none, votedAt := none, learnt := none, queried := none, ended := none, acks := [],
                  held := [], wanted := [], descs := [], conds := [], named := (acts.flatMap (fun a => v.actionParts a.2)).dedup }
                let w := (((v.qTake (coatQ queue)).setCoat id c).wrN COAT_ENTRY_CODE.CODE id 0).qBusy (coatQ queue) true
                if !wide then w.prepareBegin id
                else if isCoord then (w.each devices (fun d x => x.send (.coat .prepare d ts 0))).prepareBegin id
                else if w.coats.held.any (fun h => h.1 == ts && h.2.1 == c.coord) then
                  ({ w with coats := { w.coats with held := w.coats.held.filter (fun h => !(h.1 == ts && h.2.1 == c.coord)) } }).prepareBegin id
                else w
              if wide && isCoord then
                match u.readRange (coatAgent (0x71000 + queue)) (leField b 32 8) (2 * (leField b 28 4 - 1)) with
                | .wait v => v
                | .done e2 ps v => if e2 ≠ 0 then v.coatRefuse queue b e2 else open_ v (coordsOf ps)
              else open_ u [])

/-- The open coat of a timestamp. -/
def State.coatOf (s : State) (ts : Val) : Option (Nat × Coat) := s.openCoats.find? (fun e => e.2.ts == ts)

/-- PREPARE (R328, R336): a participant's part begins to prepare, or the token is held for it. -/
def execPrepare (coord : Nat) (ts : Val) (s : State) : Res :=
  .next (match s.coatOf ts with
    | some (id, c) => if c.wide && !c.isCoord && decide (c.stage = .staged) && c.coord == coord then s.prepareBegin id else s
    | none =>
      if s.coats.held.any (fun h => h.1 == ts && h.2.1 == coord) then s
      else { s with coats := { s.coats with held := s.coats.held ++ [(ts, coord, s.now)] } })

/-- PREPARE_DISCARD (R336). -/
def execPrepareDiscard (ts : Val) (s : State) : Res :=
  .next { s with coats := { s.coats with held := s.coats.held.filter (fun h => !(h.1 == ts && decide (h.2.2 + 10000000 ≤ s.now))) } }

/-- LOCK_GRANT (R335): a waiting coat takes the keys that are free, where no older coat waits for them. -/
def execLockGrant (id : Nat) (s : State) : Res :=
  .next (match s.coat id with
    | none => s
    | some c => s.each c.wanted (fun k t =>
        if (t.lockHolder k).isSome || t.olderWaits k c.ts then t else t.grantKey id k))

/-- The keys of the streams that a STREAM patch names, with what R197 asks of them. -/
def State.streamQuiet (s : State) (c id : Nat) : Bool :=
  let k := s.recvKey c id
  let sk := s.sendKey k
  let st := s.stream k
  s.rdN CNV_STM_STREAM.STATE (c * 4096 + id) == 1 && s.rd CNV_STM_STREAM.CREDITS sk == s.rd CNV_STM_STREAM.LAND sk &&
    st.landed.isEmpty && st.flying.isEmpty && st.returns == 0 &&
    !s.pnl.flights.any (fun (e : Nat × Option Flight) => match e.2 with
      | some f => !f.done && (match decodeStroke false f.word with
        | .ok (.mov m) => (m.op == 2 && f.panel / 256 == k / 4096 && m.stream == k % 4096) ||
            (m.op == 1 && f.panel / 256 == sk / 4096 && m.stream == sk % 4096)
        | _ => false)
      | none => false)

/-- The outcome of one action's preparation: it waits, it is ready, or the part aborts. -/
inductive Prep where
  | wait (s : State)
  | ready (s : State)
  | fail (code : Code) (s : State)
deriving DecidableEq, Repr

/-- One action of a part prepared (R328): its descriptor read and its slot reserved, its line brought in and held, or
its condition met. -/
def State.prepareAction (s : State) (id : Nat) (c : Coat) (i : Nat) (a : CoatAction) : Prep :=
  match a with
  | .regWrite _ _ _ _ => .ready s
  | .memWrite d _ _ =>
    if c.lines.contains (keyOf d) then .ready s
    else if s.lineHeld (keyOf d) then .wait s
    else match s.readRange (coatAgent (0x80000 + id)) d 8 with
      | .wait t => .wait t
      | .done _ _ t => if (t.line (keyOf d)).isSome then .ready (t.hold (keyOf d)) else .wait t
  | .dmaLaunch ch d =>
    let e := s.postCheck ch c.owner
    if e ≠ 0 then .fail e s
    else match s.readRange (coatAgent (0x90000 + 1024 * id + i)) d 64 with
      | .wait t => .wait t
      | .done e2 bs t =>
        if e2 ≠ 0 then .fail e2 t
        else match t.coat id with
          | some x => .ready (t.setCoat id { x with descs := x.descs ++ [(i, bs)] })
          | none => .wait t
  | .versionFlip p => if s.fin.tasks.any (fun (e : Nat × List FinTask) => e.2.any (fun t => t.part == p)) then .wait s else .ready s
  | .routePatch r =>
    if leField r 0 1 = 2 then
      let p := leField r 8 2
      let h := leField r 2 2
      if s.token p h == 0 || (s.token p h == 2 && s.readers p h == 0) then .ready s else .wait s
    else if leField r 0 1 = 1 then (if s.streamQuiet (leField r 1 1) (leField r 2 2) then .ready s else .wait s)
    else .ready s

/-- One action taken up, unless its target is held already. -/
def State.prepareStep (s : State) (id i : Nat) : State :=
  match s.coat id with
  | none => s
  | some c =>
    if c.conds.contains i then s
    else match c.actions[i]? with
      | none => s
      | some a => match s.prepareAction id c i a.2 with
        | .wait t => t
        | .fail e t => t.coatAbort id e
        | .ready t => match t.coat id with
          | some x => t.setCoat id { x with conds := x.conds ++ [i] }
          | none => t

/-- A decision to commit that a device has learnt: the apply is due 2 µs later (R332). -/
def State.learn (s : State) (id : Nat) (c : Coat) : State :=
  s.setCoat id { c with stage := .committed, decided := some 0, learnt := some s.now }

/-- A coordinator with every YES decides COMMIT (R331). -/
def State.coatTally (s : State) (id : Nat) : State :=
  match s.coat id with
  | none => s
  | some c =>
    if c.isCoord && c.decided.isNone && (c.devices ++ [s.coord]).all c.votes.contains then
      (s.each c.devices (fun d t => t.send (.coat .commit d c.ts 0))).learn id { c with acks := c.devices }
    else s

/-- COAT_PREPARED (R328 to R331): the canvases and the hub go on preparing; once every action is held the device has
prepared and votes YES. -/
def execCoatPrepared (id : Nat) (s : State) : Res :=
  .next (match s.coat id with
    | none => s
    | some c0 =>
      if c0.stage ≠ .preparing ∨ !c0.wanted.isEmpty then s
      else
        let t := s.each (List.range c0.actions.length) (fun i u => u.prepareStep id i)
        match t.coat id with
        | none => t
        | some c =>
          if c.stage ≠ .preparing ∨ c.conds.length < c.actions.length then t
          else
            let v := { c with stage := .prepared, votedAt := some t.now, votes := if c.isCoord then [t.coord] else [] }
            if !c.wide then t.learn id v
            else if c.isCoord then (t.setCoat id v).coatTally id
            else (t.send (.coat (.vote true) c.coord c.ts 0)).setCoat id v)

/-! ### Tokens (R331 to R333, R335, R338) -/

/-- VOTE (R331): a YES is counted; a NO makes an undecided coordinator decide ABORT with its code. -/
def execVote (device : Nat) (ts : Val) (code : Code) (s : State) : Res :=
  .next (match s.coatOf ts with
    | none => s
    | some (id, c) =>
      if !c.isCoord || c.decided.isSome || !c.devices.contains device then s
      else if code ≠ 0 then s.coatAbort id code
      else (s.setCoat id { c with votes := if c.votes.contains device then c.votes else c.votes ++ [device] }).coatTally id)

/-- A participant's part that has voted and knows no decision. -/
def Coat.awaits (c : Coat) (device : Nat) : Bool :=
  c.wide && !c.isCoord && c.coord == device && c.votedAt.isSome && c.learnt.isNone && c.ended.isNone

/-- COMMIT (R332): a participant learns the decision. -/
def execCommit (device : Nat) (ts : Val) (s : State) : Res :=
  .next (match s.coatOf ts with
    | none => s
    | some (id, c) => if c.awaits device then s.learn id c else s)

/-- A participant's part released after an ABORT, with its ACK. -/
def State.participantAbort (s : State) (id : Nat) (c : Coat) (code : Code) : State :=
  ((s.coatRelease id c).send (.coat .ack c.coord c.ts code)).coatFinish id c false code

/-- ABORT (R333): a participant releases its part and acknowledges. -/
def execAbort (device : Nat) (ts : Val) (code : Code) (s : State) : Res :=
  .next (match s.coatOf ts with
    | none => s
    | some (id, c) =>
      if c.wide && !c.isCoord && c.coord == device && c.learnt.isNone && c.ended.isNone then s.participantAbort id c code else s)

/-- A coordinator's coat that has applied or released and holds every ACK completes (R333). -/
def State.coatClose (s : State) (id : Nat) : State :=
  match s.coat id with
  | none => s
  | some c => if c.isCoord && c.ended.isSome && c.acks.isEmpty then s.coatFinish id c (c.learnt.isSome) c.code else s

/-- ACK (R333). -/
def execAck (device : Nat) (ts : Val) (s : State) : Res :=
  .next (match s.coatOf ts with
    | none => s
    | some (id, c) =>
      if c.isCoord && c.decided.isSome then (s.setCoat id { c with acks := c.acks.filter (fun d => d != device) }).coatClose id else s)

/-- When a coordinator decided: at the learning of its commit, or at the end of its part. -/
def Coat.decidedAt (c : Coat) : Nat := match c.learnt with | some t => t | none => c.ended.getD 0

/-- ACK_WAIT_EXPIRY (R333): 10 ms after the decision a coordinator that has applied or released completes. -/
def execAckWaitExpiry (id : Nat) (s : State) : Res :=
  .next (match s.coat id with
    | none => s
    | some c =>
      if c.isCoord && c.decided.isSome && c.ended.isSome && !c.acks.isEmpty && decide (c.decidedAt + 10000000 ≤ s.now) then
        ((s.set1 COAT_STATUS.ACK_MISSING 0).setCoat id { c with acks := [] }).coatClose id
      else s)

/-- WOUND (R335): an undecided coordinator decides ABORT with COAT_WOUNDED. -/
def execWound (ts : Val) (s : State) : Res :=
  .next (match s.coatOf ts with
    | none => s
    | some (id, c) => if c.isCoord && c.decided.isNone then (s.bump COAT_WOUNDS.COUNT 0 1).coatAbort id 0x0408 else s)

/-- What a coordinator answers to a QUERY (R338): from its open coats, else from the entries that completed coats have
left; RESTARTED where it holds no record. -/
def State.outcomeOf (s : State) (ts : Val) : Nat :=
  match s.coatOf ts with
  | some (_, c) => match c.decided with | none => 0 | some e => if e = 0 then 1 else 2
  | none =>
    match (s.listed COAT_TS.TS).find? (fun e => e.2 == ts && s.rdN COAT_ENTRY.ROLE e.1 == 1) with
    | some e => if s.rdN COAT_ENTRY.STATE e.1 = 5 then 1 else 2
    | none => 3

/-- QUERY (R338). -/
def execQuery (device : Nat) (ts : Val) (s : State) : Res :=
  let o := s.outcomeOf ts
  .next (s.send (.coat (.outcome o) device ts (if o = 2 then
    (match s.coatOf ts with
      | some (_, c) => c.code
      | none => match (s.listed COAT_TS.TS).find? (fun e => e.2 == ts) with
        | some e => BitVec.setWidth 16 (s.rd COAT_ENTRY_CODE.CODE e.1)
        | none => 0) else 0)))

/-- A part in doubt (R338). -/
def State.inDoubt (s : State) (id : Nat) (c : Coat) : State := (s.setCoat id { c with stage := .inDoubt }).set1 COAT_STATUS.IN_DOUBT 0

/-- OUTCOME (R338): 1 COMMIT, 2 ABORT, 3 RESTARTED; an undecided coordinator leaves the part waiting. -/
def execOutcome (ts : Val) (answer : Nat) (code : Code) (s : State) : Res :=
  .next (match s.coatOf ts with
    | none => s
    | some (id, c) =>
      if !c.awaits c.coord then s
      else match answer with
        | 0 => if c.stage = .inDoubt then s else s.setCoat id { c with queried := some (s.now, s.now) }
        | 1 => s.learn id c
        | 2 => s.participantAbort id c code
        | _ => if c.stage = .inDoubt then s else s.inDoubt id c)

/-- QUERY_TIMER (R338): 10 ms after its vote a part sends QUERY every 1 ms, and is in doubt 10 ms after the first. -/
def execQueryTimer (id : Nat) (s : State) : Res :=
  .next (match s.coat id with
    | none => s
    | some c =>
      if !c.awaits c.coord || decide (c.stage = .inDoubt) then s
      else match c.queried with
        | none =>
          if (c.votedAt.getD 0) + 10000000 ≤ s.now then
            (s.send (.coat .query c.coord c.ts 0)).setCoat id { c with queried := some (s.now, s.now) }
          else s
        | some (first, last) =>
          if first + 10000000 ≤ s.now then s.inDoubt id c
          else if last + 1000000 ≤ s.now then
            (s.send (.coat .query c.coord c.ts 0)).setCoat id { c with queried := some (first, s.now) }
          else s)

/-- Whether a part has timed out (R336). -/
def Coat.expired (c : Coat) (now : Nat) : Bool :=
  let past := fun (t : Nat) => decide (t + 10000000 ≤ now)
  c.decided.isNone && c.ended.isNone &&
    (if !c.wide then past c.start
      else if c.isCoord then (match c.prepAt with | some t => past t | none => false)
      else c.votedAt.isNone && (match c.prepAt with | some t => past t | none => past c.start))

/-- COAT_TIMEOUT (R336). -/
def execCoatTimeout (id : Nat) (s : State) : Res :=
  .next (match s.coat id with
    | none => s
    | some c => if c.expired s.now then s.coatAbort id 0x0407 else s)

/-! ### Software's commands (R339, R341) -/

/-- COAT_CMD refused. -/
def State.coatCmdRefused (s : State) : State := s.set1 COAT_STATUS.CMD_REFUSED 0

/-- A write of COAT_CMD (R9, R341): an operation on an id. -/
def State.coatCmd (s : State) (op id : Nat) (go : Coat → State → Option State) : State :=
  if s.island 141 ≠ islActive then s
  else s.woRun COAT_CMD.OP 0 (BitVec.ofNat 64 (op * 65536 + id % 1024)) false (fun t =>
    match t.coat (id % 1024) with
    | none => t.coatCmdRefused
    | some c => match go c t with | some u => u | none => t.coatCmdRefused)

/-- COAT_CMD_ABORT (R341): a part that has not voted, or a coordinator's that is not decided. -/
def execCoatCmdAbort (id : Nat) (s : State) : Res :=
  .next (s.coatCmd 1 id (fun c t =>
    if c.unvoted || (c.isCoord && c.decided.isNone) then some (t.coatAbort (id % 1024) 0x040A) else none))

/-- RESOLVE_COMMIT (R339): a part in doubt takes the decision COMMIT. -/
def execResolveCommit (id : Nat) (s : State) : Res :=
  .next (s.coatCmd 2 id (fun c t => if c.stage = .inDoubt then some (t.learn (id % 1024) c) else none))

/-- RESOLVE_ABORT (R339): a part in doubt is released; the code of such an abort is left open. -/
def execResolveAbort (id : Nat) (s : State) : Res :=
  .next (s.coatCmd 3 id (fun c t =>
    if c.stage = .inDoubt then let d := t.draw; some (d.2.participantAbort (id % 1024) c (BitVec.setWidth 16 d.1)) else none))

/-- The loss of a canvas aborts the parts that have an action on it and have not voted (R337). -/
def State.coatCanvasLost (s : State) (c : Nat) : State :=
  s.each s.openCoats (fun e t => if e.2.unvoted && e.2.actions.any (fun a => a.1 == c) then t.coatAbort e.1 0x0409 else t)

/-! ### Queue registers -/

/-- COAT_Q_TAIL (R269, R270). -/
def execCoatQTail (port : Port) (queue : Nat) (tail : Word32) (s : State) : Res :=
  .next (s.qWrite port (coatQ queue) (·.qSetTail (coatQ queue) (BitVec.setWidth 64 tail)))

/-- COAT_Q_RESUME (R273). -/
def execCoatQResume (port : Port) (queue : Nat) (s : State) : Res := .next (s.qWrite port (coatQ queue) (·.qResume (coatQ queue)))

/-- COAT_Q_ENABLE (R274). -/
def execCoatQEnable (port : Port) (queue : Nat) (enable : Bool) (s : State) : Res :=
  .next (s.qWrite port (coatQ queue) (·.qEnable (coatQ queue) enable))

end Sys2Proof.Machine
end

