-- ==== Sys2Proof/Machine/Links.lean ====
section
/-! DEFINITION. One end of a tether or spar link: sequence numbers, replay and credits, which the two kinds of link
share (R376 to R380, R404 to R406). -/

namespace Sys2Proof.Machine

/-- An end of a link: tether canvas × 2 + the direction in which it sends, spar 16 + port. -/
def State.linkEnd (s : State) (k : Nat) : LinkEnd := Tab.get s.links.ends k LinkEnd.idle

/-- An end of a link at a content. -/
def State.setEnd (s : State) (k : Nat) (e : LinkEnd) : State := { s with links := { s.links with ends := Tab.set s.links.ends k e LinkEnd.idle } }

/-- The ACK that an end puts into its flits: the SEQ of the last DATA flit accepted in order. -/
def LinkEnd.ackField (e : LinkEnd) : Nat := (e.expect + 4095) % 4096

/-- An acknowledgement taken by a sender: the flits up to the one it names leave the replay buffer. -/
def LinkEnd.takeAck (e : LinkEnd) (a now : Nat) : LinkEnd :=
  if e.held.any (fun f => f.seq == a) then
    { e with held := (e.held.dropWhile (fun f => f.seq != a)).drop 1, ackAt := now }
  else e

/-- A credit total taken by a sender: the credits newly returned (R376). -/
def LinkEnd.takeCredit (e : LinkEnd) (vc total now : Nat) : Nat × LinkEnd :=
  let n := (total + 1024 - Tab.get e.seen vc 0) % 1024
  (n, { e with seen := Tab.set e.seen vc total 0, lastCredit := if n = 0 then e.lastCredit else Tab.set e.lastCredit vc now 0 })

/-- How an arriving SEQ stands to the one expected (R379). -/
inductive SeqPlace where
  | inOrder | already | ahead
deriving DecidableEq, Repr

/-- The place of a SEQ: among the 2,048 before the expected one it has been accepted already. -/
def LinkEnd.place (e : LinkEnd) (seq : Nat) : SeqPlace :=
  if seq = e.expect then .inOrder else if (e.expect + 4096 - seq) % 4096 ≤ 2048 then .already else .ahead

/-- A DATA flit accepted into the buffer of its VC. -/
def LinkEnd.accept (e : LinkEnd) (vc now : Nat) : LinkEnd :=
  { e with expect := (e.expect + 1) % 4096, naking := false, buffer := e.buffer ++ [vc], lastData := Tab.set e.lastData vc now 0 }

/-- The buffer slots that a receiver frees: every one but those of REQ flits while its own side has no RSP credit
(R378, R405). -/
def LinkEnd.drain (e : LinkEnd) (isReq : Nat → Bool) (rspCredit : Bool) : LinkEnd :=
  let go := e.buffer.filter (fun v => !isReq v || rspCredit)
  { e with buffer := e.buffer.filter (fun v => isReq v && !rspCredit),
           freed := go.foldl (fun m v => Tab.set m v ((Tab.get m v 0 + 1) % 1024) 0) e.freed }

/-- A new DATA flit taken into the replay buffer under the next SEQ. -/
def LinkEnd.push (e : LinkEnd) (l : LinkLoad) (now : Nat) : LinkEnd :=
  { e with next := (e.next + 1) % 4096, held := e.held ++ [⟨e.next, l.vc, l.start, l.payload, 0⟩],
           ackAt := if e.held.isEmpty then now else e.ackAt, lastData := Tab.set e.lastData l.vc now 0 }

/-- Whether a resend would be the ninth in a row of some held flit (R381, R406). -/
def LinkEnd.exhausted (e : LinkEnd) : Bool := e.held.any (fun f => decide (f.resent ≥ 8))

/-- Every held flit counted as resent once more. -/
def LinkEnd.resend (e : LinkEnd) (now : Nat) : LinkEnd :=
  { e with held := e.held.map (fun f => { f with resent := f.resent + 1 }), ackAt := now }

/-- After a retrain the counts in a row begin anew, and a stalled VC counts its time from here (R528). -/
def LinkEnd.fresh (e : LinkEnd) (now : Nat) : LinkEnd :=
  { e with held := e.held.map (fun f => { f with resent := 0 }), ackAt := now, naking := false, aligned := true, run := 0,
           stalled := e.stalled.map (fun x => (x.1, x.2.map (fun _ => now))) }

/-- The number of ones among the low n bits. -/
def onesBelow (n v : Nat) : Nat := ((List.range n).filter (fun i => v.testBit i)).length

end Sys2Proof.Machine
end

