-- ==== Sys2Proof/Machine/Recipes.lean ====
section
/-! DEFINITION. What the finish units compute (chapter 09): the recipes as functions of the values they read, the
signature, and the shard boxes of export records. -/

namespace Sys2Proof.Machine

/-! ### Operations on FP32 words; each rounds once with RNE and collects its events (R302, R618) -/

/-- A computation that collects events. -/
abbrev Fp (α : Type) := StateM Events α

/-- One rounding of an exact value into FP32. -/
def fpRound (nanIn : Bool) (x : Num) : Fp Nat := fun e =>
  let r := fp32Round nanIn x
  (r.1, Events.add e r.2)

/-- a + b. -/
def fpAdd (a b : Nat) : Fp Nat := fpRound ((fp32Val a).isNan || (fp32Val b).isNan) (Num.sum [fp32Val a, fp32Val b])

/-- a − b. -/
def fpSub (a b : Nat) : Fp Nat := fpRound ((fp32Val a).isNan || (fp32Val b).isNan) (Num.sum [fp32Val a, (fp32Val b).negate])

/-- a × b. -/
def fpMul (a b : Nat) : Fp Nat := fpRound ((fp32Val a).isNan || (fp32Val b).isNan) ((fp32Val a).mul (fp32Val b))

/-- a × b + c, rounded once. -/
def fpFma (a b c : Nat) : Fp Nat :=
  fpRound ((fp32Val a).isNan || (fp32Val b).isNan || (fp32Val c).isNan) (Num.sum [(fp32Val a).mul (fp32Val b), fp32Val c])

/-- −a × b + c, rounded once. -/
def fpFnma (a b c : Nat) : Fp Nat :=
  fpRound ((fp32Val a).isNan || (fp32Val b).isNan || (fp32Val c).isNan)
    (Num.sum [((fp32Val a).negate).mul (fp32Val b), fp32Val c])

/-- The square root (R289). -/
def fpSqrt (a : Nat) : Fp Nat := fpRound (fp32Val a).isNan (fp32Val a).sqrt

/-- a / b (R289). -/
def fpDiv (a b : Nat) : Fp Nat := fpRound ((fp32Val a).isNan || (fp32Val b).isNan) ((fp32Val a).div (fp32Val b))

/-- The reciprocal of the vector unit (R113). -/
def fpRcp (a : Nat) : Fp Nat := fun e =>
  let r := specialFp32 10 (fp32Val a)
  (r.1, Events.add e r.2)

/-- The sign: +1, −1, a zero gives +0 and a NaN gives NaN. -/
def fpSign (a : Nat) : Nat :=
  match fp32Val a with
  | .nan => FloatFmt.fp32.nanCode
  | .inf n => if n then 0xBF800000 else 0x3F800000
  | .fin n m _ => if m = 0 then 0 else if n then 0xBF800000 else 0x3F800000

/-- The fixed sum FSUM of R289 over squares, each square rounded first. -/
def fpSumSq (xs : List Nat) : Fp Nat := do
  let ss ← xs.mapM (fun x => fpMul x x)
  fun e =>
    let r := rowSum 128 false (ss.map fp32Val)
    (r.1, Events.add e r.2)

/-- A matrix of FP32 words, row by row. -/
abbrev Mat := List (List Nat)

/-- The rows of a row-major list. -/
def matOf (cols : Nat) (xs : List Nat) : Mat := pieces cols xs

/-- The transpose of a matrix with the given number of columns. -/
def matTranspose (cols : Nat) (x : Mat) : Mat := (List.range cols).map (fun j => x.map (fun r => r.getD j 0))

/-- The matrix product of R288: y has the given number of columns. -/
def matMul (x y : Mat) (cols : Nat) : Fp Mat :=
  let yt := matTranspose cols y
  x.mapM (fun r => yt.mapM (fun c => fun e =>
    let t := dotFp32 false ((r.zip c).map (fun p => (fp32Val p.1, fp32Val p.2)))
    (t.1, Events.add e t.2)))

/-- An operation on the elements of two matrices of one shape. -/
def matZip (f : Nat → Nat → Fp Nat) (x y : Mat) : Fp Mat :=
  (x.zip y).mapM (fun p => (p.1.zip p.2).mapM (fun q => f q.1 q.2))

/-- An operation on the elements of a matrix. -/
def matMap (f : Nat → Fp Nat) (x : Mat) : Fp Mat := x.mapM (fun r => r.mapM f)

/-- The identity matrix. -/
def matOne (n : Nat) : Mat := (List.range n).map (fun i => (List.range n).map (fun j => if i = j then 0x3F800000 else 0))

/-- Repeat a step. -/
def fpRepeat {α : Type} (f : α → Fp α) : Nat → α → Fp α
  | 0, x => pure x
  | n + 1, x => do
    let y ← f x
    fpRepeat f n y

/-! ### The recipes -/

/-- What a recipe reads: hyperparameter words, gradient, and the current versions of W, M1 and M2, as FP32 words. -/
structure RecipeIn where
  rows : Nat
  cols : Nat
  step : Nat
  hp   : List Nat
  g    : List Nat
  w    : List Nat
  m1   : List Nat
  m2   : List Nat
  iters : Nat
  roots : Bool
deriving DecidableEq, Repr

/-- What a recipe writes to the next versions of W, M1 and M2. -/
structure RecipeOut where
  w  : List Nat
  m1 : List Nat
  m2 : List Nat
deriving DecidableEq, Repr

/-- Word i of the hyperparameter block (R303). -/
def RecipeIn.p (r : RecipeIn) (i : Nat) : Nat := r.hp.getD i 0

/-- The word that holds GSCALE. -/
def gscaleWord : Nat → Nat
  | 1 => 8 | 2 => 6 | 3 => 1 | _ => 5

/-- One element of FIN_ADAMW. -/
def adamwElem (r : RecipeIn) (g w mc vc : Nat) : Fp (Nat × Nat × Nat) := do
  let t1 ← fpMul (r.p 1) g
  let m ← fpFma (r.p 0) mc t1
  let gg ← fpMul g g
  let t2 ← fpMul (r.p 3) gg
  let v ← fpFma (r.p 2) vc t2
  let t3 ← fpMul v (r.p 6)
  let q ← fpSqrt t3
  let d ← fpAdd q (r.p 4)
  let u ← fpDiv m d
  let w1 ← fpFnma (r.p 7) w w
  let t4 ← fpMul (r.p 5) u
  let w2 ← fpSub w1 t4
  pure (w2, m, v)

/-- FIN_ADAMW. -/
def adamw (r : RecipeIn) : Fp RecipeOut := do
  let xs ← ((r.g.zip r.w).zip (r.m1.zip r.m2)).mapM (fun p => adamwElem r p.1.1 p.1.2 p.2.1 p.2.2)
  pure ⟨xs.map (·.1), xs.map (·.2.1), xs.map (·.2.2)⟩

/-- One element of FIN_SIGNMOM. -/
def signmomElem (r : RecipeIn) (g w mc : Nat) : Fp (Nat × Nat) := do
  let t1 ← fpMul (r.p 1) g
  let c ← fpFma (r.p 0) mc t1
  let w1 ← fpFnma (r.p 5) w w
  let t2 ← fpMul (r.p 4) (fpSign c)
  let w2 ← fpSub w1 t2
  let t3 ← fpMul (r.p 3) g
  let m ← fpFma (r.p 2) mc t3
  pure (w2, m)

/-- FIN_SIGNMOM. -/
def signmom (r : RecipeIn) : Fp RecipeOut := do
  let xs ← (r.g.zip (r.w.zip r.m1)).mapM (fun p => signmomElem r p.1 p.2.1 p.2.2)
  pure ⟨xs.map (·.1), xs.map (·.2), []⟩

/-- The new master weights from an update direction: decoupled decay, then LR times the direction. -/
def decayed (lr lrwd : Nat) (ws us : List Nat) : Fp (List Nat) :=
  (ws.zip us).mapM (fun p => do
    let w1 ← fpFnma lrwd p.1 p.1
    let t ← fpMul lr p.2
    fpSub w1 t)

/-- One Newton–Schulz step of FIN_ORTHO on an r × c matrix. -/
def orthoStep (a b c3 : Nat) (r c : Nat) (x : Mat) : Fp Mat := do
  let m ← matMul x (matTranspose c x) r
  let m2 ← matMul m m r
  let mb ← matMap (fpMul b) m
  let q ← matZip (fun y z => fpFma c3 y z) m2 mb
  let qx ← matMul q x c
  matZip (fun y z => fpFma a y z) x qx

/-- FIN_ORTHO; with NS_A, NS_B and NS_C all +0 the defaults apply. -/
def ortho (r : RecipeIn) : Fp RecipeOut := do
  let ms ← (r.g.zip r.m1).mapM (fun p => fpFma (r.p 0) p.2 p.1)
  let lo := min r.rows r.cols
  let hi := max r.rows r.cols
  let flip := decide (r.rows > r.cols)
  let x0 := if flip then matTranspose r.cols (matOf r.cols ms) else matOf r.cols ms
  let ss ← fpSumSq x0.flatten
  let q ← fpSqrt ss
  let d ← fpAdd q (r.p 4)
  let k ← fpRcp d
  let x1 ← matMap (fun v => fpMul v k) x0
  let dflt := decide (r.p 5 = 0) && decide (r.p 6 = 0) && decide (r.p 7 = 0)
  let x2 ← fpRepeat (orthoStep (if dflt then 0x40500000 else r.p 5) (if dflt then 0xC0880000 else r.p 6)
    (if dflt then 0x3FF80000 else r.p 7) lo hi) r.iters x1
  let us := if flip then (matTranspose hi x2).flatten else x2.flatten
  let w ← decayed (r.p 2) (r.p 3) r.w us
  pure ⟨w, ms, []⟩

/-- invroot4 of FIN_KRON on an n × n matrix. -/
def invroot4 (eps iters n : Nat) (a : Mat) : Fp Mat := do
  let a1 ← (a.zip (List.range n)).mapM (fun p => (p.1.zip (List.range n)).mapM (fun q =>
    if p.2 = q.2 then fpAdd q.1 eps else pure q.1))
  let ss ← fpSumSq a1.flatten
  let c ← fpSqrt ss
  if (fp32Val c).isZero then pure (matOne n)
  else do
    let r1 ← fpSqrt c
    let r2 ← fpSqrt r1
    let x0 ← fpRcp r2
    let x ← matMap (fun i => fpMul x0 i) (matOne n)
    let rc ← fpRcp c
    let mt ← matMap (fun v => fpMul v rc) a1
    let five := (matOne n).map (fun r => r.map (fun v => if v = 0 then 0 else 0x40A00000))
    let y ← fpRepeat (fun (p : Mat × Mat) => do
      let d ← matZip fpSub five p.2
      let t ← matMap (fun v => fpMul v 0x3E800000) d
      let x' ← matMul p.1 t n
      let t2 ← matMul t t n
      let t4 ← matMul t2 t2 n
      let m' ← matMul t4 p.2 n
      pure (x', m')) iters (x, mt)
    pure y.1

/-- FIN_KRON: M2 holds L, R, PL and PR one after the other. -/
def kron (r : RecipeIn) : Fp RecipeOut := do
  let a := r.rows * r.rows
  let b := r.cols * r.cols
  let lc := matOf r.rows (r.m2.take a)
  let rc := matOf r.cols ((r.m2.drop a).take b)
  let plc := matOf r.rows ((r.m2.drop (a + b)).take a)
  let prc := matOf r.cols ((r.m2.drop (2 * a + b)).take b)
  let gm := matOf r.cols r.g
  let gt := matTranspose r.cols gm
  let upd := fun (old prod : Mat) => matZip (fun o p => do
    let t ← fpMul (r.p 1) p
    fpFma (r.p 0) o t) old prod
  let ll ← matMul gm gt r.rows
  let l ← upd lc ll
  let rr ← matMul gt gm r.cols
  let rn ← upd rc rr
  let pl ← if r.roots then invroot4 (r.p 2) r.iters r.rows l else pure plc
  let pr ← if r.roots then invroot4 (r.p 2) r.iters r.cols rn else pure prc
  let t ← matMul pl gm r.cols
  let u ← matMul t pr r.cols
  let w ← decayed (r.p 3) (r.p 4) r.w u.flatten
  pure ⟨w, [], l.flatten ++ rn.flatten ++ pl.flatten ++ pr.flatten⟩

/-- The computation of recipes 1 to 4. -/
def recipe (n : Nat) (r : RecipeIn) : Fp RecipeOut :=
  match n with
  | 1 => adamw r
  | 2 => signmom r
  | 3 => ortho r
  | _ => kron r

/-- The gradient elements: cvt32, then times GSCALE. -/
def gradient (gscale : Nat) (gs : List (Num × Events × Bool)) : Fp (List Nat) :=
  gs.mapM (fun x => do
    let f ← (fun e =>
      let r := fp32Round x.2.2 x.1
      (r.1, Events.add e (Events.add x.2.1 r.2)) : Fp Nat)
    fpMul f gscale)

/-! ### The working copy (R302) -/

/-- Element codes packed as R60 and R242 lay them out, without padding after the last byte or container sector. -/
def packElems (f : Format) (vs : List Nat) : List Byte :=
  match f with
  | .exact96 => (pieces 21 vs).flatMap (fun xs =>
      let bs := xs.flatMap (fun v => leBytes 12 v)
      bs ++ List.replicate (256 - bs.length) 0)
  | g => (pieces 8 vs).flatMap (fun xs =>
      leBytes ((xs.length * g.bits + 7) / 8) (xs.foldr (fun v a => v % 2 ^ g.bits + 2 ^ g.bits * a) 0))

/-- The working copy of the new master weights: its element bytes and its scale bytes. -/
def workingCopy (f : Format) (sr : Bool) (seed tensor step : Nat) (ws : List Nat) : Fp (List Byte × List Byte) := fun e =>
  let mode := fun (i : Nat) => if sr then RMode.sr (srWord seed i tensor step) else .rne
  let xs := (List.range ws.length).zip (ws.map fp32Val)
  if f.isMx then
    let bs := (pieces 32 xs).map (fun b => convertMx f (b.map (fun p => mode p.1)) (b.map Prod.snd))
    ((packElems f (bs.flatMap (fun b => b.2.1)), bs.map (fun b => BitVec.ofNat 8 b.1)),
      bs.foldl (fun a b => Events.add a b.2.2) e)
  else
    let bs := xs.map (fun p => convert f (mode p.1) true p.2.isNan p.2)
    ((packElems f (bs.map Prod.fst), []), bs.foldl (fun a b => Events.add a b.2) e)

/-! ### Signatures (R308, R309) -/

/-- Times x in GF(2^128) modulo x^128 + x^7 + x^2 + x + 1. -/
def gfTimesX (a : BitVec 128) : BitVec 128 := (a <<< 1) ^^^ (if a.getLsbD 127 then 0x87 else 0)

/-- The product in GF(2^128). -/
def gfMul (a b : BitVec 128) : BitVec 128 :=
  ((List.range 128).foldl (fun (p : BitVec 128 × BitVec 128) i =>
    (if b.getLsbD i then p.1 ^^^ p.2 else p.1, gfTimesX p.2)) (0, a)).1

/-- A power, by repeated squaring; fuel bounds the bits of the exponent. -/
def gfPow : Nat → BitVec 128 → Nat → BitVec 128
  | 0, _, _ => 1
  | f + 1, h, n =>
    let r := gfPow f (gfMul h h) (n / 2)
    if n % 2 = 1 then gfMul h r else r

/-- The code of an element (R309). -/
def elemCode (fmt bits : Nat) : BitVec 128 := BitVec.ofNat 128 (bits + fmt * 2 ^ 120 + 2 ^ 127)

/-- The signature of elements given with their global indices. -/
def signature (h : BitVec 128) (fmt : Nat) (es : List (Nat × Nat)) : BitVec 128 :=
  es.foldl (fun a e => a ^^^ gfMul (elemCode fmt e.2) (gfPow (Nat.log2 (e.1 + 1) + 1) h (e.1 + 1))) 0

/-! ### Shards (R310, R311) -/

/-- A shard export record as its bytes give it. -/
structure Shard where
  magic  : Nat
  format : Nat
  dtype  : Nat
  rank   : Nat
  tensor : Nat
  flags  : Nat
  global : List Nat
  offset : List Nat
  extent : List Nat
deriving DecidableEq, Repr

/-- The record that 256 bytes spell; only the dimensions inside RANK count. -/
def Shard.ofBytes (bs : List Byte) : Shard :=
  let rank := leField bs 7 1
  let dims := fun (o : Nat) => (List.range (min rank 8)).map (fun i => leField bs (o + 8 * i) 8)
  ⟨leField bs 0 4, leField bs 4 2, leField bs 6 1, rank, leField bs 8 4, leField bs 12 4, dims 32, dims 96, dims 160⟩

/-- The number of elements of a box. -/
def boxCount (ext : List Nat) : Nat := ext.foldl (· * ·) 1

/-- The coordinates of position b of a box in row-major order. -/
def shardCoords : List Nat → Nat → List Nat
  | [], _ => []
  | e :: es, b => (b / boxCount es % e) :: shardCoords es (b % boxCount es)

/-- The row-major position of coordinates in a shape. -/
def linearOf (shape coords : List Nat) : Nat := (shape.zip coords).foldl (fun a p => a * p.1 + p.2) 0

/-- The global index of position b of a shard (R70, R309). -/
def Shard.index (r : Shard) (b : Nat) : Nat := linearOf r.global (List.zipWith (· + ·) r.offset (shardCoords r.extent b))

/-- The place in the storage of position b of a box: row-major, or in 32 × 32 tiles of the last two dimensions. -/
def storePlace (tile : Bool) (ext : List Nat) (b : Nat) : Nat :=
  if tile then
    let c := ext.getD (ext.length - 1) 1
    let r := ext.getD (ext.length - 2) 1
    let x := b % c
    let y := b / c % r
    b / (c * r) * (c * r) + (c / 32 * (y / 32) + x / 32) * 1024 + y % 32 * 32 + x % 32
  else b

/-- The position in a target box of position b of a source box of the same tensor, where the element lies in both. -/
def Shard.placeIn (src dst : Shard) (b : Nat) : Option Nat :=
  let g := List.zipWith (· + ·) src.offset (shardCoords src.extent b)
  let inside := (g.zip (dst.offset.zip dst.extent)).all (fun p => decide (p.2.1 ≤ p.1) && decide (p.1 < p.2.1 + p.2.2))
  if inside then some (linearOf dst.extent (List.zipWith (· - ·) g dst.offset)) else none

end Sys2Proof.Machine
end

