-- ==== Sys2Proof/Machine/Finish.lean ====
section
/-! DEFINITION. The finish units: task descriptors and their checks, the dispatch, the recipes over memory, records,
and user finish programs (chapter 09). -/

namespace Sys2Proof.Machine

/-- A finish queue. -/
def finQ (c q : Nat) : QId := ⟨.fin, c * 65 + q⟩

/-! ### Task descriptors (R292) -/

/-- The fields of a task descriptor. -/
structure TaskDesc where
  recipe : Nat
  fence  : Bool
  notify : Bool
  irq    : Bool
  sr     : Bool
  mbx    : Nat
  gfmt   : Nat
  wcfmt  : Nat
  units  : Nat
  owner  : Nat
  rows   : Nat
  cols   : Nat
  w      : Nat
  delta  : Int
  m1     : Nat
  m2     : Nat
  g      : Nat
  wc     : Nat
  wcs    : Nat
  hp     : Nat
  scratch : Nat
  stepReq : Nat
  tensor : Nat
  recAt  : Nat
  data   : Nat
  layout : Nat
  version : Nat
deriving DecidableEq, Repr

/-- The fields that 128 bytes spell. -/
def TaskDesc.ofBytes (b : List Byte) : TaskDesc :=
  let f := leField b 1 1
  ⟨leField b 0 1, f.testBit 0, f.testBit 1, f.testBit 2, f.testBit 3, leField b 2 2 % 4096, leField b 4 1, leField b 5 1,
    leField b 6 1, leField b 7 1, leField b 8 4, leField b 12 4, leField b 16 8, signedOf 64 (leField b 24 8), leField b 32 8,
    leField b 40 8, leField b 48 8, leField b 56 8, leField b 64 8, leField b 72 8, leField b 80 8, leField b 88 4, leField b 92 4,
    leField b 96 8, leField b 104 8, leField b 112 1, leField b 113 1⟩

/-- The number of elements of the task's tensors. -/
def TaskDesc.n (d : TaskDesc) : Nat := d.rows * d.cols

/-- Whether the working copy is an MX type. -/
def TaskDesc.mx (d : TaskDesc) : Bool := d.wcfmt == 5 || d.wcfmt == 6

/-- Whether the recipe is one of the built-in updates, which write a working copy. -/
def TaskDesc.update (d : TaskDesc) : Bool := decide (1 ≤ d.recipe) && decide (d.recipe ≤ 4)

/-- Whether the recipe works on a shard and its record. -/
def TaskDesc.shard (d : TaskDesc) : Bool := decide (7 ≤ d.recipe) && decide (d.recipe ≤ 9)

/-- The DPA fields with whether the recipe uses each of them. -/
def TaskDesc.fields (d : TaskDesc) : List (Nat × Bool) :=
  let r := d.recipe
  [(d.w, r != 6), (d.m1, r == 1 || r == 2 || r == 3 || r == 5), (d.m2, r == 1 || r == 4 || r == 5),
   (d.g, decide (r ≤ 6)), (d.wc, d.update && d.wcfmt != 0xFF), (d.wcs, d.update && d.mx), (d.hp, r != 6),
   (d.scratch, r == 3 || r == 4)] ++
  (if d.shard then [(d.recAt, true), (d.data, r == 8 || r == 9)] else [])

/-- FIN_BAD_CMD (R292, R293), apart from the checks on the record. -/
def TaskDesc.bad (d : TaskDesc) (b : List Byte) (c q : Nat) : Bool :=
  let tail := if d.shard then 114 else if d.recipe = 5 then 98 else if d.recipe = 6 then 97 else 96
  decide (leField b 1 1 / 16 ≠ 0) || decide (leField b 2 2 / 4096 ≠ 0) || (b.drop tail).any (· != 0) ||
  (d.gfmt != 0 && d.gfmt != 12) || !([1, 3, 4, 5, 6, 0xFF].contains d.wcfmt) || decide (d.units < 1) || decide (16 < d.units) ||
  d.fields.any (fun f => if f.2 then decide (f.1 % 256 ≠ 0) else f.1 != 0) ||
  ((decide (d.recipe ≤ 5) || (d.shard && d.version != 1)) && decide (d.delta % 256 ≠ 0)) || (d.shard && (decide (d.layout > 1) || decide (d.version > 2))) ||
  (if q < 64 then d.owner != 0 else d.owner / 64 != c)

/-- The partition of a task (R629). -/
def TaskDesc.part (d : TaskDesc) (c q : Nat) : Nat := if q < 64 then 64 * c + q else d.owner

/-- The byte distance from version A to the current version under a committed step (R296). -/
def TaskDesc.cur (d : TaskDesc) (step : Nat) : Int := if step % 2 = 1 then d.delta else 0

/-- The byte distance from version A to the next version. -/
def TaskDesc.next (d : TaskDesc) (step : Nat) : Int := if step % 2 = 1 then 0 else d.delta

/-- The byte distance that VERSION selects (R311). -/
def TaskDesc.shardShift (d : TaskDesc) (step : Nat) : Int :=
  match d.version with
  | 0 => d.cur step
  | 1 => 0
  | _ => d.next step

/-- A range that a task touches: its first byte, its length, whether it is read, whether it is written. -/
structure TaskRange where
  at_   : Int
  len   : Nat
  read  : Bool
  write : Bool
deriving DecidableEq, Repr

/-- The bytes of the gradient. -/
def TaskDesc.gBytes (d : TaskDesc) : Nat := extentBytes (fmtOf d.gfmt) d.n

/-- The bytes of M1 and M2 in each version. -/
def TaskDesc.m2Bytes (d : TaskDesc) : Nat := if d.recipe = 4 then 8 * (d.rows * d.rows + d.cols * d.cols) else 4 * d.n

/-- The bytes of the scratch area (R304, R305). -/
def TaskDesc.scratchBytes (d : TaskDesc) : Nat :=
  if d.recipe = 3 then let r := min d.rows d.cols; 8 * (d.n + r * r)
  else let n := max d.rows d.cols; 4 * (2 * d.n + 6 * n * n)

/-- The bytes of a shard's elements. -/
def Shard.bytes (r : Shard) : Nat := extentBytes (fmtOf r.dtype) (boxCount r.extent)

/-- A number of bytes raised to whole sectors. -/
def sectorUp (n : Nat) : Nat := (n + 255) / 256 * 256

/-- The ranges that a task touches under a committed step (R293), those of its shard and its record apart. -/
def TaskDesc.ranges (d : TaskDesc) (step : Nat) : List TaskRange :=
  let two := fun (a n : Nat) => [TaskRange.mk (a + d.cur step) n true false, TaskRange.mk (a + d.next step) n false true]
  let opt := fun (a n : Nat) => if a = 0 then [] else two a n
  match d.recipe with
  | 5 => opt d.w (4 * d.n) ++ opt d.m1 (4 * d.n) ++ opt d.m2 (4 * d.n) ++
      (if d.g = 0 then [] else [⟨d.g, d.gBytes, true, false⟩]) ++ (if d.hp = 0 then [] else [⟨d.hp, 256, true, false⟩])
  | 6 => [⟨d.g, sectorUp d.gBytes, false, true⟩]
  | 7 => [⟨d.hp, 256, true, false⟩, ⟨d.recAt, 256, true, true⟩]
  | 8 => [⟨d.hp, 256, true, false⟩, ⟨d.recAt, 256, true, true⟩]
  | 9 => [⟨d.hp, 256, true, false⟩, ⟨d.recAt, 256, true, false⟩, ⟨d.data, 256, true, false⟩]
  | r =>
    two d.w (4 * d.n) ++ (if r = 4 then [] else two d.m1 (4 * d.n)) ++ (if r = 1 ∨ r = 4 then two d.m2 d.m2Bytes else []) ++
    [⟨d.g, d.gBytes, true, false⟩, ⟨d.hp, 256, true, false⟩] ++
    (if d.wcfmt = 0xFF then [] else [⟨d.wc + d.next step, extentBytes (fmtOf d.wcfmt) d.n, false, true⟩]) ++
    (if d.mx then [⟨d.wcs + d.next step, d.n / 32, false, true⟩] else []) ++
    (if r = 3 ∨ r = 4 then [⟨d.scratch, d.scratchBytes, true, true⟩] else [])

/-- The ranges of the shard, from the template and, for FIN_ADOPT, the received record. -/
def TaskDesc.shardRanges (d : TaskDesc) (step : Nat) (t r : Shard) : List TaskRange :=
  let store := TaskRange.mk (d.w + d.shardShift step) t.bytes (d.recipe != 9) (d.recipe == 9)
  match d.recipe with
  | 7 => [store]
  | 8 => [store, ⟨d.data, 256 + sectorUp t.bytes, false, true⟩]
  | 9 => [store, ⟨d.data + 256, r.bytes, true, false⟩]
  | _ => []

/-- Whether a range lies in the gesso of a canvas and exists (R293). -/
def State.rangeIn (s : State) (c : Nat) (r : TaskRange) : Bool :=
  decide (r.len = 0) || (decide (0 ≤ r.at_) && inCanvas c r.at_.toNat && inCanvas c (r.at_.toNat + r.len - 1) &&
    s.rangePopulated r.at_.toNat r.len)

/-- Whether the windows of a partition allow a range. -/
def State.rangeOk (s : State) (p : Nat) (r : TaskRange) : Bool :=
  decide (r.len = 0) || ((!r.read || s.windowOk p .r r.at_.toNat r.len) && (!r.write || s.windowOk p .w r.at_.toNat r.len))

/-- FIN_SHAPE (R293, R304, R305, R311), the shard's apart. -/
def TaskDesc.shapeBad (d : TaskDesc) : Bool :=
  decide (d.recipe ≤ 6) && (decide (d.rows < 1) || decide (2 ^ 24 < d.rows) || decide (d.cols < 1) || decide (2 ^ 24 < d.cols)) ||
  (d.update && d.mx && decide (d.cols % 32 ≠ 0)) || (d.recipe == 3 && decide (min d.rows d.cols > 16384)) ||
  (d.recipe == 4 && decide (max d.rows d.cols > 8192))

/-- Whether a shard's box breaks TILE32 (R311). -/
def Shard.tileBad (r : Shard) : Bool :=
  decide (r.extent.length < 2) || decide (r.extent.getD (r.extent.length - 1) 0 % 32 ≠ 0) ||
  decide (r.extent.getD (r.extent.length - 2) 0 % 32 ≠ 0)

/-- The agent of a task's requests: one of its units, on behalf of its partition; a task of the system queue makes no
window check (R629). -/
def finAgent (c q : Nat) (d : TaskDesc) (unit : Nat) : Agent :=
  ⟨.finish unit, 0x80000 + c * 65 + q, if q < 64 then some (d.part c q) else none, false⟩

/-- The code of a task that meets an error of memory (R295). -/
def finCode (c : Code) : Code := if 0x0110 ≤ c.toNat ∧ c.toNat ≤ 0x0114 then 0x0A0C else c

/-! ### Reading and writing for a task (R295, R619) -/

/-- A read of an array, sector by sector: its bytes, and of its failed sectors the first one's number and code; none
where a line is held. -/
def State.finRead (s : State) (ag : Agent) (d n : Nat) : Option (List Byte × Option (Nat × Code) × State) :=
  (sectorsOf d n).foldl (fun acc p =>
    match acc with
    | none => none
    | some (bs, bad, t) =>
      match t.access1 ag p.1 p.2 .read with
      | .wait _ => none
      | .done c ys u => some (if c = 0 then (bs ++ ys, bad, u) else
          (bs ++ List.replicate p.2 0, (match bad with | some b => some b | none => some ((p.1 - d) / 256, finCode c)), u)))
    (some ([], none, s))

/-- Several arrays read, each with the number of elements in a sector: their bytes, and the code of the failure of
lowest element index, the first array's where two tie. -/
def State.finReads (s : State) (ag : Agent) (arrays : List (Int × Nat × Nat)) : Option (List (List Byte) × Option (Nat × Code) × State) :=
  arrays.foldl (fun acc x =>
    match acc with
    | none => none
    | some (bs, bad, t) =>
      match t.finRead ag x.1.toNat x.2.1 with
      | none => none
      | some (ys, b, u) =>
        let b' := b.map (fun e => (e.1 * x.2.2, e.2))
        some (bs ++ [ys], (match bad, b' with
          | some y, some z => if z.1 < y.1 then some z else some y
          | some y, none => some y
          | none, z => z), u)) (some ([], none, s))

/-- Arrays written in order; the task stops at the first one that meets an error. None where a line is held. -/
def State.finWrites (s : State) (ag : Agent) : List (Int × List Byte) → Option (Code × State)
  | [] => some (0, s)
  | x :: xs =>
    match s.writeRange ag x.1.toNat x.2 with
    | .wait _ => none
    | .done c _ t => if c = 0 then t.finWrites ag xs else some (c, t)

/-- FP32 words of bytes. -/
def wordsOf (bs : List Byte) : List Nat := (pieces 4 bs).map leNat

/-- Bytes of FP32 words. -/
def bytesOf (ws : List Nat) : List Byte := ws.flatMap (leBytes 4)

/-- The elements of the gradient as values, or the first container that is not one, with its index. -/
def gradElems (gfmt n : Nat) (bs : List Byte) : Except (Nat × Code) (List (Num × Events × Bool)) :=
  if gfmt = 0 then .ok ((wordsOf bs).map (fun w => (fp32Val w, .none, (fp32Val w).isNan)))
  else
    let rec go : Nat → Nat → Except (Nat × Code) (List (Num × Events × Bool))
      | 0, _ => .ok []
      | k + 1, i =>
        match Exact.unpack (leField bs (256 * (i / 21) + 12 * (i % 21)) 12) with
        | none => .error (i, codeContainerReserved)
        | some x => match go k (i + 1) with
          | .ok xs => .ok ((x.value, x.events, x.nan) :: xs)
          | .error e => .error e
    go n 0

/-! ### Tasks -/

/-- The running tasks of a canvas. -/
def State.finTasks (s : State) (c : Nat) : List FinTask := Tab.get s.fin.tasks c []

/-- The running tasks of a canvas at a content; UNITS_BUSY follows, and the STATE of a queue (R622). -/
def State.setTasks (s : State) (c q : Nat) (ts : List FinTask) : State :=
  (({ s with fin := { s.fin with tasks := Tab.set s.fin.tasks c ts [] } }).finBusy c).qBusy (finQ c q) (ts.any (fun t => t.queue == q))

/-- A task. -/
def State.finTask (s : State) (c q seq : Nat) : Option FinTask := (s.finTasks c).find? (fun t => t.queue == q && t.seq == seq)

/-- A task at a content. -/
def State.putTask (s : State) (c : Nat) (t : FinTask) : State :=
  s.setTasks c t.queue ((s.finTasks c).map (fun x => if x.queue = t.queue ∧ x.seq = t.seq then t else x))

/-- The finish units of a canvas whose island is ACTIVE (R294). -/
def State.finActive (s : State) (c : Nat) : List Nat := (List.range 16).filter (fun u => s.island (islandOf c (20 + u / 8)) = islActive)

/-- The idle units among them. -/
def State.finIdle (s : State) (c : Nat) : List Nat := (s.finActive c).filter (fun u => !(s.finTasks c).any (fun t => t.units.contains u))

/-- The committed step of a partition. -/
def State.committed (s : State) (p : Nat) : Nat := s.rdN CNV_FIN_STEP.STEP p

/-- The finish program of an id on a canvas. -/
def State.finProgram (s : State) (c id : Nat) : Option FinProgram := s.str.sketch.fins.find? (fun f => f.canvas == c && f.id == id)

/-- The outcome of the check of R293: the task may start, is refused, or the check waits for a held line. -/
inductive TaskCheck where
  | ok (s : State)
  | refuse (code : Code) (s : State)
  | wait
deriving DecidableEq, Repr

/-- The check on the shard of recipes 7 to 9 and on the signature key (R308, R311). -/
def State.shardCheck (s : State) (c q : Nat) (d : TaskDesc) : TaskCheck :=
  let p := d.part c q
  let step := s.committed p
  match s.finReads (finAgent c q d 0) [((d.recAt : Int), 256, 1), (d.hp, 256, 1), (if d.recipe = 9 then d.data else d.recAt, 256, 1)] with
  | none => .wait
  | some (_, some e, t) => .refuse e.2 t
  | some (bs, none, t) =>
    let tpl := Shard.ofBytes (bs.getD 0 [])
    let got := Shard.ofBytes (bs.getD 2 [])
    let rs := d.shardRanges step tpl (if (Format.ofCode got.dtype).isSome then got else tpl)
    if tpl.tensor != d.tensor || (Format.ofCode tpl.dtype).isNone then .refuse 0x0A02 t
    else if rs.any (fun r => !t.rangeIn c r) then .refuse 0x0A03 t
    else if decide (q < 64) && rs.any (fun r => !t.rangeOk p r) then .refuse 0x0A04 t
    else if d.layout = 1 ∧ tpl.tileBad then .refuse 0x0A05 t
    else if leField (bs.getD 1 []) 0 16 = 0 then .refuse 0x0A08 t
    else .ok t

/-- The check of R293, in its order. -/
def State.finCheck (s : State) (c q : Nat) (b : List Byte) : TaskCheck :=
  let d := TaskDesc.ofBytes b
  let p := d.part c q
  let step := s.committed p
  if d.recipe < 1 ∨ 9 < d.recipe then .refuse 0x0A01 s
  else if d.bad b c q then .refuse 0x0A02 s
  else if (d.ranges step).any (fun r => !s.rangeIn c r) then .refuse 0x0A03 s
  else if decide (q < 64) && (d.ranges step).any (fun r => !s.rangeOk p r) then .refuse 0x0A04 s
  else if d.shapeBad then .refuse 0x0A05 s
  else if d.recipe ≤ 5 ∧ d.stepReq ≠ (step + 1) % 2 ^ 32 then .refuse 0x0A06 s
  else if d.recipe = 5 ∧ (s.finProgram c (d.recAt % 65536)).isNone then .refuse 0x0A07 s
  else if d.shard then s.shardCheck c q d
  else .ok s

/-- What a user program finds on a unit at its start (R307); the region table is read by its first stroke. -/
def unitStart (d : TaskDesc) (step dpa unit u : Nat) (idx : Nat) : UnitRun :=
  let v := fun (a : Nat) => [BitVec.ofInt 40 (a + d.cur step), BitVec.ofInt 40 (a + d.next step)]
  ⟨unit, (dpa + 8192) % 2 ^ 40, v d.w ++ v d.m1 ++ v d.m2 ++ [BitVec.ofNat 40 d.g, BitVec.ofNat 40 d.hp],
    [BitVec.ofNat 32 idx, BitVec.ofNat 32 u, 0, 0], 0, d.stepReq, [], false⟩

/-- A task starts on its units (R294, R298). -/
def State.finStart (s : State) (c q : Nat) (b : List Byte) (units : List Nat) : State :=
  let d := TaskDesc.ofBytes b
  let step := s.committed (d.part c q)
  let runs := match d.recipe, s.finProgram c (d.recAt % 65536) with
    | 5, some f => ((List.range units.length).zip units).map (fun x => unitStart d step f.dpa x.2 units.length x.1)
    | _, _ => []
  let t : FinTask := ⟨q, (s.ring (finQ c q)).read, b, d.part c q, units, step, s.now, runs, false, 0, 0, 0⟩
  ({ (s.qTake (finQ c q)) with fin := { s.fin with head := Tab.set s.fin.head c none none, turn := Tab.set s.fin.turn c q 0 } }).setTasks c q
    (s.finTasks c ++ [t])

/-- Whether a coat holds a partition against the start of tasks (R329). -/
def State.flipHeld (s : State) (p : Nat) : Bool := s.coatHolds (fun a => match a.2 with | .versionFlip x => x == p | _ => false)

/-- The first queue in an order whose next task may stand at the head of the dispatch, with its descriptor; a ring read
that fails halts its queue. -/
def State.finPick (s : State) (c : Nat) : List Nat → State × Option (Nat × List Byte)
  | [] => (s, none)
  | q :: qs =>
    match s.qNext (finQ c q) with
    | .idle t => t.finPick c qs
    | .failed t => (t, none)
    | .cmd b t =>
      let d := TaskDesc.ofBytes b
      if !t.qMayStart (finQ c q) d.fence ((t.finTasks c).countP (fun x => x.queue == q)) 7 || t.flipHeld (d.part c q) then t.finPick c qs
      else (t, some (q, b))

/-- The order in which the queues are looked at: the one that waits at the head, else round robin. -/
def State.finOrder (s : State) (c : Nat) : List Nat :=
  let turn := Tab.get s.fin.turn c 0
  let all := (List.range 65).map (fun i => (turn + 1 + i) % 65)
  match Tab.get s.fin.head c none with
  | some q => if s.qReady (finQ c q) then [q] else all
  | none => all

/-- FIN_TASK_DISPATCH (R293, R294, R298): the task at the head of the dispatch is checked, and starts once its units
are idle; while it waits no other task of the canvas starts. -/
def execFinTaskDispatch (canvas : Nat) (s : State) : Res :=
  .next (if decide (canvas < 4) && s.canvasUp canvas then
    match s.finPick canvas (s.finOrder canvas) with
    | (t, none) => t
    | (t, some (q, b)) =>
      let d := TaskDesc.ofBytes b
      match t.finCheck canvas q b with
      | .wait => t
      | .refuse code u => ({ u with fin := { u.fin with head := Tab.set u.fin.head canvas none none, turn := Tab.set u.fin.turn canvas q 0 } }).qRefuse
          (finQ canvas q) code d.notify d.mbx
      | .ok u =>
        let need := min d.units (u.finActive canvas).length
        if need = 0 ∨ (u.finIdle canvas).length < need then
          { u with fin := { u.fin with head := Tab.set u.fin.head canvas (some q) none } }
        else u.finStart canvas q b ((u.finIdle canvas).take need)
  else s)

/-- A task's work ends with a code, 0 for none. -/
def State.taskEnd (s : State) (c : Nat) (t : FinTask) (code : Code) (ev : Events) : State :=
  s.putTask c { t with done := true, code := code, events := t.events ||| eventBits ev }

/-- A task of a recipe that still has its work to do. -/
def State.onTask (s : State) (c q seq recipe : Nat) (go : FinTask → TaskDesc → State) : State :=
  match s.finTask c q seq with
  | none => s
  | some t =>
    let d := TaskDesc.ofBytes t.desc
    if t.done || d.recipe != recipe then s else go t d

/-- The agent of a running task. -/
def FinTask.agent (t : FinTask) (c : Nat) (d : TaskDesc) : Agent := finAgent c t.queue d (c * 16 + t.units.headD 0)

/-- The number of iterations that a word selects: 0 takes the default, and a negative number, whose meaning the spec
does not give, a free value. -/
def State.iterations (s : State) (w dflt : Nat) : Nat × State :=
  if w = 0 then (dflt, s) else if w < 2 ^ 31 then (w, s) else ((s.draw.1).toNat % 2 ^ 31, s.draw.2)

/-- Whether FIN_KRON computes roots in this step; a ROOT_EVERY below 1, which the spec does not admit, leaves it open. -/
def State.rootStep (s : State) (w step : Nat) : Bool × State :=
  if w = 0 ∨ 2 ^ 31 ≤ w then (s.draw.1 % 2 == 1, s.draw.2) else (step % w == 0, s)

/-- The bytes that a recipe leaves in its scratch area: the spec gives no value of them. -/
def State.scratchLeft (s : State) (n : Nat) : List Byte × State :=
  ((List.range n).map (fun i => BitVec.setWidth 8 (Config.freeValue (s.free + i))), { s with free := s.free + n })

/-- The arrays that recipes 1 to 4 read under the committed step, each with its bytes and its elements per sector: the
master weights, the gradient, the hyperparameters, and M1 and M2 where the recipe has them. -/
def TaskDesc.recipeReads (d : TaskDesc) (step : Nat) : List (Int × Nat × Nat) :=
  [((d.w : Int) + d.cur step, 4 * d.n, 64), (d.g, d.gBytes, if d.gfmt = 0 then 64 else 21), (d.hp, 256, 1)] ++
  (if d.recipe = 4 then [] else [((d.m1 : Int) + d.cur step, 4 * d.n, 64)]) ++
  (if d.recipe = 1 ∨ d.recipe = 4 then [((d.m2 : Int) + d.cur step, d.m2Bytes, 64)] else [])

/-- The arrays that recipes 1 to 4 write: the next version of each tensor, the working copy with its scales, and the
scratch area. -/
def TaskDesc.recipeWrites (d : TaskDesc) (step : Nat) (r : RecipeOut) (wc : List Byte × List Byte) (scratch : List Byte) :
    List (Int × List Byte) :=
  [((d.w : Int) + d.next step, bytesOf r.w), (d.m1 + d.next step, bytesOf r.m1), (d.m2 + d.next step, bytesOf r.m2),
    (d.wc + d.next step, wc.1), (d.wcs + d.next step, wc.2), (d.scratch, scratch)]

/-- The values that recipes 1 to 4 compute from what they read, with the events of the gradient's reading: the new tensors
and the working copy, with every event raised (R302 to R305). -/
def TaskDesc.compute (d : TaskDesc) (bs : List (List Byte)) (gs : List (Num × Events × Bool)) (iters : Nat) (roots : Bool) (seed : Nat) :
    RecipeOut × (List Byte × List Byte) × Events :=
  let hp := wordsOf (bs.getD 2 [])
  let m1 := if d.recipe = 4 then [] else wordsOf (bs.getD 3 [])
  let m2 := if d.recipe = 1 then wordsOf (bs.getD 4 []) else if d.recipe = 4 then wordsOf (bs.getD 3 []) else []
  let g := gradient (hp.getD (gscaleWord d.recipe) 0) gs .none
  let r := Sys2Proof.Machine.recipe d.recipe ⟨d.rows, d.cols, d.stepReq, hp, g.1, wordsOf (bs.getD 0 []), m1, m2, iters, roots⟩ g.2
  let wc := if d.wcfmt = 0xFF then (([], []), r.2) else workingCopy (fmtOf d.wcfmt) d.sr seed d.tensor d.stepReq r.1.w r.2
  (r.1, wc.1, wc.2)

/-- Recipes 1 to 4 (R302 to R305): the gradient, the tensors of the current version and the hyperparameters are read;
the next versions and the working copy are written. -/
def State.runRecipe (s : State) (c : Nat) (t : FinTask) (d : TaskDesc) : State :=
  match s.finReads (t.agent c d) (d.recipeReads t.step) with
  | none => s
  | some (bs, bad, u) =>
    let grad := gradElems d.gfmt d.n (bs.getD 1 [])
    let fault : Option (Nat × Code) := match bad, grad with
      | some y, .error z => if z.1 < y.1 then some z else some y
      | some y, .ok _ => some y
      | none, .error z => some z
      | none, .ok _ => none
    match fault, grad with
    | some e, _ => u.taskEnd c t e.2 .none
    | none, .error e => u.taskEnd c t e.2 .none
    | none, .ok gs =>
      let hp := wordsOf (bs.getD 2 [])
      let it := u.iterations (hp.getD (if d.recipe = 3 then 8 else 7) 0) (if d.recipe = 3 then 5 else 12)
      let u1 := if d.recipe = 3 ∨ d.recipe = 4 then it.2 else u
      let root := u1.rootStep (hp.getD 6 0) d.stepReq
      let u2 := if d.recipe = 4 then root.2 else u1
      let r := d.compute bs gs it.1 root.1 (u2.jobSeed (some t.part) false)
      let sc := if d.recipe = 3 ∨ d.recipe = 4 then u2.scratchLeft d.scratchBytes else ([], u2)
      match sc.2.finWrites (t.agent c d) (d.recipeWrites t.step r.1 r.2.1 sc.1) with
      | none => s
      | some (code, v) => v.taskEnd c t code r.2.2

/-- FIN_ADAMW (R302). -/
def execFinAdamw (canvas queue seq : Nat) (s : State) : Res := .next (s.onTask canvas queue seq 1 (s.runRecipe canvas))
/-- FIN_SIGNMOM (R302). -/
def execFinSignmom (canvas queue seq : Nat) (s : State) : Res := .next (s.onTask canvas queue seq 2 (s.runRecipe canvas))
/-- FIN_ORTHO (R304). -/
def execFinOrtho (canvas queue seq : Nat) (s : State) : Res := .next (s.onTask canvas queue seq 3 (s.runRecipe canvas))
/-- FIN_KRON (R305). -/
def execFinKron (canvas queue seq : Nat) (s : State) : Res := .next (s.onTask canvas queue seq 4 (s.runRecipe canvas))

/-- The bytes of a cleared gradient: +0, or containers on the grid of byte 96, each sector's last 4 bytes zero (R301). -/
def clearBytes (gfmt : Nat) (grid : BitVec 8) (bytes : Nat) : List Byte :=
  if gfmt = 0 then List.replicate bytes 0
  else (List.replicate (bytes / 256) ((List.replicate 21 (leBytes 12 (Exact.zero grid).pack)).flatten ++ [0, 0, 0, 0])).flatten

/-- FIN_CLEAR (R301). -/
def execFinClear (canvas queue seq : Nat) (s : State) : Res :=
  .next (s.onTask canvas queue seq 6 (fun t d =>
    match s.finWrites (t.agent canvas d) [((d.g : Int), clearBytes d.gfmt (t.desc.getD 96 0) (sectorUp d.gBytes))] with
    | none => s
    | some (code, u) => u.taskEnd canvas t code .none))

/-! ### Records (R310 to R314) -/

/-- A reader of a run of bytes. -/
def listReader (bs : List Byte) : ByteReader := fun o => bs[o]?

/-- The element codes at places of packed storage; a place outside reads 0. -/
def elemsAt (f : Format) (bs : List Byte) (places : List Nat) : List Nat :=
  places.map (fun i => match readElem (listReader bs) f i with | .ok v => v | .error _ => 0)

/-- Bytes with a run replaced. -/
def patchBytes (bs : List Byte) (o : Nat) (new : List Byte) : List Byte := bs.take o ++ new ++ bs.drop (o + new.length)

/-- The record with SIGNATURE, STEP and VERSION filled in (R311, R312). -/
def sealRecord (d : TaskDesc) (step : Nat) (sig : BitVec 128) (tpl : List Byte) : List Byte :=
  let cur := step % 2
  let v := match d.version with | 0 => cur | 1 => 0xFF | _ => 1 - cur
  let s1 := match d.version with | 1 => tpl | 0 => patchBytes tpl 24 (leBytes 4 step) | _ => patchBytes tpl 24 (leBytes 4 (step + 1))
  patchBytes (patchBytes s1 28 (leBytes 1 v)) 224 (leBytes 16 sig.toNat)

/-- The signature of the elements of a record's data (R309). -/
def Shard.sign (r : Shard) (key : List Byte) (vals : List Nat) : BitVec 128 :=
  signature (BitVec.ofNat 128 (leField key 0 16)) r.dtype (((List.range (boxCount r.extent)).map r.index).zip vals)

/-- What FIN_SIGN and FIN_EXPORT write, from the template, the key and the shard's stored bytes: the record at REC, and for
FIN_EXPORT the completed record and the data at DATA (R310 to R312). -/
def signWrites (d : TaskDesc) (step : Nat) (tplBytes key stored : List Byte) : List (Int × List Byte) :=
  let tpl := Shard.ofBytes tplBytes
  let f := fmtOf tpl.dtype
  let vals := elemsAt f stored ((List.range (boxCount tpl.extent)).map (storePlace (d.layout == 1) tpl.extent))
  let r1 := sealRecord d step (tpl.sign key vals) tplBytes
  let data := packElems f vals
  let padded := data ++ List.replicate (sectorUp data.length - data.length) 0
  [((d.recAt : Int), r1)] ++
    (if d.recipe = 8 then [((d.data : Int), patchBytes r1 240 (leBytes 8 padded.length)), ((d.data : Int) + 256, padded)] else [])

/-- FIN_SIGN and FIN_EXPORT (R309 to R312). -/
def State.runSign (s : State) (c : Nat) (t : FinTask) (d : TaskDesc) : State :=
  match s.finReads (t.agent c d) [((d.recAt : Int), 256, 1), (d.hp, 256, 1)] with
  | none => s
  | some (_, some e, u) => u.taskEnd c t e.2 .none
  | some (hd, none, u) =>
    match u.finReads (t.agent c d) [((d.w : Int) + d.shardShift t.step, (Shard.ofBytes (hd.getD 0 [])).bytes, 1)] with
    | none => s
    | some (_, some e, v) => v.taskEnd c t e.2 .none
    | some (bs, none, v) =>
      match v.finWrites (t.agent c d) (signWrites d t.step (hd.getD 0 []) (hd.getD 1 []) (bs.getD 0 [])) with
      | none => s
      | some (code, w) => w.taskEnd c t code .none

/-- FIN_SIGN (R312). -/
def execFinSign (canvas queue seq : Nat) (s : State) : Res := .next (s.onTask canvas queue seq 7 (s.runSign canvas))
/-- FIN_EXPORT (R312). -/
def execFinExport (canvas queue seq : Nat) (s : State) : Res := .next (s.onTask canvas queue seq 8 (s.runSign canvas))

/-- Changed bytes, by address, gathered into runs. -/
def byteRuns : List (Nat × Byte) → List (Int × List Byte)
  | [] => []
  | (a, b) :: xs =>
    match byteRuns xs with
    | (a', bs) :: rs => if a' = (a : Int) + 1 then ((a : Int), b :: bs) :: rs else ((a : Int), [b]) :: (a', bs) :: rs
    | [] => [((a : Int), [b])]

/-- Whether a received record agrees with the template (R314). -/
def recordAgrees (t r : Shard) : Bool :=
  r.magic == t.magic && r.format == t.format && r.tensor == t.tensor && r.dtype == t.dtype && r.rank == t.rank && r.flags == t.flags &&
  r.global == t.global

/-- The bits that an adoption moves into the target storage at an address: those of the elements that lie in both
boxes (R60, R314). -/
def adoptBits (d : TaskDesc) (at_ : Int) (tpl got : Shard) (vals : List Nat) : Tab (Nat × Nat) :=
  let moved := ((List.range (boxCount got.extent)).zip vals).filterMap (fun p =>
    (got.placeIn tpl p.1).map (fun i => (storePlace (d.layout == 1) tpl.extent i, p.2)))
  runBytes (fun _ o => at_.toNat + o) (moved.flatMap (fun p => elemRuns 0 (fmtOf tpl.dtype) p.1 p.2))

/-- The elements of the shard written at its storage; where only a part of a byte is an element's, the byte is read
first. None where a line is held. -/
def State.adoptWrite (s : State) (ag : Agent) (bits : Tab (Nat × Nat)) : Option (Code × State) :=
  let part := bits.filter (fun e => e.2.1 != 255)
  match s.finReads ag (part.map (fun e => ((e.1 : Int), 1, 1))) with
  | none => none
  | some (_, some e, w) => some (e.2, w)
  | some (olds, none, w) =>
    let old := part.map Prod.fst |>.zip (olds.map (fun b => (b.getD 0 0).toNat))
    w.finWrites ag (byteRuns (bits.map (fun e => (e.1, BitVec.ofNat 8 ((Tab.get old e.1 0 &&& (255 - e.2.1)) ||| (e.2.2 &&& e.2.1))))))

/-- FIN_ADOPT (R314): the checks first, then the elements that lie in both boxes; only the bits of those change (R60). -/
def execFinAdopt (canvas queue seq : Nat) (s : State) : Res :=
  .next (s.onTask canvas queue seq 9 (fun t d =>
    let ag := t.agent canvas d
    match s.finReads ag [((d.recAt : Int), 256, 1), (d.hp, 256, 1), (d.data, 256, 1)] with
    | none => s
    | some (_, some e, u) => u.taskEnd canvas t e.2 .none
    | some (hd, none, u) =>
      let tpl := Shard.ofBytes (hd.getD 0 [])
      let got := Shard.ofBytes (hd.getD 2 [])
      if !recordAgrees tpl got then u.taskEnd canvas t 0x0A0A .none
      else match u.finReads ag [((d.data : Int) + 256, got.bytes, 1)] with
      | none => s
      | some (_, some e, v) => v.taskEnd canvas t e.2 .none
      | some (bs, none, v) =>
        let vals := elemsAt (fmtOf tpl.dtype) (bs.getD 0 []) (List.range (boxCount got.extent))
        if (got.sign (hd.getD 1 []) vals).toNat ≠ leField (hd.getD 2 []) 224 16 then v.taskEnd canvas t 0x0A0B .none
        else match v.adoptWrite ag (adoptBits d ((d.w : Int) + d.shardShift t.step) tpl got vals) with
          | none => s
          | some (code, x) => x.taskEnd canvas t code .none))

/-! ### User finish programs (R306, R307) -/

/-- The key of a palette byte. -/
def palKey (unit slot o : Nat) : Nat := unit * 8388608 + slot * 256 + o

/-- A region of a user program. -/
def UnitRun.region (r : UnitRun) (h : Nat) : PaletteRegion := (Tab.get r.regions (h % 1024) none).getD ⟨0, 0, 0⟩

/-- A reader of the regions of a unit. -/
def State.palReader (s : State) (unit : Nat) (r : UnitRun) : Nat → ByteReader :=
  fun h o => Tab.get s.fin.palette (palKey unit (r.region h).base o) none

/-- Bytes put into a palette where a mask selects bits; a word not covered whole stays uncorrectable where it was so
(R510). -/
def State.putPalette (s : State) (bs : Tab (Nat × Nat)) : State :=
  let pal := s.fin.palette
  let whole := fun (w : Nat) => (List.range 8).all (fun j => (Tab.get bs (8 * w + j) (0, 0)).1 == 255)
  let ok := fun (w : Nat) => whole w || (Tab.get pal (8 * w) none).isSome
  let p := bs.foldl (fun m (e : Nat × (Nat × Nat)) =>
    if ok (e.1 / 8) then
      let old := match Tab.get pal e.1 none with | some b => b.toNat | none => 0
      Tab.set m e.1 (some (BitVec.ofNat 8 ((old &&& (255 - e.2.1)) ||| (e.2.2 &&& e.2.1)))) none
    else m) pal
  { s with fin := { s.fin with palette := p } }

/-- Whole bytes as masks and values. -/
def byteMasks (a : Nat) (bs : List Byte) : Tab (Nat × Nat) := ((List.range bs.length).zip bs).map (fun p => (a + p.1, (255, p.2.toNat)))

/-- The region table that 8 KiB spell (R306); every region starts FREE. -/
def regionTable (bs : List Byte) : Tab (Option PaletteRegion) :=
  (List.range 1024).filterMap (fun h =>
    let l := leField bs (8 * h + 2) 2
    if l = 0 then none else some (h, some ⟨leField bs (8 * h) 2, l, 0⟩))

/-- The decode faults of a stroke in a finish program, in the order of R627 with the exceptions of R306. -/
def State.unitDecode (s : State) (part : Option Nat) (r : UnitRun) (w : BitVec 128) : Option Code :=
  match decodeStroke true w with
  | .error c => some c
  | .ok st =>
    let us := st.uses
    let th : PanelThread := { PanelThread.idle with ab := r.ab }
    let pair := match st with | .mma f => !((f.fmtA == 0 && f.fmtB == 0) || (f.fmtA == 1 && f.fmtB == 1)) | _ => false
    let shape := match st with | .mma f => decide (f.m > 16) || decide (f.n > 16) | _ => false
    if (match st with | .gather _ => true | _ => false) then some codeClassReserved
    else if (match st with | .mov f => f.op == 1 || f.op == 2 | _ => false) then some codeOpReserved
    else if st.dtypeReserved then some codeDtypeReserved
    else if st.formatBad then some codeFormat
    else if st.pairBad || pair then some codeFormatPair
    else if us.any (fun u => (r.region u.handle).len == 0) then some codeHandleInvalid
    else if st.roleConflict then some codeRoleConflict
    else if us.any (fun u => decide (u.bytes > 256 * (r.region u.handle).len) || decide ((r.region u.handle).base + (r.region u.handle).len > 32768))
      then some codeRegionBounds
    else if st.shapeBad || shape then some codeShape
    else if st.mxSplit then some codeMxSplit
    else if addrAlignBad th st then some codeAddrAlign
    else
      let out := match st with
        | .mov f => decide (3 ≤ f.op) && (movRows f (th.ab.getD f.ab 0)).any (fun a => decide (a < 0) || decide (a + f.rlen > 2 ^ 40))
        | _ => false
      if out || (match part with | some p => s.addrBoundsBad th p st | none => false) then some codeAddrBounds else none

/-- What a stroke of a user program does: it waits, ends with an uncorrectable palette or memory word, faults, or is
done with its unit's new state and its events. -/
inductive UnitStep where
  | wait
  | lost (s : State)
  | fault (code : Code) (s : State)
  | done (run : UnitRun) (ev : Events) (s : State)
deriving DecidableEq, Repr

/-- The tokens after a stroke: written regions are READY, consumed ones FREE (R94 to R96). -/
def UnitRun.tokens (r : UnitRun) (us : List RegionUse) : UnitRun :=
  us.foldl (fun r u =>
    let g := r.region u.handle
    let tok := if u.writes then 2 else if u.consume then 0 else g.token
    { r with regions := Tab.set r.regions u.handle (some { g with token := tok }) none }) r

/-- Whether the tokens let a stroke fire: what it reads is READY, what it only writes is FREE. -/
def UnitRun.fires (r : UnitRun) (us : List RegionUse) : Bool :=
  us.all (fun u => (r.region u.handle).token == (if u.reads then 2 else 0))

/-- The outcome of an arithmetic stroke. -/
def State.unitArith (s : State) (r : UnitRun) (unit : Nat) (res : Except Code StrokeResult) : UnitStep :=
  match res with
  | .error c => if c = codeWellUe then .lost s else .fault c s
  | .ok x => .done r x.events (s.putPalette (runBytes (fun h o => palKey unit (r.region h).base o) x.runs))

/-- The bytes of a region, none where a word is uncorrectable. -/
def State.palBytes (s : State) (unit : Nat) (r : UnitRun) (h o n : Nat) : Option (List Byte) :=
  (List.range n).foldr (fun i acc => match s.palReader unit r h (o + i), acc with | some b, some bs => some (b :: bs) | _, _ => none) (some [])

/-- Writes of a MOV of a user program from a region, piece by piece. -/
def State.unitWrites (s : State) (ag : Agent) (unit : Nat) (r : UnitRun) (h : Nat) (act : List Byte → MemAct) (ps : List Piece) : UnitStep :=
  ps.foldl (fun acc p =>
    match acc with
    | .done r' ev t =>
      match t.palBytes unit r h p.off p.len with
      | none => .lost t
      | some bs => match t.access1 ag p.dpa p.len (act bs) with
        | .wait _ => .wait
        | .done c _ u => if c = 0 then .done r' ev u else .fault (memCode c) u
    | x => x) (.done r .none s)

/-- A MOV of a user program. -/
def State.unitMov (s : State) (c : Nat) (ag : Agent) (unit : Nat) (r : UnitRun) (f : MovFields) : UnitStep :=
  let ps := movPieces f (r.ab.getD f.ab 0) (if f.op = 6 then 2048 else 256)
  if f.op ≠ 0 ∧ ps.any (fun p => !inCanvas c p.dpa) then .fault 0x0102 s
  else match f.op with
  | 0 => match s.palBytes unit r f.hs 0 (f.rows * f.rlen) with
    | none => .lost s
    | some bs => .done r .none (s.putPalette (byteMasks (palKey unit (r.region f.hd).base 0) bs))
  | 4 => s.unitWrites ag unit r f.hs .write ps
  | 5 => s.unitWrites ag unit r f.hs (if fmtOf f.fmt = .exact96 then .addEx96 else .addFp32) ps
  | _ => match s.readPieces ag (if f.op = 6 then .turn ((fmtOf f.fmt).bits / 8) else .read) ps with
    | .wait _ => .wait
    | .done e bs t =>
      if e = codeMemError then .lost t else if e ≠ 0 then .fault e t
      else .done r .none (t.putPalette (byteMasks (palKey unit (r.region f.hd).base 0) bs))

/-- A TOK stroke of a user program at a DPA. -/
def State.unitTok (s : State) (part : Nat) (dpa : Nat) (r : UnitRun) (f : TokFields) : UnitStep :=
  let jump := ((dpa : Int) + 16 * signedOf 32 (f.imm % 2 ^ 32)) % 2 ^ 40
  match f.op with
  | 3 => .done { r with pc := jump.toNat } .none s
  | 4 =>
    let v := r.lc.getD f.lc 0 - 1
    let r1 := { r with lc := r.lc.set f.lc v }
    .done (if v = 0 then r1 else { r1 with pc := jump.toNat }) .none s
  | 5 => .done { r with lc := r.lc.set f.lc (BitVec.ofNat 32 f.imm) } .none s
  | 6 => .done { r with ab := r.ab.set f.ab (BitVec.ofNat 40 f.imm) } .none s
  | 7 => .done { r with desc := BitVec.ofNat 40 f.imm } .none s
  | 8 => .done { r with step := f.imm % 2 ^ 32 } .none s
  | 9 => .done { r with step := s.committed part } .none s
  | 11 => .done r .none (s.post (f.imm / 2 ^ 32 % 4096) (BitVec.ofNat 32 f.imm))
  | 12 => .done { r with halted := true } .none s
  | _ => .done r .none s

/-- The CVT of a user program with its rounding descriptor (R117). -/
def State.unitCvt (s : State) (c : Nat) (ag : Agent) (t : FinTask) (unit : Nat) (r : UnitRun) (f : CvtFields) : UnitStep :=
  let d := (r.desc.toNat + 64 * f.desc) % 2 ^ 40
  let seed := s.jobSeed (some t.part) false
  if !f.sr then s.unitArith r unit (cvtResult f (s.palReader unit r) ⟨0, 0, 0⟩ seed r.step)
  else if !inCanvas c d || !s.windowOk? ag.part .r d 64 then .fault codeDescInvalid s
  else match s.readRange ag d 64 with
    | .wait _ => .wait
    | .done e bs u => match e, RoundDesc.ofBytes bs with
      | 0, some rd => u.unitArith r unit (cvtResult f (u.palReader unit r) rd seed r.step)
      | _, _ => .fault codeDescInvalid u

/-- One stroke of a user program on a unit: the effect of a stroke that has fired. -/
def State.unitExec (s : State) (c : Nat) (ag : Agent) (t : FinTask) (unit dpa : Nat) (r : UnitRun) (st : Stroke) : UnitStep :=
  let rd := s.palReader unit r
  match st with
  | .mma f =>
    let idx := (List.range f.m).flatMap (fun m => (List.range f.n).map (fun n => (m, n)))
    s.unitArith r unit (match runAll (fun p => mmaElemFp32 f false (rd f.ha) (rd f.hb) (rd f.hc) p.1 p.2) idx with
      | .error e => .error e
      | .ok xs => .ok ⟨(idx.zip xs).flatMap (fun p => elemRuns f.hd (fmtOf f.fmtD) (32 * p.1.1 + p.1.2) p.2.1),
          xs.foldl (fun a x => Events.add a x.2) .none⟩)
  | .vec f => s.unitArith r unit (vecResult f rd)
  | .red f => s.unitArith r unit (redResult f rd)
  | .cvt f => s.unitCvt c ag t unit r f
  | .mov f => s.unitMov c ag unit r f
  | .tok f => s.unitTok t.part dpa r f
  | .gather _ => .fault codeClassReserved s

/-- A task that ends early, at a stroke (R295, R307). -/
def State.unitFail (s : State) (c : Nat) (t : FinTask) (code stroke : Code) : State :=
  s.putTask c { t with done := true, code := code, stroke := stroke }

/-- An uncorrectable palette word met by a program, in the log (R509). -/
def State.logPalette (s : State) (c unit : Nat) : State :=
  s.eccLog c ⟨0, 7, 2, 1, BitVec.ofNat 64 (endpointOf (.finish unit) * 2 ^ 48), endpointOf (.finish unit), 0x0110⟩

/-- The next stroke of a unit of a user task, where it is of the given kind: fetched, decoded, fired and performed. -/
def State.unitStroke (s : State) (c q seq unit : Nat) (mine : BitVec 128 → Bool) : State :=
  s.onTask c q seq 5 (fun t d =>
    match t.runs.find? (fun r => r.unit == unit) with
    | none => s
    | some r =>
      if r.halted then s else
      let ag : Agent := { t.agent c d with src := .finish (c * 16 + unit) }
      let gu := c * 16 + unit
      let fetchBad := fun (a n : Nat) (perm : Perm) => !inCanvas c a || !inCanvas c (a + n - 1) || !s.windowOk? ag.part perm a n
      -- the region table, by the first stroke of the unit
      let table : Option (Option Code × UnitRun × State) :=
        if r.regions.isEmpty then
          match s.finProgram c (d.recAt % 65536) with
          | none => some (some codeFetchError, r, s)
          | some p =>
            if fetchBad p.dpa 8192 .x then some (some codeFetchError, r, s)
            else match s.readRange ag p.dpa 8192 with
              | .wait _ => none
              | .done e bs u => if e = 0 then some (none, { r with regions := regionTable bs }, u) else some (some codeFetchError, r, u)
        else some (none, r, s)
      match table with
      | none => s
      | some (some e, _, u) => u.unitFail c t 0x0A09 e
      | some (none, r1, u) =>
        if fetchBad r1.pc 16 .x then u.unitFail c t 0x0A09 codeFetchError
        else match u.readRange ag r1.pc 16 with
        | .wait _ => s
        | .done e bs v =>
          if e ≠ 0 then v.unitFail c t 0x0A09 codeFetchError
          else
            let w := BitVec.ofNat 128 (leField bs 0 16)
            if !mine w then s
            else match v.unitDecode ag.part r1 w, decodeStroke true w with
            | some e, _ => v.unitFail c t 0x0A09 e
            | none, .error e => v.unitFail c t 0x0A09 e
            | none, .ok st =>
              let us := mergeUses st.uses
              if !r1.fires us then s
              else match v.unitExec c ag t gu r1.pc { r1 with pc := (r1.pc + 16) % 2 ^ 40 } st with
              | .wait => s
              | .lost x => (x.logPalette c gu).unitFail c t 0x0A0C 0
              | .fault e x => x.unitFail c t 0x0A09 e
              | .done r2 ev x =>
                let r3 := r2.tokens us
                let runs := t.runs.map (fun y => if y.unit = unit then r3 else y)
                x.putTask c { t with runs := runs, done := runs.all (·.halted), events := t.events ||| eventBits ev })

/-- Whether a stroke is a VEC of an operation. -/
def isVec (op : Nat) (w : BitVec 128) : Bool := strokeClass w == 1 && strokeOp w == op

/-- FIN_USER (R306, R307): the next stroke of a unit, other than SQRT and DIV; upsets are memory errors in the unit's
palette, by word. -/
def execFinUser (canvas queue seq unit : Nat) (upsets : List Upset) (s : State) : Res :=
  let hit := s.each upsets (fun u t =>
    let k := palKey (canvas * 16 + unit) 0 (8 * u.offset)
    if u.correctable then t.eccLog canvas ⟨0, 7, 1, 1, BitVec.ofNat 64 (endpointOf (.finish (canvas * 16 + unit)) * 2 ^ 48 +
      u.offset % 2 ^ 18 * 2 ^ 30 + u.detail % 128 * 2 ^ 23), endpointOf (.finish (canvas * 16 + unit)), 0⟩
    else { t with fin := { t.fin with palette := t.fin.palette.filter (fun e => !(decide (k ≤ e.1) && decide (e.1 < k + 8))) } })
  .next (hit.unitStroke canvas queue seq unit (fun w => !isVec 14 w && !isVec 15 w))

/-- VEC SQRT of a finish program (R289, R306). -/
def execFinVecSqrt (canvas queue seq unit : Nat) (s : State) : Res := .next (s.unitStroke canvas queue seq unit (isVec 14))
/-- VEC DIV of a finish program (R289, R306). -/
def execFinVecDiv (canvas queue seq unit : Nat) (s : State) : Res := .next (s.unitStroke canvas queue seq unit (isVec 15))

/-! ### Completion and registers -/

/-- FIN_TASK_COMPLETE (R272, R295, R316): a task whose writes are performed leaves its units; its queue goes on, or
halts with the task's code. -/
def execFinTaskComplete (canvas queue seq : Nat) (s : State) : Res :=
  .next (match s.finTask canvas queue seq with
    | none => s
    | some t =>
      if !t.done then s
      else
        let d := TaskDesc.ofBytes t.desc
        let s1 := (s.setTasks canvas queue ((s.finTasks canvas).filter (fun x => !(x.queue == queue && x.seq == seq)))).finCount canvas t
        if t.code = 0 then s1.qComplete (finQ canvas queue) seq d.notify d.irq d.mbx
        else (s1.qFail (finQ canvas queue) seq t.code d.notify d.mbx).wr CNV_FIN_Q_FAIL.STROKE_CODE (canvas * 65 + queue) (codeVal t.stroke))

/-- Whether the committed step of a partition may be written (R299): its finish queue is IDLE and no open coat names it. -/
def State.finStepOk (s : State) (p : Nat) : Bool :=
  s.rdN CNV_FIN_Q_STATUS.STATE (p / 64 * 65 + p % 64) == 0 && !s.openCoats.any (fun e => e.2.named.contains p)

/-- A write of CNV_FIN_STEP (R299). -/
def State.finStepSet (s : State) (p : Nat) (v : Val) : State :=
  if s.finStepOk p then s.wr CNV_FIN_STEP.STEP p v else s.set1 CNV_FIN_STATUS.STEP_REFUSED (p / 64)

/-- FIN_STEP_WRITE (R299). -/
def execFinStepWrite (port : Port) (part : Nat) (data : Word32) (s : State) : Res :=
  .next (if decide (part < 256) && s.canvasUp (part / 64) then
    s.denied port true (·.finStepSet part (BitVec.setWidth 64 data)) else s)

/-- FIN_Q_TAIL (R269, R270, R291). -/
def execFinQTail (port : Port) (canvas queue : Nat) (tail : Word32) (s : State) : Res :=
  .next (s.qWrite port (finQ canvas queue) (·.qSetTail (finQ canvas queue) (BitVec.setWidth 64 tail)))

/-- FIN_Q_RESUME (R273, R291). -/
def execFinQResume (port : Port) (canvas queue : Nat) (s : State) : Res :=
  .next (s.qWrite port (finQ canvas queue) (·.qResume (finQ canvas queue)))

/-- FIN_Q_ENABLE (R274, R291). -/
def execFinQEnable (port : Port) (canvas queue : Nat) (enable : Bool) (s : State) : Res :=
  .next (s.qWrite port (finQ canvas queue) (·.qEnable (finQ canvas queue) enable))

end Sys2Proof.Machine
end

