-- ==== Sys2Proof/Machine/Resets.lean ====
section
/-! DEFINITION. What the islands lose: asleep (R40), in the reset of their canvas (R561, R562), and when their canvas is
lost. -/

namespace Sys2Proof.Machine

/-! ### Registers dropped to their reset values -/

/-- How many of a register there are below its first dimension: what an index is divided by to give the canvas. -/
def regDims (reg : Nat) : List Nat :=
  match catalogue.find? (fun d => match d.windows with | w :: _ => w.base == reg | [] => false) with
  | some d => (match d.windows with | w :: _ => w.dims.map (·.1) | [] => [])
  | none => []

/-- The offset of the register of a key. -/
def keyReg (k : Nat) : Nat := k / 4294967296 / 64

/-- The index of a key. -/
def keyIdx (k : Nat) : Nat := k % 4294967296

/-- Register fields brought back to their reset values. -/
def State.dropRegs (s : State) (p : Nat → Nat → Bool) : State :=
  { s with regs := s.regs.filter (fun e => !p (keyReg e.1) (keyIdx e.1)) }

/-- The canvas of a register of a canvas block; 4 for the hub's own DMA engine. -/
def regCanvas (reg i : Nat) : Nat := i / ((regDims reg).drop 1).foldl (· * ·) 1

/-- The unit of a register whose second dimension numbers the units of a canvas, in device numbering. -/
def regUnit (reg i : Nat) : Nat := i / ((regDims reg).drop 2).foldl (· * ·) 1

/-! ### Islands (R40) -/

/-- A panel island: its panels' registers, threads, strokes, wells and read-only caches. -/
def State.losePanels (s : State) (i : Nat) : State :=
  let mine := fun p => panelIsland p == i && decide (p < 1024)
  let s1 := s.dropRegs (fun r x => decide (0x2000000 ≤ r) && decide (r < 0x2400000) && mine (regUnit r x))
  let fly : Nat × Option Flight → Bool := fun e => (match e.2 with | some f => !mine f.panel | none => false)
  let well : Host.Cell → Bool := fun e => (match targetOf e.1 with | .well p _ => !mine p | _ => true)
  let pnl := { s1.pnl with threads := s1.pnl.threads.filter (fun e => !mine (e.1 / 8)), flights := s1.pnl.flights.filter fly }
  let s2 := { s1 with pnl := { pnl with cycle := pnl.cycle.filter (fun e => !mine e.1) }, mem := s1.mem.filter well }
  s2.roDrop mine

/-- A glaze island: every line of its slices with what waits for it. -/
def State.loseGlaze (s : State) (i : Nat) : State :=
  let mine := fun k => glazeIsland (keyCanvas k) (keyLine k) == i
  let byte := fun a => match targetOf a with | .gesso c o => glazeIsland c (o / 2048) == i | _ => false
  let s0 := s.onGlz (fun g => { g with lines := g.lines.filter (fun e => !mine e.1), data := g.data.filter (fun e => !byte e.1) })
  let s1 := s0.onGlz (fun g => { g with
    bad := g.bad.filter (fun e => !byte (e.1 * 8)),
    victims := g.victims.filter (fun e => !mine e.1), slots := g.slots.filter (fun e => !mine e.1),
    waiting := g.waiting.filter (fun j => !mine (keyOf j.req.dpa)), held := g.held.filter (fun e => !mine e.1) })
  s1.tackRefresh (i / 34)

/-- A finish island: the palettes of its eight units. -/
def State.loseFinish (s : State) (i : Nat) : State :=
  { s with fin := { s.fin with palette := s.fin.palette.filter (fun e => islandOf (e.1 / 134217728) (20 + e.1 / 8388608 % 16 / 8) != i) } }

/-- A sequencer island: its cores and their threads. -/
def State.loseSeq (s : State) (i : Nat) : State :=
  let mine := fun c => seqIsland c == i
  let s1 := s.dropRegs (fun r x => decide (0x2501000 ≤ r) && decide (r < 0x2504000) && mine (x / 32))
  let box : Nat × Mailbox → Nat × Mailbox := fun e => (e.1, ⟨e.2.words, e.2.waiters.filter (fun th => !mine (seqKey th / 32))⟩)
  let threads := s1.seq.threads.filter (fun e => !mine (e.1 / 32))
  let cores := s1.seq.cores.filter (fun e => !mine e.1)
  { s1 with seq := { s1.seq with threads := threads, cores := cores, boxes := s1.seq.boxes.map box } }

/-- A stream-fabric island: the units on their way from or to its panels. -/
def State.loseFabric (s : State) (i : Nat) : State :=
  let q := fun p => islandOf (p / 256) (28 + p % 256 / 64) == i
  { s with str := { s.str with streams := s.str.streams.map (fun e =>
      if q (s.rdN CNV_STM_STREAM.SENDER e.1) || q (s.rdN CNV_STM_STREAM.RECEIVER e.1) then (e.1, { e.2 with flying := [] }) else e) } }

/-- A stretcher island: the gesso of its canvas is lost (R626), and the copies of the panels' region tables with it. -/
def State.loseStretcher (s : State) (c : Nat) : State :=
  let mine := fun k => keyCanvas k == c
  let byte := fun a => match targetOf a with | .gesso x _ => x == c | _ => false
  let t := Tab.get s.links.tether c Tether.idle
  let tether := Tab.set s.links.tether c { t with kept := false } Tether.idle
  let gso := { s.gso with rows := s.gso.rows.filter (fun e => !mine e.1), bad := s.gso.bad.filter (fun e => !byte (e.1 * 32)) }
  let copyReg := s.pnl.copyReg.filter (fun e => e.1 / 262144 != c)
  let copyEn := s.pnl.copyEn.filter (fun e => e.1 / 256 != c)
  { s with links := { s.links with tether := tether }, mem := s.mem.filter (fun e => !byte e.1),
           gso := { gso with badMeta := gso.badMeta.filter (fun e => !mine e.1) },
           isl := { s.isl with gessoLost := Tab.set s.isl.gessoLost c true false },
           pnl := { s.pnl with copyReg := copyReg, copyEn := copyEn } }

/-- A tether-port island: its mailboxes, with the doorbell words in them, and the state of its tether but for the lane
map (R383). -/
def State.loseTether (s : State) (c : Nat) : State :=
  let posted := (s.seq.boxes.filter (fun e => e.1 / 1024 == c)).flatMap (fun e => e.2.words.filterMap (·.2))
  let s1 := s.each posted (fun q t => t.clr QUE_CTL.PENDING q)
  let s2 := { s1 with seq := { s1.seq with boxes := s1.seq.boxes.filter (fun e => e.1 / 1024 != c) },
                      links := { s1.links with ends := s1.links.ends.filter (fun e => e.1 / 2 != c) } }
  s2.dropRegs (fun r x => (decide (0x2505000 ≤ r) && decide (r < 0x2506000) && x / 1024 == c) ||
    (decide (0x800040 ≤ r) && decide (r < 0x800080) && x / 6 == c))

/-- Spar ports lose everything: link, keys, queues (R423). -/
def State.loseSpar (s : State) (ps : List Nat) : State :=
  let s1 := s.dropRegs (fun r x => decide (0x401000 ≤ r) && decide (r < 0x800000) && ps.contains (regCanvas r x))
  { s1 with links := { s1.links with
      ends := s1.links.ends.filter (fun e => !(decide (e.1 ≥ 16) && ps.contains (e.1 - 16))), spar := s1.links.spar.filter (fun e => !ps.contains e.1),
      heads := s1.links.heads.filter (fun e => !ps.contains (e.1 / 8)) } }

/-- The island of the DMA, coat and collective engines loses its registers and everything open. -/
def State.loseEngines (s : State) : State :=
  let s1 := s.dropRegs (fun r x => (decide (0xC00000 ≤ r) && decide (r < 0x1000000)) ||
    (decide (0x27C0000 ≤ r) && decide (r < 0x27E0000) && regCanvas r x == 4))
  let s2 := s1.each s1.openCoats (fun e t => t.coatRelease e.1 e.2)
  let near := fun n => decide (n < 256)
  { s2 with dma := { runs := s2.dma.runs.filter (fun e => near e.1), broken := s2.dma.broken.filter (fun e => near e.1), turn := s2.dma.turn.filter (fun e => e.1 != 4) },
            coats := ⟨[], []⟩, colls := [], early := [],
            rings := s2.rings.filter (fun e => !(e.1 / 65536 == 2 || e.1 / 65536 == 3 || (e.1 / 65536 == 4 && !near (e.1 % 65536)))) }

/-- What an island loses that keeps nothing (R40); a gesso island keeps its rows. -/
def State.loseIsland (s : State) (i : Nat) : State :=
  if i < 136 then
    let l := i % 34
    if l < 16 then s.losePanels i else if l < 20 then s.loseGlaze i else if l < 22 then s.loseFinish i
    else if l < 26 then s else if l < 28 then s.loseSeq i else if l < 32 then s.loseFabric i
    else if l = 32 then s.loseStretcher (i / 34) else s.loseTether (i / 34)
  else if i = 139 then s.loseSpar [0, 1, 2, 3]
  else if i = 140 then s.loseSpar [4, 5, 6, 7]
  else if i = 141 then s.loseEngines
  else s

/-! ### Canvases -/

/-- The units of a canvas lose what they hold beside their islands: registers but for the banks and the remap tables,
row and finish queues, DMA engine, train engine and streams, scrubber and read-only caches. -/
def State.loseUnits (s : State) (c : Nat) : State :=
  let block := fun r => decide (0x2000000 ≤ r) && !(decide (0x2680000 ≤ r) && decide (r < 0x26C0000)) && !(decide (0x26C2000 ≤ r) && decide (r < 0x26C3000))
  let s1 := s.dropRegs (fun r x => block r && regCanvas r x == c)
  let row := fun n => n / 65 == c
  let ring : Nat × Ring → Bool := fun e =>
    (decide (e.1 / 65536 < 2) && row (e.1 % 65536)) || (e.1 / 65536 == 4 && e.1 % 65536 / 64 == c)
  let other : Nat → Bool := fun k => k != c
  let fin := { s1.fin with tasks := s1.fin.tasks.filter (fun e => other e.1), turn := s1.fin.turn.filter (fun e => other e.1) }
  let dma := { s1.dma with runs := s1.dma.runs.filter (fun e => other (e.1 / 64)), broken := s1.dma.broken.filter (fun e => other (e.1 / 64)) }
  let str := { s1.str with streams := s1.str.streams.filter (fun e => other (e.1 / 4096)) }
  let g1 := { s1.gso with scrubAt := s1.gso.scrubAt.filter (fun e => other e.1), lapStart := s1.gso.lapStart.filter (fun e => other e.1) }
  let g2 := { g1 with glzStart := g1.glzStart.filter (fun e => other e.1), lapLate := g1.lapLate.filter (fun e => other e.1) }
  let chain := s1.isl.chain.filter (fun e => other e.1)
  let work := s1.isl.work.filter (fun e => other (e.1 / 34) || decide (136 ≤ e.1))
  let wo := fun reg i => block reg && regCanvas reg i == c
  let queue := s1.ports.queue.filter (fun e => !wo (e.1 / 4294967296) (e.1 % 4294967296))
  let held := s1.ports.held.filter (fun w => !wo w.reg w.index)
  { s1 with
    rows := { cmds := s1.rows.cmds.filter (fun e => !row e.1) }, rings := s1.rings.filter (fun e => !ring e),
    fin := { fin with head := fin.head.filter (fun e => other e.1) }, dma := { dma with turn := dma.turn.filter (fun e => other e.1) },
    str := { str with launch := str.launch.filter (fun e => other e.1) },
    glz := { s1.glz with flush := s1.glz.flush.filter (fun e => other e.1) },
    gso := { g2 with retiring := g2.retiring.filter (fun e => other e.1) },
    isl := { s1.isl with chain := chain, work := work }, ports := { s1.ports with queue := queue, held := held } }

/-- The local indices of a canvas's islands but for the stretcher and the gesso. -/
def lostLocals : List Nat := List.range 22 ++ [26, 27, 28, 29, 30, 31, 33]

/-- The reset of a canvas (R561, R562): every island but the stretcher and the gesso, the units of the canvas, and the
lane map of its tether (R383). The islands come up again, the tether trains, and BOOT_EPOCH advances. -/
def State.canvasReset (s : State) (c : Nat) : State :=
  let s1 := (s.each lostLocals (fun l t => t.loseIsland (islandOf c l))).loseUnits c
  let s2 := s1.each lostLocals (fun l t => t.setIsland (islandOf c l) islWaking)
  let t := Tab.get s2.links.tether c Tether.idle
  let s3 := { s2 with links := { s2.links with tether := Tab.set s2.links.tether c { t with epoch := (t.epoch + 1) % 256, start := s.now } Tether.idle } }
  (((s3.dropRegs (fun r x => (r == 0x800010 || r == 0x800018) && x / 2 == c)).wrN TTH_STATUS.FAILED_UP c 0).wrN TTH_STATUS.FAILED_DN c 0).wrN
    TTH_STATUS.LINK c 1

end Sys2Proof.Machine
end

