-- ==== Sys2Proof/Machine/Tether.lean ====
section
/-! DEFINITION. The tether links and the hub fabric (chapter 12): flits, replay, retraining, heartbeats, a lost canvas
and its recovery, and packets at the hub. -/

namespace Sys2Proof.Machine

/-! ### Flits -/

/-- The fields of a tether flit's header. -/
structure TetherHead where
  seq   : Nat
  ack   : Nat
  type  : Nat
  vc    : Nat
  crVc  : Nat
  total : Nat
  start : Nat
  low   : Nat
deriving DecidableEq, Repr

/-- The header in the first eight bytes of a flit. -/
def TetherHead.read (bs : List Byte) : TetherHead :=
  let h := leField bs 0 8
  ⟨h / 2 ^ 52 % 4096, h / 2 ^ 40 % 4096, h / 2 ^ 37 % 8, h / 2 ^ 35 % 4, h / 2 ^ 33 % 4, h / 2 ^ 23 % 1024, h / 2 ^ 18 % 32, h % 2 ^ 18⟩

/-- A flit of 128 B: header, payload of 116 B and CRC over bytes 0 to 123 (R371). -/
def TetherHead.flit (h : TetherHead) (payload : List Byte) : List Byte :=
  let v := h.seq * 2 ^ 52 + h.ack * 2 ^ 40 + h.type * 2 ^ 37 + h.vc * 2 ^ 35 + h.crVc * 2 ^ 33 + h.total * 2 ^ 23 + h.start * 2 ^ 18 + h.low
  let b := leBytes 8 v ++ (payload ++ List.replicate 116 0).take 116
  b ++ leBytes 4 (crc32 b).toNat

/-- Whether a receiver keeps a flit (R371): 128 B, a good CRC, and neither TYPE nor VC reserved. -/
def flitGood (bs : List Byte) : Bool :=
  decide (bs.length = 128) && decide (leField bs 124 4 = (crc32 (bs.take 124)).toNat) &&
  decide ((TetherHead.read bs).type < 4) && !(decide ((TetherHead.read bs).type = 0) && decide ((TetherHead.read bs).vc = 3))

/-- The end of a tether that sends in a direction. -/
def tetherEnd (c dir : Nat) : Nat := c * 2 + dir % 2

/-- The index of TTH_CREDIT for an end and VC. -/
def tetherVc (k vc : Nat) : Nat := k * 3 + vc

/-- A tether's own state. -/
def State.tether (s : State) (c : Nat) : Tether := Tab.get s.links.tether c Tether.idle

/-- A tether's own state at a content. -/
def State.setTether (s : State) (c : Nat) (t : Tether) : State :=
  { s with links := { s.links with tether := Tab.set s.links.tether c t Tether.idle } }

/-- Whether a tether is UP. -/
def State.tetherUp (s : State) (c : Nat) : Bool := decide (c < 4) && decide (s.rdN TTH_STATUS.LINK c = 2)

/-- A flit of an end without payload: its acknowledgement and a credit total ride on it (R372). -/
def LinkEnd.plain (e : LinkEnd) (type crVc low : Nat) : List Byte :=
  (TetherHead.mk 0 e.ackField type 0 (crVc % 3) (Tab.get e.freed (crVc % 3) 0) 31 low).flit []

/-- The DATA flit of a held entry, as it is sent now. -/
def LinkEnd.dataFlit (e : LinkEnd) (f : LinkFlit) (crVc : Nat) : List Byte :=
  (TetherHead.mk f.seq e.ackField 0 f.vc (crVc % 3) (Tab.get e.freed (crVc % 3) 0) f.start 0).flit f.payload

/-! ### A lost canvas (R385 to R391) -/

/-- The requests that wait in a canvas are answered. -/
def State.answerWaiting (s : State) (c : Nat) (code : Code) : State :=
  let here := fun (j : MemJob) => keyCanvas (keyOf j.req.dpa) == c
  let jobs := s.glz.slots.flatMap (fun (e : Nat × Option FillSlot) => match e.2 with | some f => f.jobs | none => []) ++ s.glz.waiting ++
    s.glz.held.flatMap (fun (e : Nat × Option (List MemJob)) => e.2.getD [])
  let s1 := s.each (jobs.filter here) (fun j t => t.respond j code [])
  let slots := s1.glz.slots.filter (fun e => keyCanvas e.1 != c)
  let held := s1.glz.held.map (fun e => if keyCanvas e.1 == c then (e.1, e.2.map (fun _ => [])) else e)
  (s1.onGlz (fun g => { g with slots := slots, held := held, waiting := g.waiting.filter (fun j => !here j) })).wrN CNV_GLZ_FILL_INUSE.SLOTS c 0

/-- The packets that are being retried to an island of a canvas are answered; a mailbox post is dropped (R388). -/
def State.answerPackets (s : State) (c : Nat) (code : Code) : State :=
  s.each s.isl.packets (fun (e : Nat × Option Packet) t =>
    match e.2 with
    | some p =>
      if p.dst < 136 ∧ p.dst / 34 = c then
        let t1 := { t with isl := { t.isl with packets := Tab.set t.isl.packets e.1 none none } }
        match p.mail with
        | some m => (t1.bump TTH_DROPPED.COUNT c 1).each m.2.2.toList (fun q u => u.clr QUE_CTL.PENDING q)
        | none => t1.send (.packet e.1 code)
      else t
    | none => t)

/-- A canvas is marked LOST (R388): causes 1 heartbeat, 2 epoch, 3 isolated, 0 a stall. -/
def State.markLost (s : State) (c cause : Nat) : State :=
  if s.on TTH_STATUS.LOST c then s
  else
    let s1 := (s.set1 TTH_STATUS.LOST c).set1 TTH_STATUS.LOST_EVT c
    let s2 := s1.each (List.range 34) (fun l t =>
      ((t.setIsland (islandOf c l) islLost).clr GLB_ISL_STATE.PENDING_ENABLE (islandOf c l)).clr GLB_ISL_STATE.PENDING_DISABLE (islandOf c l))
    let s3 := (s2.answerPackets c 0x0201).answerWaiting c 0x0201
    let ps := (List.range 64).filter (fun p => (s3.part (c * 64 + p)).isSome)
    let s4 := s3.each ps (fun p t => (t.partFault (c * 64 + p) false 0x0201).partFault (c * 64 + p) true 0x0201)
    ((s4.coatCanvasLost c).capacity).errorSummary c 0x0201 cause 0

/-- The resident configuration without a canvas (R391). -/
def Sketch.without (k : Sketch) (c : Nat) : Sketch :=
  let far := fun n => n / 4096 != c
  let k1 := { k with parts := k.parts.filter (fun e => e.1 / 64 != c), wells := k.wells.filter (fun w => w.panel / 256 != c) }
  let k2 := { k1 with trains := k1.trains.filter (fun e => far e.1), streams := k1.streams.filter (fun e => far e.1) }
  let k3 := { k2 with starts := k2.starts.filter (fun e => e.1 / 65536 != c), seqs := k2.seqs.filter (fun q => q.canvas != c) }
  let k4 := { k3 with fins := k3.fins.filter (fun f => f.canvas != c), canvases := k3.canvases.filter (· != c) }
  { k4 with dma := k4.dma.filter (fun e => e.1 / 64 != c) }

/-- A recovery ends well (R390, R391): the islands come up again, the canvas holds no configuration, and its gesso is
zeroed, or kept and marked untrusted. -/
def State.recovered (s : State) (c : Nat) : State :=
  let zero := !(s.tether c).seenKept || s.conf
  let s1 := (s.each lostLocals (fun l t => t.loseIsland (islandOf c l))).loseUnits c
  let s2 := s1.each (List.range 34) (fun l t => t.setIsland (islandOf c l) islWaking)
  let s3 := s2.each (List.range 64) (fun q t => (t.clr GLB_QUAD_PART.ASSIGNED (c * 64 + q)).wrN GLB_QUAD_PART.PARTITION (c * 64 + q) 0)
  let s4 := { s3 with str := { s3.str with sketch := s3.str.sketch.without c } }
  let s5 := if zero then
      let t := s4.loseStretcher c
      { t with isl := { t.isl with zeroing := Tab.set t.isl.zeroing c true false } }
    else s4.set1 TTH_STATUS.GESSO_UNTRUSTED c
  ((s5.clr TTH_STATUS.LOST c).clr TTH_CTL.RECOVER c).capacity

/-! ### Training (R369, R381 to R385) -/

/-- The failed lanes of a direction. -/
def State.failedLanes (s : State) (k : Nat) : Nat := s.rdN TTH_LANE_FAIL.LANES k + s.rdN TTH_LANE_FAIL_HI.LANES k * 2 ^ 64

/-- The failed lanes of a direction at a set. -/
def State.setFailed (s : State) (k m : Nat) : State :=
  let n := onesBelow 68 m
  let s1 := (s.wrN TTH_LANE_FAIL.LANES k (m % 2 ^ 64)).wrN TTH_LANE_FAIL_HI.LANES k (m / 2 ^ 64 % 16)
  if k % 2 = 0 then s1.wrN TTH_STATUS.FAILED_UP (k / 2) n else s1.wrN TTH_STATUS.FAILED_DN (k / 2) n

/-- The WIDTH code for a number of failed lanes (R369). -/
def widthCode (failed : Nat) : Nat := if failed ≤ 4 then 3 else if failed ≤ 36 then 2 else if failed ≤ 52 then 1 else 0

/-- The WIDTH field of a direction. -/
def widthField (dir : Nat) : RegField := if dir = 0 then TTH_STATUS.WIDTH_UP else TTH_STATUS.WIDTH_DN

/-- A retrain begins where the link is UP (R382). -/
def State.tetherRetrain (s : State) (c : Nat) : State :=
  if s.tetherUp c then (s.wrN TTH_STATUS.LINK c 1).setTether c { s.tether c with start := s.now } else s

/-- A direction takes the result of a lane test (R384): a record for every lane that failed, or one of the step down. -/
def State.laneResult (s : State) (c dir found : Nat) : State :=
  let k := tetherEnd c dir
  let old := s.failedLanes k
  let new := old ||| found % 2 ^ 68
  let w0 := s.rdN (widthField dir) c
  let w := widthCode (onesBelow 68 new)
  let fresh := (List.range 68).filter (fun l => new.testBit l && !old.testBit l)
  let s1 := (s.setFailed k new).wrN (widthField dir) c w
  if w < w0 then
    if w = 0 then s1 else
    (s1.set1 TTH_STATUS.WIDTH_CHANGED c).journal 0x31 c [BitVec.ofNat 8 dir, BitVec.ofNat 8 (fresh.headD 0), BitVec.ofNat 8 (8 * 2 ^ w)]
  else if fresh.isEmpty || w0 = 0 then s1
  else (s1.set1 TTH_STATUS.SPARE_USED c).each fresh (fun l t => t.journal 0x30 c [BitVec.ofNat 8 dir, BitVec.ofNat 8 l])

/-- Every held flit of an end is sent again, after a skip set where one is due (R373, R380). -/
def State.tetherReplay (s : State) (c dir : Nat) (skip count : Bool) : State :=
  let k := tetherEnd c dir
  let e := s.linkEnd k
  let s1 := s.setEnd k (if count then e.resend s.now else e)
  (s1.bump TTH_REPLAYS.COUNT c e.held.length).each e.held (fun f t =>
    (t.when skip (·.send (.tetherSkip c dir))).send (.tetherFlit c dir (e.dataFlit f 0)))

/-- A training ends with a width of 16 or more in both directions: both ends replay after a skip set (R373, R382), and the
heartbeat timers go on from where they were paused. -/
def State.tetherTrained (s : State) (c : Nat) : State :=
  let t := s.tether c
  let pause := s.now - t.start
  let up := s.island (tetherIsland c) == islActive
  let s1 := (s.wrN TTH_STATUS.LINK c 2).setTether c
    { t with hubBeat := if up then t.hubBeat + pause else s.now, canvBeat := if up then t.canvBeat + pause else s.now }
  let s2 := s1.each [0, 1] (fun d u => u.setEnd (tetherEnd c d) ((u.linkEnd (tetherEnd c d)).fresh u.now))
  s2.each [0, 1] (fun d u => (u.send (.tetherSkip c d)).tetherReplay c d false false)

/-- TETHER_RETRAIN_DONE (R382 to R385, R390): a lane test of at least 20 µs has ended with the lanes that failed in each
direction. -/
def execTetherRetrainDone (canvas up dn : Nat) (s : State) : Res :=
  .next (if canvas < 4 ∧ s.rdN TTH_STATUS.LINK canvas = 1 ∧ s.now ≥ (s.tether canvas).start + 20000 then
    let s1 := (((s.laneResult canvas 0 up).laneResult canvas 1 dn).bump TTH_RETRAINS.COUNT canvas 1).clr TTH_CTL.RETRAIN canvas
    if s1.rdN TTH_STATUS.WIDTH_UP canvas = 0 ∨ s1.rdN TTH_STATUS.WIDTH_DN canvas = 0 then
      let s2 := s1.wrN TTH_STATUS.LINK canvas 3
      if s2.on TTH_CTL.RECOVER canvas then
        ((s2.set1 TTH_STATUS.RECOVER_FAILED canvas).clr TTH_CTL.RECOVER canvas).errorSummary canvas 0x0204 0 0
      else (s2.markLost canvas 3).capacity
    else if s1.on TTH_CTL.RECOVER canvas then (s1.recovered canvas).tetherTrained canvas
    else (s1.tetherTrained canvas).capacity
  else s)

/-- TTH_RETRAIN (R381): a write of 1 to TTH_CTL.RETRAIN. -/
def execTthRetrain (canvas : Nat) (s : State) : Res :=
  .next (if canvas < 4 ∧ (s.tetherUp canvas ∨ s.rdN TTH_STATUS.LINK canvas = 1) then (s.set1 TTH_CTL.RETRAIN canvas).tetherRetrain canvas else s)

/-- TTH_RECOVER (R390): a write of 1 to TTH_CTL.RECOVER, ignored while LOST is 0. -/
def execTthRecover (canvas : Nat) (s : State) : Res :=
  .next (if canvas < 4 ∧ s.on TTH_STATUS.LOST canvas then
    ((s.set1 TTH_CTL.RECOVER canvas).wrN TTH_STATUS.LINK canvas 1).setTether canvas { s.tether canvas with start := s.now }
  else s)

/-- SYMBOL_LOCK_LOST (R381): a lane of a tether loses symbol lock and the link retrains. -/
def execSymbolLockLost (canvas : Nat) (s : State) : Res := .next (s.tetherRetrain canvas)

/-- SKIP_SET (R373): a skip set arrives; the receiver realigns, and its elastic buffer adds or drops whole skip sets. -/
def execSkipSet (canvas dir : Nat) (slip : Int) (s : State) : Res :=
  .next (if s.tetherUp canvas ∧ dir < 2 then
    let k := tetherEnd canvas (1 - dir)
    let e := s.linkEnd k
    s.setEnd k { e with aligned := true, slips := e.slips + slip }
  else s)

/-! ### Flits sent and received (R371 to R380) -/

/-- A new DATA flit sent in a direction: it needs a credit of its VC and a free replay slot (R376, R380), and follows a
skip set after 256 flits (R373). The bytes sent, none where it must wait. -/
def State.tetherSend (s : State) (c dir : Nat) (l : LinkLoad) : Option (List Byte × State) :=
  let k := tetherEnd c dir
  let e := s.linkEnd k
  let i := tetherVc k l.vc
  if s.tetherUp c ∧ l.vc < 3 ∧ e.held.length < 256 ∧ s.rdN TTH_CREDIT.AVAIL i > 0 then
    let e1 := e.push l s.now
    let skip := decide (e1.run ≥ 256)
    let bytes := e.dataFlit ⟨e.next, l.vc, l.start, l.payload, 0⟩ l.crVc
    let s1 := (s.wrN TTH_CREDIT.AVAIL i (s.rdN TTH_CREDIT.AVAIL i - 1)).setEnd k { e1 with run := if skip then 1 else e1.run + 1 }
    some (bytes, (s1.when skip (·.send (.tetherSkip c dir))).send (.tetherFlit c dir bytes))
  else none

/-- The receiver discards a flit that it could not check or that came out of order, and sends one NAK (R379). -/
def State.tetherNak (s : State) (c dir : Nat) : State :=
  let k := tetherEnd c (1 - dir)
  let e := s.linkEnd k
  if e.naking then s else (s.setEnd k { e with naking := true }).send (.tetherFlit c (1 - dir) (e.plain 2 0 0))

/-- What every good flit carries for the receiving end's own sender: an acknowledgement and a credit total (R372,
R376). -/
def State.tetherTotals (s : State) (c dir : Nat) (h : TetherHead) : State :=
  let k := tetherEnd c (1 - dir)
  let e := (s.linkEnd k).takeAck h.ack s.now
  if h.crVc < 3 then
    let n := e.takeCredit h.crVc h.total s.now
    let i := tetherVc k h.crVc
    (s.setEnd k n.2).wrN TTH_CREDIT.AVAIL i (min 512 (s.rdN TTH_CREDIT.AVAIL i + n.1))
  else s.setEnd k e

/-- A receiver frees what it may: a REQ packet may have to wait for RSP credit (R378). -/
def State.tetherDrain (s : State) (k : Nat) : State :=
  s.setEnd k ((s.linkEnd k).drain (fun v => v == 0) (decide (s.rdN TTH_CREDIT.AVAIL (tetherVc k 1) > 0)))

/-- A HEARTBEAT taken by the hub or the canvas (R386, R387). -/
def State.tetherBeat (s : State) (c dir : Nat) (h : TetherHead) : State :=
  let t := s.tether c
  if dir = 0 then
    let epoch := h.low / 1024 % 256
    let s1 := s.setTether c { t with hubBeat := s.now, seenEpoch := some epoch, seenKept := decide (h.low / 512 % 2 = 1) }
    match t.seenEpoch with
    | some x => if x = epoch then s1 else s1.markLost c 2
    | none => s1
  else s.setTether c { t with canvBeat := s.now }

/-- A flit arrives at the end of a direction. -/
def State.tetherReceive (s : State) (c dir : Nat) (bs : List Byte) : State :=
  if s.tetherUp c ∧ dir < 2 then
    let k := tetherEnd c (1 - dir)
    if bs.length ≠ 128 ∨ !(s.linkEnd k).aligned ∨ !flitGood bs then
      let e := s.linkEnd k
      ((s.setEnd k { e with aligned := e.aligned && decide (bs.length = 128) }).bump TTH_CRC_ERR.COUNT c 1).tetherNak c dir
    else
      let h := TetherHead.read bs
      let s1 := s.tetherTotals c dir h
      if h.type = 0 then
        match (s1.linkEnd k).place h.seq with
        | .inOrder =>
          let s2 := s1.setEnd k ((s1.linkEnd k).accept h.vc s1.now)
          let s3 := if dir = 0 then s2.bump TTH_FLITS_UP.COUNT c 1 else s2.bump TTH_FLITS_DN.COUNT c 1
          (s3.send (.tetherPayload c dir h.vc h.start ((bs.drop 8).take 116))).tetherDrain k
        | .already => s1.tetherDrain k
        | .ahead => (s1.tetherNak c dir).tetherDrain k
      else
        let s2 := s1.tetherDrain k
        if h.type = 2 then
          if (s2.linkEnd k).exhausted then s2.tetherRetrain c else s2.tetherReplay c (1 - dir) true true
        else if h.type = 3 then s2.tetherBeat c dir h
        else s2
  else s

/-- TETHER_DATA (R376, R379, R380): a new DATA flit is sent where the sender may, and a flit arrives: the one sent, or
the bytes given, as they come off the wire. -/
def execTetherData (canvas dir : Nat) (fresh : Option LinkLoad) (arrived : Option (List Byte)) (s : State) : Res :=
  let sent := match fresh with
    | some l => if dir < 2 then s.tetherSend canvas dir l else none
    | none => none
  let s1 := match sent with | some x => x.2 | none => s
  .next (match arrived, sent with
    | some bs, _ => s1.tetherReceive canvas dir bs
    | none, some x => s1.tetherReceive canvas dir x.1
    | none, none => s1)

/-- TETHER_NULL (R372): a NULL flit arrives. -/
def execTetherNull (canvas dir : Nat) (flit : List Byte) (s : State) : Res := .next (s.tetherReceive canvas dir flit)

/-- TETHER_NAK (R380): a NAK arrives, and the held flits after the one it names are sent again. -/
def execTetherNak (canvas dir : Nat) (flit : List Byte) (s : State) : Res := .next (s.tetherReceive canvas dir flit)

/-- TETHER_HEARTBEAT (R386, R387): a HEARTBEAT arrives. -/
def execTetherHeartbeat (canvas dir : Nat) (flit : List Byte) (s : State) : Res := .next (s.tetherReceive canvas dir flit)

/-- TETHER_REPLAY_TIMEOUT (R380, R381): ACK has not advanced for 200 ns while flits are held. -/
def execTetherReplayTimeout (canvas dir : Nat) (s : State) : Res :=
  let e := s.linkEnd (tetherEnd canvas dir)
  .next (if s.tetherUp canvas ∧ dir < 2 ∧ !e.held.isEmpty ∧ s.now ≥ e.ackAt + 200 then
    if e.exhausted then s.tetherRetrain canvas else s.tetherReplay canvas dir false true
  else s)

/-- HEARTBEAT_SEND (R386): an end sends a HEARTBEAT, the canvas with its BOOT_EPOCH and SR_KEPT. -/
def execHeartbeatSend (canvas dir crVc : Nat) (s : State) : Res :=
  .next (if s.tetherUp canvas ∧ dir < 2 then
    let t := s.tether canvas
    let e := s.linkEnd (tetherEnd canvas dir)
    let low := if dir = 0 then t.epoch * 1024 + (if t.kept then 512 else 0) else 0
    let s1 := s.send (.tetherFlit canvas dir (e.plain 3 crVc low))
    if dir = 0 then s1.setTether canvas { t with kept := !Tab.get s.isl.gessoLost canvas false } else s1
  else s)

/-- HB_TIMEOUT in ns: at least 5 units of 10 µs. -/
def State.hbLimit (s : State) (c : Nat) : Nat := max 5 (s.rdN TTH_CTL.HB_TIMEOUT c) * 10000

/-- HB_TIMEOUT (R387): no good HEARTBEAT for HB_TIMEOUT, neither parked nor retraining. -/
def execHbTimeout (canvas : Nat) (s : State) : Res :=
  .next (if s.tetherUp canvas ∧ s.island (tetherIsland canvas) ≠ islAsleep ∧ s.now ≥ (s.tether canvas).hubBeat + s.hbLimit canvas then
    s.markLost canvas 1 else s)

/-- CANVAS_HB_LOSS (R389): the canvas has no good HEARTBEAT from the hub and halts all its threads and engines. -/
def execCanvasHbLoss (canvas : Nat) (s : State) : Res :=
  .next (if canvas < 4 ∧ s.rdN TTH_STATUS.LINK canvas ≠ 4 ∧ s.now ≥ (s.tether canvas).canvBeat + s.hbLimit canvas then
    let s1 := s.each (s.listed CNV_PNL_THR_CTL.STATE) (fun e t =>
      if e.2 == 1 && e.1 / 2048 == canvas then t.threadHalt e.1 else t)
    let s2 := s1.each (s1.listed CNV_SEQ_THR_CTL.STATE) (fun e t =>
      if (e.2 == 1 || e.2 == 2 || e.2 == 3) && e.1 / 512 == canvas then t.seqStop e.1 2 else t)
    let on := fun (t : State) (q : QId) => t.qOn q
    let s3 := s2.each (List.range 65) (fun q t =>
      let t1 := t.when (on t ⟨.row, canvas * 65 + q⟩) (·.rowStop (canvas * 65 + q) 0x0201)
      t1.when (on t1 ⟨.fin, canvas * 65 + q⟩) (·.finStop canvas q 0x0201))
    s3.each (List.range 64) (fun n t =>
      let ch := canvas * 64 + n
      if (t.dmaRuns ch).isEmpty then t.when (on t ⟨.dma, ch⟩) (·.qHalt ⟨.dma, ch⟩ 0x0201)
      else (t.setRuns ch ((t.dmaRuns ch).map (fun r => { r with failed := some (lowerFail r.failed (0x0201, r.next)) }))).dmaSettle ch)
  else s)

/-! ### The hub fabric (R375, R392, R393) -/

/-- Whether an endpoint names a unit (the table of endpoints before R375). -/
def endpointExists (d : Nat) : Bool :=
  let loc := d / 4096
  let u := d % 4096
  if loc < 4 then
    decide (u < 0x130) || (decide (0x140 ≤ u) && decide (u < 0x180)) ||
    u == 0x180 || u == 0x1F0 || u == 0x200 || u == 0x201
  else loc == 4 && (decide (u < 6) || (decide (0x40 ≤ u) && decide (u < 0x80)) || u == 0x80 || u == 0x201)

/-- Where a packet goes: by its DST, and for a REQ to a canvas's memory or register block by its DPA or its BAR0
offset (R392). -/
def hubLocation (p : HubPacket) : Nat :=
  let loc := p.dst / 4096
  let u := p.dst % 4096
  if p.vc = 0 ∧ loc < 4 ∧ 0x110 ≤ u ∧ u < 0x120 then
    match targetOf (p.addr % 2 ^ 40) with
    | .gesso c _ => c
    | .well q _ => q / 256
    | _ => 4
  else if p.vc = 0 ∧ loc < 4 ∧ u = 0x201 then
    let o := p.addr % 2 ^ 40
    if 0x2000000 ≤ o ∧ o < 0x4000000 then (o - 0x2000000) / 0x800000 else 4
  else loc

/-- A packet captured in HUB_FABRIC_ERR. -/
def State.fabricErr (s : State) (p : HubPacket) (code : Code) : State :=
  if s.on HUB_FABRIC_ERR.VALID 0 then s.set1 HUB_FABRIC_ERR.OVERRUN 0
  else (((s.set1 HUB_FABRIC_ERR.VALID 0).wrN HUB_FABRIC_ERR.SRC 0 p.src).wrN HUB_FABRIC_ERR.DST 0 p.dst).wr HUB_FABRIC_ERR.CODE 0 (codeVal code)

/-- The answer to a REQ packet; other packets have none. -/
def State.hubAnswer (s : State) (p : HubPacket) (code : Code) : State :=
  s.when (decide (p.vc = 0)) (·.send (.hubAnswer p.src p.tag code))

/-- HUB_PACKET (R375, R388, R392, R393): a packet at the hub fabric is delivered, or answered where it cannot be. -/
def execHubPacket (packet : HubPacket) (uncorrectable : Bool) (s : State) : Res :=
  .next (if packet.op = 0 ∨ packet.op > 14 ∨ !endpointExists packet.dst then
    ((s.set1 HUB_FABRIC_STATUS.ROUTE_ERR 0).fabricErr packet 0x0203).hubAnswer packet 0x0203
  else
    let s1 := s.when uncorrectable (fun t => (t.set1 HUB_FABRIC_STATUS.POISONED 0).fabricErr packet 0x0202)
    let p := if uncorrectable then { packet with flags := packet.flags ||| 1 } else packet
    let loc := (hubLocation p)
    if loc < 4 ∧ s1.on TTH_STATUS.LOST loc then
      if p.op = 7 then s1.bump TTH_DROPPED.COUNT loc 1 else s1.hubAnswer p 0x0201
    else
      let s2 := s1.send (.hubPacket loc p)
      s2.when (p.flags.testBit 0) (·.hubAnswer p 0x0202))

end Sys2Proof.Machine
end

