-- ==== Sys2Proof/Machine/Spar.lean ====
section
/-! DEFINITION. The spar links (chapter 13): flits under AES-256-GCM, replay, routing and forwarding, keys, training and
failure; and the watch over credits and stalled virtual channels that tether and spar share (R377, R404, R528). -/

namespace Sys2Proof.Machine

/-! ### Coordinates and routing (R4, R408, R409) -/

/-- Position of a coordinate on an axis: X, Y, Z, W. -/
def coordAxis (c axis : Nat) : Nat :=
  if axis = 0 then c % 4 else if axis = 1 then c / 4 % 8 else if axis = 2 then c / 32 % 32 else c / 1024 % 64

/-- A coordinate with its position on an axis replaced. -/
def coordSet (c axis v : Nat) : Nat :=
  let w := if axis = 0 then 1 else if axis = 1 then 4 else if axis = 2 then 32 else 1024
  c - coordAxis c axis * w + v * w

/-- The ring size of an axis. -/
def State.axisSize (s : State) (axis : Nat) : Nat :=
  (if axis = 0 then s.rdN SPR_DIM.X_SIZE 0 else if axis = 1 then s.rdN SPR_DIM.Y_SIZE 0
   else if axis = 2 then s.rdN SPR_DIM.Z_SIZE 0 else s.rdN SPR_DIM.W_SIZE 0) + 1

/-- SPR_DIM as TRAIN flits carry it: the bits of the register. -/
def State.dims (s : State) : Nat :=
  s.rdN SPR_DIM.X_SIZE 0 + s.rdN SPR_DIM.Y_SIZE 0 * 4 + s.rdN SPR_DIM.Z_SIZE 0 * 32 + s.rdN SPR_DIM.W_SIZE 0 * 1024

/-- The cut of an axis: the position k of the link from k to k + 1. -/
def State.axisCut (s : State) (axis : Nat) : Option Nat :=
  let f := if axis = 0 then (SPR_RING_CUT.X_EN, SPR_RING_CUT.X_POS) else if axis = 1 then (SPR_RING_CUT.Y_EN, SPR_RING_CUT.Y_POS)
    else if axis = 2 then (SPR_RING_CUT.Z_EN, SPR_RING_CUT.Z_POS) else (SPR_RING_CUT.W_EN, SPR_RING_CUT.W_POS)
  if s.on f.1 0 then some (s.rdN f.2 0) else none

/-- Whether every field of a coordinate lies below its axis size (R408). -/
def State.reachable (s : State) (d : Nat) : Bool := [0, 1, 2, 3].all (fun a => decide (coordAxis d a < s.axisSize a))

/-- The direction taken on an axis (R409): true is +. -/
def State.axisPlus (s : State) (axis dst : Nat) : Bool :=
  let n := s.axisSize axis
  let o := coordAxis s.coord axis
  let plus := (coordAxis dst axis + n - o % n) % n
  match s.axisCut axis with
  | some k =>
    -- the + path from o crosses the links o, o + 1, ..., o + plus - 1
    decide (¬ (k + n - o % n) % n < plus)
  | none => decide (plus ≤ n - plus)

/-- The output port for a destination, none where it is this device (R409): the axes in the order X, Y, Z, W. -/
def State.routePort (s : State) (dst : Nat) : Option Nat :=
  match [0, 1, 2, 3].find? (fun a => coordAxis dst a != coordAxis s.coord a) with
  | some a => some (if s.axisPlus a dst then 2 * a else 2 * a + 1)
  | none => none

/-- The VC on which a packet leaves by a port (R409): dateline 0 where it enters the axis, the dateline it had where it
goes on, and dateline 1 once it crosses the dateline link. -/
def State.routeVc (s : State) (input vc port : Nat) : Nat :=
  let a := port / 2
  let o := coordAxis s.coord a
  let crosses := if port % 2 = 0 then decide (o + 1 = s.axisSize a) else decide (o = 0)
  let kept := if input < 8 ∧ input / 2 = a then vc % 2 else 0
  vc / 2 * 2 + (if crosses then 1 else kept)

/-- The coordinate that the wiring of R420 demands at a port. -/
def State.wired (s : State) (p : Nat) : Nat :=
  let a := p / 2
  let n := s.axisSize a
  let o := coordAxis s.coord a
  coordSet s.coord a (if p % 2 = 0 then (o + 1) % n else (o + n - 1) % n)

/-- The peer's port that the wiring of R420 demands. -/
def wiredPort (p : Nat) : Nat := if p % 2 = 0 then p + 1 else p - 1

/-! ### Ports -/

/-- A spar port's own state. -/
def State.spar (s : State) (p : Nat) : SparPort := Tab.get s.links.spar p SparPort.idle

/-- A spar port's own state at a content. -/
def State.setSpar (s : State) (p : Nat) (x : SparPort) : State :=
  { s with links := { s.links with spar := Tab.set s.links.spar p x SparPort.idle } }

/-- The LINK of a port. -/
def State.sparLink (s : State) (p : Nat) : Nat := s.rdN SPR_STATUS.LINK p

/-- Whether a port carries flits: UP or HOLD. -/
def State.sparLive (s : State) (p : Nat) : Bool := decide (p < 8) && (s.sparLink p == 3 || s.sparLink p == 4)

/-- The spar island of a port. -/
def sparIsland (p : Nat) : Nat := 139 + p / 4

/-- A code and the peer as the SPAR_DOWN record carries them. -/
def State.downRecord (s : State) (p : Nat) (code : Code) : List Byte :=
  [BitVec.ofNat 8 p] ++ leBytes 2 code.toNat ++ leBytes 2 (s.rdN SPR_PEER.COORD p)

/-- The answer to a spar packet that goes no further, where it is a REQ packet. -/
def State.sparAnswer (s : State) (vc : Nat) (k : SparPacket) (code : Code) : State :=
  s.when (decide (vc < 2)) (·.send (.sparAnswer k.srcCoord k.src k.tag code))

/-- A packet for a port that is DOWN (R422). -/
def State.sparRefuse (s : State) (p vc : Nat) (k : SparPacket) : State :=
  if vc < 2 then s.sparAnswer vc k 0x0220 else s.bump SPR_DROPPED.COUNT p 1

/-- The coats that this device coordinates and that still wait for a vote over a port abort (R337). -/
def State.coatLinkDown (s : State) (p : Nat) : State :=
  s.each s.openCoats (fun e t =>
    if e.2.isCoord && e.2.decided.isNone && e.2.ended.isNone &&
      e.2.devices.any (fun d => !e.2.votes.contains d && decide (t.routePort d = some p)) then t.coatAbort e.1 0x0409 else t)

/-- The open collectives with a member that is reached over a port halt (R437). -/
def State.collLinkDown (s : State) (p : Nat) : State :=
  s.each s.colls (fun c t => if c.members.any (fun m => decide (t.routePort m.1 = some p)) then t.collHalt c 0x0220 false c.rank else t)

/-- A link goes DOWN (R422). -/
def State.sparDown (s : State) (p : Nat) (code : Code) : State :=
  let mine := s.links.heads.filterMap (fun (e : Nat × Option SparHead) =>
    match e.2 with
    | some h => if h.out = p then some (e.1, h) else none
    | none => none)
  let s1 := s.each mine (fun e t =>
    ({ t with links := { t.links with heads := Tab.set t.links.heads e.1 none none } }).sparRefuse p e.2.outVc e.2.packet)
  let s2 := (s1.setEnd (16 + p) LinkEnd.idle).setSpar p SparPort.idle
  let s3 := (((((s2.wrN SPR_STATUS.LINK p 0).wrN SPR_STATUS.WIDTH p 0).clr SPR_CTL.RETRAIN p).clr SPR_CTL.REKEY p).wrN SPR_KEY.NEXT_RX p
    0).wrN SPR_KEY.NEXT_TX p 0
  let s4 := ((s3.wrN SPR_KEY.RX_KEY p 0).wrN SPR_KEY.TX_KEY p 0).set1 SPR_STATUS.DOWN_EVT p
  ((s4.journal 0x34 4 (s4.downRecord p code)).coatLinkDown p).collLinkDown p

/-! ### Flits sent (R398, R399) -/

/-- The initialisation vector: the sender's coordinate and port and the flit counter. -/
def sparIv (coord port ctr : Nat) : BitVec 96 := BitVec.ofNat 96 (coord % 65536 * 2 ^ 80 + port % 8 * 2 ^ 64 + ctr % 2 ^ 64)

/-- The next value of the flit counter taken for a slot that a sender fills. -/
def State.sparCount (s : State) (p : Nat) : State :=
  (s.wrN SPR_TX_CTR.VALUE p (s.rdN SPR_TX_CTR.VALUE p + 1)).wrN SPR_KEY_FLITS.VALUE p (s.rdN SPR_KEY_FLITS.VALUE p + 1)

/-- A flit sent: the header's low 49 bits are given, the counter and the key slot are the sender's. Nothing is sent where
no key is installed (R402). -/
def State.sparEmit (s : State) (p low : Nat) (payload : List Byte) : State :=
  let slot := s.rdN SPR_KEY.TX_KEY p
  match Tab.get (s.spar p).txKey slot none with
  | none => s
  | some key =>
    let ctr := s.rdN SPR_TX_CTR.VALUE p
    let head := leBytes 8 (ctr % 16384 * 2 ^ 50 + slot * 2 ^ 49 + low)
    let sealed := Config.gcmSeal key (sparIv s.coord p ctr) head ((payload ++ List.replicate 236 0).take 236)
    (s.sparCount p).send (.sparFlit p (head ++ sealed.1 ++ sealed.2))

/-- The part of a header that the sender fills in below the key bit. -/
def LinkEnd.sparLow (e : LinkEnd) (type seq vc start : Nat) : Nat :=
  seq * 2 ^ 37 + e.ackField * 2 ^ 25 + type * 2 ^ 22 + vc * 2 ^ 19 + vc * 2 ^ 16 + Tab.get e.freed vc 0 * 2 ^ 6 + start

/-- A held DATA flit sent. -/
def State.sparSendHeld (s : State) (p : Nat) (f : LinkFlit) : State :=
  s.sparEmit p ((s.linkEnd (16 + p)).sparLow 0 f.seq f.vc f.start) f.payload

/-- Every held flit sent again (R406). -/
def State.sparReplay (s : State) (p : Nat) (count : Bool) : State :=
  let e := s.linkEnd (16 + p)
  let s1 := (s.setEnd (16 + p) (if count then e.resend s.now else e)).bump SPR_REPLAYS.COUNT p e.held.length
  s1.each e.held (fun f t => t.sparSendHeld p f)

/-- A retrain begins (R421). -/
def State.sparRetrain (s : State) (p : Nat) : State :=
  if s.sparLive p then
    (s.wrN SPR_STATUS.LINK p 1).setSpar p { s.spar p with retrain := true, start := s.now, trained := none }
  else s

/-- The receiver sends one NAK (R379, R406). -/
def State.sparNak (s : State) (p : Nat) : State :=
  let e := s.linkEnd (16 + p)
  if e.naking then s
  else (s.setEnd (16 + p) { e with naking := true }).sparEmit p (e.sparLow 2 0 0 63) []

/-! ### Flits received (R396, R400, R401, R406) -/

/-- A flit whose tag fails (R401): the sixteenth of one port within 1 ms takes the port DOWN. -/
def State.sparAuthFail (s : State) (p : Nat) : State :=
  let x := s.spar p
  let recent := x.fails.filter (fun t => decide (s.now < t + 1000000)) ++ [s.now]
  let s1 := (s.bump SPR_AUTH_FAIL.COUNT p 1).setSpar p { x with fails := recent }
  if recent.length ≥ 16 then
    ((s1.set1 SPR_STATUS.AUTH_EVT p).journal 0x35 4 (s1.downRecord p 0x0223)).sparDown p 0x0223
  else s1

/-- The counter of an arriving flit: the least value above the last accepted one with the given low bits (R400). -/
def nextCounter (last lo : Nat) : Nat := last + 1 + (lo + 16384 - (last + 1) % 16384) % 16384

/-- A receiver frees what it may (R405). -/
def State.sparDrain (s : State) (p : Nat) : State :=
  s.setEnd (16 + p) ((s.linkEnd (16 + p)).drain (fun v => decide (v < 2))
    (decide (s.rdN SPR_CREDIT.AVAIL (p * 8 + 2) + s.rdN SPR_CREDIT.AVAIL (p * 8 + 3) > 0)))

/-- A flit under the NEXT key is the first that the sender sends with it: the old key is erased (R416). -/
def State.sparRxSwitch (s : State) (p slot : Nat) : State :=
  if slot = s.rdN SPR_KEY.RX_KEY p then s
  else
    let x := s.spar p
    ((s.setSpar p { x with rxKey := Tab.set x.rxKey (s.rdN SPR_KEY.RX_KEY p) none none }).wrN SPR_KEY.RX_KEY p slot).clr SPR_KEY.NEXT_RX p

/-- What an accepted flit does. -/
def State.sparTake (s : State) (p h : Nat) (payload : List Byte) : State :=
  let k := 16 + p
  let crVc := h / 2 ^ 16 % 8
  let e := (s.linkEnd k).takeAck (h / 2 ^ 25 % 4096) s.now
  let n := e.takeCredit crVc (h / 2 ^ 6 % 1024) s.now
  let s1 := ((s.setEnd k n.2).wrN SPR_CREDIT.AVAIL (p * 8 + crVc) (min 512 (s.rdN SPR_CREDIT.AVAIL (p * 8 + crVc) + n.1)))
  let type := h / 2 ^ 22 % 8
  let vc := h / 2 ^ 19 % 8
  if type = 0 then
    match (s1.linkEnd k).place (h / 2 ^ 37 % 4096) with
    | .inOrder =>
      let s2 := (s1.setEnd k ((s1.linkEnd k).accept vc s1.now)).bump SPR_FLITS_RX.COUNT p 1
      (s2.send (.sparPayload p vc (h % 64) payload)).sparDrain p
    | .already => s1.sparDrain p
    | .ahead => (s1.sparNak p).sparDrain p
  else
    let s2 := s1.sparDrain p
    if type = 2 then (if (s2.linkEnd k).exhausted then s2.sparRetrain p else s2.sparReplay p true)
    else s2

/-- A flit arrives on a port that is UP or in HOLD. A flit in an uncorrectable codeword, of a reserved TYPE, or of a wrong
tag is discarded, and replay recovers it. -/
def State.sparReceive (s : State) (p : Nat) (flit : List Byte) (fec : FecResult) : State :=
  if s.sparLive p then
    let s1 := (s.bump SPR_FEC_CORR.COUNT p fec.corrected).bump SPR_FEC_UNCORR.COUNT p fec.failed
    if fec.hit ∨ flit.length ≠ 256 then s1.sparNak p
    else
      let h := leField flit 0 8
      let ctr := nextCounter (s1.rdN SPR_RX_CTR.VALUE p) (h / 2 ^ 50 % 16384)
      let slot := h / 2 ^ 49 % 2
      let opened := match Tab.get (s1.spar p).rxKey slot none with
        | some key => Config.gcmOpen key (sparIv (s1.wired p) (wiredPort p) ctr) (flit.take 8) ((flit.drop 8).take 236) (flit.drop 244)
        | none => none
      match opened with
      | none => (s1.sparAuthFail p).when (decide (((s1.sparAuthFail p).sparLink p) ≠ 0)) (·.sparNak p)
      | some pt =>
        let s2 := (s1.wrN SPR_RX_CTR.VALUE p ctr).sparRxSwitch p slot
        let s3 := s2.setSpar p { s2.spar p with lastRx := s2.now }
        if h / 2 ^ 22 % 8 > 2 then s3 else s3.sparTake p h pt
  else s

/-- SPAR_DATA (R401, R406): a DATA flit arrives. -/
def execSparData (port : Nat) (flit : List Byte) (fec : FecResult) (s : State) : Res := .next (s.sparReceive port flit fec)

/-- SPAR_NULL (R398, R404): a NULL flit arrives. -/
def execSparNull (port : Nat) (flit : List Byte) (fec : FecResult) (s : State) : Res := .next (s.sparReceive port flit fec)

/-- SPAR_NAK (R406): a NAK arrives. -/
def execSparNak (port : Nat) (flit : List Byte) (fec : FecResult) (s : State) : Res := .next (s.sparReceive port flit fec)

/-- SPAR_REPLAY_TIMEOUT (R406): ACK has not advanced for 400 ns while flits are held. -/
def execSparReplayTimeout (port : Nat) (s : State) : Res :=
  let e := s.linkEnd (16 + port)
  .next (if s.sparLive port ∧ !e.held.isEmpty ∧ s.now ≥ e.ackAt + 400 then
    if e.exhausted then s.sparRetrain port else s.sparReplay port true
  else s)

/-- SPAR_RX_IDLE (R400): no flit of any type accepted for 2 µs. -/
def execSparRxIdle (port : Nat) (s : State) : Res :=
  .next (if s.sparLive port ∧ s.now ≥ (s.spar port).lastRx + 2000 then s.sparRetrain port else s)

/-! ### Keys (R415 to R418, R494) -/

/-- The RTP offers an ephemeral public key for a slot. -/
def State.sparOffer (s : State) (p slot : Nat) : State :=
  let d := s.draw
  (d.2.setSpar p { d.2.spar p with offer := some d.1 }).send (.keyMsg p (.offer slot (Config.ecdhPublic d.1) true))

/-- The link secret L of R494. -/
def State.linkSecret (s : State) : List Byte :=
  match s.conf, s.sec.tlk with
  | true, some k => Config.linkSecret k
  | _, _ => List.replicate 48 0

/-- The key of a direction (R494). -/
def State.sparKey (s : State) (shared : List Byte) (fromC fromP toC toP slot : Nat) : BitVec 256 :=
  Config.kdf (Config.hmac384 s.linkSecret shared) ([75, 89, 71, 45, 68, 73, 82].map (BitVec.ofNat 8))
    (leBytes 2 fromC ++ [BitVec.ofNat 8 fromP] ++ leBytes 2 toC ++ [BitVec.ofNat 8 toP, BitVec.ofNat 8 slot])

/-- The keys of a slot agreed from the peer's public key: the first ones become current and start the counters, later
ones are NEXT, and the receiver reports that they are installed (R398, R415, R416). -/
def State.sparInstall (s : State) (p slot : Nat) (eph : Val) (peer : List Byte) : State :=
  let z := Config.ecdhShared eph peer
  let x := s.spar p
  let tx := s.sparKey z s.coord p (s.wired p) (wiredPort p) slot
  let rx := s.sparKey z (s.wired p) (wiredPort p) s.coord p slot
  let s1 := s.setSpar p { x with txKey := Tab.set x.txKey slot (some tx) none, rxKey := Tab.set x.rxKey slot (some rx) none, offer := none }
  if s.sparLink p = 2 then
    let s2 := ((((s1.wrN SPR_KEY.TX_KEY p slot).wrN SPR_KEY.RX_KEY p slot).wrN SPR_TX_CTR.VALUE p 0).wrN SPR_RX_CTR.VALUE p 0).wrN SPR_KEY_FLITS.VALUE p 0
    (s2.send (.sparTrain p s2.coord s2.dims 0)).sparCount p
  else ((s1.set1 SPR_KEY.NEXT_TX p).set1 SPR_KEY.NEXT_RX p).send (.keyMsg p (.installed slot))

/-- KEY_MSG (R402, R415, R416, R494): the peer's signed public key, or its report that the NEXT key is installed. -/
def execKeyMsg (port : Nat) (msg : KeyMsg) (s : State) : Res :=
  .next (if port < 8 ∧ (s.sparLink port = 2 ∨ s.sparLive port) then
    match msg with
    | .offer slot pub trusted =>
      if !trusted then s.sparDown port 0x0226
      else if slot > 1 ∨ (s.sparLive port ∧ slot = s.rdN SPR_KEY.TX_KEY port) then s
      else
        let s1 := if (s.spar port).offer.isSome then s else s.sparOffer port slot
        match (s1.spar port).offer with
        | some eph => s1.sparInstall port slot eph pub
        | none => s1
    | .installed slot =>
      if s.sparLive port ∧ s.on SPR_KEY.NEXT_TX port ∧ slot ≠ s.rdN SPR_KEY.TX_KEY port then
        let x := s.spar port
        let s1 := s.setSpar port { x with txKey := Tab.set x.txKey (s.rdN SPR_KEY.TX_KEY port) none none }
        ((((s1.wrN SPR_KEY.TX_KEY port slot).clr SPR_KEY.NEXT_TX port).wrN SPR_KEY_FLITS.VALUE port 0).clr SPR_CTL.REKEY port).wrN SPR_STATUS.LINK port 3
      else s
  else s)

/-- The RTP starts the agreement of the NEXT key where none is under way. -/
def State.sparRekey (s : State) (p : Nat) : State :=
  let s1 := s.set1 SPR_STATUS.REKEY_DUE p
  if (s1.spar p).offer.isSome || s1.on SPR_KEY.NEXT_TX p then s1 else s1.sparOffer p (1 - s1.rdN SPR_KEY.TX_KEY p % 2)

/-- REKEY (R415): a write of 1 to SPR_CTL.REKEY sets REKEY_DUE at once. -/
def execRekey (port : Nat) (s : State) : Res :=
  .next (if s.sparLive port then (s.set1 SPR_CTL.REKEY port).sparRekey port else s)

/-- REKEY_DUE (R415): 2^39 flits have been sent under the current key. -/
def execRekeyDue (port : Nat) (s : State) : Res :=
  .next (if s.sparLive port ∧ s.rdN SPR_KEY_FLITS.VALUE port ≥ 2 ^ 39 then s.sparRekey port else s)

/-- KEY_HOLD (R417): 2^40 − 2^24 flits under one key and no switch. -/
def execKeyHold (port : Nat) (s : State) : Res :=
  .next (if port < 8 ∧ s.sparLink port = 3 ∧ s.rdN SPR_KEY_FLITS.VALUE port ≥ 2 ^ 40 - 2 ^ 24 then
    (s.wrN SPR_STATUS.LINK port 4).set1 SPR_STATUS.KEY_EXHAUSTED port else s)

/-- KEY_EXHAUST (R417): 2^40 flits under one key. -/
def execKeyExhaust (port : Nat) (s : State) : Res :=
  .next (if s.sparLive port ∧ s.rdN SPR_KEY_FLITS.VALUE port ≥ 2 ^ 40 then s.sparDown port 0x0225 else s)

/-- KEY_AGREE_TIMEOUT (R418): no key agreed for 1 s in BOOT. -/
def execKeyAgreeTimeout (port : Nat) (s : State) : Res :=
  .next (if port < 8 ∧ s.sparLink port = 2 ∧ s.now ≥ (s.spar port).bootAt + 1000000000 then s.sparDown port 0x0226 else s)

/-- SPAR_BOOT (R402): a BOOT flit arrives: 256 B, CRC over bytes 0 to 243, zeros behind it; its payload goes to the RTP. -/
def execSparBoot (port : Nat) (flit : List Byte) (s : State) : Res :=
  .next (if port < 8 ∧ s.sparLink port = 2 ∧ flit.length = 256 ∧ leField flit 0 8 / 2 ^ 22 % 8 = 4 ∧
      leField flit 244 4 = (crc32 (flit.take 244)).toNat ∧ leField flit 248 8 = 0 then
    (s.setSpar port { s.spar port with lastRx := s.now }).send (.sparBoot port ((flit.drop 8).take 236))
  else s)

/-- SPAR_TRAIN (R399, R400, R419): a TRAIN flit arrives with the peer's coordinate, port and ring sizes and the whole
counter; good says that its tag verifies. -/
def execSparTrain (port coord peerPort dims counter : Nat) (good : Bool) (s : State) : Res :=
  let keyed := (Tab.get (s.spar port).rxKey (s.rdN SPR_KEY.RX_KEY port) none).isSome
  .next (if port < 8 ∧ keyed ∧ (s.sparLink port = 2 ∨ (s.sparLink port = 1 ∧ (s.spar port).retrain)) then
    if good then
      ((((s.set1 SPR_PEER.VALID port).wrN SPR_PEER.COORD port coord).wrN SPR_PEER.PORT port peerPort).wrN SPR_RX_CTR.VALUE port counter).setSpar
        port { s.spar port with trained := some dims, lastRx := s.now }
    else s.sparAuthFail port
  else s)

/-! ### Training, step-down and failure (R419 to R422) -/

/-- Failed lanes noted: rx as found here, tx as found by the peer; each lane that failed anew sets LANE_FAILED and has a
record (direction 0 transmit, 1 receive). -/
def State.sparLanes (s : State) (p rx tx : Nat) : State :=
  let oldR := s.rdN SPR_LANE_FAIL.RX p
  let oldT := s.rdN SPR_LANE_FAIL.TX p
  let newR := oldR ||| rx % 65536
  let newT := oldT ||| tx % 65536
  let fresh := fun (new old dir : Nat) => ((List.range 16).filter (fun l => new.testBit l && !old.testBit l)).map (fun l => (l, dir))
  let all := fresh newT oldT 0 ++ fresh newR oldR 1
  let s1 := (s.wrN SPR_LANE_FAIL.RX p newR).wrN SPR_LANE_FAIL.TX p newT
  (s1.when (!all.isEmpty) (·.set1 SPR_STATUS.LANE_FAILED p)).each all (fun e t =>
    t.journal 0x32 4 [BitVec.ofNat 8 p, BitVec.ofNat 8 e.1, BitVec.ofNat 8 e.2])

/-- The WIDTH code of a port: 16 lanes, 8 lanes, or none, by the direction with fewer working lanes. -/
def State.sparWidth (s : State) (p : Nat) : Nat :=
  let bad := max (onesBelow 16 (s.rdN SPR_LANE_FAIL.RX p)) (onesBelow 16 (s.rdN SPR_LANE_FAIL.TX p))
  if bad = 0 then 2 else if bad ≤ 8 then 1 else 0

/-- Training starts on a port that is DOWN; the failed lanes are cleared where ENABLE was 0 (R419, R422). -/
def State.sparStart (s : State) (p : Nat) : State :=
  let s1 := if s.on SPR_CTL.ENABLE p then s else ((s.wrN SPR_LANE_FAIL.RX p 0).wrN SPR_LANE_FAIL.TX p 0).set1 SPR_CTL.ENABLE p
  if s1.sparLink p = 0 then (s1.wrN SPR_STATUS.LINK p 1).setSpar p { SparPort.idle with start := s.now } else s1

/-- A write of ENABLE. -/
def State.sparEnable (s : State) (p : Nat) (on : Bool) : State :=
  if on then s.sparStart p
  else (s.when (decide (s.sparLink p ≠ 0)) (·.sparDown p 0x0220)).clr SPR_CTL.ENABLE p

/-- SPAR_ENABLE (R419): a write of 1 to SPR_CTL.ENABLE. -/
def execSparEnable (port : Nat) (s : State) : Res :=
  .next (if port < 8 ∧ s.island (sparIsland port) = islActive then s.sparEnable port true else s)

/-- SPAR_DISABLE (R422): a write of 0 to SPR_CTL.ENABLE takes the link DOWN. -/
def execSparDisable (port : Nat) (s : State) : Res :=
  .next (if port < 8 ∧ s.island (sparIsland port) = islActive then s.sparEnable port false else s)

/-- Whether the peer meets the wiring check of R420. -/
def State.wiringGood (s : State) (p dims : Nat) : Bool :=
  decide (s.axisSize (p / 2) > 1) && decide (s.rdN SPR_PEER.COORD p = s.wired p) && decide (s.rdN SPR_PEER.PORT p = wiredPort p) &&
  decide (dims = s.dims)

/-- SPAR_TRAINING_DONE (R419, R420): in TRAINING the lane test has ended; in BOOT the keys are agreed and TRAIN flits
have come, and the wiring decides. -/
def execSparTrainingDone (port rx tx : Nat) (s : State) : Res :=
  let x := s.spar port
  .next (if port < 8 ∧ s.sparLink port = 1 ∧ !x.retrain ∧ s.now ≥ x.start + 20000 then
    let s1 := s.sparLanes port rx tx
    let w := s1.sparWidth port
    if w = 0 then ((s1.wrN SPR_STATUS.LINK port 0).wrN SPR_STATUS.WIDTH port 0).set1 SPR_STATUS.DOWN_EVT port
    else
      let s2 := ((s1.wrN SPR_STATUS.LINK port 2).wrN SPR_STATUS.WIDTH port w).flag SPR_STATUS.RATE port s1.str.sketch.primer
      (s2.setSpar port { s2.spar port with bootAt := s2.now }).sparOffer port 0
  else if port < 8 ∧ s.sparLink port = 2 ∧ (Tab.get x.txKey (s.rdN SPR_KEY.TX_KEY port) none).isSome then
    match x.trained with
    | none => s
    | some dims =>
      if s.wiringGood port dims then
        let s1 := (s.wrN SPR_STATUS.LINK port 3).setEnd (16 + port) LinkEnd.idle
        (s1.each (List.range 8) (fun v t => t.wrN SPR_CREDIT.AVAIL (port * 8 + v) 512)).setSpar port { x with lastRx := s.now }
      else (s.set1 SPR_STATUS.WIRING_ERR port).sparDown port 0x0224
  else s)

/-- SPAR_RETRAIN (R421): a write of 1 to SPR_CTL.RETRAIN. -/
def execSparRetrain (port : Nat) (s : State) : Res :=
  .next (if s.sparLive port ∨ (port < 8 ∧ s.sparLink port = 1) then (s.set1 SPR_CTL.RETRAIN port).sparRetrain port else s)

/-- SPAR_RETRAIN_DONE (R421): the lane test of a retrain has ended and TRAIN flits have come. -/
def execSparRetrainDone (port rx tx : Nat) (s : State) : Res :=
  let x := s.spar port
  .next (if port < 8 ∧ s.sparLink port = 1 ∧ x.retrain ∧ s.now ≥ x.start + 20000 then
    let s1 := s.sparLanes port rx tx
    let w := s1.sparWidth port
    if w = 0 then s1.sparDown port 0x0220
    else if x.trained.isNone then s
    else
      let changed := decide (w ≠ s1.rdN SPR_STATUS.WIDTH port)
      let s2 := (s1.wrN SPR_STATUS.WIDTH port w).when changed (fun t =>
        (t.set1 SPR_STATUS.WIDTH_CHANGED port).journal 0x33 4 [BitVec.ofNat 8 port, BitVec.ofNat 8 (8 * w)])
      let hold := s2.rdN SPR_KEY_FLITS.VALUE port ≥ 2 ^ 40 - 2 ^ 24
      let s3 := ((s2.wrN SPR_STATUS.LINK port (if hold then 4 else 3)).clr SPR_CTL.RETRAIN port).bump SPR_RETRAINS.COUNT port 1
      let s4 := (s3.setSpar port { x with retrain := false, lastRx := s.now }).setEnd (16 + port) ((s3.linkEnd (16 + port)).fresh s.now)
      s4.sparReplay port false
  else s)

/-! ### Forwarding (R403, R408 to R414) -/

/-- The bytes of a packet: its 32 B header and its data (R403). -/
def sparBytes (k : SparPacket) : List Byte :=
  leBytes 1 k.op ++ leBytes 1 k.flags ++ leBytes 2 k.len ++ leBytes 2 k.srcCoord ++ leBytes 2 k.dstCoord ++ leBytes 2 k.src ++
  leBytes 2 k.dst ++ leBytes 2 k.tag ++ leBytes 1 k.part ++ leBytes 1 k.age ++ leBytes 6 k.addr ++ leBytes 1 k.hops ++
  List.replicate 9 0 ++ (k.data ++ List.replicate k.len 0).take k.len

/-- A new DATA flit of a port: it takes a credit and a replay slot. -/
def State.sparData (s : State) (p vc start : Nat) (payload : List Byte) : State :=
  let e := s.linkEnd (16 + p)
  let f : LinkFlit := ⟨e.next, vc, start, payload, 0⟩
  let s1 := (s.setEnd (16 + p) (e.push ⟨vc, vc, start, payload⟩ s.now)).wrN SPR_CREDIT.AVAIL (p * 8 + vc) (s.rdN SPR_CREDIT.AVAIL (p * 8 + vc) - 1)
  (s1.sparSendHeld p f).bump SPR_FLITS_TX.COUNT p 1

/-- A packet sent whole on a port: its flits one after another, the first marked in PKT_START. -/
def State.sparPacket (s : State) (p vc : Nat) (k : SparPacket) : State :=
  let ps := pieces 236 (sparBytes k)
  s.each (ps.zip (List.range ps.length)) (fun e t => t.sparData p vc (if e.2 = 0 then 0 else 63) e.1)

/-- The head of an input of the crossbar. -/
def State.sparHead (s : State) (input vc : Nat) : Option SparHead := Tab.get s.links.heads (input * 8 + vc) none

/-- The head of an input at a content. -/
def State.setHead (s : State) (input vc : Nat) (h : Option SparHead) : State :=
  { s with links := { s.links with heads := Tab.set s.links.heads (input * 8 + vc) h none } }

/-- Whether a packet may leave now: the output is UP with credits and replay slots for it, and no other input waits for
the same output VC with a higher AGE (R412 to R414). -/
def State.mayLeave (s : State) (input vc : Nat) (h : SparHead) : Bool :=
  let n := (pieces 236 (sparBytes h.packet)).length
  s.sparLink h.out == 3 && decide (s.rdN SPR_CREDIT.AVAIL (h.out * 8 + h.outVc) ≥ n) && decide ((s.linkEnd (16 + h.out)).held.length + n ≤ 512) &&
  s.links.heads.all (fun (e : Nat × Option SparHead) =>
    match e.2 with
    | some o => e.1 == input * 8 + vc || o.out != h.out || o.outVc != h.outVc || decide (o.packet.age ≤ h.packet.age)
    | none => true)

/-- A head leaves, or goes on waiting. -/
def State.tryLeave (s : State) (input vc : Nat) (h : SparHead) : State :=
  if s.mayLeave input vc h then
    let s1 := (s.setHead input vc none).sparPacket h.out h.outVc { h.packet with hops := h.packet.hops + 1 }
    s1.when (decide (input < 8)) (·.bump SPR_TRANSIT.COUNT h.out 1)
  else s.setHead input vc (some h)

/-- TRANSIT_FORWARD (R408 to R414, R422): a packet at the head of an input (0 to 7 the ports, 8 local injection) is
delivered, answered, discarded, sent on, or waits; where one waits there already, that one is tried again. -/
def execTransitForward (input vc : Nat) (packet : SparPacket) (s : State) : Res :=
  .next (if input > 8 ∨ vc > 7 then s
  else match s.sparHead input vc with
    | some h => s.tryLeave input vc h
    | none =>
      let k := if input = 8 then { packet with age := 0, hops := 0 } else packet
      if !s.reachable k.dstCoord then (s.set1 SPR_GLB_STATUS.UNREACHABLE 0).sparAnswer vc k 0x0221
      else match s.routePort k.dstCoord with
        | none => s.send (.sparLocal k)
        | some p =>
          if k.hops + 1 ≥ 128 then (s.set1 SPR_GLB_STATUS.HOP_LIMIT 0).sparAnswer vc k 0x0222
          else if s.sparLink p = 0 then s.sparRefuse p vc k
          else s.tryLeave input vc ⟨p, s.routeVc input vc p, s.now, 0, k⟩)

/-- AGE_TICK (R414): a packet has waited another 64 ns at the head of its input. -/
def execAgeTick (input vc : Nat) (s : State) : Res :=
  .next (match s.sparHead input vc with
    | some h =>
      if s.now ≥ h.since + 64 * (h.ticks + 1) then
        s.setHead input vc (some { h with ticks := h.ticks + 1, packet := { h.packet with age := min 255 (h.packet.age + 1) } })
      else s
    | none => s)

/-! ### Credits and stalls (R377, R404, R528) -/

/-- The credit field of a link's VC: link is canvas × 2 + direction of a tether, or a spar port. -/
def linkCredit (spar : Bool) (link vc : Nat) : RegField × Nat :=
  if spar then (SPR_CREDIT.AVAIL, link * 8 + vc) else (TTH_CREDIT.AVAIL, tetherVc link vc)

/-- CREDIT_LEAK_CHECK (R377, R404): a VC has carried no DATA flit in either direction for 1 ms and AVAIL reads below
512. -/
def execCreditLeakCheck (spar : Bool) (link vc : Nat) (s : State) : Res :=
  let f := linkCredit spar link vc
  let idle := fun k => decide (s.now ≥ Tab.get (s.linkEnd k).lastData vc 0 + 1000000)
  .next (if spar then
      if link < 8 ∧ vc < 8 ∧ idle (16 + link) ∧ s.rdN f.1 f.2 < 512 then s.set1 SPR_STATUS.CREDIT_LEAK link else s
    else if link < 8 ∧ vc < 3 ∧ idle link ∧ idle (tetherEnd (link / 2) (1 - link % 2)) ∧ s.rdN f.1 f.2 < 512 then
      s.set1 TTH_STATUS.CREDIT_LEAK (link / 2) else s)

/-- VC_STALL (R528, R530): a DATA flit ready, AVAIL at 0 and no credit for 10 ms. The link retrains; a second stall of the
VC within 10 ms of that retrain marks the canvas LOST, or takes the spar port DOWN. -/
def execVcStall (spar : Bool) (link vc : Nat) (s : State) : Res :=
  let f := linkCredit spar link vc
  let k := if spar then 16 + link else link
  let e := s.linkEnd k
  let up := if spar then s.sparLive link else s.tetherUp (link / 2)
  .next (if link < 8 ∧ vc < (if spar then 8 else 3) ∧ up ∧ s.rdN f.1 f.2 = 0 ∧ s.now ≥ Tab.get e.lastCredit vc 0 + 10000000 then
    let s1 := s.stall (if spar then 3 else 2) (if spar then 4 else link / 2) vc 0 none
    let again := match Tab.get e.stalled vc none with
      | some t => decide (s.now ≤ t + 10000000)
      | none => false
    if again then (if spar then s1.sparDown link 0x0220 else s1.markLost (link / 2) 0)
    else
      let s2 := s1.setEnd k { e with stalled := Tab.set e.stalled vc (some s.now) none }
      if spar then s2.sparRetrain link else s2.tetherRetrain (link / 2)
  else s)

end Sys2Proof.Machine
end

