-- ==== Sys2Proof/Machine/Islands.lean ====
section
/-! DEFINITION. Islands and gates (chapter 01, R25 to R46, R626): SLEEP and WAKE, the wake chain, packets at the gates
and their retries, and the stall of a CLOSING island. -/

namespace Sys2Proof.Machine

/-- What the islands hold, at a changed content. -/
def State.onIsl (s : State) (f : Islands → Islands) : State := { s with isl := f s.isl }

/-! ### SLEEP and WAKE (R26 to R38) -/

/-- A command that is refused (R35, R37). -/
def State.cmdRefused (s : State) : State := s.set1 GLB_ISL_STATUS.CMD_REFUSED 0

/-- Whether an island is awake or on its way from or to it: ACTIVE, CLOSING or WAKING. -/
def State.stirring (s : State) (i : Nat) : Bool :=
  s.island i == islActive || s.island i == islClosing || s.island i == islWaking

/-- Whether a thread is enabled in a panel of a panel island. -/
def State.threadsOn (s : State) (i : Nat) : Bool :=
  (s.listed CNV_PNL_THR_CTL.ENABLE).any (fun e => e.2 == 1 && panelIsland (e.1 / 8) == i)

/-- The SLEEP commands that the device refuses (R37). -/
def State.sleepBarred (s : State) (i : Nat) : Bool :=
  let c := i / 34
  let others := fun (skip : List Nat) => (List.range 34).any (fun l => !skip.contains l && s.stirring (islandOf c l))
  if i ≥ 136 then i == 136 || i == 137 || i == 138 || i == 142 || i == 143
  else if i % 34 < 16 then s.threadsOn i
  else if i % 34 = 33 then others [32, 33]
  else if i % 34 = 32 then others [32]
  else false

/-- A SLEEP command executed. -/
def State.sleepCmd (s : State) (i : Nat) : State :=
  if i ≥ 144 ∨ s.island i = islFused ∨ s.island i = islLost ∨ s.sleepBarred i then s.cmdRefused
  else if s.on GLB_ISL_STATE.PENDING_ENABLE i then s.clr GLB_ISL_STATE.PENDING_ENABLE i
  else if s.island i = islActive then s.setIsland i islClosing
  else if s.island i = islWaking then s.set1 GLB_ISL_STATE.PENDING_DISABLE i
  else s

/-- An island begins to wake; a tether-port island trains its tether. -/
def State.startWaking (s : State) (i : Nat) : State :=
  let s1 := (s.setIsland i islWaking).clr GLB_ISL_STATE.PENDING_ENABLE i
  if i < 136 ∧ i % 34 = 33 then (s1.wrN TTH_STATUS.LINK (i / 34) 1).setTether (i / 34) { s1.tether (i / 34) with start := s1.now } else s1

/-- The zeroing of R626 falls due: the gesso of the canvas has been lost. -/
def State.zeroDue (s : State) (c : Nat) : State := s.onIsl (fun g => { g with zeroing := Tab.set g.zeroing c true false })

/-- The stretcher island is woken first where it is ASLEEP (or once it has closed), and its gesso is zeroed later. -/
def State.wakeStretcher (s : State) (c : Nat) : State :=
  let i := stretcherIsland c
  if s.island i = islAsleep then (s.startWaking i).zeroDue c
  else if s.island i = islClosing then (s.set1 GLB_ISL_STATE.PENDING_ENABLE i).zeroDue c
  else s

/-- The tether-port island is woken (R30, R31); while the stretcher island is not ACTIVE it waits for it (R38). -/
def State.wakeTether (s : State) (c : Nat) : State :=
  let i := tetherIsland c
  let s1 := s.wakeStretcher c
  if s1.island i = islAsleep then
    if s1.island (stretcherIsland c) = islActive then s1.startWaking i else s1.set1 GLB_ISL_STATE.PENDING_ENABLE i
  else if s1.island i = islClosing then s1.set1 GLB_ISL_STATE.PENDING_ENABLE i
  else s1

/-- Whether the power-disable stop bars the waking of an island (R46). -/
def State.stopBars (s : State) (i : Nat) : Bool :=
  s.on SBD_STATUS.STOPPED 0 && !s.on SBD_STATUS.RESTART_OK 0 && (decide (i < 136) || (decide (139 ≤ i) && decide (i ≤ 141)))

/-- A WAKE command executed. -/
def State.wakeCmd (s : State) (i : Nat) : State :=
  if i ≥ 144 ∨ s.island i = islFused ∨ s.island i = islLost ∨ s.stopBars i then s.cmdRefused
  else if s.on GLB_ISL_STATE.PENDING_DISABLE i then s.clr GLB_ISL_STATE.PENDING_DISABLE i
  else if s.island i = islClosing then s.set1 GLB_ISL_STATE.PENDING_ENABLE i
  else if s.island i = islAsleep then
    let c := i / 34
    if i ≥ 136 then s.startWaking i
    else if i % 34 = 32 then s.wakeStretcher c
    else if i % 34 = 33 then s.wakeTether c
    else if s.island (tetherIsland c) = islActive ∧ (Tab.get s.isl.chain c none).isNone then s.startWaking i
    else
      let s1 := s.set1 GLB_ISL_STATE.PENDING_ENABLE i
      if (Tab.get s1.isl.chain c none).isSome then s1
      else
        let zero := decide (s1.island (stretcherIsland c) ≠ islActive)
        (s1.onIsl (fun g => { g with chain := Tab.set g.chain c (some ⟨zero⟩) none })).wakeTether c
  else s

/-- SLEEP (R27, R31 to R37): the command OP = SLEEP of GLB_ISL_CMD. -/
def execSleep (island : Nat) (s : State) : Res :=
  .next (s.woRun GLB_ISL_CMD.ISLAND 0 (BitVec.ofNat 64 (256 + island % 256)) false (·.sleepCmd (island % 256)))

/-- WAKE (R30 to R38): the command OP = WAKE of GLB_ISL_CMD. -/
def execWake (island : Nat) (s : State) : Res :=
  .next (s.woRun GLB_ISL_CMD.ISLAND 0 (BitVec.ofNat 64 (512 + island % 256)) false (·.wakeCmd (island % 256)))

/-! ### The end of CLOSING and of WAKING -/

/-- The slices of a glaze island write back their dirty lines and release their tacks, each of which counts as a tack
overflow (R40, R41). -/
def State.glazeClose (s : State) (i : Nat) : State :=
  let c := i / 34
  let s1 := s.each s.glz.victims (fun (e : Nat × Option Victim) t =>
    match e.2 with
    | some v => if glazeIsland (keyCanvas e.1) (keyLine e.1) = i then t.writeVictim e.1 v else t
    | none => t)
  s1.each s1.glz.lines (fun (e : Nat × Option GlazeLine) t =>
    match e.2 with
    | some l =>
      if glazeIsland (keyCanvas e.1) (keyLine e.1) = i then
        (t.cleanLine e.1).when l.tacked (fun u => (u.bump CNV_GLZ_TACK_OVF.COUNT c 1).set1 CNV_GLZ_STATUS.TACK_OVERFLOW c)
      else t
    | none => t)

/-- Whether every row that a glaze island has to write back can be written now. -/
def State.glazeCanClose (s : State) (i : Nat) : Bool :=
  let mine := fun k => glazeIsland (keyCanvas k) (keyLine k) == i
  let ready := fun k => s.island (gessoIsland (keyCanvas k) (keyLine k)) == islActive
  s.glz.slots.all (fun (e : Nat × Option FillSlot) => e.2.isNone || !mine e.1) &&
  s.glz.held.all (fun (e : Nat × Option (List MemJob)) => e.2.isNone || !mine e.1) &&
  s.glz.victims.all (fun (e : Nat × Option Victim) => e.2.isNone || !mine e.1 || ready e.1) &&
  s.glz.lines.all (fun (e : Nat × Option GlazeLine) =>
    match e.2 with
    | some l => !mine e.1 || l.dirty == 0 || ready e.1
    | none => true)

/-- Whether an island has completed what it accepted, so far as the state shows it (R27, R40). -/
def State.drained (s : State) (i : Nat) : Bool :=
  let c := i / 34
  if i < 136 then
    let l := i % 34
    if l < 16 then s.pnl.flights.all (fun (e : Nat × Option Flight) => match e.2 with | some f => panelIsland f.panel != i | none => true)
    else if l < 20 then s.glazeCanClose i
    else if l < 22 then (Tab.get s.fin.tasks c []).all (fun t => t.units.all (fun u => 20 + u % 16 / 8 != l))
    else if l < 26 then
      s.rows.cmds.all (fun (e : Nat × List RowCmd) => e.1 / 65 != c || e.2.all (fun r => r.flying.all (fun n => layerOf (r.dst + r.dstStep * n).toNat != l - 22)))
    else if l < 28 then s.seq.cores.all (fun e => seqIsland e.1 != i || e.2.stores.isEmpty)
    else if l < 32 then s.str.streams.all (fun e => e.1 / 4096 != c || e.2.flying.isEmpty ||
      (islandOf c (28 + s.rdN CNV_STM_STREAM.SENDER e.1 % 256 / 64) != i && islandOf c (28 + s.rdN CNV_STM_STREAM.RECEIVER e.1 % 256 / 64) != i))
    else if l = 33 then [0, 1].all (fun d => (s.linkEnd (tetherEnd c d)).held.isEmpty)
    else true
  else if i = 141 then
    s.dma.runs.all (fun (e : Nat × List DmaRun) => decide (e.1 < 256) || e.2.isEmpty) && s.openCoats.isEmpty && s.colls.isEmpty
  else true

/-- What an island does on its way from CLOSING to ASLEEP (R40, R41, R39). -/
def State.closeIsland (s : State) (i : Nat) : State :=
  if i < 136 ∧ 16 ≤ i % 34 ∧ i % 34 < 20 then s.glazeClose i
  else if i < 136 ∧ i % 34 = 33 then s.wrN TTH_STATUS.LINK (i / 34) 4
  else if i = 139 ∨ i = 140 then
    s.each ((List.range 8).filter (fun p => sparIsland p == i && s.sparLink p != 0)) (fun p t => t.sparDown p 0x0220)
  else s

/-- ISLAND_DRAINED (R27, R31, R40, R626): nothing accepted remains in a CLOSING island, and it enters ASLEEP; with
PENDING_ENABLE it enters WAKING in the same cycle. -/
def execIslandDrained (island : Nat) (s : State) : Res :=
  .next (if island < 144 ∧ s.island island = islClosing ∧ s.drained island then
    let s1 := ((s.closeIsland island).loseIsland island).onIsl (fun g => { g with work := Tab.set g.work island [] [] })
    (if s1.on GLB_ISL_STATE.PENDING_ENABLE island then s1.startWaking island else s1.setIsland island islAsleep).capacity
  else s)

/-- A panel island that has woken has the region tables and ISSUE_EN of the stretcher's copy (R131). -/
def State.restorePanels (s : State) (i : Nat) : State :=
  let s1 := s.each (s.pnl.copyReg.filter (fun e => panelIsland (e.1 / 1024) == i)) (fun e t =>
    let v := e.2.toNat
    ((t.wrN CNV_PNL_REGION.LEN e.1 (v / 2 ^ 32)).wrN CNV_PNL_REGION.BASE e.1 (v / 2 % 2 ^ 31)).wrN CNV_PNL_REGION.JOB e.1 (v % 2))
  s1.each (s.pnl.copyEn.filter (fun e => panelIsland e.1 == i && e.2)) (fun e t => t.set1 CNV_PNL_CTL.ISSUE_EN e.1)

/-- The gesso islands of a canvas are woken for the zeroing of R626. -/
def State.wakeGesso (s : State) (c : Nat) : State :=
  s.each [22, 23, 24, 25] (fun l t =>
    let i := islandOf c l
    if t.island i = islAsleep then t.startWaking i
    else if t.island i = islClosing then t.set1 GLB_ISL_STATE.PENDING_ENABLE i
    else if t.island i = islWaking then t.clr GLB_ISL_STATE.PENDING_DISABLE i
    else t)

/-- What follows when an island has reached ACTIVE: the stretcher lets the tether port or the zeroing begin, the tether
port lets the zeroing begin, a panel island restores its region tables. -/
def State.awoken (s : State) (i : Nat) : State :=
  let c := i / 34
  if i ≥ 136 then s
  else if i % 34 < 16 then s.restorePanels i
  else if i % 34 = 32 then
    if s.on GLB_ISL_STATE.PENDING_ENABLE (tetherIsland c) ∧ s.island (tetherIsland c) = islAsleep then s.startWaking (tetherIsland c)
    else if Tab.get s.isl.zeroing c false ∧ (Tab.get s.isl.chain c none).isNone ∧ s.island (tetherIsland c) ≠ islWaking then s.wakeGesso c
    else s
  else if i % 34 = 33 then (if Tab.get s.isl.zeroing c false then s.wakeGesso c else s)
  else s

/-- ISLAND_READY (R30, R32, R46): a WAKING island is ready and enters ACTIVE; with PENDING_DISABLE it enters CLOSING in
the same cycle. A tether-port island is ready once its tether is UP. -/
def execIslandReady (island : Nat) (s : State) : Res :=
  .next (if island < 144 ∧ s.island island = islWaking ∧
      ¬ (island < 136 ∧ island % 34 = 33 ∧ s.rdN TTH_STATUS.LINK (island / 34) ≠ 2) then
    let s1 := (s.setIsland island islActive).awoken island
    (if s1.on GLB_ISL_STATE.PENDING_DISABLE island then (s1.clr GLB_ISL_STATE.PENDING_DISABLE island).setIsland island islClosing else s1).capacity
  else s)

/-- The zeroing of a whole canvas by its system row queue: every existing row reads zero and is good (R512, R626). -/
def State.zeroCanvas (s : State) (c : Nat) : State :=
  let s1 := s.loseStretcher c
  let rows := (List.range 32).foldl (fun n g => n + 24576 * s.working c g) 0
  ({ s1 with pnl := s.pnl, links := s.links, isl := { s1.isl with gessoLost := Tab.set s1.isl.gessoLost c false false, zeroing := Tab.set s1.isl.zeroing c false false } }).bump
    CNV_ROW_OPS.COUNT c rows

/-- GESSO_REZERO_DONE (R512, R626): the gesso islands are awake and the system row queue has zeroed every row; the canvas
is available again. -/
def execGessoRezeroDone (canvas : Nat) (s : State) : Res :=
  .next (if canvas < 4 ∧ Tab.get s.isl.zeroing canvas false ∧ s.island (stretcherIsland canvas) = islActive ∧
      ((Tab.get s.isl.chain canvas none).isNone ∨ s.island (tetherIsland canvas) = islActive) ∧
      [22, 23, 24, 25].all (fun l => s.island (islandOf canvas l) == islActive || s.island (islandOf canvas l) == islFused) then
    (s.zeroCanvas canvas).capacity
  else s)

/-- WAKE_CHAIN_END (R38): the tether port is ACTIVE and no zeroing is due; the islands that waited begin to wake. -/
def execWakeChainEnd (canvas : Nat) (s : State) : Res :=
  .next (if canvas < 4 ∧ (Tab.get s.isl.chain canvas none).isSome ∧ s.island (tetherIsland canvas) = islActive ∧
      !Tab.get s.isl.zeroing canvas false then
    let s1 := s.onIsl (fun g => { g with chain := Tab.set g.chain canvas none none })
    s1.each (List.range 34) (fun l t =>
      let i := islandOf canvas l
      if t.on GLB_ISL_STATE.PENDING_ENABLE i ∧ t.island i = islAsleep then t.startWaking i else t)
  else s)

/-! ### Gates (R25 to R29, R36) -/

/-- A packet accepted by an island: it crosses whole and is work of the island from then on. -/
def State.gateAccept (s : State) (i id : Nat) (part : Option Nat) (wash : Bool) : State :=
  (s.onIsl (fun g => { g with work := Tab.set g.work i (Tab.get g.work i [] ++ [⟨id, part, wash⟩]) [] })).send (.packet id 0)

/-- GATE_PACKET (R25, R28, R29, R36, R388): a packet arrives at the gate of an island. -/
def execGatePacket (id dst vc : Nat) (part : Option Nat) (wash : Bool) (s : State) : Res :=
  .next (if dst < 144 ∧ id < 2 ^ 32 ∧ (Tab.get s.isl.packets id none).isNone then
    if s.island dst = islActive then s.gateAccept dst id part wash
    else if s.island dst = islFused then s.send (.packet id 0x0707)
    else if s.island dst = islLost then s.send (.packet id 0x0201)
    else (s.onIsl (fun g => { g with packets := Tab.set g.packets id (some ⟨dst, vc, part, wash, s.now, 0, none⟩) none })).send (.retryLater id)
  else s)

/-- A mailbox post that is given up: counted in TTH_DROPPED, its client queue free to post again (R388, R621). -/
def State.mailDrop (s : State) (m : Nat) (q : Option Nat) : State :=
  (s.bump TTH_DROPPED.COUNT (m / 1024) 1).each q.toList (fun n t => t.clr QUE_CTL.PENDING n)

/-- A retried packet ends with a code. -/
def State.packetEnd (s : State) (id : Nat) (p : Packet) (code : Code) : State :=
  let s1 := s.onIsl (fun g => { g with packets := Tab.set g.packets id none none })
  match p.mail with
  | some m => s1.mailDrop m.1 m.2.2
  | none => s1.send (.packet id code)

/-- PACKET_RETRY (R29, R36, R621): the sender tries a refused packet again when the next of the retry times is due; the
retry at 100 µs is the last. -/
def execPacketRetry (id : Nat) (s : State) : Res :=
  .next (match Tab.get s.isl.packets id none with
    | none => s
    | some p =>
      if s.now < retryDue p.first p.retries then s
      else if s.island p.dst = islActive then
        let s1 := s.onIsl (fun g => { g with packets := Tab.set g.packets id none none })
        match p.mail with
        | some m => s1.mailArrive m.1 m.2.1 m.2.2
        | none => s1.gateAccept p.dst id p.part p.wash
      else if s.island p.dst = islFused then s.packetEnd id p 0x0707
      else if s.island p.dst = islLost then s.packetEnd id p 0x0201
      else if p.retries ≥ 9 then s.packetEnd id p 0x0701
      else (s.onIsl (fun g => { g with packets := Tab.set g.packets id (some { p with retries := p.retries + 1 }) none })).when
        p.mail.isNone (·.send (.retryLater id)))

/-- CAPACITY_UPDATE (R54, R55): GLB_CAPACITY is computed afresh. -/
def execCapacityUpdate (s : State) : Res := .next s.capacity

/-- ISLAND_STALL (R42, R528, R530): an island has stayed in CLOSING for 10 ms without progress; the requests still held
in it complete with STALL and fault the partitions on whose behalf they were made. -/
def execIslandStall (island : Nat) (held : List Nat) (s : State) : Res :=
  let all := Tab.get s.isl.work island []
  let stuck := all.filter (fun w => held.contains w.id)
  .next (if island < 144 ∧ s.island island = islClosing ∧ !stuck.isEmpty then
    let parts := stuck.filterMap (fun w => w.part.map (fun p => (p, w.wash)))
    let s1 := s.onIsl (fun g => { g with work := Tab.set g.work island (all.filter (fun w => !held.contains w.id)) [] })
    let s2 := (s1.each stuck (fun w t => t.send (.packet w.id codeStall))).stallFaults parts
    s2.stall 5 (if island < 136 then island / 34 else 4) island 0 ((parts.map (·.1)).min?)
  else s)

end Sys2Proof.Machine
end

