-- ==== Sys2Proof/Machine/Collectives.lean ====
section
/-! DEFINITION. The collective engine (chapter 14): the checks and the start of a collective, grants, the messages and
the orders of reduction, completion and failure. -/

namespace Sys2Proof.Machine

/-! ### Descriptors (R427, R430) -/

/-- The fields of a collective descriptor. -/
structure CollDesc where
  op     : Nat
  flags  : Nat
  dtype  : Nat
  mbx    : Nat
  n      : Nat
  rank   : Nat
  owner  : Nat
  table  : Nat
  src    : Nat
  dst    : Nat
  count  : Nat
  list   : Nat
  nlist  : Nat
  expect : Nat
deriving DecidableEq, Repr

/-- A descriptor read from its bytes. -/
def collDesc (b : List Byte) : CollDesc :=
  ⟨leField b 0 1, leField b 1 1, leField b 2 1, leField b 4 2, leField b 8 1, leField b 9 1, leField b 10 1, leField b 16 8,
    leField b 24 8, leField b 32 8, leField b 40 8, leField b 48 8, leField b 56 4, leField b 60 4⟩

/-- ORDER = RING. -/
def CollDesc.ring (d : CollDesc) : Bool := d.flags.testBit 3
/-- ADDL. -/
def CollDesc.addl (d : CollDesc) : Bool := d.flags.testBit 4
/-- ONEWAY. -/
def CollDesc.oneway (d : CollDesc) : Bool := d.flags.testBit 5
/-- Whether the operation reduces. -/
def CollDesc.reduces (d : CollDesc) : Bool := d.op == 1 || d.op == 2
/-- Whether partials travel in both directions (R434). -/
def CollDesc.both (d : CollDesc) : Bool := d.dtype == 12 || d.dtype == 0xFE

/-- The bytes that COUNT units take (R430): 64 FP32 elements or 21 containers in each 256 B sector. -/
def CollDesc.extent (d : CollDesc) : Nat :=
  if d.op = 7 then d.count * 256
  else if d.dtype = 0 then d.count * 4
  else if d.dtype = 12 then d.count / 21 * 256 + d.count % 21 * 12
  else d.count

/-- The sectors of a block: the N-th part of all, rounded up. -/
def CollDesc.per (d : CollDesc) : Nat := ((d.extent + 255) / 256 + d.n - 1) / d.n

/-- The first byte of a block. -/
def CollDesc.blockAt (d : CollDesc) (b : Nat) : Nat := b * d.per * 256

/-- The bytes of a block; it may be short or empty. -/
def CollDesc.blockLen (d : CollDesc) (b : Nat) : Nat := min (d.blockAt (b + 1)) d.extent - d.blockAt b

/-- The bytes of a block's lower half of sectors, which travels in ascending rank (R434). -/
def CollDesc.lowerLen (d : CollDesc) (b : Nat) : Nat :=
  if d.both then min (d.blockLen b) (((d.blockLen b + 255) / 256 + 1) / 2 * 256) else d.blockLen b

/-- The bytes read at SRC (R431). -/
def CollDesc.srcLen (d : CollDesc) : Nat :=
  if d.op = 3 then d.blockLen d.rank
  else if d.op = 4 then (if d.rank = 0 then d.extent else 0)
  else if d.op = 5 then (if d.oneway && d.rank == d.n - 1 then 0 else d.extent)
  else if d.op = 6 then 0
  else d.extent

/-- The bytes written at DST (R431). -/
def CollDesc.dstLen (d : CollDesc) : Nat :=
  if d.op = 2 then d.blockLen d.rank
  else if d.op = 4 then (if d.rank = 0 then 0 else d.extent)
  else if d.op = 5 then (if d.oneway && d.rank == 0 then 0 else d.extent)
  else if d.op = 6 then 0
  else if d.op = 7 then d.count * 8
  else d.extent

/-- The bytes that this member is to write, PERMUTE counting those of other ranks. -/
def CollDesc.toWrite (d : CollDesc) : Nat := if d.op = 6 then d.expect * 256 else d.dstLen

/-- The bytes of partials that this member is to pass on: of every block that it neither starts nor owns (R433, R434). -/
def CollDesc.toPass (d : CollDesc) : Nat :=
  if !d.reduces || (!d.both && !d.ring) then 0
  else (List.range d.n).foldl (fun t b =>
    t + (if b ≠ d.rank ∧ b ≠ (d.rank + d.n - 1) % d.n then d.lowerLen b else 0) +
      (if b ≠ d.rank ∧ b ≠ (d.rank + 1) % d.n then d.blockLen b - d.lowerLen b else 0)) 0

/-- The ranks from which this member will receive (R429). -/
def CollDesc.sources (d : CollDesc) : List Nat :=
  let others := (List.range d.n).filter (· != d.rank)
  let prev := (d.rank + d.n - 1) % d.n
  let next := (d.rank + 1) % d.n
  if d.op = 4 then (if d.rank = 0 then [] else [0])
  else if d.op = 5 then (if d.oneway && d.rank == 0 then [] else [prev])
  else if d.op = 2 ∧ d.both then [prev, next].dedup
  else if d.op = 2 ∧ d.ring then [prev]
  else others

/-- The fields that a GRANT carries, beside the CRC of the member table. -/
def CollDesc.grant (d : CollDesc) (crc : Nat) : CollGrant := ⟨d.op, d.dtype, d.count, d.n, d.ring, d.oneway, crc⟩

/-- The agent of the collective engine. -/
def collAgent : Agent := ⟨.collective, 0x60000, none, false⟩

/-! ### Checks (R428) -/

/-- Whether the values of a descriptor are none reserved, and DTYPE suits OP (R427, R431). -/
def CollDesc.ok (d : CollDesc) (b : List Byte) (queue : Nat) : Bool :=
  decide (1 ≤ d.op) && decide (d.op ≤ 7) && decide (d.flags < 64) && decide (d.mbx < 4096) && leField b 3 1 == 0 && leField b 11 1 == 0 &&
  decide (2 ≤ d.n) && decide (d.n ≤ 64) && decide (d.rank < d.n) && (decide (queue = 256) || d.owner == 0) &&
  (if d.reduces then d.dtype == 0 || d.dtype == 12 || d.dtype == 0xFE else d.dtype == 0xFF) &&
  (!d.addl || d.dtype == 0 || d.dtype == 12)

/-- Whether both ends of a local range are gesso or wells. -/
def rangeLocal (d n : Nat) : Bool :=
  let one := fun a => match targetOf a with | .gesso _ _ => true | .well _ _ => true | _ => false
  decide (n = 0) || (one d && one (d + n - 1))

/-- The code of a collective whose member table and send list have been read (R428), 0 where none applies. -/
def State.collCheck (s : State) (queue part : Nat) (b members list : List Byte) : Code :=
  let d := collDesc b
  let entries := (List.range d.nlist).map (fun i => (leField list (32 * i + 8) 8, leField list (32 * i + 16) 8, leField list (32 * i + 24) 8))
  let me := leField members (4 * d.rank) 2 == s.coord && leField members (4 * d.rank + 2) 1 == part
  let twice := s.colls.any (fun c => c.group == leField b 6 2 && c.num == leField b 12 4)
  let reserved := (List.range d.n).any (fun r => leField members (4 * r + 3) 1 != 0)
  let lists := (List.range d.nlist).any (fun i => leField list (32 * i + 2) 6 != 0 || decide (leField list (32 * i) 2 ≥ d.n))
  let win := fun (perm : Perm) (a n : Nat) => decide (queue = 256) || decide (n = 0) || s.windowOk part perm a n
  if !me || twice || reserved || (d.op == 6 && lists) then 0x0302
  else if d.src % 256 ≠ 0 ∨ d.dst % 256 ≠ 0 ∨ (d.op = 6 ∧ entries.any (fun e => e.1 % 256 != 0 || e.2.1 % 256 != 0 || e.2.2 % 256 != 0)) then 0x0301
  else if !(rangeLocal d.src d.srcLen && rangeLocal d.dst d.dstLen && (d.op != 6 || entries.all (fun e => rangeLocal e.1 e.2.2))) then 0x0102
  else if !(win .r d.src d.srcLen && win .w d.dst d.dstLen && (!d.addl || win .a d.dst d.dstLen) &&
      (d.op != 6 || entries.all (fun e => win .r e.1 e.2.2))) then 0x0304
  else 0

/-! ### Combining (R432 to R434) -/

/-- FP32 words of a run of bytes. -/
def words32 (bs : List Byte) : List Nat := (List.range (bs.length / 4)).map (fun i => leField bs (4 * i) 4)

/-- Two runs of units combined by DTYPE; a fault names its code. -/
def collCombine (dtype : Nat) (a b : List Byte) : Except Code (List Byte) :=
  if dtype = 0 then .ok (((words32 a).zip (words32 b)).flatMap (fun p => leBytes 4 (fp32Add p.1 p.2).1))
  else if dtype = 12 then
    let m := (a.length + 255) / 256
    let pad := fun (x : List Byte) => x ++ List.replicate (m * 256 - x.length) 0
    let rs := addEx96 (pad a) (pad b) m
    match rs.find? (fun r => match r.2 with | .error _ => true | .ok _ => false) with
    | some (_, .error e) => .error e
    | _ => .ok ((rs.flatMap (fun r => match r.2 with | .ok ys => ys | .error _ => [])).take a.length)
  else .ok ((a.zip b).map (fun p => p.1 ^^^ p.2))

/-- The parts of a block combined elementwise in ascending rank by the pairwise rule (R75, R432). -/
def collTree (parts : List (List Byte)) : List Byte :=
  let ws := parts.map words32
  (List.range ((ws.headD []).length)).flatMap (fun i => leBytes 4 (tree (ws.map (fun w => w.getD i 0))).1)

/-! ### Messages -/

/-- An open collective replaced. -/
def State.putColl (s : State) (c : Coll) : State :=
  s.setColls (s.colls.map (fun x => if x.queue = c.queue ∧ x.seq = c.seq then c else x))

/-- An open collective by group and number. -/
def State.coll (s : State) (group seq : Nat) : Option Coll := s.colls.find? (fun c => c.group == group && c.num == seq)

/-- The messages whose receiver has granted landing space are sent (R429). -/
def State.collFlush (s : State) (c : Coll) : State :=
  let go := c.out.filter (fun m => c.grants.contains m.1)
  let c1 := { c with out := c.out.filter (fun m => !c.grants.contains m.1), last := if go.isEmpty then c.last else s.now }
  (s.putColl c1).each go (fun m t =>
    (t.send (.collData ((c.members.getD m.1 (0, 0)).1) c.group c.num m.2)).bump COL_BYTES_TX.COUNT 0 m.2.data.length)

/-- Bytes written at DST, by add-to-line when ADDL is set (R436); a last sector that is not whole is combined unit by
unit. The code and the state, none where a line is held. -/
def State.collWrite (s : State) (c : Coll) (off : Nat) (bs : List Byte) : Option (Code × State) :=
  let d := collDesc c.desc
  let fin := fun (a : Acc) => match a with
    | .done code _ t => some (code, t)
    | .wait _ => none
  if !d.addl then fin (s.writeRange collAgent (d.dst + off) bs)
  else
    let whole := bs.length / 256 * 256
    let rest := bs.drop whole
    match fin (s.addRange collAgent (d.dtype == 12) (d.dst + off) (bs.take whole)) with
    | none => none
    | some (code, t) =>
      if code ≠ 0 ∨ rest.isEmpty then some (code, t)
      else match t.readRange collAgent (d.dst + off + whole) rest.length with
        | .wait _ => none
        | .done e old u =>
          if e ≠ 0 then some (e, u)
          else match collCombine d.dtype old rest with
            | .error e => some (e, u)
            | .ok ys => fin (u.writeRange collAgent (d.dst + off + whole) ys)

/-- Data lands at an offset of DST; a failure halts the member. -/
def State.collLand (s : State) (c : Coll) (off : Nat) (bs : List Byte) : Option State :=
  match s.collWrite c off bs with
  | none => none
  | some (code, t) =>
    if code ≠ 0 then some (t.collHalt c code false c.rank)
    else some (t.collFlush { c with units := c.units + bs.length, last := t.now })

/-- A result formed at its owner: written there, and for ALL_REDUCE sent to every other rank (R435). -/
def State.collResult (s : State) (c : Coll) (off : Nat) (bs : List Byte) : Option State :=
  let d := collDesc c.desc
  if d.op = 1 then
    let others := (List.range d.n).filter (· != d.rank)
    s.collLand { c with out := c.out ++ others.map (fun r => (r, ⟨3, d.rank, off, bs⟩)) } (d.blockAt d.rank + off) bs
  else s.collLand c off bs

/-- What a member sends of its own when it starts: the bytes of SRC by destination. -/
def CollDesc.firstOut (d : CollDesc) (src : List Byte) : List (Nat × CollMsg) :=
  let others := (List.range d.n).filter (· != d.rank)
  let next := (d.rank + 1) % d.n
  let prev := (d.rank + d.n - 1) % d.n
  let part := fun b o n => (src.drop (d.blockAt b + o)).take n
  let keep := fun (ms : List (Nat × CollMsg)) => ms.filter (fun m => !m.2.data.isEmpty)
  keep (if d.reduces then
      if !d.both && !d.ring then others.map (fun b => (b, ⟨0, b, 0, part b 0 (d.blockLen b)⟩))
      else [(next, ⟨1, prev, 0, part prev 0 (d.lowerLen prev)⟩)] ++
        (if d.both then [(prev, ⟨2, next, d.lowerLen next, part next (d.lowerLen next) (d.blockLen next - d.lowerLen next)⟩)] else [])
    else if d.op = 3 then others.map (fun r => (r, ⟨3, d.rank, 0, src⟩))
    else if d.op = 4 then (if d.rank = 0 then others.map (fun r => (r, ⟨3, 0, 0, src⟩)) else [])
    else if d.op = 5 then [(next, ⟨3, 0, 0, src⟩)]
    else if d.op = 7 then others.map (fun r => (r, ⟨3, d.rank, 0, src⟩))
    else [])

/-- The messages of a PERMUTE: one for each entry of the send list, none where a line is held. The failure of a read
stands beside them. -/
def State.permuteOut (s : State) (list : List Byte) (n : Nat) : Option (Code × List (Nat × CollMsg) × State) :=
  (List.range n).foldl (fun acc i =>
    match acc with
    | none => none
    | some (code, ms, t) =>
      let e := fun o k => leField list (32 * i + o) k
      match t.readRange collAgent (e 8 8) (e 24 8) with
      | .wait _ => none
      | .done c bs u => some (if code = 0 then c else code, ms ++ [(e 0 2, ⟨4, 0, e 16 8, bs⟩)], u)) (some (0, [], s))

/-- A PERMUTE write at its target: the window check of R355, and no more than EXPECT units from other ranks (R437). -/
def State.permuteLand (s : State) (c : Coll) (own : Bool) (m : CollMsg) : Option State :=
  let d := collDesc c.desc
  let part := (c.members.getD d.rank (0, 0)).2
  if !s.windowOk part .w m.offset m.data.length then some (s.collHalt c 0x0305 false c.rank)
  else if !own && decide (c.units + m.data.length > d.expect * 256) then some (s.collHalt c 0x0302 false c.rank)
  else match s.writeRange collAgent m.offset m.data with
    | .wait _ => none
    | .done code _ t =>
      if code ≠ 0 then some (t.collHalt c code false c.rank)
      else some (t.collFlush { c with units := if own then c.units else c.units + m.data.length, last := t.now })

/-- SIG_CMP with every rank's records (R438): the words of DST, and the first record that differs. -/
def sigWords (n count : Nat) (recs : List (List Byte)) : List Byte × Option (Nat × Nat) :=
  let part := fun (r i : Nat) => (((recs.getD r []).drop (256 * i)).take 256)
  let core := fun (x : List Byte) => ((x.drop 8).take 4, (x.drop 32).take 208)
  let diff := fun i => (List.range n).filter (fun r => core (part r i) != core (part 0 i))
  let ws := (List.range count).flatMap (fun i => leBytes 8 ((diff i).foldl (fun v r => v + 2 ^ r) 0))
  let first := ((List.range count).find? (fun i => !(diff i).isEmpty)).map (fun i => (i, leField (part ((diff i).headD 0) i) 8 4))
  (ws, first)

/-- A mismatch captured in COL_SIG. -/
def State.sigMismatch (s : State) (i tensor : Nat) : State :=
  let s1 := s.set1 COL_STATUS.SIG_MISMATCH 0
  if s1.on COL_SIG.VALID 0 then s1.set1 COL_SIG.OVERRUN 0
  else ((s1.set1 COL_SIG.VALID 0).wrN COL_SIG.INDEX 0 i).wrN COL_SIG.TENSOR_ID 0 tensor

/-- The comparison of SIG_CMP once the records of every other rank have landed. -/
def State.sigCompare (s : State) (c : Coll) : Option State :=
  let d := collDesc c.desc
  match s.readRange collAgent d.src d.srcLen with
  | .wait _ => none
  | .done e own t =>
    if e ≠ 0 then some (t.collHalt c e false c.rank)
    else
      let recs := (List.range d.n).map (fun r => if r = d.rank then own else (((c.parts.find? (fun p => p.1 == r)).map (·.2.data)).getD []))
      let w := sigWords d.n d.count recs
      (t.collLand c 0 w.1).map (fun u => match w.2 with
        | some m => u.sigMismatch m.1 m.2
        | none => u)

/-- A rank's part of the block that this member owns lands (R432): once every part of the same bytes is there they are
combined. -/
def State.treePart (s : State) (c : Coll) (r : Nat) (m : CollMsg) : Option State :=
  let d := collDesc c.desc
  let c1 := { c with parts := c.parts ++ [(r, m)], last := s.now }
  let same := fun (p : Nat × CollMsg) => p.2.offset == m.offset && p.2.data.length == m.data.length
  if !((List.range d.n).filter (· != d.rank)).all (fun x => c1.parts.any (fun p => p.1 == x && same p)) then some (s.putColl c1)
  else match s.readRange collAgent (d.src + d.blockAt d.rank + m.offset) m.data.length with
    | .wait _ => none
    | .done e own t =>
      if e ≠ 0 then some (t.collHalt c e false c.rank)
      else
        let ps := (List.range d.n).map (fun x => if x = d.rank then own else (((c1.parts.find? (fun p => p.1 == x && same p)).map (·.2.data)).getD []))
        t.collResult { c1 with parts := c1.parts.filter (fun p => !same p) } m.offset (collTree ps)

/-- A travelling partial lands (R433, R434): combined with this member's own units, it is the result at its owner and
travels on elsewhere. -/
def State.partialLand (s : State) (c : Coll) (m : CollMsg) : Option State :=
  let d := collDesc c.desc
  match s.readRange collAgent (d.src + d.blockAt m.block + m.offset) m.data.length with
  | .wait _ => none
  | .done e own t =>
    if e ≠ 0 then some (t.collHalt c e false c.rank)
    else match collCombine d.dtype m.data own with
      | .error e => some (t.collHalt c e false c.rank)
      | .ok v =>
        if m.block = d.rank then t.collResult { c with last := t.now } m.offset v
        else
          let dest := if m.kind = 1 then (d.rank + 1) % d.n else (d.rank + d.n - 1) % d.n
          some (t.collFlush { c with out := c.out ++ [(dest, { m with data := v })], passed := c.passed + v.length, last := t.now })

/-- Whether a message is one that its sender may send in this collective. -/
def CollDesc.expects (d : CollDesc) (r : Nat) (m : CollMsg) : Bool :=
  let inside := decide (m.block < d.n) && decide (m.offset + m.data.length ≤ d.blockLen m.block)
  d.sources.contains r && !m.data.isEmpty &&
  (if m.kind = 0 then d.reduces && !d.both && !d.ring && m.block == d.rank && inside
   else if m.kind = 1 then d.reduces && (d.both || d.ring) && inside && r == (d.rank + d.n - 1) % d.n
   else if m.kind = 2 then d.reduces && d.both && inside && r == (d.rank + 1) % d.n
   else if m.kind = 3 then
     if d.op = 1 ∨ d.op = 3 then m.block == r && inside
     else if d.op = 7 then m.offset == 0 && decide (m.data.length = d.extent)
     else decide (d.op = 4 ∨ d.op = 5) && decide (m.offset + m.data.length ≤ d.extent)
   else d.op == 6)

/-- A message acts at this member. -/
def State.collAct (s : State) (c : Coll) (r : Nat) (m : CollMsg) : Option State :=
  let d := collDesc c.desc
  if m.kind = 0 then s.treePart c r m
  else if m.kind = 1 ∨ m.kind = 2 then s.partialLand c m
  else if m.kind = 3 then
    if d.op = 7 then
      let c1 := { c with parts := (c.parts.filter (fun p => p.1 != r)) ++ [(r, m)], last := s.now }
      if ((List.range d.n).filter (· != d.rank)).all (fun x => c1.parts.any (fun p => p.1 == x)) then s.sigCompare c1 else some (s.putColl c1)
    else s.collLand c ((if d.op = 1 ∨ d.op = 3 then d.blockAt m.block else 0) + m.offset) m.data
  else s.permuteLand c false m

/-! ### Commands -/

/-- The member that has started takes the grants that came early, sends its own, and writes what needs no other rank. -/
def State.collOpen (s : State) (c : Coll) (crc : Nat) (own : List CollMsg) (src : List Byte) : State :=
  let d := collDesc c.desc
  let early := s.early.filter (fun e => e.1 == c.group && e.2.1 == c.num)
  let good := fun (g : CollGrant) => g == d.grant crc
  let c1 := { c with grants := (early.filter (fun e => good e.2.2.2)).map (·.2.2.1) }
  let s1 := { s with early := s.early.filter (fun e => !(e.1 == c.group && e.2.1 == c.num)) }
  let s2 := (s1.setColls (s1.colls ++ [c1])).qBusy ⟨.col, c.queue⟩ true
  let s3 := s2.each d.sources (fun r t => t.send (.collGrant ((c.members.getD r (0, 0)).1) c.group c.num (d.grant crc)))
  if early.any (fun e => !good e.2.2.2) then s3.collHalt c1 0x0302 false c.rank
  else if c.members.any (fun m => m.1 != s.coord && (!s.reachable m.1 || (match s.routePort m.1 with | some p => s.sparLink p == 0 | none => false))) then
    s3.collHalt c1 0x0220 false c.rank
  else
    let s4 := s3.collFlush c1
    let now := fun (t : State) => (t.coll c.group c.num)
    let s5 := own.foldl (fun t m => match now t with
      | some x => (t.permuteLand x true m).getD t
      | none => t) s4
    match now s5 with
    | some x => if d.op = 3 then (s5.collLand x (d.blockAt d.rank) src).getD s5 else s5
    | none => s5

/-- The next collective of a queue starts, is refused, or waits (R425 to R428); op is the operation that the command
names, 0 a reserved one. -/
def State.collStart (s : State) (queue op : Nat) : State :=
  let q : QId := ⟨.col, queue⟩
  if !q.exists_ || decide (s.str.loader.phase ≠ .idle) || decide (s.island 141 ≠ islActive) then s
  else match s.qNext q with
    | .idle t => t
    | .failed t => t
    | .cmd b t =>
      let d := collDesc b
      let mine := t.colls.filter (fun c => c.queue == queue)
      if (if d.op ≤ 7 then d.op else 0) ≠ op then s
      else if !t.qMayStart q (d.flags.testBit 0) mine.length 7 || decide (t.colls.length ≥ 32) then s
      else
        let part := if queue < 256 then queue else d.owner
        let refuse := fun (u : State) (code : Code) => u.qRefuse q code (d.flags.testBit 1) (d.mbx % 4096)
        let win := fun (a n : Nat) => decide (queue = 256) || decide (n = 0) || t.windowOk part .r a n
        let listLen := if d.op = 6 then 32 * d.nlist else 0
        if !d.ok b queue then refuse t 0x0302
        else if !rangeLocal d.table (4 * d.n) || !rangeLocal d.list listLen then
          refuse t (if d.src % 256 ≠ 0 ∨ d.dst % 256 ≠ 0 then 0x0301 else 0x0102)
        else if !win d.table (4 * d.n) || !win d.list listLen then
          refuse t (if d.src % 256 ≠ 0 ∨ d.dst % 256 ≠ 0 then 0x0301
            else if rangeLocal d.src d.srcLen && rangeLocal d.dst d.dstLen then 0x0304 else 0x0102)
        else match t.readRange collAgent d.table (4 * d.n) with
          | .wait _ => s
          | .done e1 members u => match u.readRange collAgent d.list listLen with
            | .wait _ => s
            | .done e2 list v =>
              if e1 ≠ 0 then refuse v e1
              else if e2 ≠ 0 then refuse v e2
              else
                let code := v.collCheck queue part b members list
                if code ≠ 0 then refuse v code
                else match v.readRange collAgent d.src d.srcLen with
                  | .wait _ => s
                  | .done e3 src w => match (if d.op = 6 then w.permuteOut list d.nlist else some (0, [], w)) with
                    | none => s
                    | some (e4, sends, x) =>
                      if e3 ≠ 0 then refuse x e3
                      else if e4 ≠ 0 then refuse x e4
                      else
                        let ms := (List.range d.n).map (fun r => (leField members (4 * r) 2, leField members (4 * r + 2) 1))
                        let c : Coll := ⟨queue, (x.ring q).read, b, ms, [], d.firstOut src ++ sends.filter (fun m => m.1 != d.rank), [], 0, 0, x.now⟩
                        (x.qTake q).collOpen c (crc32 members).toNat ((sends.filter (fun m => m.1 == d.rank)).map (·.2)) src

/-- ALL_REDUCE (R435). -/
def execAllReduce (queue : Nat) (s : State) : Res := .next (s.collStart queue 1)
/-- REDUCE_SCATTER (R432 to R435). -/
def execReduceScatter (queue : Nat) (s : State) : Res := .next (s.collStart queue 2)
/-- ALL_GATHER (R431). -/
def execAllGather (queue : Nat) (s : State) : Res := .next (s.collStart queue 3)
/-- BROADCAST (R431). -/
def execBroadcast (queue : Nat) (s : State) : Res := .next (s.collStart queue 4)
/-- PASS (R431). -/
def execPass (queue : Nat) (s : State) : Res := .next (s.collStart queue 5)
/-- PERMUTE (R431). -/
def execPermute (queue : Nat) (s : State) : Res := .next (s.collStart queue 6)
/-- SIG_CMP (R438). -/
def execSigCmp (queue : Nat) (s : State) : Res := .next (s.collStart queue 7)
/-- COLLECTIVE_OP_RESERVED (R428): a descriptor with a reserved OP halts its queue with DMA_BAD_DESC. -/
def execCollectiveOpReserved (queue : Nat) (s : State) : Res := .next (s.collStart queue 0)

/-- The CRC-32 over an open collective's member table, as its GRANTs carry it. -/
def Coll.tableCrc (c : Coll) : Nat :=
  (crc32 (c.members.flatMap (fun m => leBytes 2 m.1 ++ leBytes 1 m.2 ++ [0]))).toNat

/-- GRANT (R429): a member grants landing space; fields that disagree with this member's halt it. A GRANT that comes
before the collective has started is kept. -/
def execGrant (group seq rank : Nat) (fields : CollGrant) (s : State) : Res :=
  .next (match s.coll group seq with
    | none => { s with early := s.early ++ [(group, seq, rank, fields)] }
    | some c =>
      if fields ≠ (collDesc c.desc).grant c.tableCrc then s.collHalt c 0x0302 false c.rank
      else if c.grants.contains rank then s
      else s.collFlush { c with grants := c.grants ++ [rank] })

/-- COLL_MESSAGE (R430 to R438): a data message lands and is combined or written. While a line that it needs is held it
stays in its landing space. -/
def execCollMessage (group seq rank : Nat) (msg : CollMsg) (s : State) : Res :=
  .next (match s.coll group seq with
    | none => s
    | some c =>
      if (collDesc c.desc).expects rank msg then
        ((s.collAct c rank msg).map (·.bump COL_BYTES_RX.COUNT 0 msg.data.length)).getD s
      else s)

/-- FAIL (R437): another member has halted, and this one halts with the code that it carries. -/
def execFail (group seq rank : Nat) (code : Code) (s : State) : Res :=
  .next (match s.coll group seq with
    | none => s
    | some c => s.collHalt c code true rank)

/-- COLLECTIVE_COMPLETE (R436): every DST write is performed and confirmed, and every byte sent has landed. -/
def execCollectiveComplete (group seq : Nat) (s : State) : Res :=
  .next (match s.coll group seq with
    | none => s
    | some c =>
      let d := collDesc c.desc
      if c.out.isEmpty ∧ c.units = d.toWrite ∧ c.passed = d.toPass then
        let q : QId := ⟨.col, c.queue⟩
        let s1 := (s.setColls (s.colls.filter (fun x => !(x.queue == c.queue && x.seq == c.seq)))).bump COL_OPS.COUNT 0 1
        (s1.qBusy q (s1.colls.any (fun x => x.queue == c.queue))).qComplete q c.seq (d.flags.testBit 1) (d.flags.testBit 2) (d.mbx % 4096)
      else s)

/-- COL_TIMEOUT_EXPIRY (R437): no byte has landed or been sent for COL_TIMEOUT ms; 0 is no timeout. -/
def execColTimeoutExpiry (group seq : Nat) (s : State) : Res :=
  .next (match s.coll group seq with
    | none => s
    | some c =>
      let ms := s.rdN COL_TIMEOUT.MS 0
      if ms ≠ 0 ∧ s.now ≥ c.last + ms * 1000000 then s.collHalt c 0x0308 false c.rank else s)

/-- COL_Q_TAIL (R269, R270, R425). -/
def execColQTail (port : Port) (queue : Nat) (tail : Word32) (s : State) : Res :=
  .next (s.qWrite port ⟨.col, queue⟩ (·.qSetTail ⟨.col, queue⟩ (BitVec.setWidth 64 tail)))

/-- COL_Q_RESUME (R273, R425). -/
def execColQResume (port : Port) (queue : Nat) (s : State) : Res := .next (s.qWrite port ⟨.col, queue⟩ (·.qResume ⟨.col, queue⟩))

/-- COL_Q_ENABLE (R274, R425). -/
def execColQEnable (port : Port) (queue : Nat) (enable : Bool) (s : State) : Res :=
  .next (s.qWrite port ⟨.col, queue⟩ (·.qEnable ⟨.col, queue⟩ enable))

end Sys2Proof.Machine
end

