-- ==== Sys2Proof/Machine/Power.lean ====
section
/-! DEFINITION. Power, droop and thermal control (chapter 15): tokens, limits, haul-down, energy counters, sensors, the
trip and the bond wear. -/

namespace Sys2Proof.Machine

/-- The power manager's side at a changed content. -/
def State.onPower (s : State) (f : Power → Power) : State := { s with power := f s.power }

/-- The thermal side at a changed content. -/
def State.onTherm (s : State) (f : Thermal → Thermal) : State := { s with therm := f s.therm }

/-- Whether the power manager runs. -/
def State.powerUp (s : State) : Bool := s.island 142 == islActive

/-- A number held to a range. -/
def clamp (lo hi n : Nat) : Nat := max lo (min hi n)

/-- CAP_W as it acts. -/
def State.capW (s : State) : Nat := clamp 1500 4000 (s.rdN PWR_CAP.CAP_W 0)

/-- FAST_W as it acts: from CAP_W to 4,600. -/
def State.fastW (s : State) : Nat := clamp s.capW 4600 (s.rdN PWR_CAP_FAST.FAST_W 0)

/-- HD_W as it acts: 800 to 2,000, never above CAP_W. -/
def State.hdW (s : State) : Nat := min s.capW (clamp 800 2000 (s.rdN PWR_HAULDOWN.HD_W 0))

/-- HD_RAMP as it acts. -/
def State.hdRamp (s : State) : Nat := max 1 (s.rdN PWR_HAULDOWN.HD_RAMP 0)

/-- The control intervals of 10 µs in PWR_CAP_WINDOW. -/
def State.windowLen (s : State) : Nat := clamp 1 1000 (s.rdN PWR_CAP_WINDOW.MS 0) * 100

/-- Whether haul-down is active. -/
def State.hauled (s : State) : Bool := s.on PWR_STATUS.HAULDOWN_ACTIVE 0

/-! ### Demands and the pool (R446 to R453) -/

/-- Whether operating points apply to an island: panels and sequencers (R445). -/
def hasPoint (i : Nat) : Bool := decide (i < 136) && (decide (i % 34 < 16) || i % 34 == 26 || i % 34 == 27)

/-- The issuing phase of a panel island (R446). -/
def State.issuingPhase (s : State) (i : Nat) : Nat :=
  let n := fun f => Tab.get s.power.issued (i * 8 + f) 0
  let better := fun a b => decide (n b > n a) || (n b == n a && decide (s.rdN PWR_PHASE_PO.PO b > s.rdN PWR_PHASE_PO.PO a))
  let best := (List.range 8).foldl (fun a b => if better a b then b else a) 0
  if n best = 0 then 6 else best

/-- The preferred point of an island; 0 where none applies (R446). -/
def State.preferred (s : State) (i : Nat) : Nat :=
  if i ≥ 136 then 0
  else if i % 34 < 16 then s.rdN PWR_PHASE_PO.PO (s.issuingPhase i)
  else if i % 34 = 26 ∨ i % 34 = 27 then
    (List.range 16).foldl (fun m l => max m (s.rdN PWR_PHASE_PO.PO (s.issuingPhase (islandOf (i / 34) l)))) 0
  else 0

/-- An island's watts at an operating point. -/
def State.wattsAt (s : State) (i p : Nat) : Nat := (Tab.get s.power.watts i []).getD p 0

/-- The highest point that an island's preferred point, its tokens and its throttles allow (R447, R456). -/
def State.pointFor (s : State) (i : Nat) : Nat :=
  let pref := Tab.get s.power.pref i 0
  let top := if Tab.get s.power.ivr i 0 > s.now then pref - 1 else pref
  ((List.range (top + 1)).filter (fun p => decide (s.wattsAt i p ≤ s.rdN PWR_ISL.TOKENS i))).foldl max 0

/-- An island's PO brought up to date; fixed-clock islands read 0. -/
def State.setPoint (s : State) (i : Nat) : State := if hasPoint i then s.wrN PWR_ISL.PO i (s.pointFor i) else s

/-- The largest pool that keeps the mean over the window at or below CAP_W (R449). -/
def State.averagePool (s : State) : Nat :=
  let xs := s.power.samples.take (s.windowLen - 1)
  s.capW * (xs.length + 1) - xs.foldl (· + ·) 0

/-- The tier of an island (R453). -/
def tier (i : Nat) : Nat :=
  if i ≥ 136 then 1 else if i % 34 ≥ 32 then 1 else if i % 34 ≥ 16 then 2 else 3

/-- What a panel island receives of a share: the power of a whole operating point (R453). -/
def State.wholePoint (s : State) (i share : Nat) : Nat :=
  let pref := Tab.get s.power.pref i 0
  ((List.range (pref + 1)).map (s.wattsAt i)).foldl (fun m w => if w ≤ share then max m w else m) 0

/-- The tokens in flight: grants and revocations not yet acknowledged. -/
def State.tokensFlying (s : State) : Nat := s.power.flights.foldl (fun n m => n + m.watts) 0

/-- The tokens that the manager counts as held by an island: the revoked ones have left it. -/
def State.tokensKept (s : State) (i : Nat) : Nat :=
  s.rdN PWR_ISL.TOKENS i - (s.power.flights.filter (fun m => m.island == i && !m.grant && !m.arrived)).foldl (fun n m => n + m.watts) 0 -
    (s.power.flights.filter (fun m => m.island == i && m.grant && m.arrived)).foldl (fun n m => n + m.watts) 0

/-- POOL, HELD and INFLIGHT brought up to date (R452). -/
def State.tokenBooks (s : State) : State :=
  let held := (List.range 144).foldl (fun n i => n + s.tokensKept i) 0
  let fly := s.tokensFlying
  ((s.wrN PWR_TOKENS.HELD 0 held).wrN PWR_TOKENS.INFLIGHT 0 fly).wrN PWR_TOKENS.POOL 0 (s.power.size - (held + fly))

/-- A revocation of some watts sent to an island. -/
def State.sendRevoke (s : State) (i w : Nat) : State :=
  if w = 0 then s else (s.onPower (fun p => { p with flights := p.flights ++ [⟨i, false, w, false⟩] })).tokenBooks

/-- A grant of some watts, so far as the pool holds them. -/
def State.sendGrant (s : State) (i w : Nat) : State :=
  let n := min w (s.rdN PWR_TOKENS.POOL 0)
  if n = 0 then s else (s.onPower (fun p => { p with flights := p.flights ++ [⟨i, true, n, false⟩] })).tokenBooks

/-- What an island holds or will hold once its grants arrive. -/
def State.tokensDue (s : State) (i : Nat) : Nat :=
  s.tokensKept i + (s.power.flights.filter (fun m => m.island == i && m.grant)).foldl (fun n m => n + m.watts) 0

/-- Whether a throttle keeps an island from being granted more (R471). -/
def State.heldDown (s : State) (i : Nat) : Bool :=
  let on := fun d => Tab.get s.therm.level d false || Tab.get s.therm.rate d false
  if i ≥ 136 then decide (139 ≤ i) && decide (i ≤ 141) && on 28
  else (decide (i % 34 < 16) || (decide (26 ≤ i % 34) && decide (i % 34 < 32))) && (List.range 7).any (fun d => on (i / 34 * 7 + d))

/-- The demand of an island: its watts at its preferred point, none unless it draws power at all. -/
def State.demand (s : State) (i : Nat) : Nat :=
  if s.island i = islAsleep ∨ s.island i = islFused ∨ s.island i = islLost then 0
  else s.wattsAt i (if hasPoint i then Tab.get s.power.pref i 0 else 0)

/-- The watts that each island is to hold out of a pool (R453): islands in ascending order within tiers 1 and 2, a share in
proportion to demand in tier 3; and whether a demand is unmet. -/
def State.allot (s : State) (size : Nat) : List (Nat × Nat) × Bool :=
  let fill := fun (acc : List (Nat × Nat) × Nat × Bool) (i : Nat) =>
    let d := s.demand i
    let g := min d acc.2.1
    (acc.1 ++ [(i, g)], acc.2.1 - g, acc.2.2 || decide (g < d))
  let of := fun t => (List.range 144).filter (fun i => tier i = t)
  let t1 := (of 1).foldl fill ([], size, false)
  let t2 := if t1.2.2 then ((of 2).foldl fill (t1.1, 0, true)) else (of 2).foldl fill t1
  let rest := if t2.2.2 then 0 else t2.2.1
  let total := (of 3).foldl (fun n i => n + s.demand i) 0
  let share := fun i => if total ≤ rest then s.demand i else s.demand i * rest / total
  let t3 := (of 3).map (fun i => (i, s.wholePoint i (share i)))
  (t2.1 ++ t3, t2.2.2 || t3.any (fun e => decide (e.2 < s.demand e.1)))

/-- The throttle reasons that follow from what the islands hold (R461). -/
def State.powerReasons (s : State) (avg fast unmet : Bool) : State :=
  let stretched := s.power.limiter.any (·.2)
  let above := (List.range 136).any (fun i => decide (i % 34 < 16) && s.island i == islActive &&
    (let pref := Tab.get s.power.pref i 0
     s.rdN PWR_ISL.PO i == pref && decide (pref < 7) && decide (s.wattsAt i (pref + 1) ≤ s.rdN PWR_ISL.TOKENS i) && decide (s.wattsAt i (pref + 1) > 0)))
  (((((s.onPower (fun p => { p with fastUnmet := fast && unmet })).reason 0 (avg && unmet)).reason 1 ((fast && unmet) || stretched)).reason 2
    (s.power.ivr.any (fun e => decide (e.2 > s.now)))).reason 3 (s.power.droop.any (·.2))).reason 7 above

/-- CONTROL_INTERVAL (R446 to R453): every 10 µs the issuing phases, preferred points and pool size are taken afresh and
grants and revocations sent. The power is the mean measured over the last interval. -/
def execControlInterval (power : Nat) (demands : List IslandDemand) (s : State) : Res :=
  .next (if s.powerUp && (match s.power.interval with | some t => decide (s.now ≥ t + 10000) | none => true) then
    let watts := demands.foldl (fun m d => Tab.set m d.island d.watts []) s.power.watts
    let s1 := s.onPower (fun p => { p with watts := watts, samples := power :: p.samples.take 99999, interval := some s.now })
    let pref := (List.range 136).foldl (fun m i => if hasPoint i then Tab.set m i (s1.preferred i) 0 else m) s1.power.pref
    let s2 := s1.onPower (fun p => { p with pref := pref, issued := [], ivr := p.ivr.filter (fun e => decide (e.2 > s.now)) })
    let avg := s2.averagePool
    let want := min (min s2.fastW avg) (if s2.hauled then s2.hdW else s2.fastW)
    let size := if s2.power.ramp then min want (s2.power.size + s2.hdRamp * 10) else want
    let s3 := (s2.onPower (fun p => { p with size := size, ramp := p.ramp && decide (size < want) })).tokenBooks
    let plan := s3.allot size
    let s4 := s3.each plan.1 (fun e t => t.sendRevoke e.1 (t.tokensDue e.1 - max e.2 (t.tokensDue e.1 - t.tokensKept e.1)))
    let s5 := s4.each plan.1 (fun e t => if t.heldDown e.1 then t else t.sendGrant e.1 (e.2 - t.tokensDue e.1))
    let s6 := s5.each ((List.range 136).filter hasPoint) (fun i t => t.setPoint i)
    s6.powerReasons (decide (avg < s2.fastW) && !s2.hauled) (decide (s2.fastW ≤ avg) && !s2.hauled) plan.2
  else s)

/-- The first message of an island that satisfies a test, taken out. -/
def takeMsg (p : TokenMsg → Bool) : List TokenMsg → Option (TokenMsg × List TokenMsg)
  | [] => none
  | m :: ms => if p m then some (m, ms) else (takeMsg p ms).map (fun r => (r.1, m :: r.2))

/-- TOKEN_GRANT (R452): a grant reaches an island, which raises its point and acknowledges. -/
def execTokenGrant (island : Nat) (s : State) : Res :=
  .next (match takeMsg (fun m => m.island == island && m.grant && !m.arrived) s.power.flights with
    | none => s
    | some (m, ms) =>
      (((s.onPower (fun p => { p with flights := ms ++ [{ m with arrived := true }] })).wrN PWR_ISL.TOKENS island
        (s.rdN PWR_ISL.TOKENS island + m.watts)).setPoint island).tokenBooks)

/-- TOKEN_REVOKE (R452): a revocation reaches an island, which lowers its clock and then acknowledges. -/
def execTokenRevoke (island : Nat) (s : State) : Res :=
  .next (match takeMsg (fun m => m.island == island && !m.grant && !m.arrived) s.power.flights with
    | none => s
    | some (m, ms) =>
      (((s.onPower (fun p => { p with flights := ms ++ [{ m with arrived := true }] })).wrN PWR_ISL.TOKENS island
        (s.rdN PWR_ISL.TOKENS island - m.watts)).setPoint island).tokenBooks)

/-- TOKEN_ACK (R452): an acknowledgement reaches the manager: a granted token is held, a revoked one back in the pool. -/
def execTokenAck (island : Nat) (s : State) : Res :=
  .next (match takeMsg (fun m => m.island == island && m.arrived) s.power.flights with
    | none => s
    | some (_, ms) => (s.onPower (fun p => { p with flights := ms })).tokenBooks)

/-- STRETCH of an island brought up to date: its limiter or a droop stretches its clock. -/
def State.setStretch (s : State) (i : Nat) : State :=
  let s1 := s.flag PWR_ISL.STRETCH i (Tab.get s.power.limiter i false || Tab.get s.power.droop i false)
  (s1.reason 1 (s1.power.fastUnmet || s1.power.limiter.any (·.2))).reason 3 (s1.power.droop.any (·.2))

/-- LOCAL_LIMITER (R451): each 1 µs an island's limiter compares its estimate with its tokens. -/
def execLocalLimiter (island estimate : Nat) (s : State) : Res :=
  .next (if island < 144 then
    (s.onPower (fun p => { p with limiter := Tab.set p.limiter island (decide (estimate > s.rdN PWR_ISL.TOKENS island)) false })).setStretch island
  else s)

/-- DROOP_DETECT (R455): an output falls below the droop level; the clock period doubles and the episode is counted. -/
def execDroopDetect (island : Nat) (s : State) : Res :=
  .next (if island < 144 ∧ !Tab.get s.power.droop island false then
    ((s.onPower (fun p => { p with droop := Tab.set p.droop island true false })).setStretch island).bump PWR_DROOP_EVENTS.COUNT 0 1
  else s)

/-- DROOP_RECOVER (R455): the output has stayed above the level for 64 local cycles. -/
def execDroopRecover (island : Nat) (s : State) : Res :=
  .next (if Tab.get s.power.droop island false then (s.onPower (fun p => { p with droop := Tab.set p.droop island false false })).setStretch island
  else s)

/-- IVR_CURRENT_LIMIT (R456): an IVR reaches 95% of its limit; its island is lowered one point, or slowed, for at least
one control interval. -/
def execIvrCurrentLimit (island : Nat) (s : State) : Res :=
  .next (if island < 144 ∧ s.powerUp then
    ((s.onPower (fun p => { p with ivr := Tab.set p.ivr island (s.now + 10000) 0 })).setPoint island).reason 2 true
  else s)

/-! ### Haul-down (R457 to R460, R477) -/

/-- Haul-down as the pin and FORCE say (R458, R459): every island applies its divider, or returns to its token path while
the pool ramps up. -/
def State.haulSettle (s : State) : State :=
  let on := s.power.hdPin || s.on PWR_HAULDOWN.FORCE 0
  if on = s.hauled then s
  else
    let s1 := ((s.flag PWR_STATUS.HAULDOWN_ACTIVE 0 on).when on (·.set1 PWR_STATUS.HAULDOWN_EVT 0)).reason 6 on
    let s2 := s1.each (List.range 144) (fun i t => t.flag PWR_ISL.HD i on)
    if on then (s2.onPower (fun p => { p with size := min p.size s2.hdW })).tokenBooks
    else s2.onPower (fun p => { p with ramp := true, size := min p.size s2.hdW })

/-- The accepted level of HAUL_DOWN_N. -/
def State.haulPin (s : State) (low : Bool) : State :=
  ((s.onPower (fun p => { p with hdPin := low })).flag SBD_STATUS.HAUL_DOWN 0 low).haulSettle

/-- HAUL_DOWN_ASSERT (R458): HAUL_DOWN_N has been low for its input filter. -/
def execHaulDownAssert (s : State) : Res := .next (s.haulPin true)

/-- HAUL_DOWN_RELEASE (R459): HAUL_DOWN_N has been high for its input filter. -/
def execHaulDownRelease (s : State) : Res := .next (s.haulPin false)

/-- HAUL_DOWN_FORCE (R458, R477): a write of FORCE; lowNow says that the filter confirms a low level in the same cycle. -/
def execHaulDownForce (force lowNow : Bool) (s : State) : Res :=
  .next (((s.flag PWR_HAULDOWN.FORCE 0 force).when lowNow (fun t =>
    (t.onPower (fun p => { p with hdPin := true })).flag SBD_STATUS.HAUL_DOWN 0 true)).haulSettle)

/-- HAUL_DOWN_RECOMPUTE (R457): the dividers are chosen afresh, by island. -/
def execHaulDownRecompute (dividers : List (Nat × Nat)) (s : State) : Res :=
  .next (if s.powerUp then s.each (dividers.filter (fun e => decide (e.1 < 144) && decide (e.2 ≤ 4))) (fun e t => t.wrN PWR_ISL.HD_DIV e.1 e.2) else s)

/-! ### Limits and points written (R448, R454) -/

/-- A write of CAP_W or FAST_W: lowered, the pool shrinks to it at once; raised, grants ramp; the window starts again. -/
def State.capWrite (s : State) (fast : Bool) (w : Nat) : State :=
  let s1 := if fast then s.wrN PWR_CAP_FAST.FAST_W 0 w else s.wrN PWR_CAP.CAP_W 0 w
  let lower := decide (s1.capW < s.capW) || decide (s1.fastW < s.fastW)
  let raise := decide (s1.capW > s.capW) || decide (s1.fastW > s.fastW)
  let s2 := s1.onPower (fun p => { p with ramp := p.ramp || raise, samples := if lower then [] else p.samples, size := min p.size s1.fastW })
  if lower then s2.tokenBooks else s2

/-- CAP_WRITE (R454). -/
def execCapWrite (fast : Bool) (watts : Nat) (s : State) : Res := .next (s.capWrite fast watts)

/-- A write of a preferred point, ignored while the primer is resident (R448). -/
def State.phasePo (s : State) (i v : Nat) : State :=
  if s.str.sketch.primer ∨ i ≥ 8 then s else s.wrN PWR_PHASE_PO.PO i v

/-- PHASE_PO_WRITE (R448). -/
def execPhasePoWrite (phase point : Nat) (s : State) : Res := .next (s.phasePo phase point)

/-! ### Sensors (R467 to R469) -/

/-- The die of a sensor: canvas × 7 + (0 compute, 1 glaze, 2 to 5 gesso layer, 6 stretcher), 28 the hub. -/
def dieOf (i : Nat) : Nat :=
  if i ≥ 480 then 28
  else
    let l := i % 120
    i / 120 * 7 + (if l < 64 then 0 else if l < 80 then 1 else if l < 112 then 2 + (l - 80) / 8 else 6)

/-- The kind of a die: 0 compute, 1 glaze, 2 to 5 gesso, 6 stretcher, 7 hub. -/
def dieKind (d : Nat) : Nat := if d = 28 then 7 else d % 7

/-- A sensor's place in its die's grid, with the grid's rows and columns and the first sensor of the die. -/
def gridOf (i : Nat) : Nat × Nat × Nat :=
  if i ≥ 480 then (480, 4, 4)
  else
    let b := i / 120 * 120
    let l := i % 120
    if l < 64 then (b, 8, 8) else if l < 80 then (b + 64, 4, 4)
    else if l < 112 then (b + 80 + (l - 80) / 8 * 8, 2, 4) else (b + 112, 2, 4)

/-- The neighbours of a sensor (R467). -/
def sensorNear (i : Nat) : List Nat :=
  let g := gridOf i
  let k := i - g.1
  let r := k / g.2.2
  let c := k % g.2.2
  let flat := (List.range (g.2.1 * g.2.2)).filter (fun n =>
    n != k && decide (n / g.2.2 ≤ r + 1) && decide (r ≤ n / g.2.2 + 1) && decide (n % g.2.2 ≤ c + 1) && decide (c ≤ n % g.2.2 + 1))
  let l := i % 120
  let stack := if i < 480 ∧ 80 ≤ l ∧ l < 112 then (if l ≥ 88 then [i - 8] else []) ++ (if l < 104 then [i + 8] else []) else []
  flat.map (· + g.1) ++ stack

/-- A list of values in rising order. -/
def insertInt (x : Int) : List Int → List Int
  | [] => [x]
  | y :: ys => if x ≤ y then x :: y :: ys else y :: insertInt x ys

/-- Twice the median of a list that is not empty (R468): the mean of the two middle values where the number is even. -/
def medianTwice (xs : List Int) : Int :=
  let s := xs.foldr insertInt []
  let n := s.length
  if n % 2 = 1 then 2 * s.getD (n / 2) 0 else s.getD (n / 2 - 1) 0 + s.getD (n / 2) 0

/-- Degrees in 1/16 °C: warn, throttle and trip of a kind of die (the table before R470). -/
def dieLimits (kind : Nat) : Int × Int × Int :=
  if 1 ≤ kind ∧ kind ≤ 5 then (85 * 16, 95 * 16, 105 * 16) else (95 * 16, 105 * 16, 115 * 16)

/-- The degrees by which wear lowers the throttle thresholds of a canvas's compute and glaze dies (R475). -/
def State.derate (s : State) (c : Nat) : Nat :=
  let u := Tab.get s.therm.wear c 0 / 1000000
  if u < 80000 then 0 else min 10 ((u - 80000) / 2000)

/-- The throttle threshold of a die. -/
def State.throttleAt (s : State) (d : Nat) : Int :=
  (dieLimits (dieKind d)).2.1 - (if dieKind d ≤ 1 then (s.derate (d / 7) * 16 : Nat) else 0)

/-- Whether a sensor is trusted. -/
def State.trusted (s : State) (i : Nat) : Bool := !s.on THM_SENSOR.SUSPECT i

/-- The value of a sensor in a sample, and whether it is a stand-in (R468, R469). -/
def State.sensorValue (s : State) (temps : List Int) (i : Nat) : Int × Bool :=
  let d := dieOf i
  let mates := (List.range 496).filter (fun n => dieOf n == d)
  if 2 * (mates.filter s.trusted).length < mates.length then (s.throttleAt d, true)
  else if s.trusted i then (temps.getD i 0, false)
  else match (sensorNear i).filter s.trusted with
    | [] => (temps.getD i 0, false)
    | n :: ns => (ns.foldl (fun m x => max m (temps.getD x 0)) (temps.getD n 0), true)

/-- The comparison of each trusted sensor with the median of its trusted neighbours (R468). -/
def State.sensorCheck (s : State) (temps : List Int) : State :=
  s.each ((List.range 496).filter s.trusted) (fun i t =>
    let near := (sensorNear i).filter s.trusted
    if near.length < 3 then t.onTherm (fun h => { h with off := Tab.set h.off i 0 0 })
    else
      let diff := 2 * temps.getD i 0 - medianTwice (near.map (fun n => temps.getD n 0))
      if diff > 256 ∨ diff < -256 then
        let n := Tab.get t.therm.off i 0 + 1
        if n ≥ 3 then (((t.onTherm (fun h => { h with off := Tab.set h.off i 0 0 })).set1 THM_SENSOR.SUSPECT i).set1 THM_STATUS.SUSPECT_EVT 0)
        else t.onTherm (fun h => { h with off := Tab.set h.off i n 0 })
      else t.onTherm (fun h => { h with off := Tab.set h.off i 0 0 }))

/-! ### Throttle and trip (R470 to R473) -/

/-- The revocation of 5% of the tokens that some islands hold. -/
def State.revokeShare (s : State) (is : List Nat) : State :=
  s.each is (fun i t => t.sendRevoke i (t.tokensKept i * 5 / 100))

/-- The islands whose tokens the throttle of a die takes (R471). -/
def throttled (d : Nat) : List Nat :=
  if d = 28 then [139, 140, 141] else (List.range 16 ++ [26, 27, 28, 29, 30, 31]).map (islandOf (d / 7))

/-- A die at a sample (R470, R471): its throttles engage, act while the hottest sensor has not fallen, and release. -/
def State.dieSample (s : State) (vals : List Int) (d : Nat) : State :=
  let mine := (List.range 496).filter (fun i => dieOf i == d)
  let hot := mine.foldl (fun m i => max m (vals.getD i 0)) (vals.getD (mine.headD 0) 0)
  let lim := s.throttleAt d
  let wasL := Tab.get s.therm.level d false
  let wasR := Tab.get s.therm.rate d false
  let fast := mine.any (fun i => decide (Tab.get s.therm.rising i 0 ≥ 40))
  let cool := decide (hot ≤ lim - 48) && !fast
  let level := decide (hot ≥ lim) || (wasL && !cool)
  let rate := fast || (wasR && !cool)
  let s1 := s.onTherm (fun h => { h with level := Tab.set h.level d level false, rate := Tab.set h.rate d rate false, hottest := Tab.set h.hottest d hot 0 })
  let s2 := (s1.when (level && !wasL) (·.set1 THM_STATUS.THROTTLE_EVT 0)).when (rate && !wasR) (·.set1 THM_STATUS.RATE_EVT 0)
  let s3 := if (level || rate) && decide (hot ≥ Tab.get s.therm.hottest d 0) then s2.revokeShare (throttled d) else s2
  if (wasL || wasR) && !level && !rate then s3.onPower (fun p => { p with ramp := true }) else s3

/-- The reasons that the throttles give (R461). -/
def State.thermalReasons (s : State) (vals : List Int) : State :=
  let lv := fun d => Tab.get s.therm.level d false
  let mem := fun d => decide (1 ≤ dieKind d) && decide (dieKind d ≤ 5)
  let wear := (List.range 28).any (fun d => lv d && decide (dieKind d ≤ 1) &&
    (List.range 496).all (fun i => dieOf i != d || decide (vals.getD i 0 < (dieLimits (dieKind d)).2.1)))
  ((((s.reason 4 ((List.range 29).any (fun d => lv d && !mem d))).reason 5 ((List.range 29).any (fun d => Tab.get s.therm.rate d false))).reason 9
    ((List.range 29).any (fun d => lv d && mem d))).reason 8 ((List.range 496).any (fun i => !s.trusted i))).reason 10 wear

/-- A BOND_WEAR record of a canvas (R474). -/
def State.wearRecord (s : State) (c : Nat) : State := s.journal 0x12 c (leBytes 4 (Tab.get s.therm.wear c 0 / 1000))

/-- An island that is turned off without CLOSING (R46): what it holds is lost. -/
def State.turnOff (s : State) (i : Nat) : State :=
  if s.island i = islFused ∨ s.island i = islLost then s.loseIsland i
  else (((s.loseIsland i).setIsland i islAsleep).clr GLB_ISL_STATE.PENDING_ENABLE i).clr GLB_ISL_STATE.PENDING_DISABLE i

/-- A trip (R472): THERMTRIP_N, every island off but 136 and 143, SRAM and gesso lost, and the record in its queue. -/
def State.trip (s : State) (sensor : Nat) (rate : Bool) (temp r : Int) : State :=
  let b := fun (x : Int) => leBytes 2 ((BitVec.ofInt 16 x).toNat)
  let rec_ := leBytes 2 sensor ++ [if rate then 1 else 0] ++ b temp ++ b r ++ [0] ++ leBytes 8 s.now ++ leBytes 2 (s.rdN PWR_POWER.WATTS 0)
  let s1 := s.each (List.range 144) (fun i t => if i = 136 ∨ i = 143 then t else t.turnOff i)
  let s2 := s1.each canvases (fun c t => (t.loseUnits c).wrN TTH_STATUS.LINK c 0)
  let s3 := (s2.onTherm (fun h => { h with tripPin := true })).journal 0x10 0xFF rec_
  (s3.each canvases (fun c t => t.wearRecord c)).capacity

/-- A number of samples in a row above a limit. -/
def inARow (m : Tab Nat) (i : Nat) (high : Bool) : Tab Nat := Tab.set m i (if high then Tab.get m i 0 + 1 else 0) 0

/-- The die temperatures that confidential mode shows, brought up to date once every 100 ms (R482). -/
def State.showDies (s : State) : State :=
  if (match s.therm.shownAt with | some t => decide (s.now ≥ t + 100000000) | none => true) then
    s.onTherm (fun h => { h with shown := h.hottest, shownAt := some s.now })
  else s

/-- SENSOR_SAMPLE (R467 to R472): each 100 µs every sensor is sampled; a trip prevails over everything else (R480). -/
def execSensorSample (temps : List Int) (s : State) : Res :=
  .next (if s.powerUp && !s.therm.tripPin && temps.length == 496 &&
      (match s.therm.sampleAt with | some t => decide (s.now ≥ t + 100000) | none => true) then
    let pairs := (List.range 496).map (s.sensorValue temps)
    let vals := pairs.map (·.1)
    let old := s.therm.history.getD 9 vals
    let r := fun i => vals.getD i 0 - old.getD i 0
    let rising := (List.range 496).foldl (fun m i => inARow m i (decide (r i > 24))) s.therm.rising
    let soaring := (List.range 496).foldl (fun m i => inARow m i (decide (r i > 80))) s.therm.soaring
    let s1 := s.onTherm (fun h => { h with history := vals :: h.history.take 10, sampleAt := some s.now, rising := rising, soaring := soaring })
    let s2 := s1.each (List.range 496) (fun i t =>
      (t.wr THM_SENSOR.TEMP i (BitVec.setWidth 64 (BitVec.ofInt 16 (vals.getD i 0)))).flag THM_SENSOR.STANDIN i ((pairs.getD i (0, false)).2))
    let top := (List.range 496).foldl (fun m i => if vals.getD i 0 > vals.getD m 0 then i else m) 0
    let s3 := (s2.wrN THM_MAX.SENSOR 0 top).wr THM_MAX.TEMP 0 (BitVec.setWidth 64 (BitVec.ofInt 16 (vals.getD top 0)))
    let lim := fun i => dieLimits (dieKind (dieOf i))
    match (List.range 496).find? (fun i => decide (vals.getD i 0 ≥ (lim i).2.2) || decide (Tab.get soaring i 0 ≥ 20)) with
    | some i => s3.trip i (decide (vals.getD i 0 < (lim i).2.2)) (vals.getD i 0) (r i)
    | none =>
      let warm := fun i => decide (vals.getD i 0 ≥ (lim i).1)
      let s4 := s3.when ((List.range 496).any warm) (·.set1 THM_STATUS.WARN 0)
      let s5 := s4.each canvases (fun c t =>
        let hot := (List.range 32).any (fun k => warm (c * 120 + 80 + k))
        t.onGso (fun g => { g with fast := Tab.set g.fast c hot false }))
      let s6 := ((s5.each (List.range 29) (fun d t => t.dieSample vals d)).showDies).sensorCheck temps
      s6.thermalReasons vals
  else s)

/-- TRIP_RECORD_DONE (R472): the trip's record is written, and islands 136 and 143 turn off. -/
def execTripRecordDone (s : State) : Res :=
  .next (if s.therm.tripPin ∧ s.island 136 = islActive ∧ s.jnl.queue.all (fun e => e.record.type != 0x10) ∧ s.jnl.waiting.all (fun r => r.type != 0x10) then
    (s.setIsland 136 islAsleep).setIsland 143 islAsleep else s)

/-- A write of 1 to SUSPECT: the sensor is trusted again, and its comparison starts again. -/
def State.readmit (s : State) (i : Nat) : State :=
  ((s.clr THM_SENSOR.SUSPECT i).clr THM_SENSOR.STANDIN i).onTherm (fun h => { h with off := Tab.set h.off i 0 0 })

/-- SUSPECT_CLEAR (R468, R478): marked says that a sample marks the sensor in the same cycle, which wins. -/
def execSuspectClear (sensor : Nat) (marked : Bool) (s : State) : Res :=
  .next (if sensor ≥ 496 then s
    else if marked then (s.set1 THM_SENSOR.SUSPECT sensor).set1 THM_STATUS.SUSPECT_EVT 0
    else s.readmit sensor)

/-! ### Energy (R463 to R466) -/

/-- Whose energy a share is: the device's system work, nobody's, or a partition's and its job's. -/
inductive EnergyOwner where
  | system | idle | part (p : Nat) (wash : Bool)
deriving DecidableEq, Repr

/-- Nanojoules added to a counter of microjoules; what does not fill one is kept. -/
def State.addEnergy (s : State) (key : Nat) (f : RegField) (i nj : Nat) : State :=
  let n := Tab.get s.power.nj key 0 + nj
  (s.onPower (fun p => { p with nj := Tab.set p.nj key (n % 1000) 0 })).bump f i (n / 1000)

/-- A share booked. -/
def State.bookEnergy (s : State) (o : EnergyOwner) (nj : Nat) : State :=
  match o with
  | .system => s.addEnergy 1 PWR_ENERGY_SYSTEM.COUNT 0 nj
  | .idle => s.addEnergy 2 PWR_ENERGY_IDLE.COUNT 0 nj
  | .part p w =>
    let s1 := s.addEnergy (1024 + p) PWR_ENERGY_PART.UJ p nj
    match s.part p with
    | some x => let j := if w then x.washJob else x.job
                s1.addEnergy (2048 + j) PWR_ENERGY_JOB.UJ j nj
    | none => s1

/-- The leakage of an island split (R464): a panel island's among the partitions of its quads, another's in proportion to
the dynamic energy that partitions drew from it. -/
def State.leakShares (s : State) (used : List EnergyUse) (i nj : Nat) : List (EnergyOwner × Nat) :=
  let weights : List (EnergyOwner × Nat) :=
    if i < 136 ∧ i % 34 < 16 then
      (List.range 4).filterMap (fun q => (s.panelPart (i / 34 * 256 + i % 34 * 16 + q * 4)).map (fun p => (EnergyOwner.part p false, 1)))
    else used.filterMap (fun u => if u.island = i then u.part.map (fun p => (EnergyOwner.part p.1 p.2, u.nj)) else none)
  let total := weights.foldl (fun n w => n + w.2) 0
  if total = 0 then [(.idle, nj)]
  else
    let parts := weights.map (fun w => (w.1, nj * w.2 / total))
    parts ++ [(.idle, nj - parts.foldl (fun n w => n + w.2) 0)]

/-- ENERGY_INTERVAL (R463 to R466): each 1 ms the modelled shares, scaled by measured over modelled energy, are added to
the counters. The measured energy and the modelled dynamic energy and leakage by island are in nJ. -/
def execEnergyInterval (measured : Nat) (used : List EnergyUse) (leaks : List (Nat × Nat)) (s : State) : Res :=
  .next (if s.powerUp ∧ s.now ≥ s.power.energyAt + 1000000 then
    let dyn : List (EnergyOwner × Nat) := used.map (fun u => (match u.part with | some p => EnergyOwner.part p.1 p.2 | none => .system, u.nj))
    let shares := dyn ++ leaks.flatMap (fun l => s.leakShares used l.1 l.2)
    let total := shares.foldl (fun n x => n + x.2) 0
    let scaled := if total = 0 then [] else shares.map (fun x => (x.1, x.2 * measured / total))
    let left := measured - scaled.foldl (fun n x => n + x.2) 0
    let s1 := (s.each scaled (fun x t => t.bookEnergy x.1 x.2)).bookEnergy .idle left
    let e := s1.power.hidden + measured
    let ms := s1.power.hiddenMs + 1
    let s2 := s1.onPower (fun p => { p with energyAt := s.now })
    if s.conf ∧ ms < 100 then s2.onPower (fun p => { p with hidden := e, hiddenMs := ms })
    else ((s2.onPower (fun p => { p with hidden := 0, hiddenMs := 0 })).addEnergy 0 PWR_ENERGY_DEVICE.COUNT 0 e).wrN PWR_POWER.WATTS 0 (e / (1000000 * ms))
  else s)

/-! ### Bond wear (R474, R475) -/

/-- The wear of a cycle of a range in 1/2560 °C, in millionths of a unit: (range / 40 °C)² above 20 °C. -/
def cycleWear (range : Int) : Nat :=
  let d := range.natAbs
  if d ≤ 51200 then 0 else d * d * 1000000 / (102400 * 102400)

/-- Rainflow counting of the reversals, oldest first: full cycles are taken out of the middle, a range that holds the
first reversal counts as half a cycle. The wear and what remains; fuel bounds the cycles. -/
def rainflow : Nat → List Int → Nat × List Int
  | 0, xs => (0, xs)
  | f + 1, xs =>
    let n := xs.length
    if n < 3 then (0, xs)
    else
      let a := xs.getD (n - 3) 0
      let b := xs.getD (n - 2) 0
      let c := xs.getD (n - 1) 0
      if (c - b).natAbs < (b - a).natAbs then (0, xs)
      else if n = 3 then
        let r := rainflow f [b, c]
        (cycleWear (b - a) / 2 + r.1, r.2)
      else
        let r := rainflow f (xs.take (n - 3) ++ [c])
        (cycleWear (b - a) + r.1, r.2)

/-- A bond temperature taken into the count: a new extreme, or a reversal of at least 2 °C. -/
def State.wearPoint (s : State) (c : Nat) (t : Int) : State :=
  let turns := Tab.get s.therm.turns c []
  match Tab.get s.therm.extreme c none with
  | none => s.onTherm (fun h => { h with extreme := Tab.set h.extreme c (some t) none, turns := Tab.set h.turns c [t] [] })
  | some x =>
    let last := turns.getLastD x
    let up := decide (x ≥ last)
    if (up && decide (t ≥ x)) || (!up && decide (t ≤ x)) || x = last then
      s.onTherm (fun h => { h with extreme := Tab.set h.extreme c (some t) none })
    else if (t - x).natAbs < 5120 then s
    else
      let r := rainflow (turns.length + 2) (turns ++ [x])
      s.onTherm (fun h => { h with
        extreme := Tab.set h.extreme c (some t) none, turns := Tab.set h.turns c r.2 [], wear := Tab.set h.wear c (Tab.get h.wear c 0 + r.1) 0 })

/-- BOND_WEAR_SAMPLE (R474, R475): the bond temperature of a canvas over the last 1 ms, the mean of its 16 glaze sensors,
is counted; a record for each multiple of 10 units, derating and the end of the rated life. -/
def execBondWearSample (canvas : Nat) (s : State) : Res :=
  .next (if canvas < 4 ∧ s.powerUp ∧ s.therm.history.length ≥ 10 then
    let sum := (s.therm.history.take 10).foldl (fun n v => n + ((List.range 16).foldl (fun m k => m + v.getD (canvas * 120 + 64 + k) 0) 0)) 0
    let s1 := s.wearPoint canvas sum
    let old := Tab.get s.therm.wear canvas 0
    let new := Tab.get s1.therm.wear canvas 0
    let s2 := (s1.wrN THM_WEAR.UNITS canvas (new / 1000000)).when (decide (new / 10000000 > old / 10000000)) (·.wearRecord canvas)
    let s3 := s2.when (decide (new ≥ 80000000000)) (·.set1 THM_STATUS.WEAR_DERATE 0)
    s3.when (decide (new ≥ 100000000000) && decide (old < 100000000000)) (fun t => (t.set1 THM_STATUS.WEAR_LIFE 0).journal 0x13 canvas (leBytes 2 0x0704))
  else s)

end Sys2Proof.Machine
end

