-- ==== Sys2Proof/Machine/Security.lean ====
section
/-! DEFINITION. The root of trust and confidential mode (chapter 16): the RTP mailbox, measurements, SPDM, entry, exit and
the exit scrub, the epoch salt, tamper handling. The sketchbook and firmware commands stand in Journal.lean. -/

namespace Sys2Proof.Machine

/-- The root of trust at a changed content. -/
def State.onSec (s : State) (f : Security → Security) : State := { s with sec := f s.sec }

/-- Codes of R505. -/
def secBusy : Code := 0x0601
/-- SEC_NOT_QUIESCED. -/
def secNotQuiesced : Code := 0x0602
/-- SEC_BAD_CMD. -/
def secBadCmd : Code := 0x0603
/-- SEC_CONF_ACTIVE. -/
def secConfActive : Code := 0x0604
/-- SEC_NOT_CONF. -/
def secNotConf : Code := 0x0605
/-- SEC_TAMPER_LATCHED. -/
def secTamperLatched : Code := 0x0606
/-- SEC_TENANT_EXIT. -/
def secTenantExit : Code := 0x0607
/-- SEC_KEY_INVALID. -/
def secKeyInvalid : Code := 0x0608

/-- The stage of bring-up. -/
def State.stage (s : State) : Nat := s.rdN GLB_BOOT_STATUS.STAGE 0

/-- Whether the device is quiesced (R485). -/
def State.quiesced (s : State) : Bool :=
  decide (s.str.loader.phase = .idle) &&
  (s.listed CNV_PNL_THR_CTL.STATE).all (fun e => e.2 != 1) &&
  (s.listed CNV_SEQ_THR_CTL.STATE).all (fun e => e.2 != 2 && e.2 != 3) &&
  (s.listed DMA_CH_STATUS.STATE).all (fun e => e.2 != 1) &&
  s.rows.cmds.all (fun (e : Nat × List RowCmd) => e.2.isEmpty) && s.fin.tasks.all (fun (e : Nat × List FinTask) => e.2.isEmpty) &&
  s.openCoats.isEmpty && s.colls.isEmpty

/-! ### The epoch salt (R499 to R501) -/

/-- The salts that a change may choose: the bytes of even weight other than the current one. -/
def saltChoices (cur : Byte) : List Byte :=
  ((List.range 256).filter (fun b => popcount b % 2 == 0 && b != cur.toNat)).map (BitVec.ofNat 8)

/-- The glaze after a salt change: every word is uncorrectable, so a clean sector is invalid and a dirty one poisoned. -/
def State.saltGlaze (s : State) : State :=
  s.each s.glz.lines (fun (e : Nat × Option GlazeLine) t =>
    match e.2 with
    | none => t
    | some l =>
      let base := lineDpa (keyCanvas e.1) (keyLine e.1) / 8
      let words := (secs l.dirty).flatMap (fun i => (List.range 32).map (fun w => base + 32 * i + w))
      (t.setLine e.1 (some { l with valid := l.valid &&& l.dirty })).onGlz (fun g => { g with bad := setFlags g.bad words true }))

/-- A change of the salt (R499, R500): no SRAM word is readable until it is written. -/
def State.changeSalt (s : State) : State :=
  let d := s.draw
  let choices := saltChoices s.sec.salt
  let s1 := (d.2.onSec (fun x => { x with salt := choices.getD (d.1.toNat % choices.length) 0 })).bump SEC_EPOCH.COUNT 0 1
  let well : Host.Cell → Bool := fun e => match targetOf e.1 with | .well _ _ => false | _ => true
  let s2 := { s1 with mem := s1.mem.filter well, fin := { s1.fin with palette := [] } }
  let threads := s2.seq.threads.map (fun (e : Nat × SeqState) => (e.1, { e.2 with fresh := 0 }))
  let cores := s2.seq.cores.map (fun (e : Nat × SeqCore) => (e.1, { e.2 with dcache := [] }))
  ({ s2 with seq := { s2.seq with threads := threads, cores := cores } }.saltGlaze).roDrop (fun _ => true)

/-- The SRAM of the tenant (R498 step 3): every glaze line invalid without write-back, the caches empty, the threads of
panels and sequencers at their reset values. -/
def State.clearSram (s : State) : State :=
  let s1 := s.each s.glz.lines (fun e t => t.dropLine e.1)
  let s2 := (s1.each s1.glz.victims (fun e t => t.setVictim e.1 none)).roDrop (fun _ => true)
  let box : Nat × Mailbox → Nat × Mailbox := fun e => (e.1, ⟨e.2.words, []⟩)
  let s3 := { s2 with seq := { s2.seq with threads := [], cores := [], boxes := s2.seq.boxes.map box },
                      pnl := { s2.pnl with threads := [], flights := [] } }
  s3.clearFields [CNV_PNL_THR_CTL.ENABLE, CNV_PNL_THR_CTL.CLASS, CNV_PNL_THR_CTL.PHASE, CNV_PNL_THR_CTL.STATE, CNV_PNL_THR_WAIT.HANDLE,
    CNV_PNL_THR_WAIT.REASON, CNV_PNL_THR_PC.PC, CNV_PNL_THR_STEP.STEP, CNV_SEQ_THR_CTL.ENABLE, CNV_SEQ_THR_CTL.STATE,
    CNV_SEQ_THR_CTL.WAIT, CNV_SEQ_THR_CTL.PARTITION, CNV_SEQ_THR_PC.PC]

/-! ### What confidential mode hides (R466, R497) -/

/-- Whether a field is a counter that reads zero to the host in confidential mode: those of every chapter but the memory
errors', the host interface's, the droop events and the device's own energy. -/
def hiddenCount (f : RegField) : Bool :=
  (f.cls == .count && decide (0x300000 ≤ f.reg) && !(decide (0x26C0000 ≤ f.reg) && decide (f.reg < 0x2700000))) ||
  f.reg == PWR_ENERGY_PART.UJ.reg || f.reg == PWR_ENERGY_JOB.UJ.reg || f.reg == PWR_ENERGY_SYSTEM.COUNT.reg || f.reg == PWR_ENERGY_IDLE.COUNT.reg

/-- The hidden counters, as the upper parts of their keys. -/
def hiddenKeys : List Nat := ((catalogue.flatMap (·.fields)).filter hiddenCount).map (fun f => f.reg * 64 + f.lo)

/-- The hidden counters reset to zero (R498 step 6). -/
def State.zeroHidden (s : State) : State := { s with regs := s.regs.filter (fun e => !hiddenKeys.contains (e.1 / 4294967296)) }

/-! ### Keys and links (R492 to R494, R498 step 2) -/

/-- Every tenant key erased. -/
def State.eraseKeys (s : State) : State := s.onSec (fun x => { x with tmk := none, tlk := none, ide := false })

/-- The key registers of a spar port emptied, with what its link end holds of a training. -/
def State.sparForget (s : State) (p : Nat) (x : SparPort) : State :=
  ((((s.wrN SPR_KEY.TX_KEY p 0).wrN SPR_KEY.RX_KEY p 0).clr SPR_KEY.NEXT_TX p).clr SPR_KEY.NEXT_RX p).setSpar p x

/-- An enabled port returns to BOOT and agrees new keys (R498), or is trained again for them (R491). -/
def State.sparRenew (s : State) (boot : Bool) : State :=
  s.each ((List.range 8).filter (fun p => s.on SPR_CTL.ENABLE p && s.sparLink p != 0)) (fun p t =>
    if boot then ((t.sparForget p { SparPort.idle with bootAt := t.now }).wrN SPR_STATUS.LINK p 2).sparOffer p 0
    else (t.sparForget p { SparPort.idle with start := t.now }).wrN SPR_STATUS.LINK p 1)

/-! ### The RTP mailbox (R483, R484) -/

/-- What a mailbox command answers: its code, its response, and the state after it. -/
structure MbxAnswer where
  code : Code
  resp : List Byte
  st   : State
deriving DecidableEq, Repr

/-- A command that ends with a code and changes nothing. -/
def State.refuse (s : State) (code : Code) : MbxAnswer := ⟨code, [], s⟩

/-- A command that has done what it was asked. -/
def State.granted (s : State) : MbxAnswer := ⟨0, [], s⟩

/-- Whether the RTP takes commands: its island is ACTIVE and bring-up has reached HUB (R565). -/
def State.rtpUp (s : State) : Bool := s.island 136 == islActive && decide (s.stage ≥ 2)

/-- The commands that RECOVERY serves: the firmware's (R565). -/
def firmwareOp (op : Nat) : Bool := op == 0x18 || op == 0x19 || op == 0x1A

/-- The first bytes of the mailbox buffer. -/
def State.mbxBuffer (s : State) (n : Nat) : List Byte := (List.range (min n 4096)).map (fun i => Tab.get s.sec.buffer i 0)

/-- The end of a command: response, CODE, BUSY, MBX_DONE. -/
def State.mbxFinish (s : State) (code : Code) (resp : List Byte) : State :=
  let buf := ((List.range resp.length).zip resp).foldl (fun m e => Tab.set m e.1 e.2 0) s.sec.buffer
  let s1 := s.onSec (fun x => { x with run := none, buffer := buf })
  (((s1.wr SEC_MBX_STATUS.CODE 0 (codeVal code)).wrN SEC_MBX_STATUS.RLEN 0 resp.length).clr SEC_MBX_STATUS.BUSY 0).set1 SEC_STATUS.MBX_DONE 0

/-- A command begins, its request given; some end at once with SEC_BUSY (R484). -/
def State.mbxStart (s : State) (op : Nat) (bytes : List Byte) (go : List Byte → State → MbxAnswer) : State :=
  if s.on SEC_STATUS.EXITING 0 || s.sec.entering.isSome || (op == 0x12 && s.on JNL_STATUS.COMPACTING 0) then s.mbxFinish secBusy []
  else
    let a := if s.stage == 6 && !firmwareOp op then s.refuse secBadCmd else go bytes s
    (a.st.onSec (fun x => { x with run := some ⟨a.code, a.resp.take 4096⟩ })).set1 SEC_MBX_STATUS.BUSY 0

/-- A command sent to the mailbox (R484): while another runs, the host's is ignored and sets DENIED, and the SMBus path's
waits. -/
def State.mbxCmd (s : State) (op : Nat) (req : MbxRequest) (flashOk : Bool) (go : List Byte → State → MbxAnswer) : State :=
  if !s.rtpUp then s
  else match req with
    | .host len => if s.on SEC_MBX_STATUS.BUSY 0 then s.set1 SEC_STATUS.DENIED 0 else s.mbxStart op (s.mbxBuffer len) go
    | .smbus bytes =>
      if s.on SEC_MBX_STATUS.BUSY 0 then s.onSec (fun x => { x with waiting := x.waiting ++ [⟨op, bytes.take 4096, flashOk⟩] })
      else s.mbxStart op (bytes.take 4096) go

/-- A byte of a request as a number. -/
def byteAt (b : List Byte) (i : Nat) : Nat := (b.getD i 0).toNat

/-- A platform slot at a content; M4 follows (R487, R489). -/
def State.setSlotKey (s : State) (n : Nat) (d : Option (BitVec 384)) : State :=
  (s.onSec (fun x => { x with slots := x.slots.set n d })).measureKeys

/-- ENROLL. -/
def State.enrollCmd (b : List Byte) (s : State) : MbxAnswer :=
  if s.conf then s.refuse secConfActive
  else if b.length < 64 ∨ byteAt b 0 > 3 then s.refuse secBadCmd
  else (s.setSlotKey (byteAt b 0) (some (BitVec.ofNat 384 (leField b 16 48)))).granted

/-- REVOKE. -/
def State.revokeCmd (b : List Byte) (s : State) : MbxAnswer :=
  if s.conf then s.refuse secConfActive
  else if b.length < 1 ∨ byteAt b 0 > 3 then s.refuse secBadCmd
  else (s.setSlotKey (byteAt b 0) none).granted

/-- SALT_CHANGE. -/
def State.saltCmd (_ : List Byte) (s : State) : MbxAnswer :=
  if s.conf then s.refuse secConfActive
  else if !s.quiesced then s.refuse secNotQuiesced
  else s.changeSalt.granted

/-- CLEAR_TAMPER (R504). -/
def State.tamperCmd (_ : List Byte) (s : State) : MbxAnswer :=
  if s.conf then s.refuse secConfActive
  else
    let s1 := (s.clr SEC_STATUS.TAMPER_LATCH 0).onSec (fun x => { x with clears := x.clears + 1 })
    (s1.journal 0x61 255 (leBytes 4 s1.sec.clears)).granted

/-- The start of an exit (R498, to the end of step 1): doorbells are held, and every partition faults for both classes. -/
def State.exitBegin (s : State) (trigger : Nat) : State :=
  if s.on SEC_STATUS.EXITING 0 then s
  else
    let s1 := (s.set1 SEC_STATUS.EXITING 0).onSec (fun x => { x with exiting := .drain, trigger := trigger })
    s1.each (List.range 256) (fun p t => (t.partFault p false secTenantExit).partFault p true secTenantExit)

/-- FORCE_EXIT. -/
def State.forceCmd (_ : List Byte) (s : State) : MbxAnswer :=
  if !s.conf then s.refuse secNotConf else (s.exitBegin 2).granted

/-- A certificate of the chain (R486). -/
def State.cert (s : State) (i : Nat) : List Byte := Config.certificate i (if i = 2 then s.sec.derived else 0)

/-- READ_CERT. -/
def State.certCmd (b : List Byte) (s : State) : MbxAnswer :=
  if b.length < 1 ∨ byteAt b 0 > 2 then s.refuse secBadCmd else ⟨0, s.cert (byteAt b 0), s⟩

/-- ENROLL (R484, R489). -/
def execEnroll (req : MbxRequest) (s : State) : Res := .next (s.mbxCmd 0x01 req true State.enrollCmd)

/-- REVOKE (R484, R489). -/
def execRevoke (req : MbxRequest) (s : State) : Res := .next (s.mbxCmd 0x02 req true State.revokeCmd)

/-- SALT_CHANGE (R484, R500). -/
def execSaltChange (req : MbxRequest) (s : State) : Res := .next (s.mbxCmd 0x03 req true State.saltCmd)

/-- CLEAR_TAMPER (R484, R504). -/
def execClearTamper (req : MbxRequest) (s : State) : Res := .next (s.mbxCmd 0x04 req true State.tamperCmd)

/-- FORCE_EXIT (R484, R498). -/
def execForceExit (req : MbxRequest) (s : State) : Res := .next (s.mbxCmd 0x05 req true State.forceCmd)

/-- READ_CERT (R484, R486). -/
def execReadCert (req : MbxRequest) (s : State) : Res := .next (s.mbxCmd 0x06 req true State.certCmd)

/-! ### Measurements and SPDM (R487, R488) -/

/-- A measurement's 48 bytes; M5 stands unhashed. -/
def State.measBytes (s : State) (i : Nat) : List Byte := if i = 5 then s.stateRecord else digestBytes (s.meas i)

/-- The certificate chain of slot 0. -/
def State.chain (s : State) : List Byte := s.cert 0 ++ s.cert 1 ++ s.cert 2

/-- A signature by the RTP's current key. -/
def State.sign (s : State) (bs : List Byte) : List Byte := Config.rtpSign s.sec.derived bs

/-- Whether the RTP answers SPDM: bring-up has reached HUB, and not RECOVERY (R565). -/
def State.spdmUp (s : State) : Bool := s.rtpUp && s.stage != 6

/-- An SPDM answer. -/
def State.spdm (s : State) (request : Nat) (content : List Byte) : State := s.send (.spdm request false content)

/-- An SPDM error answer: the standard's error code. -/
def State.spdmError (s : State) (request : Nat) (code : Byte) : State := s.send (.spdm request true [code])

/-- An SPDM request answered where the RTP answers at all. -/
def State.spdmRun (s : State) (go : State → State) : State := if s.spdmUp then go s else s

/-- A session. -/
def State.session (s : State) (n : Nat) : Option Session := Tab.get s.sec.sessions n none

/-- A session at a content. -/
def State.setSession (s : State) (n : Nat) (x : Option Session) : State := s.onSec (fun y => { y with sessions := Tab.set y.sessions n x none })

/-- Whether a session is open and secure. -/
def State.secure (s : State) (n : Nat) : Bool := match s.session n with | some x => x.secure | none => false

/-- GET_VERSION (R488). -/
def execGetVersion (s : State) : Res := .next (s.spdmRun (fun t => t.spdm 0x84 (Config.spdmContent 0x84)))

/-- GET_CAPABILITIES (R488). -/
def execGetCapabilities (s : State) : Res := .next (s.spdmRun (fun t => t.spdm 0xE1 (Config.spdmContent 0xE1)))

/-- NEGOTIATE_ALGORITHMS (R488). -/
def execNegotiateAlgorithms (s : State) : Res := .next (s.spdmRun (fun t => t.spdm 0xE3 (Config.spdmContent 0xE3)))

/-- GET_DIGESTS (R488): the digest of the chain of slot 0. -/
def execGetDigests (s : State) : Res := .next (s.spdmRun (fun t => t.spdm 0x81 (digestBytes (Config.sha384 t.chain))))

/-- GET_CERTIFICATE (R488): a part of the chain of slot 0, the only slot. -/
def execGetCertificate (slot offset length : Nat) (s : State) : Res :=
  .next (s.spdmRun (fun t => if slot = 0 then t.spdm 0x82 ((t.chain.drop offset).take length) else t.spdmError 0x82 0x01))

/-- CHALLENGE (R486, R488): answered under the key that signs every attestation response. -/
def execChallenge (slot : Nat) (nonce : List Byte) (s : State) : Res :=
  .next (s.spdmRun (fun t =>
    if slot = 0 then
      let body := digestBytes (Config.sha384 t.chain)
      t.spdm 0x83 (body ++ t.sign (body ++ nonce))
    else t.spdmError 0x83 0x01))

/-- GET_MEASUREMENTS (R487, R488): index 0 asks how many there are, 255 for all, and SPDM index i + 1 is Mi; signed where
a nonce comes with the request. -/
def execGetMeasurements (index : Nat) (nonce : Option (List Byte)) (s : State) : Res :=
  .next (s.spdmRun (fun t =>
    let body : Option (List Byte) :=
      if index = 0 then some [6] else if index ≤ 6 then some (t.measBytes (index - 1))
      else if index = 255 then some ((List.range 6).flatMap t.measBytes) else none
    match body, nonce with
    | none, _ => t.spdmError 0xE0 0x01
    | some b, none => t.spdm 0xE0 b
    | some b, some n => t.spdm 0xE0 (b ++ t.sign (b ++ n))))

/-- KEY_EXCHANGE (R488): opens a session, of which at most 4 are open at once. -/
def execKeyExchange (publicKey : List Byte) (s : State) : Res :=
  .next (s.spdmRun (fun t =>
    match (List.range 4).find? (fun n => (t.session n).isNone) with
    | none => t.spdmError 0xE4 0x0A
    | some n =>
      let body := BitVec.ofNat 8 n :: digestBytes (Config.sha384 t.chain)
      (t.setSession n (some ⟨false, 0⟩)).spdm 0xE4 (body ++ t.sign (body ++ publicKey))))

/-- FINISH (R488): completes a session's establishment; where its verification fails the session is closed. -/
def execFinish (session : Nat) (good : Bool) (s : State) : Res :=
  .next (s.spdmRun (fun t =>
    match t.session session with
    | some ⟨false, n⟩ =>
      if good then (t.setSession session (some ⟨true, n⟩)).spdm 0xE5 [] else (t.setSession session none).spdmError 0xE5 0x06
    | _ => t.spdmError 0xE5 0x02))

/-- END_SESSION (R488): closes a session. -/
def execEndSession (session : Nat) (s : State) : Res :=
  .next (s.spdmRun (fun t => if t.secure session then (t.setSession session none).spdm 0xEC [] else t.spdmError 0xEC 0x02))

/-- HEARTBEAT (R488): keeps a session alive. -/
def execHeartbeat (session : Nat) (s : State) : Res :=
  .next (s.spdmRun (fun t => if t.secure session then t.spdm 0xE8 [] else t.spdmError 0xE8 0x02))

/-- KEY_UPDATE (R488): a session's keys are updated. -/
def execKeyUpdate (session : Nat) (s : State) : Res :=
  .next (s.spdmRun (fun t =>
    match t.session session with
    | some ⟨true, n⟩ => (t.setSession session (some ⟨true, n + 1⟩)).spdm 0xE9 []
    | _ => t.spdmError 0xE9 0x02))

/-- SPDM_UNSUPPORTED (R488): any other request is answered with UnsupportedRequest. -/
def execSpdmUnsupported (request : Nat) (s : State) : Res := .next (s.spdmRun (fun t => t.spdmError request 0x07))

/-! ### Confidential entry and exit (R490, R491, R498) -/

/-- A vendor-defined message of the tenant, taken only inside a secure session. -/
def State.tenant (s : State) (session : Nat) (go : State → State) : State :=
  s.spdmRun (fun t => if t.secure session then go t else t.spdmError 0xFE 0x02)

/-- The request of a CONF_ENTER, none where it is malformed or a key is all zeros. -/
def confReq (b : List Byte) : Option ConfReq :=
  let n := byteAt b 64
  if b.length ≠ 65 + 48 * n ∨ n > 4 ∨ leField b 0 32 = 0 ∨ leField b 32 32 = 0 then none
  else some ⟨BitVec.ofNat 256 (leField b 0 32), BitVec.ofNat 256 (leField b 32 32),
    (List.range n).map (fun i => BitVec.ofNat 384 (leField b (65 + 48 * i) 48))⟩

/-- CONF_ENTER (R490, R491 steps 1 and 2): refused with its code, or the primer is applied, the SRAM cleared and the salt
changed; the zeroing of the gesso is due. -/
def execConfEnter (session : Nat) (payload : List Byte) (s : State) : Res :=
  .next (s.tenant session (fun t =>
    let no := fun (c : Code) => t.send (.vendor 1 c [])
    if t.conf then no secConfActive
    else if t.on SEC_STATUS.EXITING 0 || t.sec.entering.isSome then no secBusy
    else if t.on SEC_STATUS.TAMPER_LATCH 0 then no secTamperLatched
    else if !t.quiesced then no secNotQuiesced
    else match confReq payload with
      | none => no secKeyInvalid
      | some r =>
        let a := (((t.applyPrimer).sktState 0).clearSram).changeSalt
        (a.each a.availables (fun c u => u.wakeGesso c)).onSec (fun x => { x with entering := some (session, r) })))

/-- Whether the system row queues can zero every existing row: each available canvas has its gesso islands ACTIVE. -/
def State.canZero (s : State) : Bool :=
  s.availables.all (fun c => s.island (stretcherIsland c) == islActive &&
    [22, 23, 24, 25].all (fun l => s.island (islandOf c l) == islActive || s.island (islandOf c l) == islFused || s.island (islandOf c l) == islLost))

/-- Every existing row of the available canvases zeroed (R284, R498 step 5). -/
def State.zeroGesso (s : State) : State := s.each s.availables (fun c t => t.zeroCanvas c)

/-- ENTER_ZERO_DONE (R491 steps 2 to 6): the gesso reads zero, the primer's services run, the tenant slots and keys are
in place, and confidential mode is in force. -/
def execEnterZeroDone (s : State) : Res :=
  .next (match s.sec.entering with
    | none => s
    | some (_, r) =>
      if !s.canZero || s.stage != 5 then s
      else
        let slots := s.sec.slots.take 4 ++ (r.digests.map some ++ List.replicate 4 none).take 4
        let s1 := (s.zeroGesso.applyPrimer).onSec (fun x => { x with slots := slots, tmk := some r.tmk, tlk := some r.tlk, entering := none })
        let s2 := ((s1.set1 SEC_STATUS.CONF 0).set1 GLB_BOOT_STATUS.SCRUB_PENDING 0).measureKeys
        ((s2.sparRenew false).send (.vendor 1 0 [])).set1 SEC_STATUS.CONF_EVT 0)

/-- CONF_EXIT (R498): an exit begins. -/
def execConfExit (session : Nat) (s : State) : Res :=
  .next (s.tenant session (fun t => if t.conf then (t.exitBegin 1).send (.vendor 2 0 []) else t.send (.vendor 2 secNotConf [])))

/-- CONF_STATUS: the response is M5. -/
def execConfStatus (session : Nat) (s : State) : Res :=
  .next (s.tenant session (fun t => t.send (.vendor 3 0 t.stateRecord)))

/-- Whether every accepted request has completed (R498 step 1). -/
def State.allDrained (s : State) : Bool :=
  s.pnl.flights.all (fun (e : Nat × Option Flight) => e.2.isNone) && s.dma.runs.all (fun (e : Nat × List DmaRun) => e.2.isEmpty) &&
  s.rows.cmds.all (fun (e : Nat × List RowCmd) => e.2.isEmpty) && s.fin.tasks.all (fun (e : Nat × List FinTask) => e.2.isEmpty) &&
  s.colls.isEmpty && (s.listed CNV_SEQ_THR_CTL.STATE).all (fun e => e.2 == 0 || e.2 == 4 || e.2 == 5) && s.glz.waiting.isEmpty &&
  s.glz.slots.all (fun (e : Nat × Option FillSlot) => e.2.isNone)

/-- The exit's steps 2 to 4 (R498): keys and IDE keys erased, links back in BOOT, TDISP unlocked, SRAM cleared, the salt
changed, and the gesso islands awake for the zeroing. -/
def State.exitErase (s : State) : State :=
  let s1 := ((s.eraseKeys).onSec (fun x => { x with tdisp := .unlocked })).sparRenew true
  let s2 := (s1.clearSram).changeSalt
  s2.each s2.availables (fun c t => t.wakeGesso c)

/-- EXIT_DRAINED (R498 steps 2 to 4). -/
def execExitDrained (s : State) : Res :=
  .next (if s.sec.exiting = .drain ∧ s.allDrained then s.exitErase.onSec (fun x => { x with exiting := .zero }) else s)

/-- The exit's step 6 (R498): primer, tenant slots, hidden counters, status, record, doorbells. -/
def State.exitFinish (s : State) (trigger : Nat) : State :=
  let s1 := ((s.applyPrimer).setLoader ⟨.idle, 0, 0, 0⟩).sktState 0
  let slots := s1.sec.slots.take 4 ++ List.replicate 4 none
  let s2 := ((s1.onSec (fun x => { x with slots := slots, exiting := .none, trigger := 0 })).measureKeys).zeroHidden
  let s3 := (((s2.clr SEC_STATUS.CONF 0).clr SEC_STATUS.EXITING 0).clr GLB_BOOT_STATUS.SCRUB_PENDING 0).set1 SEC_STATUS.CONF_EVT 0
  (s3.journal 0x60 255 [BitVec.ofNat 8 trigger]).releaseBells

/-- TDISP_EXIT (R497, R498): the interface leaves RUN, and in confidential mode the RTP performs an exit. -/
def execTdispExit (s : State) : Res :=
  .next (if s.sec.tdisp = .run then (s.onSec (fun x => { x with tdisp := .error })).when s.conf (·.exitBegin 3) else s)

/-- IDE_KM_REQUEST (R488, R497): the IDE stream keys are installed in a secure session. -/
def execIdeKmRequest (session : Nat) (s : State) : Res :=
  .next (s.tenant session (fun t => (t.onSec (fun x => { x with ide := true })).spdm 0xFE []))

/-- TDISP_REQUEST (R488, R497): the device interface moves between the states that the PCIe specification gives it; one
that leaves RUN in confidential mode begins an exit. -/
def execTdispRequest (session : Nat) (message : TdispMsg) (s : State) : Res :=
  .next (s.tenant session (fun t =>
    let go := fun (x : Tdisp) => (t.onSec (fun y => { y with tdisp := x })).spdm 0xFE []
    match message, t.sec.tdisp with
    | .lock, .unlocked => go .locked
    | .start, .locked => go .run
    | .stop, .run => (go .unlocked).when t.conf (·.exitBegin 3)
    | .stop, _ => go .unlocked
    | _, _ => t.spdmError 0xFE 0x01))

/-! ### Tamper (R502 to R504) -/

/-- An entry of the tamper ring; the latch sets and the warm key cache is erased. -/
def State.tamperEntry (s : State) (cause value : Nat) : State :=
  let i := s.rdN SEC_TAMPER_HEAD.NEXT 0
  let s1 := s.when (decide (s.rdN SEC_TAMPER.CAUSE i ≠ 0)) (·.set1 SEC_TAMPER_HEAD.WRAPPED 0)
  let s2 := ((s1.wrN SEC_TAMPER.TIME i s.msNow).wrN SEC_TAMPER.CAUSE i cause).wrN SEC_TAMPER.VALUE i value
  (((s2.wrN SEC_TAMPER_HEAD.NEXT 0 ((i + 1) % 32)).set1 SEC_STATUS.TAMPER_LATCH 0).set1 SEC_STATUS.TAMPER_EVT 0).onSec
    (fun x => { x with warmKeys := none, episodes := Tab.set x.episodes cause true false })

/-- TAMPER_DETECT (R502, R503): on the backup cell alone, a cause is logged once per episode, and again only after its
condition has been absent for 1 s; absentFor is that time in ns. -/
def execTamperDetect (cause value absentFor : Nat) (s : State) : Res :=
  .next (if !s.boot.powered && decide (1 ≤ cause) && decide (cause ≤ 4) && (!Tab.get s.sec.episodes cause false || decide (absentFor ≥ 1000000000)) then
    s.tamperEntry cause value
  else s)

end Sys2Proof.Machine
end

