-- ==== Sys2Proof/Machine/Journal.lean ====
section
/-! DEFINITION. The sketchbook's writing and compaction, and the sketchbook and firmware commands of the RTP mailbox
(chapter 19, R574 to R577, R581 to R588), with the end of a mailbox command (R484). -/

namespace Sys2Proof.Machine

/-- The sketchbook at a changed content. -/
def State.onJnl (s : State) (f : Journal → Journal) : State := { s with jnl := f s.jnl }

/-- The boot side at a changed content. -/
def State.onBoot (s : State) (f : Boot → Boot) : State := { s with boot := f s.boot }

/-! ### Records (R581, R583, R584) -/

/-- The 64 bytes of a record (R581). -/
def JRecord.bytes (r : JRecord) : List Byte :=
  let head := leBytes 2 r.type ++ [BitVec.ofNat 8 r.source, 0] ++ leBytes 4 r.seq ++ leBytes 8 r.time ++ leBytes 4 r.boot ++ r.payload
  head ++ leBytes 4 (crc32 head).toNat

/-- A record put in its place among records in SEQ order. -/
def bySeq (r : JRecord) : List JRecord → List JRecord
  | [] => [r]
  | x :: xs => if r.seq ≤ x.seq then r :: x :: xs else x :: bySeq r xs

/-- Records in SEQ order. -/
def sortSeq (rs : List JRecord) : List JRecord := rs.foldr bySeq []

/-- A slot of the image filled with a record, or torn; SLOTS follows, and at 98,304 slots compaction begins (R585). -/
def State.fillSlot (s : State) (r : Option JRecord) : State :=
  let s1 := s.onJnl (fun j => { j with slots := j.slots ++ [r] })
  let s2 := s1.wrN JNL_FILL.SLOTS 0 s1.jnl.slots.length
  if s2.jnl.slots.length ≥ 98304 ∧ s2.jnl.compact = none then
    (s2.onJnl (fun j => { j with compact := some j.slots.length })).set1 JNL_STATUS.COMPACTING 0
  else s2

/-- The head of the write queue has gone: a state record that waited for a place takes it (R584). -/
def State.queuePop (s : State) : State :=
  s.onJnl (fun j => match j.waiting with
    | [] => { j with queue := j.queue.drop 1 }
    | r :: rs => { j with queue := j.queue.drop 1 ++ [JEntry.mk r 0 none], waiting := rs })

/-- Whether the sketchbook can be written: the RTP runs, the image has been chosen, and it has a free slot. -/
def State.jnlUp (s : State) : Bool := s.rtpUp && decide (s.jnl.slots.length < 131072)

/-- RECORD_PROGRAM_DONE (R583): the program of the oldest record completes, or fails verification and moves on to the
next slot; after the third failure FLASH_ERR, and a record that is no state record is dropped. -/
def execRecordProgramDone (good : Bool) (s : State) : Res :=
  .next (match s.jnl.queue with
    | ⟨r, fails, none⟩ :: es =>
      if !s.jnlUp then s
      else if good then (s.fillSlot (some r)).queuePop
      else
        let s1 := s.fillSlot none
        if fails + 1 < 3 then s1.onJnl (fun j => { j with queue := ⟨r, fails + 1, none⟩ :: es })
        else
          let s2 := s1.set1 JNL_STATUS.FLASH_ERR 0
          if stateType r.type then s2.onJnl (fun j => { j with queue := ⟨r, fails + 1, some (s.now + 1000000000)⟩ :: es })
          else ((s2.queuePop).bump JNL_LOST.COUNT 0 1).set1 JNL_STATUS.RECORD_LOST 0
    | _ => s)

/-- RECORD_RETRY (R583): a failed state record is tried again, once every second, in the next free slot. -/
def execRecordRetry (good : Bool) (s : State) : Res :=
  .next (match s.jnl.queue with
    | ⟨r, fails, some t⟩ :: es =>
      if !s.jnlUp || decide (s.now < t) then s
      else if good then (s.fillSlot (some r)).queuePop
      else (s.fillSlot none).onJnl (fun j => { j with queue := ⟨r, fails, some (s.now + 1000000000)⟩ :: es })
    | _ => s)

/-! ### Images and compaction (R585, R586) -/

/-- The HEADER of an image: GEN and the mark KSBK. -/
def State.header (s : State) (gen : Nat) : JRecord :=
  ⟨1, 255, s.rdN JNL_NEXT_SEQ.VALUE 0, s.msNow, s.rdN GLB_BOOT_COUNT.COUNT 0, (leBytes 4 gen ++ leBytes 4 0x4B42534B ++ List.replicate 40 0).take 40⟩

/-- An image with a fresh HEADER becomes the active half. -/
def State.newImage (s : State) (gen half : Nat) (rs : List JRecord) : State :=
  let s1 := s.onJnl (fun j => { j with slots := (s.header gen :: rs).map some, compact := none })
  ((((s1.wrN JNL_GEN.VALUE 0 gen).wrN JNL_FILL.HALF 0 half).wrN JNL_FILL.SLOTS 0 s1.jnl.slots.length).bump JNL_NEXT_SEQ.VALUE 0 1).clr
    JNL_STATUS.COMPACTING 0

/-- The last n of a list. -/
def lastOf {α : Type} (n : Nat) (xs : List α) : List α := xs.drop (xs.length - n)

/-- COMPACTION_COMMIT (R585): the new half holds the state records, the newest 4,096 others and those appended since; its
HEADER is written, and the old half erased. -/
def execCompactionCommit (s : State) : Res :=
  .next (match s.jnl.compact with
    | none => s
    | some n =>
      if !s.rtpUp then s
      else
        let old := (s.jnl.slots.take n).filterMap id
        let state := sortSeq (old.filter (fun r => r.isState old))
        let others := lastOf 4096 (sortSeq (old.filter (fun r => !r.isState old && r.type != 1)))
        let since := (s.jnl.slots.drop n).filterMap id
        (s.newImage ((s.rdN JNL_GEN.VALUE 0 + 1) % 2 ^ 32) (1 - s.rdN JNL_FILL.HALF 0) (state ++ others ++ since)).set1 JNL_STATUS.COMPACT_DONE 0)

/-- The image chosen at bring-up (R586): the half with a valid HEADER, or both halves erased and formatted. -/
def State.openImage (s : State) : State :=
  match s.jnl.slots with
  | some h :: _ =>
    if h.type = 1 then
      let next := (s.jnlRecords.foldl (fun m r => max m (r.seq + 1)) 0) % 2 ^ 32
      ((s.wrN JNL_GEN.VALUE 0 (leField h.payload 0 4)).wrN JNL_FILL.SLOTS 0 s.jnl.slots.length).wrN JNL_NEXT_SEQ.VALUE 0 next
    else (s.newImage 1 0 []).set1 JNL_STATUS.FORMATTED 0
  | _ => (s.newImage 1 0 []).set1 JNL_STATUS.FORMATTED 0

/-- THERMAL_RECORD_CLEAR (R573): a write of 1 to PRESENT appends a THERMAL_CLEAR for each uncleared trip; PRESENT and
THERMAL_HOLD clear. -/
def execThermalRecordClear (s : State) : Res :=
  .next (if s.rtpUp && s.on JNL_THERMAL_RECORD.PRESENT 0 then
    let s1 := s.each s.openTrips (fun r t => t.journal 0x11 255 (leBytes 4 r.seq))
    (s1.clr JNL_THERMAL_RECORD.PRESENT 0).clr GLB_BOOT_STATUS.THERMAL_HOLD 0
  else s)

/-! ### The journal commands (R587) -/

/-- JNL_READ. -/
def State.jnlReadCmd (b : List Byte) (s : State) : MbxAnswer :=
  if b.length < 4 then s.refuse secBadCmd
  else ⟨0, ((sortSeq (s.jnlRecords.filter (fun r => decide (leField b 0 4 ≤ r.seq)))).take 64).flatMap JRecord.bytes, s⟩

/-- JNL_APPEND. -/
def State.jnlAppendCmd (b : List Byte) (s : State) : MbxAnswer :=
  if b.length < 40 then s.refuse secBadCmd else (s.journal 0xF0 255 (b.take 40)).granted

/-- JNL_COMPACT. -/
def State.jnlCompactCmd (_ : List Byte) (s : State) : MbxAnswer :=
  ((s.onJnl (fun j => { j with compact := some j.slots.length })).set1 JNL_STATUS.COMPACTING 0).granted

/-- JNL_READ (R484, R587). -/
def execJnlRead (req : MbxRequest) (s : State) : Res := .next (s.mbxCmd 0x10 req true State.jnlReadCmd)

/-- JNL_APPEND (R484, R587). -/
def execJnlAppend (req : MbxRequest) (s : State) : Res := .next (s.mbxCmd 0x11 req true State.jnlAppendCmd)

/-- JNL_COMPACT (R484, R585, R587). -/
def execJnlCompact (req : MbxRequest) (s : State) : Res := .next (s.mbxCmd 0x12 req true State.jnlCompactCmd)

/-! ### Firmware images (R574 to R577) -/

/-- The size of a firmware slot. -/
def slotSize : Nat := 0x1000000

/-- A byte of a firmware slot of the board flash. -/
def State.slotByte (s : State) (slot o : Nat) : Byte :=
  match Tab.get s.boot.flash (slot * slotSize + o) none with
  | some b => b
  | none => if s.boot.erased.contains slot then 0xFF else Config.flashByte (slot * slotSize + o)

/-- Bytes of a firmware slot. -/
def State.slotBytes (s : State) (slot o n : Nat) : List Byte := (List.range n).map (fun i => s.slotByte slot (o + i))

/-- An image that has verified: VERSION, SVN and BODY_DIGEST. -/
structure FwImage where
  version : Nat
  svn     : Nat
  digest  : BitVec 384
deriving DecidableEq, Repr

/-- The verification of a slot (R575, R576). -/
def State.verifySlot (s : State) (slot : Nat) : Except Code FwImage :=
  let h := s.slotBytes slot 0 256
  let size := leField h 12 4
  if leField h 0 4 ≠ 0x4654524B ∨ size % 256 ≠ 0 ∨ 256 + size + 200 > slotSize then .error 0x0610
  else
    let sig := s.slotBytes slot (256 + size) 200
    let digest := BitVec.ofNat 384 (leField h 16 48)
    let good := (List.range 2).any (fun i => decide (Config.sha384 (sig.take 96) = Config.fwKeyDigest i)) &&
      Config.ecdsaGood (sig.take 96) (s.slotBytes slot 0 (256 + size)) ((sig.drop 96).take 96) &&
      (sig.drop 192).all (fun b => b == 0) && decide (Config.sha384 (s.slotBytes slot 256 size) = digest)
    if !good then .error 0x0610
    else if leField h 8 4 < s.boot.minSvn then .error 0x0611
    else .ok ⟨leField h 4 4, leField h 8 4, digest⟩

/-- The slot that the firmware commands act on: the one not running, or in RECOVERY the one not preferred (R577). -/
def State.targetSlot (s : State) : Nat :=
  if s.stage = 6 then 1 - s.boot.preferred else 1 - s.rdN GLB_BOOT_STATUS.FW_SLOT 0

/-- FW_WRITE. -/
def State.fwWriteCmd (flashOk : Bool) (b : List Byte) (s : State) : MbxAnswer :=
  let o := leField b 0 4
  let n := leField b 4 4
  if s.conf then s.refuse secConfActive
  else if n < 1 ∨ n > 4032 ∨ b.length < 64 + n ∨ o + n > slotSize then s.refuse secBadCmd
  else if !flashOk then s.refuse 0x0612
  else
    let k := s.targetSlot
    let s1 := if o = 0 then s.onBoot (fun x => { x with
        flash := x.flash.filter (fun e => e.1 / slotSize != k), erased := if x.erased.contains k then x.erased else k :: x.erased }) else s
    let put := fun (m : Tab (Option Byte)) => ((List.range n).zip ((b.drop 64).take n)).foldl
      (fun m e => Tab.set m (k * slotSize + o + e.1) (some e.2) none) m
    (s1.onBoot (fun x => { x with flash := put x.flash })).granted

/-- FW_ACTIVATE. -/
def State.fwActivateCmd (flashOk : Bool) (_ : List Byte) (s : State) : MbxAnswer :=
  if s.conf then s.refuse secConfActive
  else match s.verifySlot s.targetSlot with
    | .error c => s.refuse c
    | .ok i =>
      if !flashOk then s.refuse 0x0612
      else
        let k := s.targetSlot
        let s1 := (s.onBoot (fun x => { x with preferred := k, dirSeq := x.dirSeq + 1 })).journal 0x71 255
          ([BitVec.ofNat 8 k] ++ leBytes 4 i.version ++ leBytes 4 i.svn)
        (if s.stage = 6 then s1.wrN GLB_BOOT_STATUS.STAGE 0 0 else s1).granted

/-- FW_COMMIT_SVN. -/
def State.fwCommitCmd (_ : List Byte) (s : State) : MbxAnswer :=
  if s.conf then s.refuse secConfActive
  else (s.onBoot (fun x => { x with minSvn := max x.minSvn x.svn })).granted

/-- FW_WRITE (R484, R577). -/
def execFwWrite (req : MbxRequest) (flashOk : Bool) (s : State) : Res := .next (s.mbxCmd 0x18 req flashOk (State.fwWriteCmd flashOk))

/-- FW_ACTIVATE (R484, R576, R577). -/
def execFwActivate (req : MbxRequest) (flashOk : Bool) (s : State) : Res := .next (s.mbxCmd 0x19 req flashOk (State.fwActivateCmd flashOk))

/-- FW_COMMIT_SVN (R484, R577). -/
def execFwCommitSvn (req : MbxRequest) (s : State) : Res := .next (s.mbxCmd 0x1A req true State.fwCommitCmd)

/-! ### Every OPCODE (R484) -/

/-- The command of an OPCODE; none where the tables list none. -/
def mbxGo (flashOk : Bool) (op : Nat) : Option (List Byte → State → MbxAnswer) :=
  match op with
  | 0x01 => some State.enrollCmd
  | 0x02 => some State.revokeCmd
  | 0x03 => some State.saltCmd
  | 0x04 => some State.tamperCmd
  | 0x05 => some State.forceCmd
  | 0x06 => some State.certCmd
  | 0x10 => some State.jnlReadCmd
  | 0x11 => some State.jnlAppendCmd
  | 0x12 => some State.jnlCompactCmd
  | 0x18 => some (State.fwWriteCmd flashOk)
  | 0x19 => some (State.fwActivateCmd flashOk)
  | 0x1A => some State.fwCommitCmd
  | _ => none

/-- The command of any OPCODE; an unlisted one is refused with SEC_BAD_CMD. -/
def mbxAny (flashOk : Bool) (op : Nat) : List Byte → State → MbxAnswer :=
  (mbxGo flashOk op).getD (fun _ s => s.refuse secBadCmd)

/-- SEC_BAD_CMD (R484): a command with an OPCODE that no table lists. -/
def execSecBadCmd (opcode : Nat) (req : MbxRequest) (s : State) : Res :=
  .next (if (mbxGo true opcode).isSome then s else s.mbxCmd opcode req true (fun _ t => t.refuse secBadCmd))

/-- MBX_COMMAND_END (R484): a command ends, and the next one of the SMBus path begins. -/
def execMbxCommandEnd (s : State) : Res :=
  .next (match s.sec.run with
    | none => s
    | some r =>
      let s1 := s.mbxFinish r.code r.resp
      match s1.sec.waiting with
      | [] => s1
      | w :: ws => (s1.onSec (fun x => { x with waiting := ws })).mbxStart w.opcode w.request (mbxAny w.flashOk w.opcode))

end Sys2Proof.Machine
end

