-- ==== Sys2Proof/Machine/Boot.lean ====
section
/-! DEFINITION. Reset domains, bring-up and power (chapter 19, R561 to R573, R599, R600), with the end of a confidential
exit, after which a waiting host reset follows (R563). -/

namespace Sys2Proof.Machine

/-! ### What the resets keep (R561) -/

/-- The registers whose value comes from fuses, the always-on domain or the board flash, by offset. -/
def fixedReg (r : Nat) : Bool :=
  [GLB_ID.PART_ID.reg, GLB_SERIAL.SERIAL.reg, GLB_BOOT_COUNT.COUNT.reg, SEC_TAMPER.TIME.reg, SEC_TAMPER_HEAD.NEXT.reg,
    CNV_ROW_LAYER_MODE.FALLBACK.reg, CNV_GSO_BANKS.WORKING.reg, CNV_GSO_POP_LIMIT.OFFSET.reg, JNL_FILL.HALF.reg, JNL_GEN.VALUE.reg,
    JNL_NEXT_SEQ.VALUE.reg, THM_WEAR.UNITS.reg].contains r

/-- The entries of the register table that satisfy a test of the register's offset, with the FUSED islands. -/
def State.keepRegs (s : State) (p : Nat → Bool) : Tab Val :=
  let states := GLB_ISL_STATE.STATE.reg * 64 + GLB_ISL_STATE.STATE.lo
  s.regs.filter (fun e => p (keyReg e.1) || (e.1 / 4294967296 == states && e.2 == 4))

/-- The device reset (R561): everything but the always-on domain, fuses and the board flash; torn says that a record's
program was interrupted (R583). -/
def State.deviceReset (s : State) (cause : Nat) (torn : Bool) : State :=
  let z := State.reset
  let pend := s.on GLB_BOOT_STATUS.SCRUB_PENDING 0
  let lost := if torn && !s.jnl.queue.isEmpty then [none] else []
  let sec := { z.sec with slots := s.sec.slots.take 4 ++ List.replicate 4 none, clears := s.sec.clears, jtagOpen := s.sec.jtagOpen,
                          warmKeys := s.sec.warmKeys, derived := s.sec.derived, salt := s.sec.salt, episodes := s.sec.episodes }
  let boot := { s.boot with svn := 0, failed := none, linkUp := false, resetDue := none }
  let t := { z with regs := s.keepRegs fixedReg, sec := sec, jnl := { z.jnl with slots := s.jnl.slots ++ lost }, boot := boot,
                    always := ⟨s.msNow⟩, therm := { z.therm with wear := s.therm.wear }, sbd := { z.sbd with ir := s.sbd.ir },
                    sent := s.sent, free := s.free, pending := s.pending }
  let t1 := (((t.setIsland 136 islActive).flag SEC_STATUS.TAMPER_LATCH 0 (s.on SEC_STATUS.TAMPER_LATCH 0)).flag SEC_STATUS.TAMPER_EVT 0
    (s.on SEC_STATUS.TAMPER_EVT 0)).flag SBD_STATUS.DISCREPANCY 0 (s.on SBD_STATUS.DISCREPANCY 0)
  let t2 := ((t1.flag GLB_BOOT_STATUS.SCRUB_PENDING 0 pend).flag SEC_STATUS.EXITING 0 pend).wrN GLB_BOOT_STATUS.RESET_CAUSE 0 cause
  (t2.wrN SBD_STATUS.SMB_ADDR 0 (s.rdN SBD_STATUS.SMB_ADDR 0)).bump GLB_BOOT_COUNT.COUNT 0 1

/-- Whether a host reset leaves a register alone: the power, thermal, security, sideband and journal blocks, the identity
and time, the boot registers, and what fuses and the sketchbook give. -/
def hostKeeps (r : Nat) : Bool :=
  (decide (0x100000 ≤ r) && decide (r < 0x300000)) || (decide (0x6000 ≤ r) && decide (r < 0x8000)) || decide (r < 0x20) ||
  (decide (0x300 ≤ r) && decide (r < 0x310) && r != GLB_RESET.OP.reg) || r == CNV_ECC_SPARE_USED.PAGES.reg || fixedReg r

/-- The islands of the host domain. -/
def hostIslands : List Nat := List.range 136 ++ [137, 139, 140, 141]

/-- The host reset (R561, R564, R611): bring-up starts again at CANVASES, or stops at HUB during a power-disable stop. -/
def State.hostReset (s : State) (cause : Nat) : State :=
  let z := State.reset
  let stopped := s.stopBars 0
  let regs := s.keepRegs (fun r => hostKeeps r || r == GLB_ISL_STATE.STATE.reg)
  let host := { z.host with busMaster := s.host.busMaster, d3hot := s.host.d3hot, msix := s.host.msix, msixMask := s.host.msixMask }
  let gso := { z.gso with remap := s.gso.remap }
  let t := { z with regs := regs, sec := s.sec, jnl := s.jnl, boot := { s.boot with resetDue := none }, always := s.always, gso := gso,
                    host := host, power := s.power, therm := s.therm, sbd := s.sbd, sent := s.sent, free := s.free, pending := s.pending }
  let t1 := t.each hostIslands (fun i u => ((u.setIsland i (if stopped && i != 137 then islAsleep else islWaking)).clr
    GLB_ISL_STATE.PENDING_ENABLE i).clr GLB_ISL_STATE.PENDING_DISABLE i)
  let t2 := ((t1.wrN GLB_BOOT_STATUS.STAGE 0 (if stopped then 2 else 3)).wrN GLB_BOOT_STATUS.RESET_CAUSE 0 cause).wrN GLB_BOOT_STATUS.CANVAS_RESET 0 0
  ((t2.flag SEC_STATUS.EXITING 0 (s.on GLB_BOOT_STATUS.SCRUB_PENDING 0)).setMeas 3 (s.meas 2)).capacity

/-- A host reset asked for (R538, R563): in confidential mode an exit comes first. -/
def State.askHostReset (s : State) (cause trigger : Nat) : State :=
  if s.conf || s.on SEC_STATUS.EXITING 0 then (s.onBoot (fun b => { b with resetDue := some cause })).exitBegin trigger
  else s.hostReset cause

/-- EXIT_ZERO_DONE (R498 steps 5 and 6): the gesso has been zeroed and the exit ends; a host reset that waited for it
follows (R563). -/
def execExitZeroDone (s : State) : Res :=
  .next (if s.sec.exiting = .zero ∧ s.canZero then
    let t := s.zeroGesso.exitFinish s.sec.trigger
    match t.boot.resetDue with
    | some c => t.hostReset c
    | none => t
  else s)

/-- FLR (R538, R561): the host reset; in confidential mode the interface first leaves TDISP RUN. -/
def execFlr (s : State) : Res :=
  .next (if s.rtpUp then (s.onSec (fun x => { x with tdisp := if s.conf then .unlocked else x.tdisp })).askHostReset 2 3 else s)

/-- HOST_RESET (R561, R564): GLB_RESET with OP = HOST; it empties the queue of GLB_RESET. -/
def execHostReset (s : State) : Res :=
  .next (if s.rtpUp then s.woRun GLB_RESET.OP 0 0x10000 s.boot.resetDue.isSome (·.askHostReset 3 4) else s)

/-- CANVAS_RESET (R561, R562, R564): GLB_RESET with OP = CANVAS. -/
def execCanvasReset (canvas : Nat) (s : State) : Res :=
  .next (if s.rtpUp && decide (canvas < 4) then
    s.woRun GLB_RESET.OP 0 (BitVec.ofNat 64 (0x20000 + canvas)) s.boot.resetDue.isSome (fun t =>
      ((t.canvasReset canvas).wrN GLB_BOOT_STATUS.CANVAS_RESET 0 (t.rdN GLB_BOOT_STATUS.CANVAS_RESET 0 ||| 2 ^ canvas)).capacity)
  else s)

/-! ### Power and PERST_N (R565, R567, R598 to R600) -/

/-- PWRGD_RISE (R561, R565, R604, R612): a device reset; bring-up starts at ROM. The strap ADDR and the power-disable
channels are sampled; a channel that is asserted stops bring-up at HUB. -/
def execPwrgdRise (strap : Nat) (pwdisA pwdisB : Bool) (s : State) : Res :=
  .next (if s.boot.powered then s
  else
    let t := (s.deviceReset 0 false).onBoot (fun b => { b with powered := true, perstN := false })
    let t1 := (((t.wrN SBD_STATUS.SMB_ADDR 0 (strap % 8)).flag SBD_STATUS.PWDIS_A 0 pwdisA).flag SBD_STATUS.PWDIS_B 0 pwdisB).flag
      SBD_STATUS.STOPPED 0 (pwdisA || pwdisB)
    { t1 with sbd := { t1.sbd with apart := if pwdisA != pwdisB then some (0, true) else none, clear := if pwdisA || pwdisB then none else some 0 } })

/-- The device without power (R599): every island is off, records not yet durable are lost, INT_N and THERMTRIP_N are
undriven. -/
def State.powerOff (s : State) (torn : Bool) : State :=
  let lost := if torn && !s.jnl.queue.isEmpty then [none] else []
  let s1 := s.each (List.range 144) (fun i t => t.setIsland i islAsleep)
  let s2 := (s1.onJnl (fun j => { j with slots := j.slots ++ lost, queue := [], waiting := [], compact := none })).onBoot
    (fun b => { b with powered := false, linkUp := false })
  { s2 with host := { s2.host with intN := false }, therm := { s2.therm with tripPin := false } }

/-- PWRGD_FALL (R583, R599): torn says that a record's program was interrupted. -/
def execPwrgdFall (torn : Bool) (s : State) : Res := .next (if s.boot.powered then s.powerOff torn else s)

/-- SUPPLY_OUT_OF_RANGE (R600): as if PWRGD had fallen. -/
def execSupplyOutOfRange (torn : Bool) (s : State) : Res := .next (if s.boot.powered then s.powerOff torn else s)

/-- PERST_FALL (R561): PERST_N falls while PWRGD is high; the device reset. The power-disable channels keep their
levels. -/
def execPerstFall (torn : Bool) (s : State) : Res :=
  .next (if s.boot.powered && s.boot.perstN then
    let t := (s.deviceReset 1 torn).onBoot (fun b => { b with perstN := false })
    let a := s.on SBD_STATUS.PWDIS_A 0
    let b := s.on SBD_STATUS.PWDIS_B 0
    let t1 := ((t.flag SBD_STATUS.PWDIS_A 0 a).flag SBD_STATUS.PWDIS_B 0 b).flag SBD_STATUS.STOPPED 0 (a || b)
    { t1 with sbd := { t1.sbd with apart := if a != b then some (0, true) else none, clear := if a || b then none else some 0 } }
  else s)

/-- Link training begins once PERST_N is high and the device has reached HUB or RECOVERY (R567). -/
def State.linkStart (s : State) : State := if s.boot.perstN && decide (s.stage ≥ 2) then s.onBoot (fun b => { b with linkUp := true }) else s

/-- PERST_RISE (R567). -/
def execPerstRise (s : State) : Res :=
  .next (if s.boot.powered then (s.onBoot (fun b => { b with perstN := true })).linkStart else s)

/-- ALWAYS_ON_RESET (R561, R606): a supply after VBAT and the main supplies have all been absent; the lost domain counts
as a fall of VBAT, cause 2, whose VALUE is left open. -/
def execAlwaysOnReset (s : State) : Res :=
  .next (if s.boot.powered then s
  else
    let t := s.dropRegs (fun r _ => r == SEC_TAMPER.TIME.reg || r == SEC_TAMPER_HEAD.NEXT.reg || r == GLB_BOOT_COUNT.COUNT.reg ||
      r == GLB_TIME.NS.reg || r == THM_WEAR.UNITS.reg)
    let t1 := ((t.clr GLB_BOOT_STATUS.SCRUB_PENDING 0).clr SBD_STATUS.DISCREPANCY 0).onSec (fun x => { x with salt := 0, episodes := [] })
    let t2 := { t1 with always := ⟨0⟩, therm := { t1.therm with wear := [], turns := [], extreme := [] } }
    let d := t2.draw
    d.2.tamperEntry 2 (d.1.toNat % 65536))

/-! ### Bring-up (R565 to R573, R576, R586) -/

/-- A BOOT record (R582). -/
def State.bootRecord (s : State) (stage : Nat) : State :=
  s.journal 0x02 255 ([BitVec.ofNat 8 (s.rdN GLB_BOOT_STATUS.RESET_CAUSE 0), BitVec.ofNat 8 (s.rdN GLB_BOOT_STATUS.FW_SLOT 0)] ++
    leBytes 4 (s.rdN GLB_FW_VERSION.VERSION 0) ++ [BitVec.ofNat 8 stage])

/-- A firmware image starts (R487, R500, R571): measurements, the Alias key from the warm cache or derived anew, the
salt. -/
def State.fwStart (s : State) (slot : Nat) (i : FwImage) (failed : Option (Nat × Code)) : State :=
  let s1 := ((s.wrN GLB_BOOT_STATUS.STAGE 0 1).wrN GLB_BOOT_STATUS.FW_SLOT 0 slot).wrN GLB_FW_VERSION.VERSION 0 i.version
  let s2 := (s1.flag GLB_BOOT_STATUS.FW_FALLBACK 0 failed.isSome).onBoot (fun b => { b with svn := i.svn, failed := failed })
  let s3 := (((s2.setMeas 0 Config.romDigest).setMeas 1 i.digest).setMeas 2 Config.primerDigest).setMeas 3 Config.primerDigest
  let again := s3.on SEC_STATUS.TAMPER_LATCH 0 || decide (s3.sec.warmKeys ≠ some i.digest)
  let s4 := if again then
      (s3.onSec (fun x => { x with warmKeys := some i.digest, derived := x.derived + 1 })).set1 GLB_BOOT_STATUS.TAMPER_BOOT 0
    else s3
  s4.measureKeys.changeSalt

/-- FW_IMAGE_VERIFY (R565, R576): the preferred slot is tried first, then the other; when neither verifies the device
enters RECOVERY. -/
def execFwImageVerify (s : State) : Res :=
  .next (if s.stage = 0 ∧ s.boot.powered ∧ s.island 136 = islActive then
    let p := s.boot.preferred
    match s.verifySlot p with
    | .ok i => s.fwStart p i none
    | .error c =>
      match s.verifySlot (1 - p) with
      | .ok i => s.fwStart (1 - p) i (some (p, c))
      | .error _ => (((s.wrN GLB_BOOT_STATUS.STAGE 0 6).openImage).bootRecord 6).linkStart
  else s)

/-- A retirement of the sketchbook restored (R525, R572). -/
def State.restoreRetirement (s : State) (r : JRecord) : State :=
  let g := byteAt r.payload 1 * 4 + byteAt r.payload 0
  let b := byteAt r.payload 2
  let i := r.source * 32 + g
  if r.type = 0x20 then
    let page := leField r.payload 3 2
    (s.onGso (fun x => { x with remap := Tab.set x.remap (pageKey r.source g b page) (some (byteAt r.payload 5)) none })).wrN
      CNV_ECC_SPARE_USED.PAGES i (s.rdN CNV_ECC_SPARE_USED.PAGES i + 4 ^ b)
  else if r.type = 0x21 ∧ (s.rdN CNV_GSO_BANKS.WORKING i).testBit b then
    s.rebank r.source g (s.rdN CNV_GSO_BANKS.WORKING i - 2 ^ b)
  else s

/-- A canvas's wear: the greater of the always-on count and its newest record (R572). -/
def State.restoreWear (s : State) (rs : List JRecord) (c : Nat) : State :=
  let newest := (rs.filter (fun r => r.type == 0x12 && r.source == c)).foldl (fun (m : Nat × Nat) r =>
    if r.seq ≥ m.1 then (r.seq, leField r.payload 0 4 * 1000) else m) (0, 0)
  let w := max (Tab.get s.therm.wear c 0) newest.2
  (s.onTherm (fun h => { h with wear := Tab.set h.wear c w 0 })).wrN THM_WEAR.UNITS c (w / 1000000)

/-- The uncleared trips shown in JNL_THERMAL_RECORD (R573): the newest. -/
def State.showTrips (s : State) : State :=
  match (sortSeq s.openTrips).getLast? with
  | none => s
  | some r =>
    ((((s.set1 JNL_THERMAL_RECORD.PRESENT 0).set1 GLB_BOOT_STATUS.THERMAL_HOLD 0).wrN JNL_THERMAL_RECORD.KIND 0 (byteAt r.payload 2)).wrN
      JNL_THERMAL_RECORD.SENSOR 0 (leField r.payload 0 2)).wrN JNL_THERMAL_RECORD.TEMP 0 (leField r.payload 3 2)

/-- SKETCHBOOK_OPENED (R565, R567, R572, R573, R576, R586): the image is chosen, the state restored from it, and bring-up
reaches HUB. -/
def execSketchbookOpened (s : State) : Res :=
  .next (if s.stage = 1 ∧ [137, 138, 142, 143].all (fun i => s.island i == islActive) then
    let s1 := s.openImage
    let rs := s1.jnlRecords
    let s2 := s1.each (sortSeq rs) (fun r t => t.restoreRetirement r)
    let s3 := s2.each canvases (fun c t => t.restoreWear rs c)
    let ms := rs.foldl (fun m r => max m (r.time + 1)) s3.msNow
    let count := (rs.filter (fun r => r.type == 0x02)).foldl (fun m r => max m r.boot) (s3.rdN GLB_BOOT_COUNT.COUNT 0)
    let s4 := ({ s3 with always := ⟨s3.always.msBase + (ms - s3.msNow)⟩ }.wrN GLB_BOOT_COUNT.COUNT 0 count).showTrips
    let s5 := (s4.wrN GLB_BOOT_STATUS.STAGE 0 2).linkStart
    match s5.boot.failed with
    | some f => s5.journal 0x70 255 ([BitVec.ofNat 8 f.1] ++ leBytes 2 f.2.toNat)
    | none => s5
  else s)

/-- From HUB bring-up goes on to CANVASES, unless a power-disable stop holds it (R565, R611). -/
def State.enterCanvases (s : State) : State :=
  if s.stage = 2 ∧ !s.stopBars 0 then s.wrN GLB_BOOT_STATUS.STAGE 0 3 else s

/-- Islands that could not wake, or whose canvas has failed, read ASLEEP (R46). -/
def State.notStarted (s : State) (is : List Nat) : State :=
  s.each is (fun i t => if t.island i = islWaking then t.setIsland i islAsleep else t)

/-- CANVASES_UP (R565, R566): every canvas island has come up or failed, and bring-up enters SCRUB. A canvas fails whose
stretcher cannot wake or whose tether is not up. -/
def execCanvasesUp (failed : List Nat) (s : State) : Res :=
  let t := s.enterCanvases
  let s1 := t.notStarted (failed.filter (fun i => decide (i < 136) || (decide (139 ≤ i) && decide (i ≤ 141))))
  let bad := canvases.filter (fun c => s1.island (stretcherIsland c) != islActive || s1.rdN TTH_STATUS.LINK c != 2)
  let s2 := s1.notStarted (bad.flatMap (fun c => (List.range 34).map (islandOf c)))
  .next (if t.stage = 3 ∧ (List.range 136 ++ [139, 140, 141]).all (fun i => s2.island i != islWaking) then
    (s2.wrN GLB_BOOT_STATUS.STAGE 0 4).capacity
  else s)

/-- The canvases that meet R52 but for the gesso not yet zeroed. -/
def State.candidates (s : State) : List Nat := { s with isl := { s.isl with gessoLost := [] } }.availables

/-- BOOT_SCRUB_DONE (R565, R569, R573): every existing row of the available canvases reads zero; a pending exit is
completed; the primer is applied and STAGE reads READY. -/
def execBootScrubDone (s : State) : Res :=
  .next (if s.stage = 4 ∧ s.candidates.all (fun c => [22, 23, 24, 25].all (fun l => s.island (islandOf c l) != islWaking)) then
    let pend := s.on GLB_BOOT_STATUS.SCRUB_PENDING 0
    let s1 := if pend then s.exitErase else s
    let s2 := s1.each s.candidates (fun c t => t.zeroCanvas c)
    let s3 := if pend then s2.exitFinish 4 else (s2.applyPrimer).sktState 0
    (((s3.wrN GLB_BOOT_STATUS.STAGE 0 5).set1 JNL_STATUS.READY_EVT 0).capacity.bootRecord 5).releaseBells
  else s)

/-- The passing of 1 ns with no command waiting: device time advances, and bring-up leaves HUB. -/
def State.tick (s : State) : State := (s.wr GLB_TIME.NS 0 (s.rd GLB_TIME.NS 0 + 1)).enterCanvases

end Sys2Proof.Machine
end

