-- ==== Sys2Proof/Machine/Sideband.lean ====
section
/-! DEFINITION. The sideband (chapter 20): power disable, restart and discrepancy, the lamps, JTAG. -/

namespace Sys2Proof.Machine

/-- The sideband at a changed content. -/
def State.onSbd (s : State) (f : Sideband → Sideband) : State := { s with sbd := f s.sbd }

/-! ### Power disable (R607 to R612) -/

/-- The islands that a stop turns off. -/
def stopIslands : List Nat := List.range 136 ++ [139, 140, 141]

/-- A stop (R608): the canvases are LOST, the islands off, in confidential mode the tenant keys erased. -/
def State.stopDevice (s : State) : State :=
  let s1 := s.each canvases (fun c t => t.markLost c 0)
  let s2 := s1.each stopIslands (fun i t => t.turnOff i)
  let s3 := s2.each canvases (fun c t => (t.loseUnits c).wrN TTH_STATUS.LINK c 0)
  let s4 := s3.when s3.conf (fun t => t.eraseKeys.set1 GLB_BOOT_STATUS.SCRUB_PENDING 0)
  ((s4.set1 SBD_STATUS.STOPPED 0).clr SBD_STATUS.RESTART_OK 0).capacity

/-- Whether the power-disable channels are watched: the device is powered and no trip has turned it off (R612). -/
def State.watched (s : State) : Bool := s.boot.powered && !s.therm.tripPin

/-- The bit of a channel. -/
def pwdisBit (b : Bool) : RegField := if b then SBD_STATUS.PWDIS_B else SBD_STATUS.PWDIS_A

/-- The channels agree again: SBD_PWDIS_SKEW records the count, and an assertion that the second channel followed within
9,999 µs is a demand (R609). -/
def State.agree (s : State) (asserted : Bool) : State :=
  match s.sbd.apart with
  | none => s
  | some (t, began) =>
    let us := (s.now - t) / 1000
    let s1 := (s.onSbd (fun x => { x with apart := none, latched := false })).wrN SBD_PWDIS_SKEW.US 0 (min us (2 ^ 32 - 1))
    if began && asserted && decide (us ≤ 9999) then (s1.set1 SBD_STATUS.DEMAND_EVT 0).errorSummary 255 0x0705 0 0 else s1

/-- PWDIS_ASSERT (R607 to R609): a channel is accepted asserted; the first stops the device, the second ends the count. -/
def execPwdisAssert (channelB : Bool) (s : State) : Res :=
  .next (if !s.watched || s.on (pwdisBit channelB) 0 then s
  else
    let s1 := (s.set1 (pwdisBit channelB) 0).onSbd (fun x => { x with clear := none })
    if s.on (pwdisBit (!channelB)) 0 then s1.agree true
    else s1.stopDevice.onSbd (fun x => { x with apart := some (s.now, true), latched := false }))

/-- PWDIS_DEASSERT (R609): a channel is accepted deasserted; the count runs while the other is still asserted. -/
def execPwdisDeassert (channelB : Bool) (s : State) : Res :=
  .next (if !s.watched || !s.on (pwdisBit channelB) 0 then s
  else
    let s1 := s.clr (pwdisBit channelB) 0
    if s.on (pwdisBit (!channelB)) 0 then s1.onSbd (fun x => { x with apart := some (s.now, false), latched := false })
    else (s1.agree false).onSbd (fun x => { x with clear := some s.now }))

/-- DISCREPANCY_TIMEOUT (R609): the count reaches 10,000 µs with the channels still in disagreement. -/
def execDiscrepancyTimeout (s : State) : Res :=
  .next (match s.sbd.apart with
    | none => s
    | some (t, _) =>
      if s.sbd.latched || !s.watched || decide (s.now < t + 10000000) then s
      else (((s.onSbd (fun x => { x with latched := true })).set1 SBD_STATUS.DISCREPANCY 0).wrN SBD_PWDIS_SKEW.US 0 10000).errorSummary 255 0x0706 0 0)

/-- Whether both channels have been deasserted together for 100 ms. -/
def State.bothClear (s : State) : Bool := match s.sbd.clear with | some t => decide (s.now ≥ t + 100000000) | none => false

/-- The restart after a stop (R610): RESTART_OK sets, and in the same cycle the device performs a host reset. -/
def State.restart (s : State) : State :=
  if s.bothClear && s.on SBD_STATUS.STOPPED 0 && !s.on SBD_STATUS.RESTART_OK 0 && !s.on SBD_STATUS.DISCREPANCY 0 then
    (s.set1 SBD_STATUS.RESTART_OK 0).hostReset 4
  else s

/-- RESTART_TIMER (R610). -/
def execRestartTimer (s : State) : Res := .next (if s.watched then s.restart else s)

/-- A write of 1 to DISCREPANCY (R611): allowed once both channels have been deasserted together for 100 ms. -/
def State.discrepancyClear (s : State) : State :=
  if s.bothClear then (s.clr SBD_STATUS.DISCREPANCY 0).restart else s.set1 SBD_STATUS.CLEAR_REFUSED 0

/-- DISCREPANCY_CLEAR (R611). -/
def execDiscrepancyClear (s : State) : Res := .next (if s.watched then s.discrepancyClear else s)

/-! ### Lamps (R614, R615) -/

/-- Whether the lamps run: island 143 is powered. -/
def State.lampsUp (s : State) : Bool := s.boot.powered && s.island 143 == islActive

/-- The state field of a lamp: 0 LOCATE, 1 FAULT. -/
def lampState (n : Nat) : RegField := if n = 0 then LMP_STATUS.LOCATE_STATE else LMP_STATUS.FAULT_STATE

/-- A check of a lamp: OPEN where the current stayed low, OK otherwise; a change to OPEN sets OPEN_EVT. -/
def State.lampCheck (s : State) (n : Nat) (low : Bool) : State :=
  let old := s.rdN (lampState n) 0
  (s.wrN (lampState n) 0 (if low then 1 else 0)).when (low && old != 1) (·.set1 LMP_STATUS.OPEN_EVT 0)

/-- LAMP_CHECK (R614): an on-time of at least 40 µs, that is a DUTY of 11 or more; low says that the current lay below
5 mA throughout the window. -/
def execLampCheck (lamp : Nat) (low : Bool) (s : State) : Res :=
  .next (if s.lampsUp && decide (lamp < 2) && decide (s.rdN LMP_CTL.DUTY lamp ≥ 11) then s.lampCheck lamp low else s)

/-- LAMP_TEST_FLASH (R615): of a dim lamp every 4 s; with QUIET 1 there is no flash and the state reads UNVERIFIED. -/
def execLampTestFlash (lamp : Nat) (low : Bool) (s : State) : Res :=
  .next (if s.lampsUp && decide (lamp < 2) && decide (s.rdN LMP_CTL.DUTY lamp ≤ 10) then
    if s.on LMP_CTL.QUIET lamp then s.wrN (lampState lamp) 0 2
    else if s.now ≥ Tab.get s.sbd.flashAt lamp 0 + 4000000000 then
      (s.onSbd (fun x => { x with flashAt := Tab.set x.flashAt lamp s.now 0 })).lampCheck lamp low
    else s
  else s)

/-- A write of DUTY and QUIET: the state is UNTESTED until the next check. -/
def State.lampWrite (s : State) (n : Nat) (v : Val) : State :=
  ((s.wrN LMP_CTL.DUTY n (v.toNat % 256)).flag LMP_CTL.QUIET n (v.getLsbD 8)).wrN (lampState n) 0 3

/-- LMP_CTL_WRITE (R615). -/
def execLmpCtlWrite (lamp : Nat) (data : Word32) (s : State) : Res :=
  .next (if s.lampsUp && decide (lamp < 2) then s.lampWrite lamp (BitVec.setWidth 64 data) else s)

/-! ### JTAG (R605, R497) -/

/-- The code of BYPASS. -/
def jtagBypass : Nat := 0xFF

/-- The instruction as it acts: EXTEST outside confidential mode while PERST_N is low, SAMPLE/PRELOAD outside confidential
mode, IDCODE always; every other code, and these where they may not, act as BYPASS. -/
def State.jtagActs (s : State) : Nat :=
  if s.sbd.ir = 1 then 1
  else if s.sbd.ir = 2 ∧ !s.conf then 2
  else if s.sbd.ir = 0 ∧ !s.conf ∧ !s.boot.perstN then 0
  else jtagBypass

/-- JTAG_INSTRUCTION (R605): while TRST_N is low the TAP is held in reset. -/
def execJtagInstruction (code : Nat) (s : State) : Res :=
  .next (if s.boot.powered && s.sec.jtagOpen then
    let t := s.onSbd (fun x => { x with ir := code % 256 })
    t.send (.jtag t.jtagActs (if t.jtagActs = 1 then 0x14800B47 else 0))
  else s)

/-- TRST_N_CHANGE (R487, R605): the level of TRST_N; low, it resets the TAP to IDCODE. M5 shows it outside confidential
mode. -/
def execTrstNChange (high : Bool) (s : State) : Res :=
  .next ((s.onSec (fun x => { x with jtagOpen := high })).onSbd (fun x => { x with ir := if high then x.ir else 1 }))

end Sys2Proof.Machine
end

