-- ==== Sys2Proof/Machine/Hosts.lean ====
section
/-! DEFINITION. The host interface (chapter 18): BAR2, the host window's completions, client-queue doorbells, and the
interrupt tree with its message. -/

namespace Sys2Proof.Machine

/-- The host interface at a changed content. -/
def State.onHost (s : State) (f : HostPort → HostPort) : State := { s with host := f s.host }

/-- An access that sets BAD_ACCESS and is captured: source 0 BAR0, 1 BAR2, 2 BAR4 (R541, R545, R549). -/
def State.badAccess (s : State) (source offset : Nat) : State := (s.set1 GLB_HOST_STATUS.BAD_ACCESS 0).hostErr source offset 0

/-! ### BAR2 (R543 to R545) -/

/-- The DPA of a BAR2 offset; none where the offset is unbacked by its window. -/
def bar2Dpa (o : Nat) : Option Dpa :=
  let n := o / 0x1000000000
  let w := o % 0x1000000000
  if n > 3 then none
  else if w < 0xC00000000 then some o
  else if 0xE00000000 ≤ w ∧ w < 0xE20000000 then some (0x8000000000 + n * 0x20000000 + (w - 0xE00000000))
  else none

/-- The DPA of a BAR2 offset that is backed: before READY none is (R568). -/
def State.bar2Backed (s : State) (o : Nat) : Option Dpa :=
  if s.stage ≠ 5 then none else (bar2Dpa o).filter s.populated

/-- BAR2_READ (R497, R509, R544, R545): split into the sectors it touches; unbacked bytes read zero, and an error
completes the read with Completer Abort. While a line of it is held the read waits. -/
def execBar2Read (port : Port) (offset len tag : Nat) (s : State) : Res :=
  .next (if s.conf ∨ s.hostBarred port then s.send (.unsupported tag)
  else
    let r := (sectorsOf offset len).foldl (fun (acc : Option (Code × List Byte × State)) p =>
      match acc with
      | none => none
      | some (c, bs, t) =>
        match t.bar2Backed p.1 with
        | none => some (c, bs ++ List.replicate p.2 0, t.badAccess 1 p.1)
        | some d =>
          match t.readRange ⟨.host, tag, none, false⟩ d p.2 with
          | .wait _ => none
          | .done e xs u => some (if c = 0 then e else c, bs ++ xs, u)) (some (0, [], s))
    match r with
    | none => s
    | some (c, bs, t) => t.send (if c = 0 then .barRead 2 tag bs else .barAbort tag))

/-- BAR2_WRITE (R497, R510, R544, R545): split into the sectors it touches; unbacked bytes are discarded. While a line of
it is held the write waits. -/
def execBar2Write (port : Port) (offset : Nat) (data : List Byte) (s : State) : Res :=
  .next (if s.conf ∨ s.hostBarred port then s
  else
    let r := (sectorsOf offset data.length).foldl (fun (acc : Option State) p =>
      match acc with
      | none => none
      | some t =>
        match t.bar2Backed p.1 with
        | none => some (t.badAccess 1 p.1)
        | some d =>
          match t.writeRange ⟨.host, 0, none, false⟩ d ((data.drop (p.1 - offset)).take p.2) with
          | .wait _ => none
          | .done _ _ u => some u) (some s)
    r.getD s)

/-! ### The host window (R547, R548) -/

/-- A host-window read ends with a code; an error is captured. -/
def State.hwinEnd (s : State) (id : Nat) (r : HostRead) (code : Code) (data : List Byte) : State :=
  let s1 := s.onHost (fun h => { h with reads := Tab.set h.reads id none none, replies := h.replies ++ [HostReply.mk r.src r.tag r.dpa code data] })
  if code = 0 then s1 else (s1.set1 GLB_HOST_STATUS.HWIN_ERR 0).hostErr 3 r.dpa code

/-- HWIN_COMPLETION (R497, R548): a completion arrives with its data, or with an error, which is answered with DMA_LINK.
In confidential mode one is accepted only once the IDE keys are installed. -/
def execHwinCompletion (id : Nat) (data : Option (List Byte)) (s : State) : Res :=
  .next (match Tab.get s.host.reads id none with
    | none => s
    | some r =>
      if s.hostBarred .host then s
      else match data with
        | some bs => s.hwinEnd id r 0 ((bs ++ List.replicate r.len 0).take r.len)
        | none => s.hwinEnd id r 0x0309 [])

/-- HWIN_TIMEOUT (R548): no completion for 1 ms. -/
def execHwinTimeout (id : Nat) (s : State) : Res :=
  .next (match Tab.get s.host.reads id none with
    | none => s
    | some r => if s.now ≥ r.sent + 1000000 then s.hwinEnd id r 0x0308 [] else s)

/-! ### Client queues (R549 to R553) -/

/-- DOORBELL (R549, R552): an access of a doorbell page. A 4 B write at its offset 0 is a doorbell, kept while doorbells
are held; any other write is discarded and captured. A 4 B read at offset 0 returns QUE_TAIL, every other read 0. -/
def execDoorbell (port : Port) (offset : Nat) (op : BarOp) (s : State) : Res :=
  let q := offset / 4096 % 4096
  .next (match op with
    | .read n =>
      if s.hostBarred port then s.send (.unsupported q)
      else s.send (.barRead 4 q (if offset % 4096 = 0 ∧ n = 4 then leBytes 4 (s.rdN QUE_TAIL.TAIL q) else List.replicate n 0))
    | .write bs =>
      if s.hostBarred port then s
      else if offset % 4096 = 0 ∧ bs.length = 4 then
        let v : Word32 := BitVec.ofNat 32 (leNat bs)
        if s.bellsHeld then s.onHost (fun h => { h with kept := Tab.set h.kept q (some v) none }) else s.ringClient q v
      else s.badAccess 2 offset)

/-- The wake-up word of a queue. -/
def wakeWord (v : Word32) (q : Nat) : Word32 := BitVec.ofNat 32 (v.toNat % 2 ^ 20 * 4096 + q)

/-- DOORBELL_TAIL_WRITTEN (R549, R550, R553): the tail word of the oldest doorbell is written, and with PENDING 0 the
wake-up word is posted. -/
def execDoorbellTailWritten (queue : Nat) (s : State) : Res :=
  .next (match Tab.get s.host.tails queue [] with
    | [] => s
    | v :: vs =>
      let s0 := s.onHost (fun h => { h with tails := Tab.set h.tails queue vs [] })
      let d := 8 * s.rdN QUE_TAILPTR.TAIL_DPA queue
      match targetOf d with
      | .gesso _ _ =>
        match s0.writeRange ⟨.host, 0x40000 + queue, none, false⟩ d (leBytes 8 v.toNat) with
        | .wait _ => s
        | .done c _ t =>
          if c ≠ 0 then t.queEvent queue QUE_STATUS.TAILWR_ERR
          else if t.on QUE_CTL.PENDING queue then t
          else (t.set1 QUE_CTL.PENDING queue).post (t.rdN QUE_CTL.MBX queue) (wakeWord v queue) (some queue)
      | _ => s0.queEvent queue QUE_STATUS.TAILWR_ERR)

/-- A write of QUE_CTL. -/
def State.queCtl (s : State) (q : Nat) (v : Val) : State := (s.flag QUE_CTL.ENABLE q (v.getLsbD 31)).wrN QUE_CTL.MBX q (v.toNat % 4096)

/-- QUE_CTL_WRITE (R553). -/
def execQueCtlWrite (port : Port) (queue : Nat) (data : Word32) (s : State) : Res :=
  .next (if queue < 4096 then s.denied port false (·.queCtl queue (BitVec.setWidth 64 data)) else s)

/-! ### The interrupt (R554 to R559) -/

/-- Whether any cause of a source register reads 1. -/
def State.cause (s : State) (d : RegDef) (i : Nat) : Bool := d.fields.any (fun f => f.cls == .w1c && s.rd f i != 0)

/-- The stall record as a cause of the canvas or hub (4) where it was found. -/
def State.stallCause (s : State) (w : Nat) : Bool := s.cause GLB_STALL 0 && s.rdN GLB_STALL.WHERE 0 == w

/-- The bits of a hub vector (R555): the number and source register of each that has one. -/
def State.vectorBits (s : State) (n : Nat) : List (Nat × Bool) :=
  match n with
  | 4 => [(0, s.cause HUB_FABRIC_STATUS 0), (1, s.stallCause 4), (2, s.cause GLB_HOST_STATUS 0)]
  | 5 => canvases.map (fun c => (c, s.cause TTH_STATUS c))
  | 6 => (List.range 8).map (fun p => (p, s.cause SPR_STATUS p)) ++ [(8, s.cause SPR_GLB_STATUS 0)]
  | 7 => (List.range 320).map (fun k => (k, s.cause DMA_CH_STATUS k)) ++ [(320, s.cause DMA_ENG_STATUS 4)] ++
      canvases.map (fun c => (321 + c, s.cause DMA_ENG_STATUS c))
  | 8 => [(0, s.cause QUE_STATUS 0)]
  | 9 => [(0, s.cause COAT_STATUS 0), (1, s.cause COL_STATUS 0)] ++ (List.range 257).map (fun q => (32 + q, s.cause COAT_Q_STATUS q)) ++
      (List.range 257).map (fun q => (320 + q, s.cause COL_Q_STATUS q))
  | 10 => [(0, s.cause PWR_STATUS 0), (1, s.cause GLB_ISL_STATUS 0)]
  | 11 => [(0, s.cause THM_STATUS 0)]
  | 12 => [(0, s.cause SEC_STATUS 0)]
  | 13 => canvases.map (fun c => (c, s.cause CNV_ECC_STATUS c))
  | 14 => [(0, s.cause SKT_STATUS 0)]
  | 15 => [(0, s.cause SBD_STATUS 0), (1, s.cause LMP_STATUS 0)]
  | 16 => [(0, s.cause JNL_STATUS 0)]
  | _ => []

/-- A word of bits given by number: those of word w. -/
def wordOf (bits : List (Nat × Bool)) (w : Nat) : Nat :=
  (bits.filter (fun b => b.2 && decide (b.1 / 32 = w))).foldl (fun v b => v + 2 ^ (b.1 % 32)) 0

/-- Word w of hub vector n. -/
def State.vectorWord (s : State) (n w : Nat) : Nat := wordOf (s.vectorBits n) w

/-- The bits of the panel, row-queue and finish-queue vectors of a canvas (R556). -/
def State.panelBits (s : State) (c : Nat) : List (Nat × Bool) := (List.range 256).map (fun i => (i, s.cause CNV_PNL_STATUS (256 * c + i)))
/-- Row queues. -/
def State.rowqBits (s : State) (c : Nat) : List (Nat × Bool) := (List.range 65).map (fun q => (q, s.cause CNV_ROW_Q_STATUS (c * 65 + q)))
/-- Finish queues. -/
def State.finqBits (s : State) (c : Nat) : List (Nat × Bool) := (List.range 65).map (fun q => (q, s.cause CNV_FIN_Q_STATUS (c * 65 + q)))

/-- CNV_INT_BLOCK of a canvas (R556). -/
def State.intBlock (s : State) (c : Nat) : Nat :=
  let any := fun (bs : List (Nat × Bool)) => bs.any (·.2)
  wordOf [(0, any (s.panelBits c)), (1, s.rd CNV_PART_VECTOR.BITS (2 * c) != 0 || s.rd CNV_PART_VECTOR.BITS (2 * c + 1) != 0),
    (2, any (s.rowqBits c)), (3, any (s.finqBits c)), (4, s.cause CNV_STM_STATUS c), (5, s.cause CNV_SEQ_STATUS c),
    (6, s.cause CNV_GLZ_STATUS c), (7, s.cause CNV_ROW_STATUS c), (8, s.cause CNV_FIN_STATUS c), (9, s.stallCause c)] 0

/-- GLB_INT_SUMMARY (R554 to R556): a bit reads 1 while its vector is not zero, or its FORCE bit is 1. -/
def State.summary (s : State) : Nat :=
  wordOf ((List.range 17).map (fun n =>
    (n, (s.rdN GLB_INT_FORCE.FORCE 0).testBit n || (if n < 4 then s.intBlock n != 0 else (s.vectorBits n).any (·.2))))) 0

/-- The condition (R557). -/
def State.intCondition (s : State) : Bool :=
  s.on GLB_INT_CTL.MASTER 0 && (s.summary &&& s.rdN GLB_INT_ENABLE.ENABLE 0) != 0

/-- Whether the holdoff has passed since the last message. -/
def State.holdoffOver (s : State) : Bool :=
  match s.host.lastMsg with
  | some t => decide (s.now ≥ t + 1000 * s.rdN GLB_INT_CTL.HOLDOFF_US 0)
  | none => true

/-- Vector 0 sent, or pending while it is masked (R557). -/
def State.sendMsix (s : State) : State :=
  if !s.host.msix then s
  else if s.host.msixMask || s.on GLB_MSIX_CTRL.MASK 0 then s.set1 GLB_MSIX_PBA.PENDING 0
  else
    let a := s.rdN GLB_MSIX_ADDR_HI.ADDR 0 * 2 ^ 32 + s.rdN GLB_MSIX_ADDR_LO.ADDR 0 * 4
    (((s.clr GLB_MSIX_PBA.PENDING 0).send (.msix a (BitVec.ofNat 32 (s.rdN GLB_MSIX_DATA.DATA 0)))).set1 GLB_INT_CTL.OUTSTANDING 0).onHost
      (fun h => { h with lastMsg := some s.now })

/-- INT_PROPAGATE (R557, R559): a change has reached the summary: INT_N follows the condition, and a message is sent when
the condition begins to hold with none outstanding; one that HOLDOFF_US delays is sent by the evaluation after it. -/
def execIntPropagate (s : State) : Res :=
  let c := s.intCondition
  let begins := c && !s.host.condition
  let s1 := (s.flag GLB_INT_CTL.CONDITION 0 c).onHost (fun h => { h with condition := c, intN := c && s.boot.powered })
  .next (if s.on GLB_INT_CTL.OUTSTANDING 0 then s1
  else if s1.on GLB_MSIX_PBA.PENDING 0 && c then s1.sendMsix
  else if begins then
    if s1.holdoffOver then s1.sendMsix else s1.onHost (fun h => { h with lastEoi := some s.now })
  else s1)

/-- The end of the outstanding message. -/
def State.eoi (s : State) : State := (s.clr GLB_INT_CTL.OUTSTANDING 0).onHost (fun h => { h with lastEoi := some s.now })

/-- EOI (R558). -/
def execEoi (s : State) : Res := .next s.eoi

/-- INT_REEVALUATE (R558): 2 µs after EOI the condition is evaluated; where it holds the message is sent again, once
HOLDOFF_US has passed since the previous one. -/
def execIntReevaluate (s : State) : Res :=
  .next (match s.host.lastEoi with
    | none => s
    | some t =>
      if s.now < t + 2000 ∨ s.on GLB_INT_CTL.OUTSTANDING 0 then s
      else
        let c := s.intCondition
        let s1 := (s.flag GLB_INT_CTL.CONDITION 0 c).onHost (fun h => { h with condition := c, intN := c && s.boot.powered })
        if !c then s1.onHost (fun h => { h with lastEoi := none })
        else if s.holdoffOver then (s1.onHost (fun h => { h with lastEoi := none })).sendMsix
        else s)

end Sys2Proof.Machine
end

