-- ==== Sys2Proof/Machine/Ports.lean ====
section
/-! DEFINITION. The register interface (chapter 00, R541, R542): finding the register at an offset, what a port reads
of it, and what a write does to each of its fields by its class (R5 to R11, R624), with shadows and staging registers
of 64-bit registers (R12 to R17). The register fields whose write is a command have the meaning of that command's
row. -/

namespace Sys2Proof.Machine

/-! ### Finding a register (R6, R540) -/

/-- A register at an offset: which one, its index, and whether the offset names its high half. -/
structure RegHit where
  reg   : RegDef
  index : Nat
  high  : Bool
deriving DecidableEq, Repr

/-- The index within a window of an offset from its base, and what is left of the offset. -/
def dimIndex : List (Nat × Nat) → Nat → Nat → Option (Nat × Nat)
  | [], rest, i => some (i, rest)
  | (n, stride) :: ds, rest, i => if rest / stride < n then dimIndex ds (rest % stride) (i * n + rest / stride) else none

/-- The register of a window at an offset. -/
def RegWindow.at (w : RegWindow) (wide : Bool) (addr : Nat) : Option (Nat × Bool) :=
  if addr < w.base then none
  else match dimIndex w.dims (addr - w.base) 0 with
    | some (i, 0) => some (w.first + i, false)
    | some (i, 4) => if wide then some (w.first + i, true) else none
    | _ => none

/-- A register at an offset. -/
def RegDef.at (d : RegDef) (addr : Nat) : Option RegHit :=
  (d.windows.findSome? (fun w => w.at d.wide addr)).map (fun p => ⟨d, p.1, p.2⟩)

/-- The register at a BAR0 offset, none where none is defined. -/
def regAt (addr : Nat) : Option RegHit := catalogue.findSome? (fun d => d.at addr)

/-- The offset by which a register's fields are known. -/
def RegDef.base (d : RegDef) : Nat := (d.fields.headD GLB_ID.PART_ID).reg

/-- The number of its registers in one panel, sequencer set, port or canvas: the product of the inner dimensions. -/
def RegDef.inner (d : RegDef) (outer : Nat) : Nat := ((d.windows.headD ⟨0, [], 0⟩).dims.drop outer).foldl (fun n p => n * p.1) 1

/-- The islands that must be ACTIVE for a port to reach a register (R542). -/
def RegDef.islands (d : RegDef) (i : Nat) : List Nat :=
  let b := d.base
  if b ≥ 0x2400000 then
    if b = CNV_SEQ_THR_CTL.ENABLE.reg ∨ b = CNV_SEQ_THR_PC.PC.reg then [tetherIsland (i / 512), seqIsland (coreKey i)]
    else [tetherIsland (i / d.inner 1)]
  else if b ≥ 0x2000000 then [tetherIsland (i / d.inner 2 / 256), panelIsland (i / d.inner 2)]
  else if b ≥ 0xC00000 then [141]
  else if b ≥ 0x800000 then [137]
  else if b ≥ 0x400000 then [if b ≥ 0x401000 ∧ i / d.inner 1 ≥ 4 then 140 else 139]
  else if b ≥ 0x300000 then
    if b = DMA_ENG_STATUS.HW_UPDATE_LOST.reg then [if i < 4 then tetherIsland i else 141]
    else [if i < 256 then tetherIsland (i / 64) else 141]
  else if b ≥ 0x200000 then [136]
  else if b ≥ 0x100000 then [142]
  else if b / 0x1000 = 3 then [137]
  else if b / 0x1000 = 6 then [136]
  else if b / 0x1000 = 7 then [143]
  else [138]

/-- Whether a port reaches a register. -/
def State.reaches (s : State) (d : RegDef) (i : Nat) : Bool := (d.islands i).all (fun l => s.island l == islActive)

/-! ### Reads -/

/-- The address fields of fault captures and of the error log, which read 0 to the host in confidential mode (R497,
R517). -/
def hiddenAddress : List RegField :=
  [CNV_PNL_FAULT.STROKE_DPA, CNV_GLZ_ERR.DPA, CNV_ROW_Q_FAIL.DPA, DMA_CH_FAIL.OFFSET, CNV_ECC_LOG_WHAT.DPA, CNV_ECC_LOG_WHO.REQUESTER]

/-- Fields whose value is made when they are read: the interrupt tree (R554 to R556), the time of a throttle still on
(R461) and measurement 5 (R487). -/
def State.derived (s : State) (f : RegField) (i : Nat) : Option Nat :=
  if f = GLB_INT_SUMMARY.SUMMARY then some s.summary
  else if f = GLB_VECTOR.BITS then some (s.vectorWord (i / 19 + 4) (i % 19))
  else if f = CNV_INT_BLOCK.BLOCK then some (s.intBlock i)
  else if f = CNV_PNL_VECTOR.BITS then some (wordOf (s.panelBits (i / 8)) (i % 8))
  else if f = CNV_ROWQ_VECTOR.BITS then some (wordOf (s.rowqBits (i / 3)) (i % 3))
  else if f = CNV_FINQ_VECTOR.BITS then some (wordOf (s.finqBits (i / 3)) (i % 3))
  else if f = PWR_THR_TIME.NS then some (s.throttleTime i)
  else if f = SEC_MEAS.WORD ∧ i / 12 = 5 then some (leField s.stateRecord (i % 12 * 4) 4)
  else none

/-- The value of a field as a port reads it: WO reads 0, and in confidential mode every port but the RTP's sees what R466,
R482 and R497 leave it. -/
def State.fieldSeen (s : State) (port : Port) (f : RegField) (i : Nat) : Val :=
  let veiled := s.conf && decide (port ≠ .rtp)
  if f.cls = .wo then 0
  else if f = SKT_CTL.ALLOW_UNTESTED ∧ s.conf then 0
  else if veiled && (hiddenCount f || hiddenAddress.contains f) then 0
  else if veiled && decide (f = PWR_ENERGY_DEVICE.COUNT) then BitVec.ofNat 64 (s.rdN f i / 1000000 * 1000000)
  else if veiled && decide (f = THM_SENSOR.TEMP) then f.fit (BitVec.ofInt 64 (Tab.get s.therm.shown (dieOf i) 0))
  else match s.derived f i with
    | some v => f.fit (BitVec.ofNat 64 v)
    | none => s.rd f i

/-- A register as a port reads it; bits of no field read 0 (R5). -/
def State.regSeen (s : State) (port : Port) (d : RegDef) (i : Nat) : Val :=
  d.fields.foldl (fun v f => v ||| s.fieldSeen port f i <<< f.lo) 0

/-- The low and the high half of a value. -/
def lowHalf (v : Val) : Word32 := BitVec.setWidth 32 v
/-- The high half. -/
def highHalf (v : Val) : Word32 := BitVec.setWidth 32 (v >>> 32)
/-- A value from its halves. -/
def ofHalves (high low : Word32) : Val := BitVec.setWidth 64 high <<< 32 ||| BitVec.setWidth 64 low

/-! ### Writes: which are turned away -/

/-- The registers that the host may not write in confidential mode (R497): those of system queues and channels,
DMA_CH_OWNER, CNV_FIN_STEP and SEC_ registers other than SEC_MBX_CMD. -/
def State.closedToHost (s : State) (d : RegDef) (i : Nat) : Bool :=
  let b := d.base
  (decide (0x2701000 ≤ b) && decide (b < 0x2702000) && decide (i % 65 = 64)) ||
  (decide (0x2781000 ≤ b) && decide (b < 0x2782000) && decide (i % 65 = 64)) ||
  (decide (0xC08000 ≤ b) && decide (b < 0xC0E000) && decide (i = 256)) ||
  (decide (0xC10000 ≤ b) && decide (b < 0xC20000) && decide (i = 256)) ||
  (decide (0x301000 ≤ b) && decide (b < 0x310000) && !s.on DMA_CH_OWNER.OWNED i) ||
  decide (b = DMA_CH_OWNER.OWNED.reg) || decide (b = CNV_FIN_STEP.STEP.reg) ||
  (decide (0x200000 ≤ b) && decide (b < 0x201000) && decide (b ≠ SEC_MBX_CMD.OPCODE.reg))

/-- The queue whose register a field belongs to, for fields at the same place in every kind of queue. -/
def queueOf (pick : QFields → RegField) (f : RegField) (i : Nat) : Option QId :=
  ([QKind.row, .fin, .coat, .col, .dma].find? (fun k => pick k.fields == f)).map (fun k => ⟨k, i⟩)

/-- The state that a meaning of another row leaves. -/
def State.after (s : State) (r : Res) : State :=
  match r with
  | .next t => t
  | _ => s

/-! ### Writes: the classes (the table before R5, R7, R10) -/

/-- A field written under its class: value and mask are the field's own bits, locked whether LOCK was set before the
write, hw the hardware's update of the same cycle. -/
def State.classWrite (s : State) (d : RegDef) (f : RegField) (i : Nat) (value mask : Val) (locked : Bool) (hw : Option Val) : State :=
  let old := s.rd f i
  let new := (old &&& ~~~mask) ||| (value &&& mask)
  match f.cls with
  | .rw => if mask = 0 then s else s.wr f i new
  | .ro => match hw with
    | none => s
    | some v => if f = GLB_ISL_STATE.STATE then (if v.toNat ≤ 5 then s.setIsland i v.toNat else s) else s.wr f i v
  | .rwh =>
    if mask = 0 then (match hw with | some v => s.wr f i v | none => s)
    else
      let t := s.wr f i new
      match hw, d.lost with
      | some _, some (l, n) => t.set1 l (i / n)
      | _, _ => t
  | .w1c => s.wr f i ((old &&& ~~~(value &&& mask)) ||| hw.getD 0)
  | .w1s => s.wr f i ((old &&& ~~~(hw.getD 0)) ||| (value &&& mask))
  | .count => s.wr f i ((if mask = 0 then old else new) + hw.getD 0)
  | .wo => s
  | .rwl => if mask = 0 then s else if locked then s.set1 SPR_GLB_STATUS.LOCKED_WRITE 0 else s.wr f i new

/-! ### Writes: the command registers (R9) -/

/-- A WO register's write as a command: none where R9 discards it on arrival. -/
def woCommand (d : RegDef) (v : Val) : Option Val :=
  let b := d.base
  let op := fun (lo : Nat) => (v >>> lo).toNat % 4
  let cut := d.fields.foldl (fun (m : Val) f => if f.cls = .wo then m ||| ((BitVec.ofNat 64 (2 ^ f.width - 1) <<< f.lo) &&& v) else m) 0
  if b = GLB_ISL_CMD.OP.reg then (if op 8 = 1 ∨ op 8 = 2 then some cut else none)
  else if b = CNV_STM_TRN_CMD.OP.reg then (if op 16 = 1 ∨ op 16 = 2 then some cut else none)
  else if b = CNV_GLZ_FLUSH_CMD.OP.reg then (if op 30 = 1 ∨ op 30 = 2 then some cut else none)
  else if b = CNV_GLZ_RO_INV.GO.reg then (if v.getLsbD 0 then some cut else none)
  else if b = CNV_ECC_RETIRE.OP.reg then (if op 30 = 1 then some cut else none)
  else if b = COAT_CMD.OP.reg then (if op 16 = 0 then none else some cut)
  else if b = GLB_RESET.OP.reg then (if op 16 = 1 then some 0x10000 else if op 16 = 2 then some cut else none)
  else none

/-- A write of the RTP mailbox's command register (R484); whether the flash takes a firmware command is not the
writer's to say. -/
def State.mailboxCommand (s : State) (v : Val) : State :=
  let op := (v >>> 24).toNat % 256
  let len := min 4096 (v.toNat % 8192)
  if op = 0x18 ∨ op = 0x19 then
    let g := s.draw
    g.2.mbxCmd op (.host len) (g.1.getLsbD 0) (mbxAny (g.1.getLsbD 0) op)
  else s.mbxCmd op (.host len) true (mbxAny true op)

/-- The command part of a register's write: queued in its WO queue, or for the registers that act at once, done. -/
def State.commandWrite (s : State) (d : RegDef) (i : Nat) (v : Val) : State :=
  let b := d.base
  if b = SKT_CTL.LOAD.reg then s.when (v.getLsbD 0) (fun t => t.after (execLoad t))
  else if b = GLB_INT_CTL.EOI.reg then s.when (v.getLsbD 30) (·.eoi)
  else if b = CNV_SEQ_MBX_POST.WORD.reg then s.post i (lowHalf v)
  else if b = SEC_MBX_CMD.OPCODE.reg then s.mailboxCommand v
  else match woCommand d v with
    | some w => s.woPush (d.fields.headD GLB_ID.PART_ID) i w
    | none => s

/-! ### Writes: fields with an effect of their own -/

/-- The fields whose write does more than their class says. -/
def effectFields : List RegField :=
  [CNV_PNL_CTL.DRAIN, CNV_PNL_THR_CTL.ENABLE, CNV_SEQ_THR_CTL.ENABLE, DMA_CH_CTL.RESUME, DMA_CH_CTL.STOP, DMA_CH_CTL.ENABLE,
    DMA_CH_CTL.SIZE_LOG2, DMA_CH_OWNER.OWNED, DMA_CH_OWNER.JOBCLASS, DMA_CH_OWNER.PARTITION, CNV_FIN_STEP.STEP, PWR_CAP.CAP_W,
    PWR_CAP_FAST.FAST_W, PWR_HAULDOWN.FORCE, PWR_PHASE_PO.PO, PWR_THR_TIME.NS, THM_SENSOR.SUSPECT, SPR_CTL.ENABLE,
    SPR_CTL.RETRAIN, SPR_CTL.REKEY, TTH_CTL.RETRAIN, TTH_CTL.RECOVER, JNL_THERMAL_RECORD.PRESENT, SBD_STATUS.DISCREPANCY,
    CNV_ECC_BANK_RETIRE.PENDING, CNV_ROW_Q_CTL.RESUME, CNV_FIN_Q_CTL.RESUME, COAT_Q_CTL.RESUME, COL_Q_CTL.RESUME,
    CNV_ROW_Q_CTL.ENABLE, CNV_FIN_Q_CTL.ENABLE, COAT_Q_CTL.ENABLE, COL_Q_CTL.ENABLE, CNV_ROW_Q_TAIL.TAIL, CNV_FIN_Q_TAIL.TAIL,
    COAT_Q_TAIL.TAIL, COL_Q_TAIL.TAIL, DMA_CH_TAIL.TAIL]

/-- The HW_UPDATE_LOST bit of a register's block, set where a software write has won over a hardware update (R10). -/
def State.updateLost (s : State) (d : RegDef) (i : Nat) (hw : Option Val) : State :=
  match hw, d.lost with
  | some _, some (l, n) => s.set1 l (i / n)
  | _, _ => s

/-- A write of CNV_FIN_STEP (R10, R299): one that is refused leaves the field to the hardware's update. -/
def State.stepWrite (s : State) (d : RegDef) (i : Nat) (v : Val) (hw : Option Val) : State :=
  if s.finStepOk i then (s.finStepSet i v).updateLost d i hw
  else match hw with
    | some w => (s.finStepSet i v).wr CNV_FIN_STEP.STEP i w
    | none => s.finStepSet i v

/-- The write of a field of effectFields. -/
def State.fieldEffect (s : State) (d : RegDef) (f : RegField) (i : Nat) (value mask : Val) (hw : Option Val) : State :=
  let bit := (value &&& mask) != 0
  let new := (s.rd f i &&& ~~~mask) ||| (value &&& mask)
  if f = CNV_PNL_CTL.DRAIN then s.after (execPanelDrain i s)
  else if f = CNV_PNL_THR_CTL.ENABLE then (if bit then s.threadStart i else s.threadStop i)
  else if f = CNV_SEQ_THR_CTL.ENABLE then
    let th : SeqThread := ⟨i / 512, i / 32 % 16, i % 32⟩
    s.after (if bit then execSeqEnable th s else execSeqDisable th s)
  else if f = DMA_CH_CTL.RESUME then
    (match (value &&& mask).toNat with
      | 1 => s.after (execDmaResumeRetry .rtp i s)
      | 2 => s.after (execDmaResumeSkip .rtp i s)
      | _ => s)
  else if f = DMA_CH_CTL.STOP then s.after (execDmaStop .rtp i s)
  else if f = DMA_CH_CTL.ENABLE then s.after (execDmaEnable .rtp i bit s)
  else if f.reg = DMA_CH_OWNER.OWNED.reg ∨ f = DMA_CH_CTL.SIZE_LOG2 then (if s.dmaReserved i ≠ 0 then s else s.wr f i new)
  else if f = CNV_FIN_STEP.STEP then s.stepWrite d i new hw
  else if f = PWR_CAP.CAP_W then s.capWrite false new.toNat
  else if f = PWR_CAP_FAST.FAST_W then s.capWrite true new.toNat
  else if f = PWR_HAULDOWN.FORCE then (s.wr f i new).haulSettle
  else if f = PWR_PHASE_PO.PO then s.phasePo i new.toNat
  else if f = PWR_THR_TIME.NS then (s.wr f i (new + hw.getD 0)).onPower (fun p => { p with since := Tab.set p.since i s.now 0 })
  else if f = THM_SENSOR.SUSPECT then s.after (execSuspectClear i hw.isSome s)
  else if f = SPR_CTL.ENABLE then s.sparEnable i bit
  else if f = SPR_CTL.RETRAIN then s.after (execSparRetrain i s)
  else if f = SPR_CTL.REKEY then s.after (execRekey i s)
  else if f = TTH_CTL.RETRAIN then s.after (execTthRetrain i s)
  else if f = TTH_CTL.RECOVER then s.after (execTthRecover i s)
  else if f = JNL_THERMAL_RECORD.PRESENT then s.after (execThermalRecordClear s)
  else if f = SBD_STATUS.DISCREPANCY then s.discrepancyClear
  else if f = CNV_ECC_BANK_RETIRE.PENDING then s.after (execBankRetireRequest (i / 32) (i % 32) (lowHalf (value &&& mask)) s)
  else if f = CNV_ROW_Q_CTL.RESUME then s.when bit (·.qResume ⟨.row, i⟩)
  else if f = CNV_FIN_Q_CTL.RESUME then s.when bit (·.qResume ⟨.fin, i⟩)
  else if f = COAT_Q_CTL.RESUME then s.when bit (·.qResume ⟨.coat, i⟩)
  else if f = COL_Q_CTL.RESUME then s.when bit (·.qResume ⟨.col, i⟩)
  else match queueOf (·.tail) f i, queueOf (·.enable) f i with
    | some q, _ => (s.qSetTail q new).updateLost d i hw
    | none, some q => s.qEnable q bit
    | none, none => s

/-- A field of effectFields in a write: a bit of an event or request class acts only where 1 is written, and the
hardware's set of an event wins (R10). -/
def State.effectWrite (s : State) (d : RegDef) (f : RegField) (i : Nat) (value mask : Val) (hw : Option Val) : State :=
  let event := decide (f.cls = .w1c) || decide (f.cls = .w1s)
  if mask = 0 ∨ (event ∧ value &&& mask = 0) then s.classWrite d f i 0 0 false hw
  else
    let t := s.fieldEffect d f i value mask hw
    if f.cls = .w1c then t.classWrite d f i 0 0 false hw else t

/-- The bits of a field within a register's value. -/
def RegField.cut (f : RegField) (v : Val) : Val := f.fit (v >>> f.lo)

/-- A register written under a mask, each field by its class and its own conditions (R624), then the command that the
write issues; hw are the hardware's updates of the same cycle. The fields of effectFields come after the others, the
lowest first. -/
def State.regWrite (s : State) (d : RegDef) (i : Nat) (value mask : Val) (hw : List HwUpdate) : State :=
  let upd := fun (f : RegField) => (hw.find? (fun h => h.lo == f.lo)).map (fun h => f.fit h.value)
  if d.base = GLB_PART_FAULT.PRIMARY.reg then
    (s.after (execPartFaultClear i (lowHalf (value &&& mask)) s)).each d.fields (fun f u => u.classWrite d f i 0 0 false (upd f))
  else if d.base = CNV_GLZ_TACK_RANGE.ENABLE.reg then
    s.tackRangeCommit (i / 64) (i % 64) ((s.regSeen .rtp d i &&& ~~~mask) ||| (value &&& mask))
  else if d.base = LMP_CTL.DUTY.reg then
    s.lampWrite i ((s.regSeen .rtp d i &&& ~~~mask) ||| (value &&& mask))
  else
    let locked := s.on SPR_COORD.LOCK 0
    let acting := fun (f : RegField) => effectFields.contains f
    let t := s.each (d.fields.filter (fun f => !acting f)) (fun f u => u.classWrite d f i (f.cut value) (f.cut mask) locked (upd f))
    let u := t.each (d.fields.filter acting).reverse (fun f u => u.effectWrite d f i (f.cut value) (f.cut mask) (upd f))
    if d.fields.any (fun f => decide (f.cls = .wo) && f.cut mask != 0) then u.commandWrite d i (value &&& mask) else u

/-! ### Ports (R12 to R17, R541, R542) -/

/-- The number of a port's shadows; every host request uses the host's. -/
def portNum : Port → Nat
  | .host => 0
  | .plain => 0
  | .rtp => 1
  | .smbus => 2

/-- The key of a port's shadow and staging register of the 64-bit register at an offset. -/
def shadowKey (port : Port) (addr : Nat) : Nat := portNum port * 4294967296 + addr

/-- Whether a port is the host's, whose errors BAR0 reports. -/
def portHost (p : Port) : Bool := decide (p = .host) || decide (p = .plain)

/-- An access that cannot reach its register (R542). -/
def State.unreached (s : State) (port : Port) (addr : Nat) : State :=
  if (portHost port) then (s.set1 GLB_HOST_STATUS.REG_UNREACHABLE 0).hostErr 0 addr 0 else s

/-- Whether an offset lies in the RTP mailbox buffer (R484). -/
def inBuffer (addr : Nat) : Bool := decide (0x201000 ≤ addr) && decide (addr < 0x202000)

/-- The shadows at a content. -/
def State.setShadow (s : State) (k : Nat) (v : Option Word32) : State :=
  { s with ports := { s.ports with shadow := Tab.set s.ports.shadow k v none } }

/-- The staging registers at a content. -/
def State.setStaging (s : State) (k : Nat) (v : Word32) : State :=
  { s with ports := { s.ports with staging := Tab.set s.ports.staging k v 0 } }

/-- The value of a 32-bit read of an offset, and the state with the shadows as it leaves them (R6, R12, R13, R542). -/
def State.read32 (s : State) (port : Port) (addr : Nat) : Word32 × State :=
  if inBuffer addr then (BitVec.ofNat 32 (leNat ((List.range 4).map (fun j => Tab.get s.sec.buffer (addr - 0x201000 + j) 0))), s)
  else match regAt addr with
    | none => (0, s)
    | some h =>
      if !s.reaches h.reg h.index then (0xFFFFFFFF, s.unreached port addr)
      else
        let v := s.regSeen port h.reg h.index
        if h.high then
          let k := shadowKey port (addr - 4)
          ((Tab.get s.ports.shadow k none).getD (highHalf v), s.setShadow k none)
        else if h.reg.wide then (lowHalf v, s.setShadow (shadowKey port addr) (some (highHalf v)))
        else (lowHalf v, s)

/-- A write of the mailbox buffer (R484): ignored while a command runs. -/
def State.bufferWrite (s : State) (o : Nat) (w : Word32) : State :=
  if s.on SEC_MBX_STATUS.BUSY 0 then s.set1 SEC_STATUS.DENIED 0
  else s.onSec (fun x => { x with buffer := ((List.range 4).zip (leBytes 4 w.toNat)).foldl (fun m p => Tab.set m (o + p.1) p.2 0) x.buffer })

/-- A write that reaches its register from a port: the host's writes that confidential mode forbids are ignored and set
DENIED (R497), and so is ALLOW_UNTESTED alone (R195). -/
def State.portWrite (s : State) (port : Port) (h : RegHit) (value mask : Val) (hw : List HwUpdate) : State :=
  let m := if s.conf ∧ h.reg.base = SKT_CTL.LOAD.reg then mask &&& ~~~2 else mask
  let veiled := s.conf && decide (port = .host)
  if veiled && s.closedToHost h.reg h.index then s.set1 SEC_STATUS.DENIED 0
  else (s.regWrite h.reg h.index value m hw).when (veiled && m != mask) (·.set1 SEC_STATUS.DENIED 0)

/-- A 32-bit write of an offset (R6, R15, R16, R542). -/
def State.write32 (s : State) (port : Port) (addr : Nat) (w : Word32) (hw : List HwUpdate) : State :=
  if s.hostBarred port then s
  else if inBuffer addr then s.bufferWrite (addr - 0x201000) w
  else match regAt addr with
    | none => s
    | some h =>
      if !s.reaches h.reg h.index then s.unreached port addr
      else if h.high then s.setStaging (shadowKey port (addr - 4)) w
      else if h.reg.wide then
        let k := shadowKey port addr
        (s.setStaging k 0).portWrite port h (ofHalves (Tab.get s.ports.staging k 0) w) (BitVec.allOnes 64) hw
      else s.portWrite port h (BitVec.setWidth 64 w) 0xFFFFFFFF hw

/-- A 32-bit read from a port, with its answer (R497, R541). -/
def State.portRead32 (s : State) (port : Port) (addr : Nat) : State :=
  if s.hostBarred port then s.send (.unsupported addr)
  else if addr % 4 ≠ 0 then (s.when (portHost port) (·.badAccess 0 addr)).send (.portAbort port addr)
  else
    let r := s.read32 port addr
    r.2.send (.portRead port addr (BitVec.setWidth 64 r.1))

/-- A 32-bit write from a port (R541). -/
def State.portWrite32 (s : State) (port : Port) (addr : Nat) (w : Word32) (hw : List HwUpdate) : State :=
  if s.hostBarred port then s
  else if addr % 4 ≠ 0 then s.when (portHost port) (·.badAccess 0 addr)
  else s.write32 port addr w hw

/-! ### The commands -/

/-- REGISTER_WRITE (R5 to R10, R541, R542, R624). -/
def execRegisterWrite (port : Port) (addr : Nat) (data : Word32) (hw : List HwUpdate) (s : State) : Res :=
  .next (s.portWrite32 port addr data hw)

/-- WO_WRITE_RELEASED (R9): the oldest write held off at a WO register is accepted once its queue has room. -/
def execWoWriteReleased (addr : Nat) (s : State) : Res :=
  .next (match regAt addr with
    | none => s
    | some h =>
      let f := h.reg.fields.headD GLB_ID.PART_ID
      match s.ports.held.find? (fun w => w.reg == f.reg && w.index == h.index) with
      | none => s
      | some w =>
        if (s.woQueue f h.index).length < woLimit f then
          { s with ports := { s.ports with held := s.ports.held.erase w } }.setWo f h.index (s.woQueue f h.index ++ [w.value])
        else s)

/-- READ_LOW_HALF (R12). -/
def execReadLowHalf (port : Port) (addr : Nat) (s : State) : Res := .next (s.portRead32 port addr)

/-- READ_HIGH_HALF (R13). -/
def execReadHighHalf (port : Port) (addr : Nat) (s : State) : Res := .next (s.portRead32 port addr)

/-- WRITE_HIGH_HALF (R15). -/
def execWriteHighHalf (port : Port) (addr : Nat) (data : Word32) (s : State) : Res := .next (s.portWrite32 port addr data [])

/-- WRITE_LOW_HALF (R15, R16). -/
def execWriteLowHalf (port : Port) (addr : Nat) (data : Word32) (hw : List HwUpdate) (s : State) : Res :=
  .next (s.portWrite32 port addr data hw)

/-- An 8-byte access at an offset (R17): all 64 bits of a 64-bit register at once, leaving shadow and staging alone;
elsewhere both words that lie there. -/
def State.access64 (s : State) (port : Port) (addr : Nat) (write : Option (BitVec 64)) (hw : List HwUpdate) : State :=
  match regAt addr, write with
  | some h, none =>
    if h.reg.wide then
      if s.reaches h.reg h.index then s.send (.portRead port addr (s.regSeen port h.reg h.index))
      else (s.unreached port addr).send (.portRead port addr (BitVec.allOnes 64))
    else
      let a := s.read32 port addr
      let b := a.2.read32 port (addr + 4)
      b.2.send (.portRead port addr (ofHalves b.1 a.1))
  | some h, some v =>
    if h.reg.wide then
      if s.reaches h.reg h.index then s.portWrite port h v (BitVec.allOnes 64) hw else s.unreached port addr
    else (s.write32 port addr (lowHalf v) (hw.filter (fun x => decide (x.lo < 32)))).write32 port (addr + 4) (highHalf v)
      ((hw.filter (fun x => decide (x.lo ≥ 32))).map (fun x => ⟨x.lo - 32, x.value⟩))
  | none, none =>
    let a := s.read32 port addr
    let b := a.2.read32 port (addr + 4)
    b.2.send (.portRead port addr (ofHalves b.1 a.1))
  | none, some v => (s.write32 port addr (lowHalf v) []).write32 port (addr + 4) (highHalf v) []

/-- EIGHT_BYTE_ACCESS (R17, R541). -/
def execEightByteAccess (port : Port) (addr : Nat) (write : Option (BitVec 64)) (hw : List HwUpdate) (s : State) : Res :=
  .next (if s.hostBarred port then (if write.isNone then s.send (.unsupported addr) else s)
  else if addr % 8 ≠ 0 then
    let t := s.when (portHost port) (·.badAccess 0 addr)
    if write.isNone then t.send (.portAbort port addr) else t
  else s.access64 port addr write hw)

/-! ### A coat's REG_WRITE (R18) -/

/-- A REG_WRITE of a coat at an offset: a 32-bit write of one half under its mask, or all 64 bits; through no port, so
no shadow or staging register has part in it. -/
def State.coatRegWrite (s : State) (addr : Nat) (wide : Bool) (value mask : Val) : State :=
  match regAt addr with
  | none => s
  | some h =>
    if wide then s.regWrite h.reg h.index value mask []
    else if h.high then s.regWrite h.reg h.index (value <<< 32) ((mask &&& 0xFFFFFFFF) <<< 32) []
    else s.regWrite h.reg h.index value (mask &&& 0xFFFFFFFF) []

end Sys2Proof.Machine
end

