-- ==== Sys2Proof/Machine/CoatApply.lean ====
section
/-! DEFINITION. The apply phase of a coat (R321, R332, R333, R340) and the effects of route patches (R185, R196 to R198,
R487). -/

namespace Sys2Proof.Machine

/-- What a patch of a stream, a region or a train entry shows in the registers (R99, R197): a stream's credits begin again
at LAND; a region keeps its TOKEN; the stretcher's copy of the region follows (R131). -/
def State.showPatch (s : State) (k : Sketch) (r : List Byte) : State :=
  let c := leField r 1 1
  let t := leField r 2 2
  match leField r 0 1 with
  | 1 => match Tab.get k.streams (c * 4096 + t) none with
    | some x => ((s.wrN CNV_STM_STREAM.RECEIVER (c * 4096 + t) x.receiver).wrN CNV_STM_STREAM.LAND (c * 4096 + t) x.land).wrN
        CNV_STM_STREAM.CREDITS (c * 4096 + t) x.land
    | none => s
  | 2 =>
    let w := parseWell (r.drop 8)
    let i := regIx w.panel w.handle
    let s1 := ((s.wrN CNV_PNL_REGION.LEN i w.len).wrN CNV_PNL_REGION.BASE i w.base).flag CNV_PNL_REGION.JOB i w.wash
    { s1 with pnl := { s1.pnl with copyReg := Tab.set s1.pnl.copyReg i (if w.len = 0 then 0 else regionCopy w) 0 } }
  | 5 => match k.train (c * 4096 + t) with
    | some x => s.wrN CNV_STM_TRN_STATUS.PHASE (c * 4096 + t) x.phase
    | none => s
  | _ => s

/-- A committed patch (R198): the resident configuration and what shows of it change, SKT_PATCH_COUNT and PATCHED follow,
and M3 takes in the record (R487). -/
def State.applyPatch (s : State) (r : List Byte) : State :=
  match s.str.sketch.patch r with
  | none => s
  | some k =>
    let t := { s with str := { s.str with sketch := k } }.showPatch k r
    ((t.bump SKT_PATCH_COUNT.COUNT 0 1).set1 SKT_STATUS.PATCHED 0).setMeas 3 (Config.sha384 (digestBytes (t.meas 3) ++ r))

/-- A MEM_WRITE at apply (R318, R328): the masked write is made into the resident line; an uncorrectable word that the
mask does not cover stays as it is (R510). -/
def State.applyMem (s : State) (d : Dpa) (v m : Val) : State :=
  let k := keyOf d
  let who := endpointOf .coats
  match s.line k with
  | none => s
  | some l =>
    if s.wordBad (d / 8) && m != BitVec.allOnes 64 then
      s.eccLog (keyCanvas k) ⟨d, logGlaze, 3, 1, glazeLocation k l.way (d % 2048 / 8) 0, who, 0x0114⟩
    else
      let old := BitVec.ofNat 64 (leNat (getBytes s.glz.data d 8))
      let new := (old &&& ~~~m) ||| (v &&& m)
      (s.putLine d (leBytes 8 new.toNat) who).st.ringBells d 8

/-- One action's effect at apply; a DMA_LAUNCH is posted after the others (R321). -/
def State.applyAction (s : State) (a : CoatAction) : State :=
  match a with
  | .regWrite o wide v m => s.coatRegWrite o wide v m
  | .memWrite d v m => s.applyMem d v m
  | .dmaLaunch _ _ => s
  | .versionFlip p => s.wr CNV_FIN_STEP.STEP p (s.rd CNV_FIN_STEP.STEP p + 1)
  | .routePatch r => s.applyPatch r

/-- Whether an action is on a LOST canvas (R340). -/
def State.actionLost (s : State) (a : Nat × CoatAction) : Bool := decide (a.1 < 4) && decide (s.island (tetherIsland a.1) = islLost)

/-- The descriptors of a part's launches posted, in list order; none while a ring slot's line is held. -/
def State.applyPosts (s : State) (ps : List (Nat × List Byte)) : Option State :=
  ps.foldl (fun o p => match o with | some t => t.postWrite p.1 p.2 | none => none) (some s)

/-- The launches of a part that are to be posted: channel and descriptor. -/
def State.coatPosts (s : State) (c : Coat) : List (Nat × List Byte) :=
  c.descs.filterMap (fun d => match c.actions[d.1]? with
    | some a => (match a.2 with | .dmaLaunch ch _ => if s.actionLost a then none else some (ch, d.2) | _ => none)
    | none => none)

/-- A part that has been applied ends (R333, R340): a local coat completes, a participant acknowledges and completes, a
coordinator completes once every ACK has come. -/
def State.coatApplied (s : State) (id : Nat) (c : Coat) (code : Code) : State :=
  if !c.wide then s.coatFinish id c true code
  else if c.isCoord then
    match s.coat id with
    | some x => (s.setCoat id { x with code := code }).coatClose id
    | none => s
  else (s.send (.coat .ack c.coord c.ts 0)).coatFinish id c true code

/-- COAT_APPLY (R321, R332, R333, R340): 2 µs after a device has learnt the decision to commit, every action of its part
takes effect in one step. -/
def execCoatApply (id : Nat) (s : State) : Res :=
  .next (match s.coat id with
    | none => s
    | some c => match c.learnt, c.ended with
      | some t, none =>
        if s.now < t + 2000 then s
        else
          let u := s.each (c.actions.filter (fun a => !s.actionLost a)) (fun a v => v.applyAction a.2)
          let code : Code := if c.actions.any s.actionLost then 0x040C else 0
          (match (u.coatRelease id c).applyPosts (s.coatPosts c) with
            | some v => v.coatApplied id c code
            | none => s)
      | _, _ => s)

end Sys2Proof.Machine
end

