-- ==== Sys2Proof/Machine/SeqCommands.lean ====
section
/-! DEFINITION. The sequencer instructions that command other units: TRAIN, DMAPOST and PNLGO (R208, R209, R213,
R347). -/

namespace Sys2Proof.Machine

/-- A TRAIN instruction (R209): the command joins the queue of the canvas that g[RA] names; a full queue makes the
thread wait with COMMAND. A canvas whose tether-port island is not ACTIVE cannot be reached. -/
def State.seqTrain (s : State) (th : SeqThread) (op ra : Nat) : State :=
  s.seqReleased th [ra] (fun k t =>
    let v := ((t.sth k).get ra).toNat
    let c := v / 4096 % 4
    if t.island (tetherIsland c) ≠ islActive then t.seqDone k
    else
      let q := t.woQueue CNV_STM_TRN_CMD.OP c
      if q.length ≥ 32 then t.seqWait k (.command c)
      else (t.setWo CNV_STM_TRN_CMD.OP c (q ++ [trainCmd op (v % 4096)])).seqDone k)

/-- TRAIN with FN 1, LAUNCH. -/
def execTrainLaunch (th : SeqThread) (ra : Nat) (s : State) : Res := .next (s.seqTrain th 1 ra)

/-- TRAIN with FN 2, STOP. -/
def execTrainStop (th : SeqThread) (ra : Nat) (s : State) : Res := .next (s.seqTrain th 2 ra)

/-- DMAPOST (R347): the descriptor at g[RB] is posted to channel g[RA], and RD takes 0 or the code. While a line that
the post needs is not there, the thread waits with COMMAND. -/
def execDmapost (th : SeqThread) (rd ra rb : Nat) (s : State) : Res :=
  .next (s.seqReleased th [ra, rb] (fun k t =>
    match t.dmaPost ((t.sth k).get ra).toNat (t.seqPart k) ((t.sth k).get rb).toNat with
    | (none, u) => u.seqWait k (.command th.canvas)
    | (some c, u) => (u.setSth k ((u.sth k).put rd (codeVal c))).seqDone k))

/-- PNLGO (R208): an IDLE panel thread of the thread's own canvas and partition starts at g[RB] with AB0 0, and RD
takes 0; otherwise nothing changes and RD takes 1. -/
def execPnlgo (th : SeqThread) (rd ra rb : Nat) (s : State) : Res :=
  .next (s.seqReleased th [ra, rb] (fun k t =>
    let q := ((t.sth k).get ra).toNat
    let p := q / 8
    let pc := (t.sth k).get rb
    let give := fun (v : Val) (u : State) => (u.setSth k ((u.sth k).put rd v)).seqDone k
    if decide (p / 256 = th.canvas) && t.panelUp p && decide (t.rdN CNV_PNL_THR_CTL.STATE q = 0) &&
        t.panelPart p == some (t.seqPart k) then
      let u := t.wrN CNV_PNL_THR_PC.PC q (pc.toNat / 16)
      give 0 ((u.setPth q { u.pth q with ab := (u.pth q).ab.set 0 0 }).threadStart q)
    else give 1 t))

end Sys2Proof.Machine
end

