-- ==== Sys2Proof/Machine/Dispatch.lean ====
section
/-! DEFINITION. The dispatch of a command to its meaning, one arm per constructor. -/

namespace Sys2Proof.Machine

def exec (i : Instr) (s : State) : Host.Outcome State Fault Refusal :=
  match i with
  | .registerWrite port addr data hw => Sys2Proof.Machine.execRegisterWrite port addr data hw s
  | .woWriteReleased addr => Sys2Proof.Machine.execWoWriteReleased addr s
  | .readLowHalf port addr => Sys2Proof.Machine.execReadLowHalf port addr s
  | .readHighHalf port addr => Sys2Proof.Machine.execReadHighHalf port addr s
  | .writeHighHalf port addr data => Sys2Proof.Machine.execWriteHighHalf port addr data s
  | .writeLowHalf port addr data hw => Sys2Proof.Machine.execWriteLowHalf port addr data hw s
  | .eightByteAccess port addr write hw => Sys2Proof.Machine.execEightByteAccess port addr write hw s
  | .sleep island => Sys2Proof.Machine.execSleep island s
  | .wake island => Sys2Proof.Machine.execWake island s
  | .islandDrained island => Sys2Proof.Machine.execIslandDrained island s
  | .islandReady island => Sys2Proof.Machine.execIslandReady island s
  | .wakeChainEnd canvas => Sys2Proof.Machine.execWakeChainEnd canvas s
  | .gessoRezeroDone canvas => Sys2Proof.Machine.execGessoRezeroDone canvas s
  | .gatePacket id dst vc part wash => Sys2Proof.Machine.execGatePacket id dst vc part wash s
  | .packetRetry id => Sys2Proof.Machine.execPacketRetry id s
  | .capacityUpdate => Sys2Proof.Machine.execCapacityUpdate s
  | .strokeFetchDone panel thread refetch => Sys2Proof.Machine.execStrokeFetchDone panel thread refetch s
  | .strokeIssue panel upsets => Sys2Proof.Machine.execStrokeIssue panel upsets s
  | .mmaNew flight => Sys2Proof.Machine.execMmaNew flight s
  | .mmaAdd flight => Sys2Proof.Machine.execMmaAdd flight s
  | .vecAdd flight => Sys2Proof.Machine.execVecAdd flight s
  | .vecSub flight => Sys2Proof.Machine.execVecSub flight s
  | .vecMul flight => Sys2Proof.Machine.execVecMul flight s
  | .vecFma flight => Sys2Proof.Machine.execVecFma flight s
  | .vecMax flight => Sys2Proof.Machine.execVecMax flight s
  | .vecMin flight => Sys2Proof.Machine.execVecMin flight s
  | .vecAbs flight => Sys2Proof.Machine.execVecAbs flight s
  | .vecCmpgt flight => Sys2Proof.Machine.execVecCmpgt flight s
  | .vecExp2 flight => Sys2Proof.Machine.execVecExp2 flight s
  | .vecLog2 flight => Sys2Proof.Machine.execVecLog2 flight s
  | .vecRcp flight => Sys2Proof.Machine.execVecRcp flight s
  | .vecRsqrt flight => Sys2Proof.Machine.execVecRsqrt flight s
  | .vecTanh flight => Sys2Proof.Machine.execVecTanh flight s
  | .vecCopy flight => Sys2Proof.Machine.execVecCopy flight s
  | .finVecSqrt canvas queue seq unit => Sys2Proof.Machine.execFinVecSqrt canvas queue seq unit s
  | .finVecDiv canvas queue seq unit => Sys2Proof.Machine.execFinVecDiv canvas queue seq unit s
  | .redSum flight => Sys2Proof.Machine.execRedSum flight s
  | .redMax flight => Sys2Proof.Machine.execRedMax flight s
  | .redMin flight => Sys2Proof.Machine.execRedMin flight s
  | .redSumsq flight => Sys2Proof.Machine.execRedSumsq flight s
  | .redSoftmaxStep flight => Sys2Proof.Machine.execRedSoftmaxStep flight s
  | .cvt flight => Sys2Proof.Machine.execCvt flight s
  | .movCopy flight => Sys2Proof.Machine.execMovCopy flight s
  | .movSend flight => Sys2Proof.Machine.execMovSend flight s
  | .movRecv flight => Sys2Proof.Machine.execMovRecv flight s
  | .movLoad flight => Sys2Proof.Machine.execMovLoad flight s
  | .movStore flight => Sys2Proof.Machine.execMovStore flight s
  | .movAddl flight => Sys2Proof.Machine.execMovAddl flight s
  | .movTload flight => Sys2Proof.Machine.execMovTload flight s
  | .tokSignal flight => Sys2Proof.Machine.execTokSignal flight s
  | .tokFree flight => Sys2Proof.Machine.execTokFree flight s
  | .tokWait flight => Sys2Proof.Machine.execTokWait flight s
  | .tokJump flight => Sys2Proof.Machine.execTokJump flight s
  | .tokLoop flight => Sys2Proof.Machine.execTokLoop flight s
  | .tokSetcnt flight => Sys2Proof.Machine.execTokSetcnt flight s
  | .tokSetbase flight => Sys2Proof.Machine.execTokSetbase flight s
  | .tokSetdesc flight => Sys2Proof.Machine.execTokSetdesc flight s
  | .tokSetstep flight => Sys2Proof.Machine.execTokSetstep flight s
  | .tokLoadstep flight => Sys2Proof.Machine.execTokLoadstep flight s
  | .tokFence flight => Sys2Proof.Machine.execTokFence flight s
  | .tokNotify flight => Sys2Proof.Machine.execTokNotify flight s
  | .tokHalt flight => Sys2Proof.Machine.execTokHalt flight s
  | .gather flight => Sys2Proof.Machine.execGather flight s
  | .scatter flight => Sys2Proof.Machine.execScatter flight s
  | .scatterAdd flight => Sys2Proof.Machine.execScatterAdd flight s
  | .unitStart panel vector => Sys2Proof.Machine.execUnitStart panel vector s
  | .strokeComplete flight => Sys2Proof.Machine.execStrokeComplete flight s
  | .threadEnable panel thread => Sys2Proof.Machine.execThreadEnable panel thread s
  | .threadDisable panel thread => Sys2Proof.Machine.execThreadDisable panel thread s
  | .panelDrain panel => Sys2Proof.Machine.execPanelDrain panel s
  | .launch canvas entry => Sys2Proof.Machine.execLaunch canvas entry s
  | .launchThreadsStart canvas => Sys2Proof.Machine.execLaunchThreadsStart canvas s
  | .stop canvas entry => Sys2Proof.Machine.execStop canvas entry s
  | .trainStateChange canvas entry => Sys2Proof.Machine.execTrainStateChange canvas entry s
  | .linkedPropagation canvas entry => Sys2Proof.Machine.execLinkedPropagation canvas entry s
  | .streamUnitLand canvas stream => Sys2Proof.Machine.execStreamUnitLand canvas stream s
  | .streamCreditReturn canvas stream => Sys2Proof.Machine.execStreamCreditReturn canvas stream s
  | .load => Sys2Proof.Machine.execLoad s
  | .loadChecksDone => Sys2Proof.Machine.execLoadChecksDone s
  | .applyDone => Sys2Proof.Machine.execApplyDone s
  | .aluAdd th rd ra rb => Sys2Proof.Machine.execAluAdd th rd ra rb s
  | .aluSub th rd ra rb => Sys2Proof.Machine.execAluSub th rd ra rb s
  | .aluAnd th rd ra rb => Sys2Proof.Machine.execAluAnd th rd ra rb s
  | .aluOr th rd ra rb => Sys2Proof.Machine.execAluOr th rd ra rb s
  | .aluXor th rd ra rb => Sys2Proof.Machine.execAluXor th rd ra rb s
  | .aluAndn th rd ra rb => Sys2Proof.Machine.execAluAndn th rd ra rb s
  | .aluShl th rd ra rb => Sys2Proof.Machine.execAluShl th rd ra rb s
  | .aluShr th rd ra rb => Sys2Proof.Machine.execAluShr th rd ra rb s
  | .aluSra th rd ra rb => Sys2Proof.Machine.execAluSra th rd ra rb s
  | .aluSlt th rd ra rb => Sys2Proof.Machine.execAluSlt th rd ra rb s
  | .aluSltu th rd ra rb => Sys2Proof.Machine.execAluSltu th rd ra rb s
  | .aluMin th rd ra rb => Sys2Proof.Machine.execAluMin th rd ra rb s
  | .aluMax th rd ra rb => Sys2Proof.Machine.execAluMax th rd ra rb s
  | .aluMinu th rd ra rb => Sys2Proof.Machine.execAluMinu th rd ra rb s
  | .aluMaxu th rd ra rb => Sys2Proof.Machine.execAluMaxu th rd ra rb s
  | .aluMul th rd ra rb => Sys2Proof.Machine.execAluMul th rd ra rb s
  | .aluMulhu th rd ra rb => Sys2Proof.Machine.execAluMulhu th rd ra rb s
  | .aluMulh th rd ra rb => Sys2Proof.Machine.execAluMulh th rd ra rb s
  | .aluPopc th rd ra rb => Sys2Proof.Machine.execAluPopc th rd ra rb s
  | .aluClz th rd ra rb => Sys2Proof.Machine.execAluClz th rd ra rb s
  | .aluCtz th rd ra rb => Sys2Proof.Machine.execAluCtz th rd ra rb s
  | .addi th rd ra imm => Sys2Proof.Machine.execAddi th rd ra imm s
  | .andi th rd ra imm => Sys2Proof.Machine.execAndi th rd ra imm s
  | .ori th rd ra imm => Sys2Proof.Machine.execOri th rd ra imm s
  | .xori th rd ra imm => Sys2Proof.Machine.execXori th rd ra imm s
  | .shli th rd ra imm => Sys2Proof.Machine.execShli th rd ra imm s
  | .shri th rd ra imm => Sys2Proof.Machine.execShri th rd ra imm s
  | .srai th rd ra imm => Sys2Proof.Machine.execSrai th rd ra imm s
  | .slti th rd ra imm => Sys2Proof.Machine.execSlti th rd ra imm s
  | .sltiu th rd ra imm => Sys2Proof.Machine.execSltiu th rd ra imm s
  | .movlo th rd imm => Sys2Proof.Machine.execMovlo th rd imm s
  | .movhi th rd imm => Sys2Proof.Machine.execMovhi th rd imm s
  | .ld8 th rd ra imm cached => Sys2Proof.Machine.execLd8 th rd ra imm cached s
  | .ld16 th rd ra imm cached => Sys2Proof.Machine.execLd16 th rd ra imm cached s
  | .ld32 th rd ra imm cached => Sys2Proof.Machine.execLd32 th rd ra imm cached s
  | .ld64 th rd ra imm cached => Sys2Proof.Machine.execLd64 th rd ra imm cached s
  | .ld32s th rd ra imm cached => Sys2Proof.Machine.execLd32s th rd ra imm cached s
  | .ldnc th rd ra imm => Sys2Proof.Machine.execLdnc th rd ra imm s
  | .pf th ra imm victim => Sys2Proof.Machine.execPf th ra imm victim s
  | .st8 th rs ra imm => Sys2Proof.Machine.execSt8 th rs ra imm s
  | .st16 th rs ra imm => Sys2Proof.Machine.execSt16 th rs ra imm s
  | .st32 th rs ra imm => Sys2Proof.Machine.execSt32 th rs ra imm s
  | .st64 th rs ra imm => Sys2Proof.Machine.execSt64 th rs ra imm s
  | .amoAdd th rd ra rb wide => Sys2Proof.Machine.execAmoAdd th rd ra rb wide s
  | .amoSwap th rd ra rb wide => Sys2Proof.Machine.execAmoSwap th rd ra rb wide s
  | .amoCas th rd ra rb wide => Sys2Proof.Machine.execAmoCas th rd ra rb wide s
  | .amoMaxu th rd ra rb wide => Sys2Proof.Machine.execAmoMaxu th rd ra rb wide s
  | .beq th ra rb imm predicted => Sys2Proof.Machine.execBeq th ra rb imm predicted s
  | .bne th ra rb imm predicted => Sys2Proof.Machine.execBne th ra rb imm predicted s
  | .blt th ra rb imm predicted => Sys2Proof.Machine.execBlt th ra rb imm predicted s
  | .bge th ra rb imm predicted => Sys2Proof.Machine.execBge th ra rb imm predicted s
  | .bltu th ra rb imm predicted => Sys2Proof.Machine.execBltu th ra rb imm predicted s
  | .bgeu th ra rb imm predicted => Sys2Proof.Machine.execBgeu th ra rb imm predicted s
  | .jal th rd imm predicted => Sys2Proof.Machine.execJal th rd imm predicted s
  | .jalr th rd ra imm predicted => Sys2Proof.Machine.execJalr th rd ra imm predicted s
  | .fence th rel acq => Sys2Proof.Machine.execFence th rel acq s
  | .csrr th rd csr => Sys2Proof.Machine.execCsrr th rd csr s
  | .csrw th ra csr => Sys2Proof.Machine.execCsrw th ra csr s
  | .mbxwait th rd ra tryOnly => Sys2Proof.Machine.execMbxwait th rd ra tryOnly s
  | .mbxpost th ra rb => Sys2Proof.Machine.execMbxpost th ra rb s
  | .trainLaunch th ra => Sys2Proof.Machine.execTrainLaunch th ra s
  | .trainStop th ra => Sys2Proof.Machine.execTrainStop th ra s
  | .dmapost th rd ra rb => Sys2Proof.Machine.execDmapost th rd ra rb s
  | .pnlgo th rd ra rb => Sys2Proof.Machine.execPnlgo th rd ra rb s
  | .yield th => Sys2Proof.Machine.execYield th s
  | .halt th => Sys2Proof.Machine.execHalt th s
  | .threadSwitch canvas core => Sys2Proof.Machine.execThreadSwitch canvas core s
  | .seqWaitEnd th => Sys2Proof.Machine.execSeqWaitEnd th s
  | .seqEnable th => Sys2Proof.Machine.execSeqEnable th s
  | .seqDisable th => Sys2Proof.Machine.execSeqDisable th s
  | .mailboxPost mbx word => Sys2Proof.Machine.execMailboxPost mbx word s
  | .mbxPostRegister mbx word => Sys2Proof.Machine.execMbxPostRegister mbx word s
  | .mailboxDeliver mbx => Sys2Proof.Machine.execMailboxDeliver mbx s
  | .fillSlotGrant canvas => Sys2Proof.Machine.execFillSlotGrant canvas s
  | .fillDelivery canvas line upsets => Sys2Proof.Machine.execFillDelivery canvas line upsets s
  | .sliceRead req upsets => Sys2Proof.Machine.execSliceRead req upsets s
  | .sliceWholeWrite req data => Sys2Proof.Machine.execSliceWholeWrite req data s
  | .slicePartialWrite req data => Sys2Proof.Machine.execSlicePartialWrite req data s
  | .sliceAtomic req op operand compare => Sys2Proof.Machine.execSliceAtomic req op operand compare s
  | .addToLineFp32 req data => Sys2Proof.Machine.execAddToLineFp32 req data s
  | .addToLineEx96 req data => Sys2Proof.Machine.execAddToLineEx96 req data s
  | .turnRead req esize => Sys2Proof.Machine.execTurnRead req esize s
  | .writebackDone canvas line => Sys2Proof.Machine.execWritebackDone canvas line s
  | .writebackRetry canvas line => Sys2Proof.Machine.execWritebackRetry canvas line s
  | .flushWriteBack canvas lines => Sys2Proof.Machine.execFlushWriteBack canvas lines s
  | .flushInvalidate canvas lines => Sys2Proof.Machine.execFlushInvalidate canvas lines s
  | .flushDone canvas => Sys2Proof.Machine.execFlushDone canvas s
  | .roInv canvas => Sys2Proof.Machine.execRoInv canvas s
  | .roInvDone canvas => Sys2Proof.Machine.execRoInvDone canvas s
  | .roFillDone panel cache dpa => Sys2Proof.Machine.execRoFillDone panel cache dpa s
  | .tackRangeWrite canvas entry data => Sys2Proof.Machine.execTackRangeWrite canvas entry data s
  | .gessoRefresh canvas bank => Sys2Proof.Machine.execGessoRefresh canvas bank s
  | .rowCopy canvas queue => Sys2Proof.Machine.execRowCopy canvas queue s
  | .rowFill canvas queue => Sys2Proof.Machine.execRowFill canvas queue s
  | .rowZero canvas queue => Sys2Proof.Machine.execRowZero canvas queue s
  | .rowAnd canvas queue => Sys2Proof.Machine.execRowAnd canvas queue s
  | .rowOr canvas queue => Sys2Proof.Machine.execRowOr canvas queue s
  | .rowXor canvas queue => Sys2Proof.Machine.execRowXor canvas queue s
  | .rowAndn canvas queue => Sys2Proof.Machine.execRowAndn canvas queue s
  | .rowXnor canvas queue => Sys2Proof.Machine.execRowXnor canvas queue s
  | .rowNot canvas queue => Sys2Proof.Machine.execRowNot canvas queue s
  | .rowSelect canvas queue => Sys2Proof.Machine.execRowSelect canvas queue s
  | .rowOpDispatch canvas queue seq => Sys2Proof.Machine.execRowOpDispatch canvas queue seq s
  | .rowOpPerformed canvas queue seq op upsets => Sys2Proof.Machine.execRowOpPerformed canvas queue seq op upsets s
  | .rowQTail port canvas queue tail => Sys2Proof.Machine.execRowQTail port canvas queue tail s
  | .rowQResume port canvas queue => Sys2Proof.Machine.execRowQResume port canvas queue s
  | .rowQEnable port canvas queue enable => Sys2Proof.Machine.execRowQEnable port canvas queue enable s
  | .finAdamw canvas queue seq => Sys2Proof.Machine.execFinAdamw canvas queue seq s
  | .finSignmom canvas queue seq => Sys2Proof.Machine.execFinSignmom canvas queue seq s
  | .finOrtho canvas queue seq => Sys2Proof.Machine.execFinOrtho canvas queue seq s
  | .finKron canvas queue seq => Sys2Proof.Machine.execFinKron canvas queue seq s
  | .finUser canvas queue seq unit upsets => Sys2Proof.Machine.execFinUser canvas queue seq unit upsets s
  | .finClear canvas queue seq => Sys2Proof.Machine.execFinClear canvas queue seq s
  | .finSign canvas queue seq => Sys2Proof.Machine.execFinSign canvas queue seq s
  | .finExport canvas queue seq => Sys2Proof.Machine.execFinExport canvas queue seq s
  | .finAdopt canvas queue seq => Sys2Proof.Machine.execFinAdopt canvas queue seq s
  | .finTaskDispatch canvas => Sys2Proof.Machine.execFinTaskDispatch canvas s
  | .finTaskComplete canvas queue seq => Sys2Proof.Machine.execFinTaskComplete canvas queue seq s
  | .finStepWrite port part data => Sys2Proof.Machine.execFinStepWrite port part data s
  | .finQTail port canvas queue tail => Sys2Proof.Machine.execFinQTail port canvas queue tail s
  | .finQResume port canvas queue => Sys2Proof.Machine.execFinQResume port canvas queue s
  | .finQEnable port canvas queue enable => Sys2Proof.Machine.execFinQEnable port canvas queue enable s
  | .coatStart queue => Sys2Proof.Machine.execCoatStart queue s
  | .prepare coord ts => Sys2Proof.Machine.execPrepare coord ts s
  | .lockGrant id => Sys2Proof.Machine.execLockGrant id s
  | .coatPrepared id => Sys2Proof.Machine.execCoatPrepared id s
  | .vote device ts code => Sys2Proof.Machine.execVote device ts code s
  | .commit device ts => Sys2Proof.Machine.execCommit device ts s
  | .abort device ts code => Sys2Proof.Machine.execAbort device ts code s
  | .coatApply id => Sys2Proof.Machine.execCoatApply id s
  | .ack device ts => Sys2Proof.Machine.execAck device ts s
  | .ackWaitExpiry id => Sys2Proof.Machine.execAckWaitExpiry id s
  | .wound ts => Sys2Proof.Machine.execWound ts s
  | .query device ts => Sys2Proof.Machine.execQuery device ts s
  | .outcome ts answer code => Sys2Proof.Machine.execOutcome ts answer code s
  | .queryTimer id => Sys2Proof.Machine.execQueryTimer id s
  | .coatTimeout id => Sys2Proof.Machine.execCoatTimeout id s
  | .prepareDiscard ts => Sys2Proof.Machine.execPrepareDiscard ts s
  | .coatCmdAbort id => Sys2Proof.Machine.execCoatCmdAbort id s
  | .resolveCommit id => Sys2Proof.Machine.execResolveCommit id s
  | .resolveAbort id => Sys2Proof.Machine.execResolveAbort id s
  | .coatQTail port queue tail => Sys2Proof.Machine.execCoatQTail port queue tail s
  | .coatQResume port queue => Sys2Proof.Machine.execCoatQResume port queue s
  | .coatQEnable port queue enable => Sys2Proof.Machine.execCoatQEnable port queue enable s
  | .dmaCopy channel => Sys2Proof.Machine.execDmaCopy channel s
  | .dmaAdd channel => Sys2Proof.Machine.execDmaAdd channel s
  | .dmaTurn channel => Sys2Proof.Machine.execDmaTurn channel s
  | .burstIssue engine => Sys2Proof.Machine.execBurstIssue engine s
  | .dmaResponse channel seq offset reply => Sys2Proof.Machine.execDmaResponse channel seq offset reply s
  | .dmaRequestTimeout channel seq offset => Sys2Proof.Machine.execDmaRequestTimeout channel seq offset s
  | .dmaReadbackDone channel seq reply => Sys2Proof.Machine.execDmaReadbackDone channel seq reply s
  | .remoteRequest req act => Sys2Proof.Machine.execRemoteRequest req act s
  | .dmaResumeRetry port channel => Sys2Proof.Machine.execDmaResumeRetry port channel s
  | .dmaResumeSkip port channel => Sys2Proof.Machine.execDmaResumeSkip port channel s
  | .dmaStop port channel => Sys2Proof.Machine.execDmaStop port channel s
  | .dmaEnable port channel enable => Sys2Proof.Machine.execDmaEnable port channel enable s
  | .dmaTailWrite port channel tail => Sys2Proof.Machine.execDmaTailWrite port channel tail s
  | .dmaOwnerWrite port channel data => Sys2Proof.Machine.execDmaOwnerWrite port channel data s
  | .tetherData canvas dir fresh arrived => Sys2Proof.Machine.execTetherData canvas dir fresh arrived s
  | .tetherNull canvas dir flit => Sys2Proof.Machine.execTetherNull canvas dir flit s
  | .tetherNak canvas dir flit => Sys2Proof.Machine.execTetherNak canvas dir flit s
  | .tetherHeartbeat canvas dir flit => Sys2Proof.Machine.execTetherHeartbeat canvas dir flit s
  | .tetherReplayTimeout canvas dir => Sys2Proof.Machine.execTetherReplayTimeout canvas dir s
  | .tetherRetrainDone canvas up dn => Sys2Proof.Machine.execTetherRetrainDone canvas up dn s
  | .heartbeatSend canvas dir crVc => Sys2Proof.Machine.execHeartbeatSend canvas dir crVc s
  | .hbTimeout canvas => Sys2Proof.Machine.execHbTimeout canvas s
  | .canvasHbLoss canvas => Sys2Proof.Machine.execCanvasHbLoss canvas s
  | .tthRetrain canvas => Sys2Proof.Machine.execTthRetrain canvas s
  | .tthRecover canvas => Sys2Proof.Machine.execTthRecover canvas s
  | .creditLeakCheck spar link vc => Sys2Proof.Machine.execCreditLeakCheck spar link vc s
  | .hubPacket packet uncorrectable => Sys2Proof.Machine.execHubPacket packet uncorrectable s
  | .sparData port flit fec => Sys2Proof.Machine.execSparData port flit fec s
  | .sparNull port flit fec => Sys2Proof.Machine.execSparNull port flit fec s
  | .sparNak port flit fec => Sys2Proof.Machine.execSparNak port flit fec s
  | .sparTrain port coord peerPort dims counter good => Sys2Proof.Machine.execSparTrain port coord peerPort dims counter good s
  | .sparBoot port flit => Sys2Proof.Machine.execSparBoot port flit s
  | .keyMsg port msg => Sys2Proof.Machine.execKeyMsg port msg s
  | .sparReplayTimeout port => Sys2Proof.Machine.execSparReplayTimeout port s
  | .sparRxIdle port => Sys2Proof.Machine.execSparRxIdle port s
  | .sparEnable port => Sys2Proof.Machine.execSparEnable port s
  | .sparDisable port => Sys2Proof.Machine.execSparDisable port s
  | .sparTrainingDone port rx tx => Sys2Proof.Machine.execSparTrainingDone port rx tx s
  | .sparRetrain port => Sys2Proof.Machine.execSparRetrain port s
  | .sparRetrainDone port rx tx => Sys2Proof.Machine.execSparRetrainDone port rx tx s
  | .rekey port => Sys2Proof.Machine.execRekey port s
  | .rekeyDue port => Sys2Proof.Machine.execRekeyDue port s
  | .keyHold port => Sys2Proof.Machine.execKeyHold port s
  | .keyExhaust port => Sys2Proof.Machine.execKeyExhaust port s
  | .keyAgreeTimeout port => Sys2Proof.Machine.execKeyAgreeTimeout port s
  | .transitForward input vc packet => Sys2Proof.Machine.execTransitForward input vc packet s
  | .ageTick input vc => Sys2Proof.Machine.execAgeTick input vc s
  | .allReduce queue => Sys2Proof.Machine.execAllReduce queue s
  | .reduceScatter queue => Sys2Proof.Machine.execReduceScatter queue s
  | .allGather queue => Sys2Proof.Machine.execAllGather queue s
  | .broadcast queue => Sys2Proof.Machine.execBroadcast queue s
  | .pass queue => Sys2Proof.Machine.execPass queue s
  | .permute queue => Sys2Proof.Machine.execPermute queue s
  | .sigCmp queue => Sys2Proof.Machine.execSigCmp queue s
  | .grant group seq rank fields => Sys2Proof.Machine.execGrant group seq rank fields s
  | .collMessage group seq rank msg => Sys2Proof.Machine.execCollMessage group seq rank msg s
  | .fail group seq rank code => Sys2Proof.Machine.execFail group seq rank code s
  | .collectiveComplete group seq => Sys2Proof.Machine.execCollectiveComplete group seq s
  | .colTimeoutExpiry group seq => Sys2Proof.Machine.execColTimeoutExpiry group seq s
  | .colQTail port queue tail => Sys2Proof.Machine.execColQTail port queue tail s
  | .colQResume port queue => Sys2Proof.Machine.execColQResume port queue s
  | .colQEnable port queue enable => Sys2Proof.Machine.execColQEnable port queue enable s
  | .controlInterval power demands => Sys2Proof.Machine.execControlInterval power demands s
  | .tokenGrant island => Sys2Proof.Machine.execTokenGrant island s
  | .tokenRevoke island => Sys2Proof.Machine.execTokenRevoke island s
  | .tokenAck island => Sys2Proof.Machine.execTokenAck island s
  | .localLimiter island estimate => Sys2Proof.Machine.execLocalLimiter island estimate s
  | .droopDetect island => Sys2Proof.Machine.execDroopDetect island s
  | .droopRecover island => Sys2Proof.Machine.execDroopRecover island s
  | .ivrCurrentLimit island => Sys2Proof.Machine.execIvrCurrentLimit island s
  | .haulDownAssert => Sys2Proof.Machine.execHaulDownAssert s
  | .haulDownRelease => Sys2Proof.Machine.execHaulDownRelease s
  | .haulDownForce force lowNow => Sys2Proof.Machine.execHaulDownForce force lowNow s
  | .haulDownRecompute dividers => Sys2Proof.Machine.execHaulDownRecompute dividers s
  | .capWrite fast watts => Sys2Proof.Machine.execCapWrite fast watts s
  | .phasePoWrite phase point => Sys2Proof.Machine.execPhasePoWrite phase point s
  | .sensorSample temps => Sys2Proof.Machine.execSensorSample temps s
  | .tripRecordDone => Sys2Proof.Machine.execTripRecordDone s
  | .suspectClear sensor marked => Sys2Proof.Machine.execSuspectClear sensor marked s
  | .energyInterval measured used leaks => Sys2Proof.Machine.execEnergyInterval measured used leaks s
  | .bondWearSample canvas => Sys2Proof.Machine.execBondWearSample canvas s
  | .enroll req => Sys2Proof.Machine.execEnroll req s
  | .revoke req => Sys2Proof.Machine.execRevoke req s
  | .saltChange req => Sys2Proof.Machine.execSaltChange req s
  | .clearTamper req => Sys2Proof.Machine.execClearTamper req s
  | .forceExit req => Sys2Proof.Machine.execForceExit req s
  | .readCert req => Sys2Proof.Machine.execReadCert req s
  | .jnlRead req => Sys2Proof.Machine.execJnlRead req s
  | .jnlAppend req => Sys2Proof.Machine.execJnlAppend req s
  | .jnlCompact req => Sys2Proof.Machine.execJnlCompact req s
  | .fwWrite req flashOk => Sys2Proof.Machine.execFwWrite req flashOk s
  | .fwActivate req flashOk => Sys2Proof.Machine.execFwActivate req flashOk s
  | .fwCommitSvn req => Sys2Proof.Machine.execFwCommitSvn req s
  | .mbxCommandEnd => Sys2Proof.Machine.execMbxCommandEnd s
  | .getVersion => Sys2Proof.Machine.execGetVersion s
  | .getCapabilities => Sys2Proof.Machine.execGetCapabilities s
  | .negotiateAlgorithms => Sys2Proof.Machine.execNegotiateAlgorithms s
  | .getDigests => Sys2Proof.Machine.execGetDigests s
  | .getCertificate slot offset length => Sys2Proof.Machine.execGetCertificate slot offset length s
  | .challenge slot nonce => Sys2Proof.Machine.execChallenge slot nonce s
  | .getMeasurements index nonce => Sys2Proof.Machine.execGetMeasurements index nonce s
  | .keyExchange publicKey => Sys2Proof.Machine.execKeyExchange publicKey s
  | .finish session good => Sys2Proof.Machine.execFinish session good s
  | .endSession session => Sys2Proof.Machine.execEndSession session s
  | .heartbeat session => Sys2Proof.Machine.execHeartbeat session s
  | .keyUpdate session => Sys2Proof.Machine.execKeyUpdate session s
  | .spdmUnsupported request => Sys2Proof.Machine.execSpdmUnsupported request s
  | .confEnter session payload => Sys2Proof.Machine.execConfEnter session payload s
  | .confExit session => Sys2Proof.Machine.execConfExit session s
  | .confStatus session => Sys2Proof.Machine.execConfStatus session s
  | .exitDrained => Sys2Proof.Machine.execExitDrained s
  | .exitZeroDone => Sys2Proof.Machine.execExitZeroDone s
  | .enterZeroDone => Sys2Proof.Machine.execEnterZeroDone s
  | .tdispExit => Sys2Proof.Machine.execTdispExit s
  | .tamperDetect cause value absentFor => Sys2Proof.Machine.execTamperDetect cause value absentFor s
  | .gessoScrubOp canvas upsets => Sys2Proof.Machine.execGessoScrubOp canvas upsets s
  | .glazeScrubOp canvas line sector upsets lapEnd => Sys2Proof.Machine.execGlazeScrubOp canvas line sector upsets lapEnd s
  | .retirePage canvas layer channel bank page => Sys2Proof.Machine.execRetirePage canvas layer channel bank page s
  | .retirePageDone canvas upsets => Sys2Proof.Machine.execRetirePageDone canvas upsets s
  | .bankRetireRequest canvas channel mask => Sys2Proof.Machine.execBankRetireRequest canvas channel mask s
  | .partFaultClear part data => Sys2Proof.Machine.execPartFaultClear part data s
  | .streamStall canvas stream => Sys2Proof.Machine.execStreamStall canvas stream s
  | .vcStall spar link vc => Sys2Proof.Machine.execVcStall spar link vc s
  | .coatPartStall id => Sys2Proof.Machine.execCoatPartStall id s
  | .inDoubtStall id => Sys2Proof.Machine.execInDoubtStall id s
  | .islandStall island held => Sys2Proof.Machine.execIslandStall island held s
  | .fillSlotStall canvas line => Sys2Proof.Machine.execFillSlotStall canvas line s
  | .bar2Read port offset len tag => Sys2Proof.Machine.execBar2Read port offset len tag s
  | .bar2Write port offset data => Sys2Proof.Machine.execBar2Write port offset data s
  | .hwinCompletion id data => Sys2Proof.Machine.execHwinCompletion id data s
  | .hwinTimeout id => Sys2Proof.Machine.execHwinTimeout id s
  | .doorbell port offset op => Sys2Proof.Machine.execDoorbell port offset op s
  | .doorbellTailWritten queue => Sys2Proof.Machine.execDoorbellTailWritten queue s
  | .queCtlWrite port queue data => Sys2Proof.Machine.execQueCtlWrite port queue data s
  | .eoi => Sys2Proof.Machine.execEoi s
  | .intReevaluate => Sys2Proof.Machine.execIntReevaluate s
  | .intPropagate => Sys2Proof.Machine.execIntPropagate s
  | .flr => Sys2Proof.Machine.execFlr s
  | .pwrgdRise strap pwdisA pwdisB => Sys2Proof.Machine.execPwrgdRise strap pwdisA pwdisB s
  | .pwrgdFall torn => Sys2Proof.Machine.execPwrgdFall torn s
  | .supplyOutOfRange torn => Sys2Proof.Machine.execSupplyOutOfRange torn s
  | .perstFall torn => Sys2Proof.Machine.execPerstFall torn s
  | .perstRise => Sys2Proof.Machine.execPerstRise s
  | .hostReset => Sys2Proof.Machine.execHostReset s
  | .canvasReset canvas => Sys2Proof.Machine.execCanvasReset canvas s
  | .fwImageVerify => Sys2Proof.Machine.execFwImageVerify s
  | .sketchbookOpened => Sys2Proof.Machine.execSketchbookOpened s
  | .canvasesUp failed => Sys2Proof.Machine.execCanvasesUp failed s
  | .bootScrubDone => Sys2Proof.Machine.execBootScrubDone s
  | .recordProgramDone good => Sys2Proof.Machine.execRecordProgramDone good s
  | .recordRetry good => Sys2Proof.Machine.execRecordRetry good s
  | .compactionCommit => Sys2Proof.Machine.execCompactionCommit s
  | .thermalRecordClear => Sys2Proof.Machine.execThermalRecordClear s
  | .pwdisAssert channelB => Sys2Proof.Machine.execPwdisAssert channelB s
  | .pwdisDeassert channelB => Sys2Proof.Machine.execPwdisDeassert channelB s
  | .discrepancyTimeout => Sys2Proof.Machine.execDiscrepancyTimeout s
  | .restartTimer => Sys2Proof.Machine.execRestartTimer s
  | .discrepancyClear => Sys2Proof.Machine.execDiscrepancyClear s
  | .lampCheck lamp low => Sys2Proof.Machine.execLampCheck lamp low s
  | .lampTestFlash lamp low => Sys2Proof.Machine.execLampTestFlash lamp low s
  | .lmpCtlWrite lamp data => Sys2Proof.Machine.execLmpCtlWrite lamp data s
  | .symbolLockLost canvas => Sys2Proof.Machine.execSymbolLockLost canvas s
  | .skipSet canvas dir slip => Sys2Proof.Machine.execSkipSet canvas dir slip s
  | .illegalInstruction th word => Sys2Proof.Machine.execIllegalInstruction th word s
  | .rowOpReserved canvas queue => Sys2Proof.Machine.execRowOpReserved canvas queue s
  | .dmaOpReserved channel => Sys2Proof.Machine.execDmaOpReserved channel s
  | .collectiveOpReserved queue => Sys2Proof.Machine.execCollectiveOpReserved queue s
  | .secBadCmd opcode req => Sys2Proof.Machine.execSecBadCmd opcode req s
  | .primerApplyDone => Sys2Proof.Machine.execPrimerApplyDone s
  | .alwaysOnReset => Sys2Proof.Machine.execAlwaysOnReset s
  | .jtagInstruction code => Sys2Proof.Machine.execJtagInstruction code s
  | .trstNChange high => Sys2Proof.Machine.execTrstNChange high s
  | .ideKmRequest session => Sys2Proof.Machine.execIdeKmRequest session s
  | .tdispRequest session message => Sys2Proof.Machine.execTdispRequest session message s

end Sys2Proof.Machine
end

