-- ==== Sys2Proof/Machine/Package.lean ====
section
/-! DEFINITION. The package and its figures (chapters 17, 18 and 20): the lands and the signal of each, the supply limits, the
identity of the PCIe function and the failure budget. No command reads or changes them; they stand beside the machine. -/

namespace Sys2Proof.Machine

/-! ### Lands (R589 to R594) -/

/-- The regions of the land grid. -/
inductive LandRegion where
  | west | east | north | south | hub | sideband
  | canvas (c : Nat)
deriving DecidableEq, Repr

/-- The region of the land at X and Y, 1 to 106 each: the first of the table that takes it (R590). -/
def landRegion (x y : Nat) : LandRegion :=
  if x ≤ 8 then .west
  else if 99 ≤ x then .east
  else if y ≤ 8 then .north
  else if 99 ≤ y then .south
  else if 39 ≤ x ∧ x ≤ 68 ∧ 39 ≤ y ∧ y ≤ 68 then .hub
  else if 44 ≤ x ∧ x ≤ 63 ∧ 93 ≤ y then .sideband
  else if y ≤ 53 then (if x ≤ 53 then .canvas 0 else .canvas 1)
  else (if x ≤ 53 then .canvas 3 else .canvas 2)

/-- The power groups of VDDIN; 4 is the hub's. -/
abbrev SupplyGroup := Nat

/-- The ports whose lanes leave the package: spar ports 0 to 7, and PCIe. -/
inductive LanePort where
  | spar (p : Nat)
  | pcie
deriving DecidableEq, Repr

/-- What a land carries. -/
inductive LandSignal where
  | vss
  | vddin (g : SupplyGroup)
  | vddaSds
  | vddhSds
  | vddio
  | vbat
  | lane (port : LanePort) (tx : Bool) (lane : Nat) (positive : Bool)
  | vddinSense (g : SupplyGroup) (positive : Bool)
  | refclk (positive : Bool)
  | signal (name : String)
deriving DecidableEq, Repr

/-- The spans of a band: the port and the first position (the table before R592). -/
def bandSpans : LandRegion → List (LanePort × Nat)
  | .west => [(.spar 0, 16), (.spar 1, 64)]
  | .east => [(.spar 2, 16), (.spar 3, 64)]
  | .north => [(.spar 4, 16), (.spar 5, 64)]
  | .south => [(.spar 6, 9), (.pcie, 40), (.spar 7, 71)]
  | .hub => []
  | .sideband => []
  | .canvas _ => []

/-- The depth of a land in its band, 1 at the package edge, and its position along the band. -/
def bandPlace (r : LandRegion) (x y : Nat) : Nat × Nat :=
  match r with
  | .west => (x, y)
  | .east => (107 - x, y)
  | .north => (y, x)
  | .south => (107 - y, x)
  | .hub => (0, 0)
  | .sideband => (0, 0)
  | .canvas _ => (0, 0)

/-- The land at an offset of a span and a depth (R592). -/
def spanLand (port : LanePort) (o depth : Nat) : LandSignal :=
  if o = 0 ∨ o = 1 ∨ o = 26 ∨ o = 27 then (if depth ≤ 6 then .vddaSds else .vddhSds)
  else
    let k := (o - 2) / 3
    let j := (o - 2) % 3
    if j = 2 ∨ depth % 2 = 1 then .vss
    else .lane port (decide (depth ≤ 4)) (if depth = 2 ∨ depth = 6 then k else 8 + k) (j == 0)

/-- A band land (R592). -/
def bandLand (r : LandRegion) (x y : Nat) : LandSignal :=
  let p := bandPlace r x y
  match (bandSpans r).find? (fun s => decide (s.2 ≤ p.2) && decide (p.2 < s.2 + 28)) with
  | some s => spanLand s.1 (p.2 - s.2) p.1
  | none => .vss

/-- The signals of rows Y094 and Y096 of the sideband region, from X044 on. -/
def sidebandRow : Nat → List String
  | 94 => ["XSPI_DQ[0]", "XSPI_DQ[1]", "XSPI_DQ[2]", "XSPI_DQ[3]", "XSPI_DQ[4]", "XSPI_DQ[5]", "XSPI_DQ[6]", "XSPI_DQ[7]", "XSPI_DQS",
      "XSPI_CLK", "XSPI_CS_N", "XSPI_RESET_N"]
  | 96 => ["SMB_CLK", "SMB_DAT", "ADDR[0]", "ADDR[1]", "ADDR[2]", "TCK", "TMS", "TDI", "TDO", "TRST_N", "INT_N", "THERMTRIP_N",
      "HAUL_DOWN_N", "PWDIS_A_N", "PWDIS_B_N", "LAMP_LOCATE", "LAMP_FAULT", "PWRGD", "PERST_N"]
  | _ => []

/-- A land of the sideband region. -/
def sidebandLand (x y : Nat) : LandSignal :=
  if y = 93 then (if x % 2 = 0 then .vddio else .vss)
  else if y = 97 then
    if x ≤ 53 then .vddinSense ((x - 44) / 2) (x % 2 == 0)
    else if x = 55 then .refclk true
    else if x = 56 then .refclk false
    else .vss
  else if y = 96 ∧ x = 63 then .vbat
  else
    match (sidebandRow y)[x - 44]? with
    | some n => .signal n
    | none => .vss

/-- What the land at X and Y carries (R590 to R592 and the sideband table). -/
def landSignal (x y : Nat) : LandSignal :=
  match landRegion x y with
  | .hub => if (x + y) % 2 = 0 then .vddin 4 else .vss
  | .canvas c => if (x + y) % 2 = 0 then .vddin c else .vss
  | .sideband => sidebandLand x y
  | r => bandLand r x y

/-- The centre of a land from the west and north edges of the substrate, in tenths of a millimetre (R589). -/
def landCentre (x y : Nat) : Nat × Nat := (25 + 10 * (x - 1), 25 + 10 * (y - 1))

/-! ### Supplies (R595 to R597, R599, R616) -/

/-- The supply rails. -/
inductive Rail where
  | vddin | vddaSds | vddhSds | vddio | vbat
deriving DecidableEq, Repr

/-- The operating range of a rail in millivolts (R595). -/
def railRange : Rail → Nat × Nat
  | .vddin => (1746, 1854)
  | .vddaSds => (882, 918)
  | .vddhSds => (1164, 1236)
  | .vddio => (1710, 1890)
  | .vbat => (2500, 3600)

/-- The limits of a rail in millivolts beyond which the device may be damaged (R616). -/
def railLimit : Rail → Int × Int
  | .vddin => (-300, 2100)
  | .vddaSds => (-300, 1050)
  | .vddhSds => (-300, 1400)
  | .vddio => (-300, 2100)
  | .vbat => (-300, 4000)

/-- Whether a rail is in its operating range. -/
def railGood (r : Rail) (mv : Nat) : Bool := decide ((railRange r).1 ≤ mv) && decide (mv ≤ (railRange r).2)

/-- The sustained current of VDDIN in milliamperes that a board must supply for a cap in watts (R596). -/
def boardCurrent (watts : Nat) : Nat := (watts * 1000000 + 1745) / 1746

/-- The largest cap in watts that a board rated to a sustained current in amperes supports (R596, whose own figure for 2,000 A is
rounded down to 3,490 W). -/
def boardCap (amps : Nat) : Nat := amps * 1746 / 1000

/-- The most that a VDDIN land carries, in milliamperes (R597). -/
def landCurrent : Nat := 1000

/-- What the device draws at most from VDDIN while PWRGD is low, and during a stop, in amperes (R599, R608). -/
def idleCurrent (stopped : Bool) : Nat := if stopped then 200 else 5

/-- The reference clock in hertz (R601). -/
def refclkHz : Nat := 100000000

/-- Thermal resistance limits in millionths of a degree Celsius per watt: junction to lid, and lid to coolant (R617). -/
def thermalResistance : Nat × Nat := (4000, 8000)

/-! ### The PCIe function (R536, R537, R539) -/

/-- Configuration space: vendor, device and class code (R537); the revision is the stepping code of GLB_ID. -/
def pcieIds : Nat × Nat × Nat := (0x1F4B, 0x4800, 0x120000)

/-- The revision id (R537). -/
def State.pcieRevision (s : State) : Nat := s.rdN GLB_ID.STEP_LETTER 0 * 16 + s.rdN GLB_ID.STEP_DIGIT 0

/-- The sizes of the BARs in bytes and whether each is prefetchable (R539). -/
def barSize : Nat → Option (Nat × Bool)
  | 0 => some (64 * 2 ^ 20, false)
  | 2 => some (256 * 2 ^ 30, true)
  | 4 => some (16 * 2 ^ 20, false)
  | _ => none

/-- Max Payload Size values that the function supports (R536). -/
def maxPayloads : List Nat := [128, 256, 512]

/-- Max Read Request Size values that the function supports (R536). -/
def maxReadRequests : List Nat := [128, 256, 512, 1024, 2048, 4096]

/-! ### The failure budget (R533, R534) -/

/-- What counts as an interrupting failure (R533). -/
inductive Interrupting where
  | partitionFault | canvasLost | sparDown | deviceStopped
deriving DecidableEq, Repr

/-- The budget of each part in failures per 10^9 hours (R534): gesso, compute, links, glaze, power, other. -/
def failureBudget : List Nat := [9000, 7000, 6000, 3000, 3000, 2000]

/-- The budget of the device. -/
def failureTotal : Nat := failureBudget.sum

/-- The time within which bring-up reaches READY, in microseconds (R570): MiB of firmware, MiB of sketchbook, the zeroing time,
whether the warm key is derived again and whether an exit is pending. -/
def readyWithin (firmwareMiB journalMiB zeroUs : Nat) (rederive exit : Bool) : Nat :=
  30000 + 2700 * (firmwareMiB + journalMiB) + zeroUs + 20000 + (if rederive then 80000 else 0) + (if exit then 10000 else 0)

end Sys2Proof.Machine
end

