-- ==== Sys2Proof/WellFormed.lean ====
section
/-! DEFINITION. Well-formed commands: the ranges of the operands that name an object of the device (the table of
numbers after R3, and the tables of the chapters). -/

namespace Sys2Proof

/-- A canvas (0 to 3). -/
def canvasOk (x : Nat) : Bool := decide (x < 4)

/-- A panel (0 to 1,023). -/
def panelOk (x : Nat) : Bool := decide (x < 1024)

/-- A thread of a panel (0 to 7). -/
def panelThreadOk (x : Nat) : Bool := decide (x < 8)

/-- An island (0 to 143). -/
def islandOk (x : Nat) : Bool := decide (x < 144)

/-- A spar port (0 to 7). -/
def sparPortOk (x : Nat) : Bool := decide (x < 8)

/-- A partition (0 to 255). -/
def partOk (x : Nat) : Bool := decide (x < 256)

/-- A mailbox (0 to 4,095). -/
def mailboxOk (x : Nat) : Bool := decide (x < 4096)

/-- An entry of a train or stream table (0 to 4,095). -/
def tableOk (x : Nat) : Bool := decide (x < 4096)

/-- A tack range (0 to 63). -/
def tackOk (x : Nat) : Bool := decide (x < 64)

/-- A direction of a tether (0 or 1). -/
def dirOk (x : Nat) : Bool := decide (x < 2)

/-- A sensor (0 to 495). -/
def sensorOk (x : Nat) : Bool := decide (x < 496)

/-- A finish unit of a canvas (0 to 15). -/
def unitOk (x : Nat) : Bool := decide (x < 16)

/-- A sequencer core of a canvas (0 to 15). -/
def coreOk (x : Nat) : Bool := decide (x < 16)

/-- A sequencer thread (R200). -/
def seqThreadOk (x : SeqThread) : Bool := decide (x.canvas < 4) && decide (x.core < 16) && decide (x.thread < 32)

/-- A line of a canvas (25 bits). -/
def lineOk (x : Nat) : Bool := decide (x < 33554432)

/-- A sector of a line (0 to 7). -/
def sectorOk (x : Nat) : Bool := decide (x < 8)

/-- A DMA channel (0 to 319). -/
def dmaChannelOk (x : Nat) : Bool := decide (x < 320)

/-- A DMA engine (0 to 3 the canvases, 4 the hub). -/
def engineOk (x : Nat) : Bool := decide (x < 5)

/-- A row or finish queue of a canvas (0 to 64, 64 the system queue). -/
def canvasQueueOk (x : Nat) : Bool := decide (x < 65)

/-- A coat or collective queue (0 to 256, 256 the system queue). -/
def hubQueueOk (x : Nat) : Bool := decide (x < 257)

/-- A client queue (0 to 4,095). -/
def clientQueueOk (x : Nat) : Bool := decide (x < 4096)

/-- A register number of a sequencer instruction (6 bits). -/
def registerOk (x : Nat) : Bool := decide (x < 64)

/-- A device coordinate (R4). -/
def coordOk (x : Nat) : Bool := decide (x < 65536)

/-- A coat id (10 bits). -/
def coatIdOk (x : Nat) : Bool := decide (x < 1024)

/-- A virtual channel (3 bits). -/
def vcOk (x : Nat) : Bool := decide (x < 8)

/-- An offset in BAR0 (64 MiB). -/
def barOk (x : Nat) : Bool := decide (x < 67108864)

/-- A gesso channel of a canvas (0 to 31). -/
def channelOk (x : Nat) : Bool := decide (x < 32)

/-- A gesso channel within a layer (0 to 7). -/
def layerChannelOk (x : Nat) : Bool := decide (x < 8)

/-- A gesso layer (0 to 3). -/
def layerOk (x : Nat) : Bool := decide (x < 4)

/-- A bank of a channel (0 to 31). -/
def bankOk (x : Nat) : Bool := decide (x < 32)

/-- A bank of a canvas (0 to 1,023). -/
def canvasBankOk (x : Nat) : Bool := decide (x < 1024)

/-- A page of a bank (10 bits). -/
def pageOk (x : Nat) : Bool := decide (x < 1024)

/-- A lamp (0 or 1). -/
def lampOk (x : Nat) : Bool := decide (x < 2)

/-- A phase (0 to 7). -/
def phaseOk (x : Nat) : Bool := decide (x < 8)

/-- An operating point (0 to 7). -/
def pointOk (x : Nat) : Bool := decide (x < 8)

/-- An input of the spar crossbar (0 to 7 ports, 8 local). -/
def inputOk (x : Nat) : Bool := decide (x < 9)

/-- A set of lanes of a direction of a spar port (16 bits). -/
def lanesOk (x : Nat) : Bool := decide (x < 65536)

/-- A sample of the 496 sensors. -/
def sampleOk (x : List Int) : Bool := decide (x.length = 496)

/-- A memory request: a DPA of 40 bits and at least one byte. -/
def requestOk (x : MemReq) : Bool := decide (x.dpa < 1099511627776) && decide (x.len > 0)

/-- A read-only cache of a panel: 0 strokes, 1 constants, 2 descriptors. -/
def cacheOk (x : Nat) : Bool := decide (x < 3)

/-- An opcode of the RTP mailbox (8 bits). -/
def opcodeOk (x : Nat) : Bool := decide (x < 256)

/-- A spar flit (256 bytes). -/
def sparFlitOk (x : List Byte) : Bool := decide (x.length = 256)

/-- Whether every operand that names an object names one that exists. -/
def Instr.wf (i : Instr) : Bool :=
  match i with
  | .registerWrite _ addr _ _ => barOk addr
  | .woWriteReleased addr => barOk addr
  | .readLowHalf _ addr => barOk addr
  | .readHighHalf _ addr => barOk addr
  | .writeHighHalf _ addr _ => barOk addr
  | .writeLowHalf _ addr _ _ => barOk addr
  | .eightByteAccess _ addr _ _ => barOk addr
  | .sleep island => islandOk island
  | .wake island => islandOk island
  | .islandDrained island => islandOk island
  | .islandReady island => islandOk island
  | .wakeChainEnd canvas => canvasOk canvas
  | .gessoRezeroDone canvas => canvasOk canvas
  | .gatePacket _ _ vc _ _ => vcOk vc
  | .packetRetry _ => true
  | .capacityUpdate => true
  | .strokeFetchDone panel thread _ => panelOk panel && panelThreadOk thread
  | .strokeIssue panel _ => panelOk panel
  | .mmaNew _ => true
  | .mmaAdd _ => true
  | .vecAdd _ => true
  | .vecSub _ => true
  | .vecMul _ => true
  | .vecFma _ => true
  | .vecMax _ => true
  | .vecMin _ => true
  | .vecAbs _ => true
  | .vecCmpgt _ => true
  | .vecExp2 _ => true
  | .vecLog2 _ => true
  | .vecRcp _ => true
  | .vecRsqrt _ => true
  | .vecTanh _ => true
  | .vecCopy _ => true
  | .finVecSqrt canvas queue _ unit => canvasOk canvas && canvasQueueOk queue && unitOk unit
  | .finVecDiv canvas queue _ unit => canvasOk canvas && canvasQueueOk queue && unitOk unit
  | .redSum _ => true
  | .redMax _ => true
  | .redMin _ => true
  | .redSumsq _ => true
  | .redSoftmaxStep _ => true
  | .cvt _ => true
  | .movCopy _ => true
  | .movSend _ => true
  | .movRecv _ => true
  | .movLoad _ => true
  | .movStore _ => true
  | .movAddl _ => true
  | .movTload _ => true
  | .tokSignal _ => true
  | .tokFree _ => true
  | .tokWait _ => true
  | .tokJump _ => true
  | .tokLoop _ => true
  | .tokSetcnt _ => true
  | .tokSetbase _ => true
  | .tokSetdesc _ => true
  | .tokSetstep _ => true
  | .tokLoadstep _ => true
  | .tokFence _ => true
  | .tokNotify _ => true
  | .tokHalt _ => true
  | .gather _ => true
  | .scatter _ => true
  | .scatterAdd _ => true
  | .unitStart panel _ => panelOk panel
  | .strokeComplete _ => true
  | .threadEnable panel thread => panelOk panel && panelThreadOk thread
  | .threadDisable panel thread => panelOk panel && panelThreadOk thread
  | .panelDrain panel => panelOk panel
  | .launch canvas entry => canvasOk canvas && tableOk entry
  | .launchThreadsStart canvas => canvasOk canvas
  | .stop canvas entry => canvasOk canvas && tableOk entry
  | .trainStateChange canvas entry => canvasOk canvas && tableOk entry
  | .linkedPropagation canvas entry => canvasOk canvas && tableOk entry
  | .streamUnitLand canvas stream => canvasOk canvas && tableOk stream
  | .streamCreditReturn canvas stream => canvasOk canvas && tableOk stream
  | .load => true
  | .loadChecksDone => true
  | .applyDone => true
  | .aluAdd th rd ra rb => seqThreadOk th && registerOk rd && registerOk ra && registerOk rb
  | .aluSub th rd ra rb => seqThreadOk th && registerOk rd && registerOk ra && registerOk rb
  | .aluAnd th rd ra rb => seqThreadOk th && registerOk rd && registerOk ra && registerOk rb
  | .aluOr th rd ra rb => seqThreadOk th && registerOk rd && registerOk ra && registerOk rb
  | .aluXor th rd ra rb => seqThreadOk th && registerOk rd && registerOk ra && registerOk rb
  | .aluAndn th rd ra rb => seqThreadOk th && registerOk rd && registerOk ra && registerOk rb
  | .aluShl th rd ra rb => seqThreadOk th && registerOk rd && registerOk ra && registerOk rb
  | .aluShr th rd ra rb => seqThreadOk th && registerOk rd && registerOk ra && registerOk rb
  | .aluSra th rd ra rb => seqThreadOk th && registerOk rd && registerOk ra && registerOk rb
  | .aluSlt th rd ra rb => seqThreadOk th && registerOk rd && registerOk ra && registerOk rb
  | .aluSltu th rd ra rb => seqThreadOk th && registerOk rd && registerOk ra && registerOk rb
  | .aluMin th rd ra rb => seqThreadOk th && registerOk rd && registerOk ra && registerOk rb
  | .aluMax th rd ra rb => seqThreadOk th && registerOk rd && registerOk ra && registerOk rb
  | .aluMinu th rd ra rb => seqThreadOk th && registerOk rd && registerOk ra && registerOk rb
  | .aluMaxu th rd ra rb => seqThreadOk th && registerOk rd && registerOk ra && registerOk rb
  | .aluMul th rd ra rb => seqThreadOk th && registerOk rd && registerOk ra && registerOk rb
  | .aluMulhu th rd ra rb => seqThreadOk th && registerOk rd && registerOk ra && registerOk rb
  | .aluMulh th rd ra rb => seqThreadOk th && registerOk rd && registerOk ra && registerOk rb
  | .aluPopc th rd ra rb => seqThreadOk th && registerOk rd && registerOk ra && registerOk rb
  | .aluClz th rd ra rb => seqThreadOk th && registerOk rd && registerOk ra && registerOk rb
  | .aluCtz th rd ra rb => seqThreadOk th && registerOk rd && registerOk ra && registerOk rb
  | .addi th rd ra _ => seqThreadOk th && registerOk rd && registerOk ra
  | .andi th rd ra _ => seqThreadOk th && registerOk rd && registerOk ra
  | .ori th rd ra _ => seqThreadOk th && registerOk rd && registerOk ra
  | .xori th rd ra _ => seqThreadOk th && registerOk rd && registerOk ra
  | .shli th rd ra _ => seqThreadOk th && registerOk rd && registerOk ra
  | .shri th rd ra _ => seqThreadOk th && registerOk rd && registerOk ra
  | .srai th rd ra _ => seqThreadOk th && registerOk rd && registerOk ra
  | .slti th rd ra _ => seqThreadOk th && registerOk rd && registerOk ra
  | .sltiu th rd ra _ => seqThreadOk th && registerOk rd && registerOk ra
  | .movlo th rd _ => seqThreadOk th && registerOk rd
  | .movhi th rd _ => seqThreadOk th && registerOk rd
  | .ld8 th rd ra _ _ => seqThreadOk th && registerOk rd && registerOk ra
  | .ld16 th rd ra _ _ => seqThreadOk th && registerOk rd && registerOk ra
  | .ld32 th rd ra _ _ => seqThreadOk th && registerOk rd && registerOk ra
  | .ld64 th rd ra _ _ => seqThreadOk th && registerOk rd && registerOk ra
  | .ld32s th rd ra _ _ => seqThreadOk th && registerOk rd && registerOk ra
  | .ldnc th rd ra _ => seqThreadOk th && registerOk rd && registerOk ra
  | .pf th ra _ _ => seqThreadOk th && registerOk ra
  | .st8 th rs ra _ => seqThreadOk th && registerOk rs && registerOk ra
  | .st16 th rs ra _ => seqThreadOk th && registerOk rs && registerOk ra
  | .st32 th rs ra _ => seqThreadOk th && registerOk rs && registerOk ra
  | .st64 th rs ra _ => seqThreadOk th && registerOk rs && registerOk ra
  | .amoAdd th rd ra rb _ => seqThreadOk th && registerOk rd && registerOk ra && registerOk rb
  | .amoSwap th rd ra rb _ => seqThreadOk th && registerOk rd && registerOk ra && registerOk rb
  | .amoCas th rd ra rb _ => seqThreadOk th && registerOk rd && registerOk ra && registerOk rb
  | .amoMaxu th rd ra rb _ => seqThreadOk th && registerOk rd && registerOk ra && registerOk rb
  | .beq th ra rb _ _ => seqThreadOk th && registerOk ra && registerOk rb
  | .bne th ra rb _ _ => seqThreadOk th && registerOk ra && registerOk rb
  | .blt th ra rb _ _ => seqThreadOk th && registerOk ra && registerOk rb
  | .bge th ra rb _ _ => seqThreadOk th && registerOk ra && registerOk rb
  | .bltu th ra rb _ _ => seqThreadOk th && registerOk ra && registerOk rb
  | .bgeu th ra rb _ _ => seqThreadOk th && registerOk ra && registerOk rb
  | .jal th rd _ _ => seqThreadOk th && registerOk rd
  | .jalr th rd ra _ _ => seqThreadOk th && registerOk rd && registerOk ra
  | .fence th _ _ => seqThreadOk th
  | .csrr th rd _ => seqThreadOk th && registerOk rd
  | .csrw th ra _ => seqThreadOk th && registerOk ra
  | .mbxwait th rd ra _ => seqThreadOk th && registerOk rd && registerOk ra
  | .mbxpost th ra rb => seqThreadOk th && registerOk ra && registerOk rb
  | .trainLaunch th ra => seqThreadOk th && registerOk ra
  | .trainStop th ra => seqThreadOk th && registerOk ra
  | .dmapost th rd ra rb => seqThreadOk th && registerOk rd && registerOk ra && registerOk rb
  | .pnlgo th rd ra rb => seqThreadOk th && registerOk rd && registerOk ra && registerOk rb
  | .yield th => seqThreadOk th
  | .halt th => seqThreadOk th
  | .threadSwitch canvas core => canvasOk canvas && coreOk core
  | .seqWaitEnd th => seqThreadOk th
  | .seqEnable th => seqThreadOk th
  | .seqDisable th => seqThreadOk th
  | .mailboxPost mbx _ => mailboxOk mbx
  | .mbxPostRegister mbx _ => mailboxOk mbx
  | .mailboxDeliver mbx => mailboxOk mbx
  | .fillSlotGrant canvas => canvasOk canvas
  | .fillDelivery canvas line _ => canvasOk canvas && lineOk line
  | .sliceRead req _ => requestOk req
  | .sliceWholeWrite req _ => requestOk req
  | .slicePartialWrite req _ => requestOk req
  | .sliceAtomic req _ _ _ => requestOk req
  | .addToLineFp32 req _ => requestOk req
  | .addToLineEx96 req _ => requestOk req
  | .turnRead req _ => requestOk req
  | .writebackDone canvas line => canvasOk canvas && lineOk line
  | .writebackRetry canvas line => canvasOk canvas && lineOk line
  | .flushWriteBack canvas _ => canvasOk canvas
  | .flushInvalidate canvas _ => canvasOk canvas
  | .flushDone canvas => canvasOk canvas
  | .roInv canvas => canvasOk canvas
  | .roInvDone canvas => canvasOk canvas
  | .roFillDone panel cache _ => panelOk panel && cacheOk cache
  | .tackRangeWrite canvas entry _ => canvasOk canvas && tackOk entry
  | .gessoRefresh canvas bank => canvasOk canvas && canvasBankOk bank
  | .rowCopy canvas queue => canvasOk canvas && canvasQueueOk queue
  | .rowFill canvas queue => canvasOk canvas && canvasQueueOk queue
  | .rowZero canvas queue => canvasOk canvas && canvasQueueOk queue
  | .rowAnd canvas queue => canvasOk canvas && canvasQueueOk queue
  | .rowOr canvas queue => canvasOk canvas && canvasQueueOk queue
  | .rowXor canvas queue => canvasOk canvas && canvasQueueOk queue
  | .rowAndn canvas queue => canvasOk canvas && canvasQueueOk queue
  | .rowXnor canvas queue => canvasOk canvas && canvasQueueOk queue
  | .rowNot canvas queue => canvasOk canvas && canvasQueueOk queue
  | .rowSelect canvas queue => canvasOk canvas && canvasQueueOk queue
  | .rowOpDispatch canvas queue _ => canvasOk canvas && canvasQueueOk queue
  | .rowOpPerformed canvas queue _ _ _ => canvasOk canvas && canvasQueueOk queue
  | .rowQTail _ canvas queue _ => canvasOk canvas && canvasQueueOk queue
  | .rowQResume _ canvas queue => canvasOk canvas && canvasQueueOk queue
  | .rowQEnable _ canvas queue _ => canvasOk canvas && canvasQueueOk queue
  | .finAdamw canvas queue _ => canvasOk canvas && canvasQueueOk queue
  | .finSignmom canvas queue _ => canvasOk canvas && canvasQueueOk queue
  | .finOrtho canvas queue _ => canvasOk canvas && canvasQueueOk queue
  | .finKron canvas queue _ => canvasOk canvas && canvasQueueOk queue
  | .finUser canvas queue _ unit _ => canvasOk canvas && canvasQueueOk queue && unitOk unit
  | .finClear canvas queue _ => canvasOk canvas && canvasQueueOk queue
  | .finSign canvas queue _ => canvasOk canvas && canvasQueueOk queue
  | .finExport canvas queue _ => canvasOk canvas && canvasQueueOk queue
  | .finAdopt canvas queue _ => canvasOk canvas && canvasQueueOk queue
  | .finTaskDispatch canvas => canvasOk canvas
  | .finTaskComplete canvas queue _ => canvasOk canvas && canvasQueueOk queue
  | .finStepWrite _ part _ => partOk part
  | .finQTail _ canvas queue _ => canvasOk canvas && canvasQueueOk queue
  | .finQResume _ canvas queue => canvasOk canvas && canvasQueueOk queue
  | .finQEnable _ canvas queue _ => canvasOk canvas && canvasQueueOk queue
  | .coatStart queue => hubQueueOk queue
  | .prepare coord _ => coordOk coord
  | .lockGrant id => coatIdOk id
  | .coatPrepared id => coatIdOk id
  | .vote device _ _ => coordOk device
  | .commit device _ => coordOk device
  | .abort device _ _ => coordOk device
  | .coatApply id => coatIdOk id
  | .ack device _ => coordOk device
  | .ackWaitExpiry id => coatIdOk id
  | .wound _ => true
  | .query device _ => coordOk device
  | .outcome _ _ _ => true
  | .queryTimer id => coatIdOk id
  | .coatTimeout id => coatIdOk id
  | .prepareDiscard _ => true
  | .coatCmdAbort id => coatIdOk id
  | .resolveCommit id => coatIdOk id
  | .resolveAbort id => coatIdOk id
  | .coatQTail _ queue _ => hubQueueOk queue
  | .coatQResume _ queue => hubQueueOk queue
  | .coatQEnable _ queue _ => hubQueueOk queue
  | .dmaCopy channel => dmaChannelOk channel
  | .dmaAdd channel => dmaChannelOk channel
  | .dmaTurn channel => dmaChannelOk channel
  | .burstIssue engine => engineOk engine
  | .dmaResponse channel _ _ _ => dmaChannelOk channel
  | .dmaRequestTimeout channel _ _ => dmaChannelOk channel
  | .dmaReadbackDone channel _ _ => dmaChannelOk channel
  | .remoteRequest req _ => requestOk req
  | .dmaResumeRetry _ channel => dmaChannelOk channel
  | .dmaResumeSkip _ channel => dmaChannelOk channel
  | .dmaStop _ channel => dmaChannelOk channel
  | .dmaEnable _ channel _ => dmaChannelOk channel
  | .dmaTailWrite _ channel _ => dmaChannelOk channel
  | .dmaOwnerWrite _ channel _ => dmaChannelOk channel
  | .tetherData canvas dir _ _ => canvasOk canvas && dirOk dir
  | .tetherNull canvas dir _ => canvasOk canvas && dirOk dir
  | .tetherNak canvas dir _ => canvasOk canvas && dirOk dir
  | .tetherHeartbeat canvas dir _ => canvasOk canvas && dirOk dir
  | .tetherReplayTimeout canvas dir => canvasOk canvas && dirOk dir
  | .tetherRetrainDone canvas _ _ => canvasOk canvas
  | .heartbeatSend canvas dir _ => canvasOk canvas && dirOk dir
  | .hbTimeout canvas => canvasOk canvas
  | .canvasHbLoss canvas => canvasOk canvas
  | .tthRetrain canvas => canvasOk canvas
  | .tthRecover canvas => canvasOk canvas
  | .creditLeakCheck _ _ vc => vcOk vc
  | .hubPacket _ _ => true
  | .sparData port flit _ => sparPortOk port && sparFlitOk flit
  | .sparNull port flit _ => sparPortOk port && sparFlitOk flit
  | .sparNak port flit _ => sparPortOk port && sparFlitOk flit
  | .sparTrain port coord _ _ _ _ => sparPortOk port && coordOk coord
  | .sparBoot port flit => sparPortOk port && sparFlitOk flit
  | .keyMsg port _ => sparPortOk port
  | .sparReplayTimeout port => sparPortOk port
  | .sparRxIdle port => sparPortOk port
  | .sparEnable port => sparPortOk port
  | .sparDisable port => sparPortOk port
  | .sparTrainingDone port rx tx => sparPortOk port && lanesOk rx && lanesOk tx
  | .sparRetrain port => sparPortOk port
  | .sparRetrainDone port rx tx => sparPortOk port && lanesOk rx && lanesOk tx
  | .rekey port => sparPortOk port
  | .rekeyDue port => sparPortOk port
  | .keyHold port => sparPortOk port
  | .keyExhaust port => sparPortOk port
  | .keyAgreeTimeout port => sparPortOk port
  | .transitForward input vc _ => inputOk input && vcOk vc
  | .ageTick input vc => inputOk input && vcOk vc
  | .allReduce queue => hubQueueOk queue
  | .reduceScatter queue => hubQueueOk queue
  | .allGather queue => hubQueueOk queue
  | .broadcast queue => hubQueueOk queue
  | .pass queue => hubQueueOk queue
  | .permute queue => hubQueueOk queue
  | .sigCmp queue => hubQueueOk queue
  | .grant _ _ _ _ => true
  | .collMessage _ _ _ _ => true
  | .fail _ _ _ _ => true
  | .collectiveComplete _ _ => true
  | .colTimeoutExpiry _ _ => true
  | .colQTail _ queue _ => hubQueueOk queue
  | .colQResume _ queue => hubQueueOk queue
  | .colQEnable _ queue _ => hubQueueOk queue
  | .controlInterval _ _ => true
  | .tokenGrant island => islandOk island
  | .tokenRevoke island => islandOk island
  | .tokenAck island => islandOk island
  | .localLimiter island _ => islandOk island
  | .droopDetect island => islandOk island
  | .droopRecover island => islandOk island
  | .ivrCurrentLimit island => islandOk island
  | .haulDownAssert => true
  | .haulDownRelease => true
  | .haulDownForce _ _ => true
  | .haulDownRecompute _ => true
  | .capWrite _ _ => true
  | .phasePoWrite phase point => phaseOk phase && pointOk point
  | .sensorSample temps => sampleOk temps
  | .tripRecordDone => true
  | .suspectClear sensor _ => sensorOk sensor
  | .energyInterval _ _ _ => true
  | .bondWearSample canvas => canvasOk canvas
  | .enroll _ => true
  | .revoke _ => true
  | .saltChange _ => true
  | .clearTamper _ => true
  | .forceExit _ => true
  | .readCert _ => true
  | .jnlRead _ => true
  | .jnlAppend _ => true
  | .jnlCompact _ => true
  | .fwWrite _ _ => true
  | .fwActivate _ _ => true
  | .fwCommitSvn _ => true
  | .mbxCommandEnd => true
  | .getVersion => true
  | .getCapabilities => true
  | .negotiateAlgorithms => true
  | .getDigests => true
  | .getCertificate _ _ _ => true
  | .challenge _ _ => true
  | .getMeasurements _ _ => true
  | .keyExchange _ => true
  | .finish _ _ => true
  | .endSession _ => true
  | .heartbeat _ => true
  | .keyUpdate _ => true
  | .spdmUnsupported _ => true
  | .confEnter _ _ => true
  | .confExit _ => true
  | .confStatus _ => true
  | .exitDrained => true
  | .exitZeroDone => true
  | .enterZeroDone => true
  | .tdispExit => true
  | .tamperDetect _ _ _ => true
  | .gessoScrubOp canvas _ => canvasOk canvas
  | .glazeScrubOp canvas line sector _ _ => canvasOk canvas && lineOk line && sectorOk sector
  | .retirePage canvas layer channel bank page => canvasOk canvas && layerOk layer && layerChannelOk channel && bankOk bank && pageOk page
  | .retirePageDone canvas _ => canvasOk canvas
  | .bankRetireRequest canvas channel _ => canvasOk canvas && channelOk channel
  | .partFaultClear part _ => partOk part
  | .streamStall canvas stream => canvasOk canvas && tableOk stream
  | .vcStall _ _ vc => vcOk vc
  | .coatPartStall id => coatIdOk id
  | .inDoubtStall id => coatIdOk id
  | .islandStall island _ => islandOk island
  | .fillSlotStall canvas line => canvasOk canvas && lineOk line
  | .bar2Read _ _ _ _ => true
  | .bar2Write _ _ _ => true
  | .hwinCompletion _ _ => true
  | .hwinTimeout _ => true
  | .doorbell _ _ _ => true
  | .doorbellTailWritten queue => clientQueueOk queue
  | .queCtlWrite _ queue _ => clientQueueOk queue
  | .eoi => true
  | .intReevaluate => true
  | .intPropagate => true
  | .flr => true
  | .pwrgdRise _ _ _ => true
  | .pwrgdFall _ => true
  | .supplyOutOfRange _ => true
  | .perstFall _ => true
  | .perstRise => true
  | .hostReset => true
  | .canvasReset canvas => canvasOk canvas
  | .fwImageVerify => true
  | .sketchbookOpened => true
  | .canvasesUp _ => true
  | .bootScrubDone => true
  | .recordProgramDone _ => true
  | .recordRetry _ => true
  | .compactionCommit => true
  | .thermalRecordClear => true
  | .pwdisAssert _ => true
  | .pwdisDeassert _ => true
  | .discrepancyTimeout => true
  | .restartTimer => true
  | .discrepancyClear => true
  | .lampCheck lamp _ => lampOk lamp
  | .lampTestFlash lamp _ => lampOk lamp
  | .lmpCtlWrite lamp _ => lampOk lamp
  | .symbolLockLost canvas => canvasOk canvas
  | .skipSet canvas dir _ => canvasOk canvas && dirOk dir
  | .illegalInstruction th _ => seqThreadOk th
  | .rowOpReserved canvas queue => canvasOk canvas && canvasQueueOk queue
  | .dmaOpReserved channel => dmaChannelOk channel
  | .collectiveOpReserved queue => hubQueueOk queue
  | .secBadCmd opcode _ => opcodeOk opcode
  | .primerApplyDone => true
  | .alwaysOnReset => true
  | .jtagInstruction _ => true
  | .trstNChange _ => true
  | .ideKmRequest _ => true
  | .tdispRequest _ _ => true

end Sys2Proof
end

