-- ==== Sys2Proof/Safety.lean ====
section
/-! DEFINITION. What claims about the device speak of: states that some run reaches, and the invariant of the model's
tables. -/

namespace Sys2Proof.Machine

/-- The invariant of the memory and register tables: memory is in its canonical form, so that equal memories are equal
data, and the register fields are listed in strictly rising order, so that each has one value. -/
def State.Tidy (s : State) : Prop := Memory.wf s.mem = true ∧ Tab.sorted s.regs = true

/-- The states that a run from a state reaches. -/
inductive Reaches : State → State → Prop where
  | here (s : State) : Reaches s s
  | step (s t u : State) : Reaches s t → Sys2Proof.Machine.step t = .next u → Reaches s u

end Sys2Proof.Machine
end

