-- ==== Sys2Proof/Certificates/Slice0/Obligations.lean ====
section
/-! DEFINITION. The statements for the provers, each with the notions it is said in (namespace Sys2Proof.Claim). -/

open Sys2Proof Sys2Proof.Machine

namespace Sys2Proof.Claim

/-- Every register field but those of the listed keys reads as before. -/
def RegsSame (s t : State) (ks : List Nat) : Prop :=
  ∀ (f : RegField) (i : Nat), f.key i ∉ ks → t.rd f i = s.rd f i

end Sys2Proof.Claim


/-! ### Ports and register classes, islands and gates (chapters 00 and 01) -/

namespace Sys2Proof.Claim

/-- An aligned 32-bit access from a port reaches the register at an offset (R541, R542). -/
abbrev PortReaches (s : State) (port : Port) (addr : Nat) (h : RegHit) : Prop :=
  addr % 4 = 0 ∧ s.hostBarred port = false ∧ inBuffer addr = false ∧ regAt addr = some h ∧ s.reaches h.reg h.index = true

/-- A register whose fields have no effect but that of their class, and no command. -/
abbrev PlainReg (d : RegDef) : Prop :=
  (∀ f ∈ d.fields, f ∉ effectFields ∧ f.cls ≠ .wo ∧ f ≠ GLB_ISL_STATE.STATE) ∧ (∀ x ∈ d.lost, x.1 ∉ d.fields) ∧
    d.base ≠ GLB_PART_FAULT.PRIMARY.reg ∧ d.base ≠ CNV_GLZ_TACK_RANGE.ENABLE.reg ∧ d.base ≠ LMP_CTL.DUTY.reg

/-- A field's value after a write of v to it by its class, with the hardware's update of the same cycle (the class table, R10). -/
def classValue (s : State) (f : RegField) (i : Nat) (v : Val) (hw : Option Val) : Val :=
  match f.cls with
  | .rw => v
  | .rwh => v
  | .ro => hw.getD (s.rd f i)
  | .w1c => f.fit ((s.rd f i &&& ~~~v) ||| hw.getD 0)
  | .w1s => f.fit ((s.rd f i &&& ~~~hw.getD 0) ||| v)
  | .count => f.fit (v + hw.getD 0)
  | .wo => s.rd f i
  | .rwl => if s.on SPR_COORD.LOCK 0 then s.rd f i else v

/-- The hardware's update of a field in a write. -/
def updateOf (hw : List HwUpdate) (f : RegField) : Option Val := (hw.find? (fun x => x.lo == f.lo)).map (fun x => f.fit x.value)

/-- A register written whole: every field takes its value by its class, and nothing else changes but LOCKED_WRITE and the block's
HW_UPDATE_LOST, which a software write that beats a hardware update sets. -/
def WrittenByClass (s t : State) (h : RegHit) (v : Val) (hw : List HwUpdate) : Prop :=
  (∀ f ∈ h.reg.fields, t.rd f h.index = classValue s f h.index (f.cut v) (updateOf hw f)) ∧
  (∀ f ∈ h.reg.fields, f.cls = .rwh → (updateOf hw f).isSome = true → ∀ l n, h.reg.lost = some (l, n) → t.on l (h.index / n) = true) ∧
  ((∃ f ∈ h.reg.fields, f.cls = .rwl) → s.on SPR_COORD.LOCK 0 = true → t.on SPR_GLB_STATUS.LOCKED_WRITE 0 = true) ∧
  RegsSame s t (h.reg.fields.map (·.key h.index) ++ SPR_GLB_STATUS.LOCKED_WRITE.key 0 ::
    (match h.reg.lost with | some (l, n) => [l.key (h.index / n)] | none => []))

/-- An access captured in GLB_HOST_ERR with an event of GLB_HOST_STATUS, where the port is the host's. -/
def HostCaught (s t : State) (port : Port) (event : RegField) (source addr : Nat) : Prop :=
  if portHost port = true then
    t.on event 0 = true ∧
    (if s.on GLB_HOST_ERR.VALID 0 = true then t.on GLB_HOST_ERR.OVERRUN 0 = true ∧ t.rd GLB_HOST_ERR.ADDRESS 0 = s.rd GLB_HOST_ERR.ADDRESS 0
      else t.on GLB_HOST_ERR.VALID 0 = true ∧ t.rdN GLB_HOST_ERR.ADDRESS 0 = addr % 2 ^ 40 ∧ t.rdN GLB_HOST_ERR.SOURCE 0 = source % 4) ∧
    t = { s with regs := t.regs, sent := t.sent } ∧
    RegsSame s t [event.key 0, GLB_HOST_ERR.OVERRUN.key 0, GLB_HOST_ERR.VALID.key 0, GLB_HOST_ERR.ADDRESS.key 0,
      GLB_HOST_ERR.SOURCE.key 0, GLB_HOST_ERR.CODE.key 0]
  else t = { s with sent := t.sent }

/-- A 32-bit read of a port, by either row. -/
abbrev PortRead (i : Instr) (port : Port) (addr : Nat) : Prop := i = .readLowHalf port addr ∨ i = .readHighHalf port addr

/-- A 32-bit write of a port, by any row. -/
abbrev PortWrite (i : Instr) (port : Port) (addr : Nat) (w : Word32) (hw : List HwUpdate) : Prop :=
  i = .registerWrite port addr w hw ∨ i = .writeLowHalf port addr w hw ∨ (i = .writeHighHalf port addr w ∧ hw = [])

/-- An island reaches a state, and no other island changes its state. -/
def IslandGoes (s t : State) (i st : Nat) : Prop := t.island i = st ∧ ∀ j, j < 144 → j ≠ i → t.island j = s.island j

end Sys2Proof.Claim

open Sys2Proof.Claim in
/-- The register interface (the class table before R5, R5 to R17, R497, R541, R542): what a port reads and writes of a register, with the
shadow of a 64-bit register's high half on a read and its staging register on a write; 8-byte accesses; misaligned, undefined and
unreachable accesses; writes held off at a command register; and what the host may not write in confidential mode. -/
def Obligations.PortRegisters : Prop :=
  (∀ (s : State) (port : Port) (f : RegField) (i : Nat), (f.cls = .wo → s.fieldSeen port f i = 0) ∧
    (s.conf = false → f.cls ≠ .wo → s.derived f i = none → s.fieldSeen port f i = s.rd f i)) ∧
  (∀ (s : State) (port : Port) (addr : Nat) (i : Instr),
    (PortRead i port addr →
      (s.hostBarred port = true → exec i s = .next (s.send (.unsupported addr))) ∧
      (s.hostBarred port = false → addr % 4 ≠ 0 → ∃ t, exec i s = .next t ∧ HostCaught s t port GLB_HOST_STATUS.BAD_ACCESS 0 addr ∧
        t.sent = s.sent ++ [.portAbort port addr]) ∧
      (s.hostBarred port = false → addr % 4 = 0 → inBuffer addr = false → regAt addr = none →
        exec i s = .next (s.send (.portRead port addr 0))) ∧
      (∀ h, s.hostBarred port = false → addr % 4 = 0 → inBuffer addr = false → regAt addr = some h → s.reaches h.reg h.index = false →
        ∃ t, exec i s = .next t ∧ HostCaught s t port GLB_HOST_STATUS.REG_UNREACHABLE 0 addr ∧ t.sent = s.sent ++ [.portRead port addr 0xFFFFFFFF]) ∧
      (∀ h, PortReaches s port addr h →
        let v := s.regSeen port h.reg h.index
        (h.high = false → h.reg.wide = false → exec i s = .next (s.send (.portRead port addr (BitVec.setWidth 64 (lowHalf v))))) ∧
        (h.high = false → h.reg.wide = true → exec i s =
          .next ((s.setShadow (shadowKey port addr) (some (highHalf v))).send (.portRead port addr (BitVec.setWidth 64 (lowHalf v))))) ∧
        (h.high = true → exec i s = .next ((s.setShadow (shadowKey port (addr - 4)) none).send (.portRead port addr
          (BitVec.setWidth 64 ((Tab.get s.ports.shadow (shadowKey port (addr - 4)) none).getD (highHalf v)))))))) ∧
    (∀ w hw, PortWrite i port addr w hw →
      (s.hostBarred port = true → exec i s = .next s) ∧
      (s.hostBarred port = false → addr % 4 ≠ 0 → ∃ t, exec i s = .next t ∧ HostCaught s t port GLB_HOST_STATUS.BAD_ACCESS 0 addr ∧ t.sent = s.sent) ∧
      (s.hostBarred port = false → addr % 4 = 0 → inBuffer addr = false → regAt addr = none → exec i s = .next s) ∧
      (∀ h, s.hostBarred port = false → addr % 4 = 0 → inBuffer addr = false → regAt addr = some h → s.reaches h.reg h.index = false →
        ∃ t, exec i s = .next t ∧ HostCaught s t port GLB_HOST_STATUS.REG_UNREACHABLE 0 addr ∧ t.sent = s.sent) ∧
      (∀ h, PortReaches s port addr h → h.high = true → exec i s = .next (s.setStaging (shadowKey port (addr - 4)) w)) ∧
      (∀ h, PortReaches s port addr h → h.high = false → s.conf = true → port = .host → s.closedToHost h.reg h.index = true →
        ∃ t, exec i s = .next t ∧ t.on SEC_STATUS.DENIED 0 = true ∧ t = { s with regs := t.regs, ports := t.ports } ∧
          RegsSame s t [SEC_STATUS.DENIED.key 0]) ∧
      (∀ h, PortReaches s port addr h → h.high = false → PlainReg h.reg → ¬ (s.conf = true ∧ port = .host) →
        (h.reg.wide = false → ∃ t, exec i s = .next t ∧ t = { s with regs := t.regs } ∧ WrittenByClass s t h (BitVec.setWidth 64 w) hw) ∧
        (h.reg.wide = true → ∃ t, exec i s = .next t ∧
          t = { (s.setStaging (shadowKey port addr) 0) with regs := t.regs } ∧
          WrittenByClass s t h (ofHalves (Tab.get s.ports.staging (shadowKey port addr) 0) w) hw)))) ∧
  (∀ (s : State) (port : Port) (addr : Nat) (x : BitVec 64) (hw : List HwUpdate), s.hostBarred port = false →
    (addr % 8 ≠ 0 →
      (∃ t, exec (.eightByteAccess port addr none []) s = .next t ∧ HostCaught s t port GLB_HOST_STATUS.BAD_ACCESS 0 addr ∧
        t.sent = s.sent ++ [.portAbort port addr]) ∧
      ∃ t, exec (.eightByteAccess port addr (some x) hw) s = .next t ∧ HostCaught s t port GLB_HOST_STATUS.BAD_ACCESS 0 addr ∧ t.sent = s.sent) ∧
    (∀ h, addr % 8 = 0 → regAt addr = some h → h.reg.wide = true → s.reaches h.reg h.index = true →
      exec (.eightByteAccess port addr none []) s = .next (s.send (.portRead port addr (s.regSeen port h.reg h.index))) ∧
      (PlainReg h.reg → ¬ (s.conf = true ∧ port = .host) → ∃ t, exec (.eightByteAccess port addr (some x) hw) s = .next t ∧
        t = { s with regs := t.regs } ∧ WrittenByClass s t h x hw)) ∧
    (∀ h, addr % 8 = 0 → regAt addr = some h → h.reg.wide = true → s.reaches h.reg h.index = false →
      ∃ t, exec (.eightByteAccess port addr none []) s = .next t ∧ HostCaught s t port GLB_HOST_STATUS.REG_UNREACHABLE 0 addr ∧
        t.sent = s.sent ++ [.portRead port addr (BitVec.allOnes 64)])) ∧
  (∀ (s : State) (addr : Nat) (h : RegHit), regAt addr = some h →
    let f := h.reg.fields.headD GLB_ID.PART_ID
    let q := s.woQueue f h.index
    ((∀ w ∈ s.ports.held, w.reg ≠ f.reg ∨ w.index ≠ h.index) → exec (.woWriteReleased addr) s = .next s) ∧
    (∀ w, s.ports.held.find? (fun w => w.reg == f.reg && w.index == h.index) = some w →
      (if q.length < woLimit f then ∃ t, exec (.woWriteReleased addr) s = .next t ∧ t.woQueue f h.index = q ++ [w.value] ∧
          t.ports.held = s.ports.held.erase w ∧ t = { s with regs := t.regs, ports := t.ports } ∧
          RegsSame s t [GLB_ISL_STATUS.QUEUE_DEPTH.key 0, CNV_STM_STATUS.QUEUE_DEPTH.key h.index]
        else exec (.woWriteReleased addr) s = .next s)))

open Sys2Proof.Claim in
/-- SLEEP, WAKE and the end of CLOSING and WAKING (R26 to R38, R512, R626): which commands are refused, what each does in each state of the
island, the pending bits, the chain of a canvas, and the rezeroing of a canvas whose gesso was lost. -/
def Sys2Proof.Claim.IslandStates : Prop :=
  (∀ (s : State) (i : Nat), i < 144 → s.woQueue GLB_ISL_CMD.ISLAND 0 = [] →
    let barred := s.island i = islFused ∨ s.island i = islLost
    let pe := s.on GLB_ISL_STATE.PENDING_ENABLE i
    let pd := s.on GLB_ISL_STATE.PENDING_DISABLE i
    (barred ∨ s.sleepBarred i = true → ∃ t, exec (.sleep i) s = .next t ∧ t.on GLB_ISL_STATUS.CMD_REFUSED 0 = true ∧
      t = { s with regs := t.regs } ∧ RegsSame s t [GLB_ISL_STATUS.CMD_REFUSED.key 0]) ∧
    (¬ barred → s.sleepBarred i = false →
      (pe = true → ∃ t, exec (.sleep i) s = .next t ∧ t.on GLB_ISL_STATE.PENDING_ENABLE i = false ∧ t = { s with regs := t.regs } ∧
        RegsSame s t [GLB_ISL_STATE.PENDING_ENABLE.key i]) ∧
      (pe = false → s.island i = islActive → ∃ t, exec (.sleep i) s = .next t ∧ t.island i = islClosing ∧ t = { s with regs := t.regs } ∧
        RegsSame s t [GLB_ISL_STATE.STATE.key i]) ∧
      (pe = false → s.island i = islWaking → ∃ t, exec (.sleep i) s = .next t ∧ t.on GLB_ISL_STATE.PENDING_DISABLE i = true ∧
        t = { s with regs := t.regs } ∧ RegsSame s t [GLB_ISL_STATE.PENDING_DISABLE.key i]) ∧
      (pe = false → (s.island i = islAsleep ∨ s.island i = islClosing) → exec (.sleep i) s = .next s)) ∧
    (barred ∨ s.stopBars i = true → ∃ t, exec (.wake i) s = .next t ∧ t.on GLB_ISL_STATUS.CMD_REFUSED 0 = true ∧
      t = { s with regs := t.regs } ∧ RegsSame s t [GLB_ISL_STATUS.CMD_REFUSED.key 0]) ∧
    (¬ barred → s.stopBars i = false →
      (pd = true → ∃ t, exec (.wake i) s = .next t ∧ t.on GLB_ISL_STATE.PENDING_DISABLE i = false ∧ t = { s with regs := t.regs } ∧
        RegsSame s t [GLB_ISL_STATE.PENDING_DISABLE.key i]) ∧
      (pd = false → s.island i = islClosing → ∃ t, exec (.wake i) s = .next t ∧ t.on GLB_ISL_STATE.PENDING_ENABLE i = true ∧
        t = { s with regs := t.regs } ∧ RegsSame s t [GLB_ISL_STATE.PENDING_ENABLE.key i]) ∧
      (pd = false → (s.island i = islActive ∨ s.island i = islWaking) → exec (.wake i) s = .next s) ∧
      (pd = false → s.island i = islAsleep →
        (136 ≤ i → ∃ t, exec (.wake i) s = .next t ∧ t.island i = islWaking ∧ t = { s with regs := t.regs } ∧
          RegsSame s t [GLB_ISL_STATE.STATE.key i, GLB_ISL_STATE.PENDING_ENABLE.key i]) ∧
        (i < 136 → i % 34 < 32 → s.island (tetherIsland (i / 34)) = islActive → Tab.get s.isl.chain (i / 34) none = none →
          ∃ t, exec (.wake i) s = .next t ∧ t.island i = islWaking ∧ t = { s with regs := t.regs } ∧
            RegsSame s t [GLB_ISL_STATE.STATE.key i, GLB_ISL_STATE.PENDING_ENABLE.key i]) ∧
        (i < 136 → i % 34 < 32 → (s.island (tetherIsland (i / 34)) ≠ islActive ∨ (Tab.get s.isl.chain (i / 34) none).isSome = true) →
          ∃ t, exec (.wake i) s = .next t ∧ t.island i = islAsleep ∧ t.on GLB_ISL_STATE.PENDING_ENABLE i = true ∧
            (Tab.get t.isl.chain (i / 34) none).isSome = true ∧ t = { s with regs := t.regs, isl := t.isl, links := t.links })))) ∧
  (∀ (s : State) (i : Nat), i < 144 →
    (s.island i ≠ islClosing ∨ s.drained i = false → exec (.islandDrained i) s = .next s) ∧
    (s.island i = islClosing → s.drained i = true → ∃ t, exec (.islandDrained i) s = .next t ∧
      IslandGoes s t i (if s.on GLB_ISL_STATE.PENDING_ENABLE i then islWaking else islAsleep) ∧ Tab.get t.isl.work i [] = []) ∧
    (s.island i ≠ islWaking → exec (.islandReady i) s = .next s) ∧
    (s.island i = islWaking → ¬ (i < 136 ∧ i % 34 = 33 ∧ s.rdN TTH_STATUS.LINK (i / 34) ≠ 2) → ∃ t, exec (.islandReady i) s = .next t ∧
      t.island i = (if s.on GLB_ISL_STATE.PENDING_DISABLE i then islClosing else islActive) ∧
      t.on GLB_ISL_STATE.PENDING_DISABLE i = false ∧ t.mem = s.mem)) ∧
  (∀ (s : State) (c : Nat), c < 4 →
    let tether := s.island (tetherIsland c)
    ((Tab.get s.isl.chain c none).isSome = true → tether = islActive → Tab.get s.isl.zeroing c false = false →
      ∃ t, exec (.wakeChainEnd c) s = .next t ∧ Tab.get t.isl.chain c none = none ∧ t.mem = s.mem ∧
        (∀ l, l < 34 → s.on GLB_ISL_STATE.PENDING_ENABLE (islandOf c l) = true → s.island (islandOf c l) = islAsleep →
          t.island (islandOf c l) = islWaking ∧ t.on GLB_ISL_STATE.PENDING_ENABLE (islandOf c l) = false)) ∧
    ((Tab.get s.isl.chain c none = none ∨ tether ≠ islActive ∨ Tab.get s.isl.zeroing c false = true) → exec (.wakeChainEnd c) s = .next s) ∧
    (Tab.get s.isl.zeroing c false = true → s.island (stretcherIsland c) = islActive →
      (Tab.get s.isl.chain c none = none ∨ tether = islActive) →
      (∀ l, 22 ≤ l → l < 26 → s.island (islandOf c l) = islActive ∨ s.island (islandOf c l) = islFused) →
      ∃ t, exec (.gessoRezeroDone c) s = .next t ∧ Tab.get t.isl.zeroing c false = false ∧ Tab.get t.isl.gessoLost c false = false ∧
        (∀ l j, l < 0x1800000 → j < 64 → t.cwUnreadable (lineKey c l) j = false) ∧
        (∀ l j, l < 0x1800000 → j < 8 → t.rowSector (lineKey c l) j = List.replicate 256 0) ∧
        (∀ l, l < 0x1800000 → t.rowMeta (lineKey c l) = RowMeta.zeroed) ∧
        (∀ d k l, d ≠ c → d < 4 → k = lineKey d l → l < 0x1800000 → t.rowMeta k = s.rowMeta k)) ∧
    (Tab.get s.isl.zeroing c false = false → exec (.gessoRezeroDone c) s = .next s))

open Sys2Proof.Claim in
/-- Gates (R25, R28, R29, R36, R621) and capacity (R51 to R55): a packet is accepted by an ACTIVE island, ends at once with ISLAND_FUSED or
CANVAS_LOST, or is tried again at the times of R29 and ends with ISLAND_ASLEEP after the last of them; GLB_CAPACITY is computed
from the islands, and an update that alters a field sets CAP_CHANGED. -/
def Sys2Proof.Claim.GatesAndCapacity : Prop :=
  (∀ (s : State) (id dst vc : Nat) (part : Option Nat) (wash : Bool), dst < 144 → id < 2 ^ 32 → Tab.get s.isl.packets id none = none →
    (s.island dst = islActive → ∃ t, exec (.gatePacket id dst vc part wash) s = .next t ∧
      Tab.get t.isl.work dst [] = Tab.get s.isl.work dst [] ++ [⟨id, part, wash⟩] ∧
      t = { s with isl := { s.isl with work := t.isl.work }, sent := s.sent ++ [.packet id 0] }) ∧
    (s.island dst = islFused → exec (.gatePacket id dst vc part wash) s = .next (s.send (.packet id 0x0707))) ∧
    (s.island dst = islLost → exec (.gatePacket id dst vc part wash) s = .next (s.send (.packet id 0x0201))) ∧
    (s.island dst ≠ islActive → s.island dst ≠ islFused → s.island dst ≠ islLost → ∃ t, exec (.gatePacket id dst vc part wash) s = .next t ∧
      Tab.get t.isl.packets id none = some ⟨dst, vc, part, wash, s.now, 0, none⟩ ∧
      t = { s with isl := { s.isl with packets := t.isl.packets }, sent := s.sent ++ [.retryLater id] })) ∧
  (∀ (s : State) (id : Nat) (p : Packet), Tab.get s.isl.packets id none = some p → p.mail = none →
    (s.now < retryDue p.first p.retries → exec (.packetRetry id) s = .next s) ∧
    (retryDue p.first p.retries ≤ s.now →
      (s.island p.dst = islActive → ∃ t, exec (.packetRetry id) s = .next t ∧ Tab.get t.isl.packets id none = none ∧
        Tab.get t.isl.work p.dst [] = Tab.get s.isl.work p.dst [] ++ [⟨id, p.part, p.wash⟩] ∧ t = { s with isl := t.isl, sent := s.sent ++ [.packet id 0] }) ∧
      (∀ code, (s.island p.dst = islFused ∧ code = 0x0707) ∨ (s.island p.dst = islLost ∧ code = 0x0201) ∨
          (s.island p.dst ≠ islActive ∧ s.island p.dst ≠ islFused ∧ s.island p.dst ≠ islLost ∧ 9 ≤ p.retries ∧ code = 0x0701) →
        ∃ t, exec (.packetRetry id) s = .next t ∧ Tab.get t.isl.packets id none = none ∧ t = { s with isl := t.isl, sent := s.sent ++ [.packet id code] }) ∧
      (s.island p.dst ≠ islActive → s.island p.dst ≠ islFused → s.island p.dst ≠ islLost → p.retries < 9 →
        ∃ t, exec (.packetRetry id) s = .next t ∧ Tab.get t.isl.packets id none = some { p with retries := p.retries + 1 } ∧
          t = { s with isl := t.isl, sent := s.sent ++ [.retryLater id] }))) ∧
  (∀ (s : State), ∃ t, exec .capacityUpdate s = .next t ∧ t.rdN GLB_CAPACITY.SERVICE 0 = s.service ∧
    (∀ c, c < 4 → (t.rdN GLB_CAPACITY.CANVAS_AVAIL 0).testBit c = s.available c) ∧
    t.rdN GLB_CAPACITY.PANEL_ISLANDS 0 = ((s.availables.flatMap (fun c => (List.range 16).map (islandOf c))).filter s.works).length ∧
    t.rdN GLB_CAPACITY.GESSO_LAYERS 0 = ((s.availables.flatMap (fun c => [22, 23, 24, 25].map (islandOf c))).filter s.works).length ∧
    ((t.rd GLB_CAPACITY.SERVICE 0 ≠ s.rd GLB_CAPACITY.SERVICE 0 ∨ t.rd GLB_CAPACITY.CANVAS_AVAIL 0 ≠ s.rd GLB_CAPACITY.CANVAS_AVAIL 0) →
      t.on GLB_ISL_STATUS.CAP_CHANGED 0 = true) ∧
    t = { s with regs := t.regs } ∧ RegsSame s t [GLB_CAPACITY.SERVICE.key 0, GLB_CAPACITY.CANVAS_AVAIL.key 0,
      GLB_CAPACITY.PANEL_ISLANDS.key 0, GLB_CAPACITY.GESSO_LAYERS.key 0, GLB_ISL_STATUS.CAP_CHANGED.key 0])

open Sys2Proof.Claim in
/-- Tier 2. The islands of the device: their states, and what gates and capacity do. -/
def Obligations.Islands : Prop := IslandStates ∧ GatesAndCapacity

/-! ### Panels and strokes (chapter 03) -/

namespace Sys2Proof.Claim

/-- The bytes that runs of bits reach in a panel's well, with the mask and the value of each. -/
def reach (s : State) (p : Nat) (runs : List BitRun) : Tab (Nat × Nat) := runBytes (s.regionDpa p) runs

/-- Every well word that runs of bits reach is readable, or is covered whole. -/
def WordsSound (s : State) (p : Nat) (runs : List BitRun) : Prop :=
  ∀ a e, Tab.find (reach s p runs) a = some e →
    wellWordOk s.mem a = true ∨ ∀ j < 8, (Tab.get (reach s p runs) (a / 8 * 8 + j) (0, 0)).1 = 255

/-- Memory after a stroke's result: in every byte that the result reaches its bits are the new ones and the others as before
(R60); every other byte of memory reads as before. -/
def ResultIn (s t : State) (p : Nat) (runs : List BitRun) : Prop :=
  ∀ a, match Tab.find (reach s p runs) a with
    | none => Tab.find t.mem a = Tab.find s.mem a
    | some e => Tab.find t.mem a = some (BitVec.ofNat 8
        ((((Tab.find s.mem a).getD 0).toNat &&& (255 - e.1)) ||| (e.2 &&& e.1)))

/-- What a stroke computes from the well and its own state: its result, or its fault. -/
abbrev Work := Flight → State → Stroke → Except Code StrokeResult

/-- A command that does the work of a started stroke of a class and operation: with a result, the result is written, the
events are kept and nothing else changes; with a fault, the fault is kept and no byte is written (R89, R125). -/
def DoesWork (mk : Nat → Instr) (cls op : Nat) (work : Work) : Prop :=
  ∀ (s : State) (n : Nat) (f : Flight) (st : Stroke), s.flight n = some f → f.cls = cls → strokeOp f.word = op →
    f.done = false → f.start.isSome = true → decodeStroke false f.word = .ok st →
    (∀ r, work f s st = .ok r → WordsSound s f.panel r.runs →
      ∃ t, exec (mk n) s = .next t ∧ t.flight n = some { f with done := true, events := eventBits r.events } ∧
        ResultIn s t f.panel r.runs ∧ (∀ m, m ≠ n → t.flight m = s.flight m) ∧
        t = { s with mem := t.mem, pnl := { s.pnl with flights := t.pnl.flights } }) ∧
    (∀ c, work f s st = .error c →
      ∃ t, exec (mk n) s = .next t ∧ t.flight n = some { f with done := true, fault := some c } ∧
        (∀ m, m ≠ n → t.flight m = s.flight m) ∧ t.mem = s.mem)

end Sys2Proof.Claim

open Sys2Proof.Claim in
/-- The arithmetic strokes (R89, R107 to R117, R125): every MMA, VEC, RED and CVT operation writes exactly the bits of its result
region that its result names, or faults and writes none. -/
def Obligations.ArithmeticStrokes : Prop :=
  DoesWork .mmaNew 0 0 mmaWork ∧ DoesWork .mmaAdd 0 1 mmaWork ∧
  DoesWork .vecAdd 1 0 vecWork ∧ DoesWork .vecSub 1 1 vecWork ∧ DoesWork .vecMul 1 2 vecWork ∧ DoesWork .vecFma 1 3 vecWork ∧
  DoesWork .vecMax 1 4 vecWork ∧ DoesWork .vecMin 1 5 vecWork ∧ DoesWork .vecAbs 1 6 vecWork ∧ DoesWork .vecCmpgt 1 7 vecWork ∧
  DoesWork .vecExp2 1 8 vecWork ∧ DoesWork .vecLog2 1 9 vecWork ∧ DoesWork .vecRcp 1 10 vecWork ∧
  DoesWork .vecRsqrt 1 11 vecWork ∧ DoesWork .vecTanh 1 12 vecWork ∧ DoesWork .vecCopy 1 13 vecWork ∧
  DoesWork .redSum 2 0 redWork ∧ DoesWork .redMax 2 1 redWork ∧ DoesWork .redMin 2 2 redWork ∧ DoesWork .redSumsq 2 3 redWork ∧
  DoesWork .redSoftmaxStep 2 4 redWork ∧ DoesWork .cvt 3 0 cvtWork

namespace Sys2Proof.Claim

/-- A TOK stroke in flight: its operation, on a thread that neither stops nor is halted. -/
def TokReady (s : State) (n op : Nat) (f : Flight) (x : TokFields) : Prop :=
  s.flight n = some f ∧ decodeStroke false f.word = .ok (.tok x) ∧ x.op = op ∧
    (s.pth f.thr).stopping = false ∧ (s.pth f.thr).halted = false

/-- After a TOK stroke: it has left the panel, and memory, trains, sequencers and every other flight are as before. -/
def TokDone (s t : State) (n : Nat) : Prop :=
  t.flight n = none ∧ (∀ m, m ≠ n → t.flight m = s.flight m) ∧ t.mem = s.mem ∧ t.str = s.str

/-- The registers of the stroke's own panel that every TOK stroke may change: the shown state of its threads and DRAIN. -/
def panelKeys (f : Flight) : List Nat :=
  [CNV_PNL_STATUS.THR_RUNNING.key f.panel, CNV_PNL_STATUS.THR_FAULTED.key f.panel, CNV_PNL_STATUS.DRAINED.key f.panel,
    CNV_PNL_CTL.DRAIN.key f.panel]

/-- A TOK stroke that changes one register at most, and the thread's own state as given. -/
def TokDoes (mk : Nat → Instr) (op : Nat) (keys : Flight → TokFields → List Nat) (th : TokFields → Flight → PanelThread → PanelThread)
    (also : State → State → Flight → TokFields → Prop) : Prop :=
  ∀ (s : State) (n : Nat) (f : Flight) (x : TokFields), TokReady s n op f x →
    ∃ t, exec (mk n) s = .next t ∧ TokDone s t n ∧ RegsSame s t (keys f x ++ panelKeys f) ∧ t.pth f.thr = th x f (s.pth f.thr) ∧
      also s t f x

/-- The place that a branch of a stroke goes to, in strokes: IMM[31:0], signed, counted from the stroke itself. -/
def branchTarget (f : Flight) (x : TokFields) : Nat :=
  ((((f.dpa : Int) + 16 * signedOf 32 (x.imm % 2 ^ 32)) % 2 ^ 40).toNat / 16)

end Sys2Proof.Claim

open Sys2Proof.Claim in
/-- The token and control strokes (the TOK table of chapter 03): each takes its effect on its region, its thread or its branch, leaves
the panel in its issue cycle, and changes nothing else of the machine. -/
def Obligations.TokenStrokes : Prop :=
  TokDoes .tokSignal 0 (fun f x => [CNV_PNL_REGION.TOKEN.key (regIx f.panel x.h)]) (fun _ _ th => th)
    (fun _ t f x => t.token f.panel x.h = 2) ∧
  TokDoes .tokFree 1 (fun f x => [CNV_PNL_REGION.TOKEN.key (regIx f.panel x.h)]) (fun _ _ th => th)
    (fun s t f x => t.token f.panel x.h = if s.readers f.panel x.h = 0 then 0 else 3) ∧
  TokDoes .tokWait 2 (fun _ _ => []) (fun _ _ th => th) (fun _ _ _ _ => True) ∧
  TokDoes .tokJump 3 (fun f _ => [CNV_PNL_THR_PC.PC.key f.thr]) (fun _ f th => { th with branch := some f.issue })
    (fun _ t f x => t.rdN CNV_PNL_THR_PC.PC f.thr = branchTarget f x) ∧
  (∀ (s : State) (n : Nat) (f : Flight) (x : TokFields), TokReady s n 4 f x → x.lc < (s.pth f.thr).lc.length →
    ∃ t, exec (.tokLoop n) s = .next t ∧ TokDone s t n ∧
      (t.pth f.thr).lc.getD x.lc 0 = (s.pth f.thr).lc.getD x.lc 0 - 1 ∧
      t.rdN CNV_PNL_THR_PC.PC f.thr =
        if (s.pth f.thr).lc.getD x.lc 0 = 1 then s.rdN CNV_PNL_THR_PC.PC f.thr else branchTarget f x) ∧
  TokDoes .tokSetcnt 5 (fun _ _ => []) (fun x _ th => { th with lc := th.lc.set x.lc (BitVec.ofNat 32 x.imm) }) (fun _ _ _ _ => True) ∧
  TokDoes .tokSetbase 6 (fun _ _ => []) (fun x _ th => { th with ab := th.ab.set x.ab (BitVec.ofNat 40 x.imm) }) (fun _ _ _ _ => True) ∧
  TokDoes .tokSetdesc 7 (fun _ _ => []) (fun x _ th => { th with desc := BitVec.ofNat 40 x.imm }) (fun _ _ _ _ => True) ∧
  TokDoes .tokSetstep 8 (fun f _ => [CNV_PNL_THR_STEP.STEP.key f.thr]) (fun _ _ th => th)
    (fun _ t f x => t.rdN CNV_PNL_THR_STEP.STEP f.thr = x.imm % 2 ^ 32) ∧
  TokDoes .tokLoadstep 9 (fun f _ => [CNV_PNL_THR_STEP.STEP.key f.thr]) (fun _ _ th => th)
    (fun s t f _ => ∀ p, s.panelPart f.panel = some p →
      t.rdN CNV_PNL_THR_STEP.STEP f.thr = s.rdN CNV_FIN_STEP.STEP p % 2 ^ 32) ∧
  TokDoes .tokFence 10 (fun _ _ => []) (fun _ _ th => th) (fun _ _ _ _ => True) ∧
  (∀ (s : State) (n : Nat) (f : Flight) (x : TokFields), TokReady s n 11 f x →
    let m := x.imm / 2 ^ 32 % 4096
    s.island (tetherIsland (m / 1024)) = islActive → (s.box m).words.length < 16 →
    ∃ t, exec (.tokNotify n) s = .next t ∧ TokDone s t n ∧
      (t.box m).words = (s.box m).words ++ [(BitVec.ofNat 32 x.imm, none)]) ∧
  TokDoes .tokHalt 12 (fun f _ => [CNV_PNL_THR_CTL.STATE.key f.thr]) (fun _ _ th => th)
    (fun _ t f _ => t.rdN CNV_PNL_THR_CTL.STATE f.thr = 2)

open Sys2Proof.Claim in
/-- A panel cycle, and the beginning and end of strokes (R91, R95, R96, R101, R102, R124 to R126, R130): the fetch puts the stroke at the
head of its thread; the thread that R102 picks issues; a queued stroke starts; a finished stroke gives its result regions to
readers; threads are enabled and disabled; a panel drains. -/
def Obligations.PanelCycle : Prop :=
  ∀ (s : State) (p : Nat), s.panelUp p = true →
    -- a fetch that hits the panel's instruction cache
    (∀ (t x : Nat) (bs : List Byte), t < 8 → s.thrRuns (8 * p + t) = true → (s.pth (8 * p + t)).head = none → s.tokPending p = false →
      s.panelPart p = some x →
      let d := s.rdN CNV_PNL_THR_PC.PC (8 * p + t) * 16
      s.windowOk x .x d 16 = true → Tab.get s.glz.ro (roKey p 0 d) none = some bs →
      let w := BitVec.ofNat 128 (leField bs (d % 512) 16)
      s.decodeFault p t w = none →
      ∃ u, exec (.strokeFetchDone p t false) s = .next u ∧ (u.pth (8 * p + t)).head = some ⟨d, w, none⟩ ∧
        u = { s with pnl := { s.pnl with threads := u.pnl.threads } } ∧ ∀ q, q ≠ 8 * p + t → u.pth q = s.pth q) ∧
    -- the cycle: at most the one stroke that R102 picks issues, and its PC moves on
    (s.tokPending p = false →
      let b := s.cycleBegin p []
      ∃ u, exec (.strokeIssue p []) s = .next u ∧ Tab.get u.pnl.cycle p 0 = Tab.get s.pnl.cycle p 0 + 1 ∧
        (b.issuePick p = none → u.pnl.next = s.pnl.next ∧ u.rd CNV_PNL_ISSUED.COUNT p = s.rd CNV_PNL_ISSUED.COUNT p) ∧
        (∀ t h st, b.issuePick p = some t → (b.pth (8 * p + t)).head = some h →
          b.fireCheck p t (Tab.get b.pnl.cycle p 0) = .ok st →
          u.pnl.next = s.pnl.next + 1 ∧ u.rd CNV_PNL_ISSUED.COUNT p = s.rd CNV_PNL_ISSUED.COUNT p + 1 ∧
          (∃ f, u.flight s.pnl.next = some f ∧ f.panel = p ∧ f.thread = t ∧ f.dpa = h.dpa ∧ f.word = h.word ∧
            f.issue = Tab.get s.pnl.cycle p 0 + 1 ∧ f.wash = s.thrWash (8 * p + t)) ∧
          (u.pth (8 * p + t)).head = none ∧ u.rdN CNV_PNL_THR_PC.PC (8 * p + t) = (h.dpa / 16 + 1) % 2 ^ 36)) ∧
    -- a queued stroke starts once its unit is free
    (∀ (vector : Bool) (n : Nat) (f : Flight),
      (s.unitFlights p (if vector then .vector else .dab)).find? (fun g => g.2.start.isNone) = some (n, f) →
      ((s.unitFlights p (if vector then .vector else .dab)).all (fun g => g.2.start.isNone || g.2.released)) = true →
      ∃ u, exec (.unitStart p vector) s = .next u ∧ (∃ c, c > f.issue ∧ u.flight n = some { f with start := some c }) ∧
        u = { s with pnl := { s.pnl with flights := u.pnl.flights } }) ∧
    -- ENABLE from 0 to 1 starts the thread from PC; from 1 to 0 it stops, at once with nothing in flight
    (∀ t, t < 8 → s.on CNV_PNL_THR_CTL.ENABLE (8 * p + t) = false →
      ∃ u, exec (.threadEnable p t) s = .next u ∧ u.on CNV_PNL_THR_CTL.ENABLE (8 * p + t) = true ∧
        u.rdN CNV_PNL_THR_CTL.STATE (8 * p + t) = 1 ∧ u.rd CNV_PNL_THR_PC.PC (8 * p + t) = s.rd CNV_PNL_THR_PC.PC (8 * p + t) ∧
        u.mem = s.mem) ∧
    (∀ t, t < 8 → s.on CNV_PNL_THR_CTL.ENABLE (8 * p + t) = true → s.panelFlights p = [] →
      ∃ u, exec (.threadDisable p t) s = .next u ∧ u.on CNV_PNL_THR_CTL.ENABLE (8 * p + t) = false ∧
        u.rdN CNV_PNL_THR_CTL.STATE (8 * p + t) = 0 ∧ u.mem = s.mem) ∧
    -- DRAIN stays while a stroke is in flight, and clears with none
    (∃ u, exec (.panelDrain p) s = .next u ∧ u.on CNV_PNL_CTL.DRAIN p = !(s.panelFlights p).isEmpty ∧
      u.on CNV_PNL_STATUS.DRAINED p = (s.panelFlights p).isEmpty ∧ u.mem = s.mem)

open Sys2Proof.Claim in
/-- The end of a stroke without a fault (R95, R96, R129): it leaves the panel; each result region is READY; each region that it read
and did not write has one reader less, and is FREE where it was RETIRING and has none left; each event that it raised is
counted once; memory is unchanged. -/
def Obligations.StrokeEnds : Prop :=
  ∀ (s : State) (n : Nat) (f : Flight) (st : Stroke), s.flight n = some f → f.done = true → f.fault = none → f.released = false →
    f.panel < 1024 → decodeStroke false f.word = .ok st → (∀ u ∈ st.uses, u.handle < 1024) →
    ∃ t, exec (.strokeComplete n) s = .next t ∧ t.flight n = none ∧ t.mem = s.mem ∧ t.str = s.str ∧
      (∀ u ∈ mergeUses st.uses, u.writes = true → t.token f.panel u.handle = 2) ∧
      (∀ u ∈ mergeUses st.uses, u.reads = true →
        t.readers f.panel u.handle = (s.readers f.panel u.handle - 1) % 16) ∧
      (∀ u ∈ mergeUses st.uses, u.reads = true → u.writes = false →
        t.token f.panel u.handle = if s.token f.panel u.handle = 3 ∧ s.readers f.panel u.handle ≤ 1 then 0 else s.token f.panel u.handle) ∧
      (∀ k (c : RegField), (k, c) ∈ [(0, CNV_PNL_EVT_OVERFLOW.COUNT), (1, CNV_PNL_EVT_NAN_PRODUCED.COUNT),
          (2, CNV_PNL_EVT_NAN_TO_INT.COUNT), (3, CNV_PNL_EVT_INEXACT_GRID.COUNT)] →
        t.rdN c f.panel = if f.events.getLsbD k then (s.rdN c f.panel + 1) % 2 ^ 32 else s.rdN c f.panel)

/-! ### Moving data: MOV and GATHER strokes, streams (chapters 03 and 04) -/

namespace Sys2Proof.Claim

/-- A region holds a run of bytes from its first byte on, each byte in a word that the run covers whole or that was readable
before (R510). -/
def RegionHolds (s t : State) (p h : Nat) (bs : List Byte) : Prop :=
  ∀ i (b : Byte), bs[i]? = some b → i / 8 * 8 + 8 ≤ bs.length ∨ wellWordOk s.mem (s.regionDpa p h 0 + i) = true →
    Tab.find t.mem (s.regionDpa p h 0 + i) = some b

/-- Memory outside a region's first n bytes reads as before. -/
def OutsideRegion (s t : State) (p h n : Nat) : Prop :=
  ∀ a, a < s.regionDpa p h 0 ∨ s.regionDpa p h 0 + n ≤ a → Tab.find t.mem a = Tab.find s.mem a

/-- A MOV stroke in flight whose work is to be done. -/
def MovReady (s : State) (n op : Nat) (f : Flight) (x : MovFields) : Prop :=
  s.flight n = some f ∧ f.done = false ∧ decodeStroke false f.word = .ok (.mov x) ∧ x.op = op

/-- A GATHER stroke in flight whose work is to be done. -/
def GatherReady (s : State) (n op : Nat) (f : Flight) (x : GatherFields) : Prop :=
  s.flight n = some f ∧ f.done = false ∧ decodeStroke false f.word = .ok (.gather x) ∧ x.op = op

/-- A command that reads memory into a region: when its reads end without an error, the region holds the bytes read, memory
outside it is as the reads left it, and the stroke is done. -/
def ReadsInto (i : Instr) (s : State) (n : Nat) (f : Flight) (h : Nat) (acc : Acc) : Prop :=
  ∀ bs u, acc = .done 0 bs u →
    ∃ t, exec i s = .next t ∧ RegionHolds u t f.panel h bs ∧ OutsideRegion u t f.panel h bs.length ∧
      t.flight n = some { f with done := true }

/-- A command that writes memory from a region: when its writes end without an error, memory is as they left it and the stroke is
done; with an error the stroke keeps its code. -/
def WritesFrom (i : Instr) (s : State) (n : Nat) (f : Flight) (res : Option (Code × State)) : Prop :=
  ∀ c u, res = some (c, u) →
    ∃ t, exec i s = .next t ∧ t.mem = u.mem ∧ t.glz = u.glz ∧
      t.flight n = some (if c = 0 then { f with done := true } else { f with done := true, fault := some c })

end Sys2Proof.Claim

open Sys2Proof.Claim in
/-- The MOV strokes between wells and memory (R119, R235, R240, R249): COPY moves the bytes of its source region; LOAD and TLOAD land
what their reads return, row after row, a LOAD from a CONST destination what the constant cache returns; STORE and ADDL hand their rows to memory. -/
def Sys2Proof.Claim.MoveStrokes : Prop :=
  ∀ (s : State) (n : Nat) (f : Flight) (x : MovFields),
    (MovReady s n 0 f x → ∀ bs, s.wellRead (s.regionDpa f.panel x.hs 0) (x.rows * x.rlen) = some bs →
      ∃ t, exec (.movCopy n) s = .next t ∧ RegionHolds s t f.panel x.hd bs ∧ OutsideRegion s t f.panel x.hd bs.length ∧
        t.flight n = some { f with done := true } ∧ t = { s with mem := t.mem, pnl := { s.pnl with flights := t.pnl.flights } }) ∧
    (MovReady s n 3 f x → ReadsInto (.movLoad n) s n f x.hd
      (s.loadPieces n f (movPieces x (s.flightBase f x.ab) 256))) ∧
    (MovReady s n 6 f x → ReadsInto (.movTload n) s n f x.hd
      (s.readPieces (s.flightAgent n f) (.turn ((fmtOf x.fmt).bits / 8)) (movPieces x (s.flightBase f x.ab) 2048))) ∧
    (MovReady s n 4 f x → WritesFrom (.movStore n) s n f
      (s.writePieces (s.flightAgent n f) f.panel x.hs .write (movPieces x (s.flightBase f x.ab) 256))) ∧
    (MovReady s n 5 f x → WritesFrom (.movAddl n) s n f
      (s.writePieces (s.flightAgent n f) f.panel x.hs (if fmtOf x.fmt = .exact96 then .addEx96 else .addFp32)
        (movPieces x (s.flightBase f x.ab) 256)))

open Sys2Proof.Claim in
/-- GATHER, SCATTER and SCATTER_ADD (R121, R122): with every index inside the windows, GATHER packs the rows that its indices name into its
region, and SCATTER and SCATTER_ADD hand their rows to memory in ascending position. -/
def Sys2Proof.Claim.GatherStrokes : Prop :=
  ∀ (s : State) (n : Nat) (f : Flight) (x : GatherFields),
    (GatherReady s n 0 f x → ∀ ps bs u, s.gatherPieces f x .r = (ps, 0) →
      s.readPieces (s.flightAgent n f) .read ps = .done 0 bs u →
      ∃ t, exec (.gather n) s = .next t ∧ RegionHolds u t f.panel x.hd bs ∧ OutsideRegion u t f.panel x.hd bs.length ∧
        t.flight n = some { f with done := true }) ∧
    (GatherReady s n 1 f x → ∀ ps, s.gatherPieces f x .w = (ps, 0) →
      WritesFrom (.scatter n) s n f (s.writePieces (s.flightAgent n f) f.panel x.hd .write ps)) ∧
    (GatherReady s n 2 f x → ∀ ps, s.gatherPieces f x .a = (ps, 0) →
      WritesFrom (.scatterAdd n) s n f (s.writePieces (s.flightAgent n f) f.panel x.hd .addFp32 ps)) ∧
    (∀ ps e, e ≠ 0 → GatherReady s n 0 f x → s.gatherPieces f x .r = (ps, e) → ∀ bs u,
      s.readPieces (s.flightAgent n f) .read ps = .done 0 bs u →
      ∃ t, exec (.gather n) s = .next t ∧ t.flight n = some { f with done := true, fault := some e } ∧ t.mem = u.mem)

open Sys2Proof.Claim in
/-- Streams (R145 to R147, R156): a SEND's units enter the fabric behind those that are in it; a unit lands at its receiver in order,
and a waiting RECV takes it; a RECV takes landed units in order and each returns a credit; a returned credit raises the
sender's count by one. -/
def Obligations.StreamUnits : Prop :=
  ∀ (s : State),
    (∀ (n : Nat) (f : Flight) (x : MovFields) (bs : List Byte), MovReady s n 1 f x →
      s.wellRead (s.regionDpa f.panel x.hs 0) (x.rows * x.rlen) = some bs →
      s.rdN CNV_STM_STREAM.STATE (f.panel / 256 * 4096 + x.stream) = 1 →
      let k := s.recvKey (f.panel / 256) x.stream
      ∃ t, exec (.movSend n) s = .next t ∧ t.stream k = { s.stream k with flying := (s.stream k).flying ++ unitsOf bs } ∧
        (∀ j, j ≠ k → t.stream j = s.stream j) ∧ t.flight n = some { f with done := true } ∧ t.regs = s.regs ∧ t.mem = s.mem) ∧
    (∀ (n : Nat) (f : Flight) (x : MovFields), MovReady s n 2 f x →
      let k := f.panel / 256 * 4096 + x.stream
      s.rdN CNV_STM_STREAM.STATE k = 1 → (s.recvs (f.panel / 256) x.stream).head? = some (n, f) →
      let m := min (s.stream k).landed.length (movUnits x - f.moved)
      ∃ t, exec (.movRecv n) s = .next t ∧
        t.stream k = { s.stream k with landed := (s.stream k).landed.drop m, returns := (s.stream k).returns + m } ∧
        t.flight n = some { f with moved := f.moved + m, done := decide (f.moved + m = movUnits x) } ∧ t.regs = s.regs) ∧
    (∀ (c id : Nat) (u : BitVec 2048) (us : List (BitVec 2048)),
      let k := s.recvKey c id
      (s.stream k).flying = u :: us → s.rdN CNV_STM_STREAM.STATE k = 1 → s.recvs (k / 4096) (k % 4096) = [] →
      ∃ t, exec (.streamUnitLand c id) s = .next t ∧
        t.stream k = { s.stream k with flying := us, landed := (s.stream k).landed ++ [u], count := (s.stream k).count + 1 } ∧
        (∀ j, j ≠ k → t.stream j = s.stream j) ∧ t.regs = s.regs ∧ t.mem = s.mem) ∧
    (∀ (c id : Nat), let k := s.recvKey c id
      (s.stream k).returns > 0 → s.rdN CNV_STM_STREAM.STATE (s.sendKey k) = 1 →
      ∃ t, exec (.streamCreditReturn c id) s = .next t ∧
        t.stream k = { s.stream k with returns := (s.stream k).returns - 1 } ∧
        t.rdN CNV_STM_STREAM.CREDITS (s.sendKey k) = (s.rdN CNV_STM_STREAM.CREDITS (s.sendKey k) + 1) % 2 ^ 14 ∧
        RegsSame s t [CNV_STM_STREAM.CREDITS.key (s.sendKey k)] ∧ t.mem = s.mem)

/-! ### Trains (chapter 04) -/

open Sys2Proof.Claim in
/-- Train commands (R137, R138, R140 to R143, R158): a LAUNCH that R140 does not refuse resets the streams below the entry and starts the
threads of its leaves only after that; a refused one sets CMD_REFUSED and changes no thread; a STOP clears ENABLE of every leaf
thread; the shown state is the derived one. -/
def Obligations.TrainCommands : Prop :=
  ∀ (s : State) (c e : Nat), c < 4 → e < 4096 →
    let k := c * 4096 + e
    let refused := (s.train k).isNone = true ∨ (∃ q ∈ s.trainThreads k, s.rdN CNV_PNL_THR_CTL.STATE q ≠ 0) ∨
      ∃ p ∈ s.trainParts k, s.faulted p (s.trainWash k) = true
    (s.woQueue CNV_STM_TRN_CMD.OP c = [] → s.launching c = none →
      (¬ refused → ∃ t, exec (.launch c e) s = .next t ∧ t.launching c = some ⟨e⟩ ∧ t.rdN CNV_STM_STATUS.QUEUE_DEPTH c = 1 ∧
        (∀ q, t.rd CNV_PNL_THR_CTL.ENABLE q = s.rd CNV_PNL_THR_CTL.ENABLE q) ∧
        (∀ x r, (x, some r) ∈ s.str.sketch.streams → x < 16384 → r.wash = s.trainWash k →
          r.sender ∈ (s.trainThreads k).map (· / 8) → r.receiver ∈ (s.trainThreads k).map (· / 8) →
          t.rdN CNV_STM_STREAM.STATE x = 1 ∧ t.rd CNV_STM_STREAM.CREDITS x = BitVec.setWidth 64 (BitVec.setWidth 14 (s.rd CNV_STM_STREAM.LAND x)) ∧
          t.stream x = StreamState.empty) ∧ t.mem = s.mem ∧ t.pnl = s.pnl) ∧
      (refused → ∃ t, exec (.launch c e) s = .next t ∧ t.on CNV_STM_STATUS.CMD_REFUSED c = true ∧
        RegsSame s t [CNV_STM_STATUS.CMD_REFUSED.key c, CNV_STM_STATUS.QUEUE_DEPTH.key c] ∧ t.str = s.str ∧ t.pnl = s.pnl ∧ t.mem = s.mem) ∧
      ((s.train k).isSome = true → (∀ q ∈ s.trainThreads k, q < 8192 ∧ s.on CNV_PNL_THR_CTL.ENABLE q = true) → s.pnl.flights = [] →
        ∃ t, exec (.stop c e) s = .next t ∧ (∀ q ∈ s.trainThreads k, t.on CNV_PNL_THR_CTL.ENABLE q = false ∧
          t.rdN CNV_PNL_THR_CTL.STATE q = 0) ∧ t.str = s.str ∧ t.mem = s.mem) ∧
      ((s.train k).isNone = true → ∃ t, exec (.stop c e) s = .next t ∧ t.on CNV_STM_STATUS.CMD_REFUSED c = true ∧ t.pnl = s.pnl)) ∧
    (∀ l, s.launching c = some l → (∀ x ∈ s.leaves (c * 4096 + l.entry), ∀ r ∈ s.leafStarts x, s.panelUp r.panel = true ∧ r.thread < 8 ∧
        s.on CNV_PNL_THR_CTL.ENABLE r.thr = false) →
      ((s.leaves (c * 4096 + l.entry)).flatMap (fun x => (s.leafStarts x).map (·.thr))).Nodup →
      ∃ t, exec (.launchThreadsStart c) s = .next t ∧ t.launching c = none ∧
        (∀ x ∈ s.leaves (c * 4096 + l.entry), ∀ r ∈ s.leafStarts x,
          t.on CNV_PNL_THR_CTL.ENABLE r.thr = true ∧ t.rdN CNV_PNL_THR_CTL.STATE r.thr = 1 ∧
          t.rdN CNV_PNL_THR_PC.PC r.thr = r.pc / 16 % 2 ^ 36 ∧ t.on CNV_PNL_THR_CTL.CLASS r.thr = x.2.wash ∧
          t.rdN CNV_PNL_THR_CTL.PHASE r.thr = x.2.phase % 8) ∧ t.mem = s.mem) ∧
    (∃ t, exec (.trainStateChange c e) s = .next t ∧ t.rdN CNV_STM_TRN_STATUS.STATE k = s.trainState k ∧
      RegsSame s t [CNV_STM_TRN_STATUS.STATE.key k, CNV_STM_TRN_STATUS.CODE.key k, CNV_STM_STATUS.TRAIN_FAULT.key c] ∧ t.mem = s.mem) ∧
    (∀ x, s.train k = some x → x.linked = true → x.parent = none → s.rdN CNV_STM_TRN_STATUS.STATE k = 4 →
      (∃ p ∈ s.trainParts k, s.faulted p x.wash = true) →
      ∃ t, exec (.linkedPropagation c e) s = .next t ∧ ∀ p ∈ s.trainParts k, p < 256 → t.faulted p x.wash = true)

open Sys2Proof.Claim in
/-- Tier 2. The move and gather strokes. -/
def Obligations.DataStrokes : Prop := MoveStrokes ∧ GatherStrokes


/-! ### The loader (chapter 05) -/

namespace Sys2Proof.Claim

/-- A load fails (R188): the primer is to be applied, and the code is kept for the report. -/
def LoadFails (s t : State) (code : Code) : Prop :=
  t.str.loader.phase = .primer ∧ t.str.loader.code = code ∧ t.rdN SKT_STATUS.STATE 0 = 4 ∧ t.mem = s.mem ∧ t.glz = s.glz ∧
    t.str.sketch = s.str.sketch

/-- A configuration is resident (R166, R180, R198, R299, R527): its streams OPEN and no other, its channels owned and no other, every committed
step 0, every partition fault clear, no patch. -/
def Configured (t : State) (k : Sketch) : Prop :=
  t.str.sketch = k ∧ t.str.loader.phase = .idle ∧
  (∀ e, e < 4294967296 → t.rdN CNV_STM_STREAM.STATE e = (if (Tab.get k.streams e none).isSome then 1 else 0)) ∧
  (∀ ch, ch < 320 → t.on DMA_CH_OWNER.OWNED ch = (match Tab.get k.dma ch none with | some d => d.1 | none => false)) ∧
  (∀ p, p < 256 → t.rdN CNV_FIN_STEP.STEP p = 0 ∧ t.on GLB_PART_FAULT.PRIMARY p = false ∧ t.on GLB_PART_FAULT.WASH p = false) ∧
  t.rdN SKT_PATCH_COUNT.COUNT 0 = 0 ∧ t.on SKT_STATUS.PATCHED 0 = false

/-- The outcome of the checks on an image that checks 1 to 3 have passed (R184, checks 4 to 8, R193, R194). -/
def ChecksEnd (s t : State) (bs : List Byte) (ss : List Section) : Prop :=
  let l := s.str.loader
  let k := parseSketch (BitVec.ofNat 64 (leField bs 32 8)) ss
  if leField bs 8 2 ≠ 0x4800 ∨ leField bs 10 1 ≠ s.rdN GLB_ID.STEP_LETTER 0 * 16 + s.rdN GLB_ID.STEP_DIGIT 0 then LoadFails s t 0x0505
  else match s.versionCheck ss with
    | .error c => c = sktVersionUntested → LoadFails s t 0x0507
    | .ok (_, tested) =>
      if tested = false ∧ (s.on SKT_CTL.ALLOW_UNTESTED 0 = false ∨ s.conf = true) then
        LoadFails s t 0x0507 ∧ t.on SKT_STATUS.VERSION_UNTESTED 0 = true
      else (t.on SKT_STATUS.OVERRIDDEN 0 = true ∨ tested = true) ∧
        (if s.structureOk ss k l.src l.len = false then LoadFails s t 0x0508
        else if k.acyclic = false then LoadFails s t 0x0509
        else if k.canvases.all s.available = false then LoadFails s t 0x050A
        else t.str.loader = { l with phase := .apply } ∧ t.rdN SKT_STATUS.STATE 0 = 2 ∧ t.mem = s.mem ∧ t.str.sketch = s.str.sketch)

end Sys2Proof.Claim

open Sys2Proof.Claim in
/-- The loader (R182 to R185, R188 to R190, R192 to R195, R527): LOAD is refused with the codes of R182 or accepted; the checks run in their
order and the first that fails sends the load to the primer with its code; the apply phase makes the configuration resident and
clears every partition fault, or is interrupted; a failed load ends with the primer applied, M3 equal to M2 and the code shown. -/
def Obligations.SketchLoader : Prop :=
  (∀ (s : State), ∃ t, exec .load s = .next t ∧ t.mem = s.mem ∧
    let refused := fun (c : Code) => t.rd SKT_STATUS.LAST_CODE 0 = codeVal c ∧ t = { s with regs := t.regs } ∧ RegsSame s t [SKT_STATUS.LAST_CODE.key 0]
    if s.loadBusy = true then refused 0x0501
    else if s.openTrips ≠ [] ∨ s.on JNL_THERMAL_RECORD.PRESENT 0 = true then refused 0x050E
    else if s.stagingOk (s.rdN SKT_SRC.DPA 0 * 256) (s.rdN SKT_LEN.LEN 0) = false then refused 0x050D
    else t.str.loader = ⟨.verify, s.rdN SKT_SRC.DPA 0 * 256, s.rdN SKT_LEN.LEN 0, 0⟩ ∧ t.rdN SKT_STATUS.STATE 0 = 1 ∧
      t.on SKT_STATUS.FALLBACK 0 = false ∧ t.on SKT_STATUS.VERSION_UNTESTED 0 = false ∧ t.on SKT_STATUS.OVERRIDDEN 0 = false ∧
      t.bellsHeld = true ∧ t.sec.loads = s.sec.loads + 1 ∧ t.glz = s.glz ∧
      RegsSame s t [SKT_STATUS.STATE.key 0, SKT_STATUS.FALLBACK.key 0, SKT_STATUS.VERSION_UNTESTED.key 0, SKT_STATUS.OVERRIDDEN.key 0]) ∧
  (∀ (s : State),
    let l := s.str.loader
    (l.phase ≠ .verify → exec .loadChecksDone s = .next s) ∧
    (l.phase = .verify → ∃ t, exec .loadChecksDone s = .next t ∧
      match s.peekBytes l.src l.len with
      | none => LoadFails s t 0x050B
      | some bs =>
        match checkFormat bs l.len with
        | .error c => LoadFails s t c
        | .ok ss =>
          if leField bs (l.len - 8) 8 ≠ (crc64 (bs.take (l.len - 8))).toNat then LoadFails s t 0x0503
          else if s.signatureOk bs = false then LoadFails s t 0x0504
          else ChecksEnd s t bs ss) ∧
    (l.phase ≠ .apply → exec .applyDone s = .next s) ∧
    (l.phase = .apply → ∃ t, exec .applyDone s = .next t ∧
      match s.peekBytes l.src l.len with
      | none => LoadFails s t 0x050B
      | some bs =>
        match checkFormat bs l.len with
        | .error _ => LoadFails s t 0x050B
        | .ok ss =>
          let k := parseSketch (BitVec.ofNat 64 (leField bs 32 8)) ss
          if k.canvases.all s.available = false ∨ k.islands.all s.works = false then LoadFails s t 0x050B
          else match s.copyBodies bs k.copies with
            | none => t = s
            | some (e, _) => if e ≠ 0 then t.str.loader.phase = .primer ∧ t.str.loader.code = 0x050B
              else Configured t k ∧ t.rdN SKT_STATUS.STATE 0 = 3 ∧ t.on SKT_STATUS.LOAD_DONE 0 = true ∧ t.rdN SKT_STATUS.LAST_CODE 0 = 0 ∧
                t.meas 3 = Config.sha384 (bs.take (leField bs 24 8))) ∧
    (l.phase ≠ .primer → exec .primerApplyDone s = .next s) ∧
    (l.phase = .primer → ∃ t, exec .primerApplyDone s = .next t ∧ Configured t (primerSketch s.availables) ∧ t.rdN SKT_STATUS.STATE 0 = 0 ∧
      t.on SKT_STATUS.FALLBACK 0 = true ∧ t.on SKT_STATUS.LOAD_FAILED 0 = true ∧ t.rd SKT_STATUS.LAST_CODE 0 = codeVal l.code ∧
      t.meas 3 = s.meas 2))
/-! ### Sequencers (chapter 06) -/

namespace Sys2Proof.Claim

/-- A sequencer thread may issue an instruction that reads some registers: its core's island is ACTIVE and it is RUNNING
(R202), the fetch at its PC is inside a window with X (R201), and the registers are readable (R499). -/
def CanIssue (s : State) (th : SeqThread) (srcs : List Nat) : Prop :=
  s.seqIssues th = true ∧ s.windowOk (s.seqPart (seqKey th)) .x (s.seqPc (seqKey th)) 4 = true ∧
    ∀ r ∈ srcs, (s.sth (seqKey th)).readable r = true

/-- The parts of the device that an instruction of a thread does not reach: everything but the registers, the thread's
own state and its core's run of issue cycles. -/
def SeqFrame (th : SeqThread) (s t : State) : Prop :=
  t = { s with regs := t.regs, seq := { s.seq with threads := t.seq.threads, cores := t.seq.cores } } ∧
  (∀ j, j ≠ seqKey th → t.sth j = s.sth j) ∧
  ∀ c, (t.core c).stores = (s.core c).stores ∧ (t.core c).dcache = (s.core c).dcache

/-- The PC at a value, one more instruction counted, every other register as before. -/
def GoesTo (th : SeqThread) (pc : Nat) (s t : State) : Prop :=
  t.seqPc (seqKey th) = pc ∧ t.rd CNV_SEQ_INSTR.COUNT th.canvas = s.rd CNV_SEQ_INSTR.COUNT th.canvas + 1 ∧
    RegsSame s t [CNV_SEQ_THR_PC.PC.key (seqKey th), CNV_SEQ_INSTR.COUNT.key th.canvas]

/-- The PC moves to the next instruction. -/
def Advances (th : SeqThread) (s t : State) : Prop := GoesTo th ((s.seqPc (seqKey th) + 4) % 2 ^ 40) s t

/-- The thread's general registers afterwards: one has a new value, unless it is g0, and every other one keeps its own;
the one written is readable from then on; nothing else of the thread changes. -/
def RegWritten (th : SeqThread) (rd : Nat) (v : Val) (s t : State) : Prop :=
  (∀ r, (t.sth (seqKey th)).get r = if r % 64 = rd % 64 ∧ r % 64 ≠ 0 then v else (s.sth (seqKey th)).get r) ∧
  (∀ r, (t.sth (seqKey th)).readable r = ((s.sth (seqKey th)).readable r || decide (r % 64 = rd % 64))) ∧
  t.sth (seqKey th) = { s.sth (seqKey th) with g := (t.sth (seqKey th)).g, fresh := (t.sth (seqKey th)).fresh }

/-- An instruction that may issue writes one register with a value of the thread's registers, and goes on. -/
def WritesReg (i : Instr) (th : SeqThread) (srcs : List Nat) (rd : Nat) (v : SeqState → Val) : Prop :=
  ∀ s : State, CanIssue s th srcs →
    ∃ t, exec i s = .next t ∧ RegWritten th rd (v (s.sth (seqKey th))) s t ∧ Advances th s t ∧ SeqFrame th s t

end Sys2Proof.Claim

open Sys2Proof.Claim in
/-- The register instructions of the sequencer (the instruction table of chapter 06): each writes RD with the value that the
table gives, for every operand, moves the PC on and leaves everything else alone; a write of g0 is ignored. -/
def Sys2Proof.Claim.SequencerRegisterInstructions : Prop :=
  ∀ (th : SeqThread) (rd ra rb : Nat) (i : BitVec 14) (u : BitVec 20),
    WritesReg (.aluAdd th rd ra rb) th [ra, rb] rd (fun t => t.get ra + t.get rb) ∧
    WritesReg (.aluSub th rd ra rb) th [ra, rb] rd (fun t => t.get ra - t.get rb) ∧
    WritesReg (.aluAnd th rd ra rb) th [ra, rb] rd (fun t => t.get ra &&& t.get rb) ∧
    WritesReg (.aluOr th rd ra rb) th [ra, rb] rd (fun t => t.get ra ||| t.get rb) ∧
    WritesReg (.aluXor th rd ra rb) th [ra, rb] rd (fun t => t.get ra ^^^ t.get rb) ∧
    WritesReg (.aluAndn th rd ra rb) th [ra, rb] rd (fun t => t.get ra &&& ~~~(t.get rb)) ∧
    WritesReg (.aluShl th rd ra rb) th [ra, rb] rd (fun t => t.get ra <<< ((t.get rb).setWidth 6).toNat) ∧
    WritesReg (.aluShr th rd ra rb) th [ra, rb] rd (fun t => t.get ra >>> ((t.get rb).setWidth 6).toNat) ∧
    WritesReg (.aluSra th rd ra rb) th [ra, rb] rd (fun t => (t.get ra).sshiftRight ((t.get rb).setWidth 6).toNat) ∧
    WritesReg (.aluSlt th rd ra rb) th [ra, rb] rd (fun t => if (t.get ra).toInt < (t.get rb).toInt then 1 else 0) ∧
    WritesReg (.aluSltu th rd ra rb) th [ra, rb] rd (fun t => if (t.get ra).toNat < (t.get rb).toNat then 1 else 0) ∧
    WritesReg (.aluMin th rd ra rb) th [ra, rb] rd (fun t => if (t.get ra).toInt < (t.get rb).toInt then t.get ra else t.get rb) ∧
    WritesReg (.aluMax th rd ra rb) th [ra, rb] rd (fun t => if (t.get ra).toInt < (t.get rb).toInt then t.get rb else t.get ra) ∧
    WritesReg (.aluMinu th rd ra rb) th [ra, rb] rd (fun t => if (t.get ra).toNat < (t.get rb).toNat then t.get ra else t.get rb) ∧
    WritesReg (.aluMaxu th rd ra rb) th [ra, rb] rd (fun t => if (t.get ra).toNat < (t.get rb).toNat then t.get rb else t.get ra) ∧
    WritesReg (.aluMul th rd ra rb) th [ra, rb] rd (fun t => BitVec.ofNat 64 ((t.get ra).toNat * (t.get rb).toNat)) ∧
    WritesReg (.aluMulhu th rd ra rb) th [ra, rb] rd (fun t => BitVec.ofNat 64 ((t.get ra).toNat * (t.get rb).toNat / 2 ^ 64)) ∧
    WritesReg (.aluMulh th rd ra rb) th [ra, rb] rd (fun t => BitVec.ofInt 64 ((t.get ra).toInt * (t.get rb).toInt / 2 ^ 64)) ∧
    WritesReg (.aluPopc th rd ra rb) th [ra] rd
      (fun t => BitVec.ofNat 64 ((List.range 64).filter (fun b => (t.get ra).getLsbD b)).length) ∧
    WritesReg (.aluClz th rd ra rb) th [ra] rd
      (fun t => BitVec.ofNat 64 ((List.range 64).takeWhile (fun b => !(t.get ra).getLsbD (63 - b))).length) ∧
    WritesReg (.aluCtz th rd ra rb) th [ra] rd
      (fun t => BitVec.ofNat 64 ((List.range 64).takeWhile (fun b => !(t.get ra).getLsbD b)).length) ∧
    WritesReg (.addi th rd ra i) th [ra] rd (fun t => t.get ra + i.signExtend 64) ∧
    WritesReg (.andi th rd ra i) th [ra] rd (fun t => t.get ra &&& i.setWidth 64) ∧
    WritesReg (.ori th rd ra i) th [ra] rd (fun t => t.get ra ||| i.setWidth 64) ∧
    WritesReg (.xori th rd ra i) th [ra] rd (fun t => t.get ra ^^^ i.setWidth 64) ∧
    (i.toNat < 64 → WritesReg (.shli th rd ra i) th [ra] rd (fun t => t.get ra <<< i.toNat) ∧
      WritesReg (.shri th rd ra i) th [ra] rd (fun t => t.get ra >>> i.toNat) ∧
      WritesReg (.srai th rd ra i) th [ra] rd (fun t => (t.get ra).sshiftRight i.toNat)) ∧
    WritesReg (.slti th rd ra i) th [ra] rd (fun t => if (t.get ra).toInt < (i.signExtend 64).toInt then 1 else 0) ∧
    WritesReg (.sltiu th rd ra i) th [ra] rd (fun t => if (t.get ra).toNat < (i.signExtend 64).toNat then 1 else 0) ∧
    WritesReg (.movlo th rd u) th [] rd (fun _ => u.setWidth 64) ∧
    WritesReg (.movhi th rd u) th [rd] rd (fun t => t.get rd ||| (u.setWidth 64 <<< 20))

namespace Sys2Proof.Claim

/-- A sequencer fault of a thread that has nothing outstanding (R222): it is FAULTED, disabled of nothing else, with the
cause captured unless a fault is already captured, which only sets OVERRUN; the partition faults for PRIMARY. -/
def Faulted (th : SeqThread) (cause : Nat) (code : Code) (s t : State) : Prop :=
  t.rdN CNV_SEQ_THR_CTL.STATE (seqKey th) = 5 ∧
  (s.on CNV_SEQ_FAULT_INFO.VALID th.canvas = true → t.on CNV_SEQ_FAULT_INFO.OVERRUN th.canvas = true) ∧
  (s.on CNV_SEQ_FAULT_INFO.VALID th.canvas = false →
    t.on CNV_SEQ_FAULT_INFO.VALID th.canvas = true ∧ t.rdN CNV_SEQ_FAULT_INFO.CORE th.canvas = th.core ∧
    t.rdN CNV_SEQ_FAULT_INFO.THREAD th.canvas = th.thread ∧ t.rdN CNV_SEQ_FAULT_INFO.CAUSE th.canvas = cause ∧
    t.rd CNV_SEQ_FAULT_INFO.CODE th.canvas = codeVal code)

/-- A thread waits with a reason, and nothing else of it changes. -/
def Waits (th : SeqThread) (w : SeqWait) (s t : State) : Prop :=
  t.sth (seqKey th) = { s.sth (seqKey th) with wait := some w } ∧
  t.rdN CNV_SEQ_THR_CTL.STATE (seqKey th) = 3 ∧ t.rdN CNV_SEQ_THR_CTL.WAIT (seqKey th) = w.code ∧
  RegsSame s t [CNV_SEQ_THR_CTL.STATE.key (seqKey th), CNV_SEQ_THR_CTL.WAIT.key (seqKey th)]

/-- The address of a memory instruction is sound: 40 bits, naturally aligned, inside a window with the permission (R201,
R207). -/
def GoodAddr (s : State) (th : SeqThread) (a : Val) (n : Nat) (p : Perm) : Prop :=
  a.toNat < 2 ^ 40 ∧ a.toNat % n = 0 ∧ s.windowOk (s.seqPart (seqKey th)) p a.toNat n = true

/-- The bytes that a load which hits the core's data cache returns: those of the cached line, with the thread's own posted
stores over them (R210). -/
def hitBytes (s : State) (th : SeqThread) (a : Nat) (n : Nat) (line : List Byte) : List Byte :=
  forward ((s.core (coreKey (seqKey th))).stores.filter (fun e => e.thread == seqKey th % 32)) a ((line.drop (a % 256)).take n)

/-- A load of n bytes that hits the data cache. -/
def LoadHits (i : Instr) (th : SeqThread) (rd ra : Nat) (imm : BitVec 14) (n : Nat) (v : List Byte → Val) : Prop :=
  ∀ (s : State) (line : List Byte), CanIssue s th [ra] →
    let a := (s.sth (seqKey th)).get ra + imm.signExtend 64
    GoodAddr s th a n .r → Tab.find (s.core (coreKey (seqKey th))).dcache (a.toNat / 256) = some line →
    ∃ t, exec i s = .next t ∧ RegWritten th rd (v (hitBytes s th a.toNat n line)) s t ∧ Advances th s t ∧ SeqFrame th s t

/-- The data caches afterwards: one line has left one core's; the store buffers are as before. -/
def LineDropped (th : SeqThread) (a : Nat) (s t : State) : Prop :=
  (∀ c, (t.core c).stores = (s.core c).stores) ∧
  ∀ c x, Tab.find (t.core c).dcache x =
    if c = coreKey (seqKey th) ∧ x = a / 256 then none else Tab.find (s.core c).dcache x

/-- What an instruction that only makes its thread wait leaves alone. -/
def WaitFrame (th : SeqThread) (s t : State) : Prop :=
  t = { s with regs := t.regs, seq := { s.seq with threads := t.seq.threads, cores := t.seq.cores } } ∧
  ∀ j, j ≠ seqKey th → t.sth j = s.sth j

/-- A load that does not hit, where the request obtains a fill slot or needs none: it waits with LOAD, and its line leaves the
data cache (R211). -/
def LoadWaits (i : Instr) (th : SeqThread) (rd ra : Nat) (imm : BitVec 14) (n : Nat) (isSigned noncached : Bool) : Prop :=
  ∀ s : State, CanIssue s th [ra] →
    let a := (s.sth (seqKey th)).get ra + imm.signExtend 64
    GoodAddr s th a n .r → (s.line (keyOf a.toNat)).isSome = true →
    (noncached = true ∨ Tab.find (s.core (coreKey (seqKey th))).dcache (a.toNat / 256) = none) →
    ∃ t, exec i s = .next t ∧ Waits th (.load rd a.toNat n isSigned noncached) s t ∧ LineDropped th a.toNat s t ∧ WaitFrame th s t

end Sys2Proof.Claim

open Sys2Proof.Claim in
/-- The loads (R201, R207, R210, R211): a load whose line the core's data cache holds gives RD its bytes, zero-extended or
for LD32S sign-extended; one whose line it does not hold, and every LDNC, waits with LOAD for the glaze, here with the line
in the glaze, and its line leaves the data cache. -/
def Sys2Proof.Claim.SequencerLoads : Prop :=
  ∀ (th : SeqThread) (rd ra : Nat) (i : BitVec 14),
    LoadHits (.ld8 th rd ra i true) th rd ra i 1 (fun b => BitVec.ofNat 64 (leNat b)) ∧
    LoadHits (.ld16 th rd ra i true) th rd ra i 2 (fun b => BitVec.ofNat 64 (leNat b)) ∧
    LoadHits (.ld32 th rd ra i true) th rd ra i 4 (fun b => BitVec.ofNat 64 (leNat b)) ∧
    LoadHits (.ld64 th rd ra i true) th rd ra i 8 (fun b => BitVec.ofNat 64 (leNat b)) ∧
    LoadHits (.ld32s th rd ra i true) th rd ra i 4 (fun b => (BitVec.ofNat 32 (leNat b)).signExtend 64) ∧
    (∀ cached, LoadWaits (.ld8 th rd ra i cached) th rd ra i 1 false false ∧
      LoadWaits (.ld16 th rd ra i cached) th rd ra i 2 false false ∧
      LoadWaits (.ld32 th rd ra i cached) th rd ra i 4 false false ∧
      LoadWaits (.ld64 th rd ra i cached) th rd ra i 8 false false ∧
      LoadWaits (.ld32s th rd ra i cached) th rd ra i 4 true false) ∧
    LoadWaits (.ldnc th rd ra i) th rd ra i 8 false true

namespace Sys2Proof.Claim

/-- A store of n bytes to a device address with a place in the store buffer (R210, R211): it is posted behind the others with
the low bytes of RS, and the core's copy of the line, if there is one, takes them too. -/
def Stores (i : Instr) (th : SeqThread) (rs ra : Nat) (imm : BitVec 14) (n : Nat) : Prop :=
  ∀ s : State, CanIssue s th [ra, rs] →
    let k := seqKey th
    let c := coreKey k
    let a := (s.sth k).get ra + imm.signExtend 64
    let e : StoreEntry := ⟨k % 32, a.toNat, leBytes n ((s.sth k).get rs).toNat⟩
    GoodAddr s th a n .w → a.toNat < 0xC000000000 → (s.core c).stores.length < 16 →
    ∃ t, exec i s = .next t ∧ (t.core c).stores = (s.core c).stores ++ [e] ∧
      (∀ x, Tab.find (t.core c).dcache x = (Tab.find (s.core c).dcache x).map (fun l =>
        if x = a.toNat / 256 then forward [e] (x * 256) l else l)) ∧
      (∀ c', c' ≠ c → (t.core c').stores = (s.core c').stores ∧ (t.core c').dcache = (s.core c').dcache) ∧
      t.sth k = s.sth k ∧ Advances th s t ∧ WaitFrame th s t

/-- An atomic waits with AMO for the old value, with the operand and the compare value that its registers held (R207,
R211). -/
def AmoWaits (i : Instr) (th : SeqThread) (op : AtomicOp) (rd ra rb : Nat) (n : Nat) (srcs : List Nat) : Prop :=
  ∀ s : State, CanIssue s th srcs →
    let a := (s.sth (seqKey th)).get ra
    GoodAddr s th a n .w →
    ∃ t, exec i s = .next t ∧
      Waits th (.amo rd a.toNat op n ((s.sth (seqKey th)).get rb) ((s.sth (seqKey th)).get rd)) s t ∧
      LineDropped th a.toNat s t ∧ WaitFrame th s t

end Sys2Proof.Claim

open Sys2Proof.Claim in
/-- Stores, atomics and PF (R201, R207, R210, R211, R220): a store enters the store buffer; an atomic waits with AMO; a PF
goes on at once, and one whose address is no line of the gesso does nothing else. -/
def Sys2Proof.Claim.SequencerStores : Prop :=
  ∀ (th : SeqThread) (rd ra rb : Nat) (i : BitVec 14),
    Stores (.st8 th rb ra i) th rb ra i 1 ∧ Stores (.st16 th rb ra i) th rb ra i 2 ∧
    Stores (.st32 th rb ra i) th rb ra i 4 ∧ Stores (.st64 th rb ra i) th rb ra i 8 ∧
    (∀ wide, AmoWaits (.amoAdd th rd ra rb wide) th .add rd ra rb (if wide then 8 else 4) [ra, rb] ∧
      AmoWaits (.amoSwap th rd ra rb wide) th .swap rd ra rb (if wide then 8 else 4) [ra, rb] ∧
      AmoWaits (.amoCas th rd ra rb wide) th .cas rd ra rb (if wide then 8 else 4) [ra, rb, rd] ∧
      AmoWaits (.amoMaxu th rd ra rb wide) th .maxu rd ra rb (if wide then 8 else 4) [ra, rb]) ∧
    (∀ (s : State) (victim : Nat), CanIssue s th [ra] →
      let a := ((s.sth (seqKey th)).get ra + i.signExtend 64).toNat
      ∃ t, exec (.pf th ra i victim) s = .next t ∧ t.seqPc (seqKey th) = (s.seqPc (seqKey th) + 4) % 2 ^ 40 ∧
        t.sth (seqKey th) = s.sth (seqKey th) ∧ t.mem = s.mem ∧
        ((∀ c o, targetOf a ≠ .gesso c o) → Advances th s t ∧ SeqFrame th s t))

namespace Sys2Proof.Claim

/-- A branch: to PC + 4 × IMM14 where its condition holds, else to the next instruction; a misprediction is counted and has
no other effect (R203, R204). -/
def Branches (mk : Bool → Instr) (th : SeqThread) (ra rb : Nat) (imm : BitVec 14) (cond : Val → Val → Prop) : Prop :=
  ∀ (s : State) (hit : Bool), CanIssue s th [ra, rb] →
    let k := seqKey th
    ∃ t, exec (mk hit) s = .next t ∧
      (cond ((s.sth k).get ra) ((s.sth k).get rb) → (t.seqPc k : Int) = (s.seqPc k + 4 * imm.toInt) % 2 ^ 40) ∧
      (¬ cond ((s.sth k).get ra) ((s.sth k).get rb) → t.seqPc k = (s.seqPc k + 4) % 2 ^ 40) ∧
      t.rd CNV_SEQ_INSTR.COUNT th.canvas = s.rd CNV_SEQ_INSTR.COUNT th.canvas + 1 ∧
      t.rd CNV_SEQ_MISPREDICT.COUNT th.canvas = s.rd CNV_SEQ_MISPREDICT.COUNT th.canvas + (if hit then 0 else 1) ∧
      RegsSame s t [CNV_SEQ_THR_PC.PC.key k, CNV_SEQ_INSTR.COUNT.key th.canvas, CNV_SEQ_MISPREDICT.COUNT.key th.canvas] ∧
      t.sth k = s.sth k ∧ SeqFrame th s t

end Sys2Proof.Claim

open Sys2Proof.Claim in
/-- Branches and jumps (the instruction table of chapter 06, R203, R204, R207): every branch both ways, JAL, and JALR to an
aligned 40-bit target. -/
def Sys2Proof.Claim.SequencerBranches : Prop :=
  ∀ (th : SeqThread) (rd ra rb : Nat) (i : BitVec 14) (j : BitVec 20),
    Branches (.beq th ra rb i) th ra rb i (fun a b => a = b) ∧
    Branches (.bne th ra rb i) th ra rb i (fun a b => a ≠ b) ∧
    Branches (.blt th ra rb i) th ra rb i (fun a b => a.toInt < b.toInt) ∧
    Branches (.bge th ra rb i) th ra rb i (fun a b => b.toInt ≤ a.toInt) ∧
    Branches (.bltu th ra rb i) th ra rb i (fun a b => a.toNat < b.toNat) ∧
    Branches (.bgeu th ra rb i) th ra rb i (fun a b => b.toNat ≤ a.toNat) ∧
    (∀ (s : State) (hit : Bool), CanIssue s th [] →
      ∃ t, exec (.jal th rd j hit) s = .next t ∧
        (t.seqPc (seqKey th) : Int) = (s.seqPc (seqKey th) + 4 * j.toInt) % 2 ^ 40 ∧
        RegWritten th rd (BitVec.ofNat 64 ((s.seqPc (seqKey th) + 4) % 2 ^ 40)) s t ∧ SeqFrame th s t ∧
        RegsSame s t [CNV_SEQ_THR_PC.PC.key (seqKey th), CNV_SEQ_INSTR.COUNT.key th.canvas, CNV_SEQ_MISPREDICT.COUNT.key th.canvas]) ∧
    (∀ (s : State) (hit : Bool), CanIssue s th [ra] →
      let a := ((s.sth (seqKey th)).get ra + i.signExtend 64).toNat
      a < 2 ^ 40 → a % 4 = 0 →
      ∃ t, exec (.jalr th rd ra i hit) s = .next t ∧ t.seqPc (seqKey th) = a ∧
        RegWritten th rd (BitVec.ofNat 64 ((s.seqPc (seqKey th) + 4) % 2 ^ 40)) s t ∧ SeqFrame th s t ∧
        RegsSame s t [CNV_SEQ_THR_PC.PC.key (seqKey th), CNV_SEQ_INSTR.COUNT.key th.canvas, CNV_SEQ_MISPREDICT.COUNT.key th.canvas])

namespace Sys2Proof.Claim

/-- A thread has no posted store that is still to be performed. -/
def Drained (s : State) (th : SeqThread) : Prop := s.seqStores (seqKey th) = false

end Sys2Proof.Claim

open Sys2Proof.Claim in
/-- Fences, CSRs, mailboxes, YIELD and HALT (R202, R205, R206, R211 to R215): each with its own effect, for a thread whose earlier
stores have all been performed where the instruction waits for them. -/
def Obligations.SequencerOrdering : Prop :=
  ∀ (th : SeqThread) (rd ra rb : Nat) (s : State),
    let k := seqKey th
    -- FENCE: with ACQ the core's whole data cache is invalidated
    (∀ rel acq, CanIssue s th [] → (rel = true → Drained s th) →
      ∃ t, exec (.fence th rel acq) s = .next t ∧ Advances th s t ∧ t.sth k = s.sth k ∧ WaitFrame th s t ∧
        (∀ c, (t.core c).stores = (s.core c).stores) ∧
        (∀ c, (t.core c).dcache = if acq = true ∧ c = coreKey k then [] else (s.core c).dcache)) ∧
    -- CSRR of WHOAMI, TIME, STEP, COORD and SCRATCH
    (CanIssue s th [] → s.seqPart k < 256 →
      (∃ t, exec (.csrr th rd 0) s = .next t ∧ Advances th s t ∧ SeqFrame th s t ∧
        RegWritten th rd (BitVec.ofNat 64 (th.thread + 32 * th.core + 512 * th.canvas + 2048 * s.seqPart k)) s t) ∧
      (∃ t, exec (.csrr th rd 2) s = .next t ∧ Advances th s t ∧ SeqFrame th s t ∧ RegWritten th rd (s.rd GLB_TIME.NS 0) s t) ∧
      (∃ t, exec (.csrr th rd 3) s = .next t ∧ Advances th s t ∧ SeqFrame th s t ∧
        RegWritten th rd (s.rd CNV_FIN_STEP.STEP (s.seqPart k)) s t) ∧
      (∃ t, exec (.csrr th rd 4) s = .next t ∧ Advances th s t ∧ SeqFrame th s t ∧ RegWritten th rd (s.rd SPR_COORD.COORD 0) s t) ∧
      (∃ t, exec (.csrr th rd 5) s = .next t ∧ Advances th s t ∧ SeqFrame th s t ∧ RegWritten th rd (s.sth k).scratch s t)) ∧
    -- CSRW of SCRATCH
    (CanIssue s th [ra] → ∃ t, exec (.csrw th ra 5) s = .next t ∧ Advances th s t ∧ SeqFrame th s t ∧
      t.sth k = { s.sth k with scratch := (s.sth k).get ra }) ∧
    -- MBXWAIT: a word is taken; with TRY an empty mailbox gives 0; without it the thread waits
    (∀ tryOnly, CanIssue s th [ra] →
      let m := ((s.sth k).get ra).toNat % 4096
      s.island (tetherIsland (m / 1024)) = islActive → (s.box m).waiters = [] →
      (∀ w ws, (s.box m).words = (w, none) :: ws →
        ∃ t, exec (.mbxwait th rd ra tryOnly) s = .next t ∧ RegWritten th rd (BitVec.ofNat 64 (2 ^ 32 + w.toNat)) s t ∧
          (t.box m).words = ws ∧ t.rdN CNV_SEQ_MBX_STAT.DEPTH m = ws.length % 32) ∧
      ((s.box m).words = [] → tryOnly = true →
        ∃ t, exec (.mbxwait th rd ra tryOnly) s = .next t ∧ RegWritten th rd 0 s t ∧ Advances th s t ∧ SeqFrame th s t) ∧
      ((s.box m).words = [] → tryOnly = false →
        ∃ t, exec (.mbxwait th rd ra tryOnly) s = .next t ∧ t.sth k = { s.sth k with wait := some (.mailbox rd m) } ∧
          t.rdN CNV_SEQ_THR_CTL.STATE k = 3 ∧ (t.box m).waiters = [th])) ∧
    -- MBXPOST
    (CanIssue s th [ra, rb] → Drained s th →
      let m := ((s.sth k).get ra).toNat % 4096
      s.island (tetherIsland (m / 1024)) = islActive → (s.box m).words.length < 16 →
      ∃ t, exec (.mbxpost th ra rb) s = .next t ∧
        (t.box m).words = (s.box m).words ++ [(((s.sth k).get rb).setWidth 32, none)] ∧
        t.seqPc k = (s.seqPc k + 4) % 2 ^ 40 ∧ t.sth k = s.sth k) ∧
    -- YIELD ends the turn and the thread stays READY; HALT stops the thread
    (CanIssue s th [] → (∃ t, exec (.yield th) s = .next t ∧ t.rdN CNV_SEQ_THR_CTL.STATE k = 1 ∧
        t.seqPc k = (s.seqPc k + 4) % 2 ^ 40 ∧ (∀ r, (t.sth k).get r = (s.sth k).get r)) ∧
      ((s.sth k).wait = none → ∃ t, exec (.halt th) s = .next t ∧ t.rdN CNV_SEQ_THR_CTL.STATE k = 4 ∧
        t.seqPc k = (s.seqPc k + 4) % 2 ^ 40 ∧ (∀ r, (t.sth k).get r = (s.sth k).get r) ∧ t.mem = s.mem)) ∧
    -- an illegal word faults the thread with cause ILLEGAL
    (∀ w, seqIllegal w = true → CanIssue s th [] → (s.sth k).wait = none →
      ∃ t, exec (.illegalInstruction th w) s = .next t ∧ Faulted th 1 0 s t)

open Sys2Proof.Claim in
/-- The instructions that command other units (R208, R209, R213): TRAIN queues its command on the canvas that g[RA] names and
waits with COMMAND where 32 wait there; DMAPOST gives RD the result of the post; PNLGO starts an IDLE panel thread of its own
canvas and partition and gives 0, and in every other case changes nothing and gives 1. -/
def Obligations.SequencerCommands : Prop :=
  ∀ (th : SeqThread) (rd ra rb : Nat) (s : State), Drained s th →
    let k := seqKey th
    let v := ((s.sth k).get ra).toNat
    let c := v / 4096 % 4
    (∀ op, op = 1 ∨ op = 2 → CanIssue s th [ra] → s.island (tetherIsland c) = islActive →
      let i := if op = 1 then Instr.trainLaunch th ra else Instr.trainStop th ra
      ((s.woQueue CNV_STM_TRN_CMD.OP c).length < 32 → ∃ t, exec i s = .next t ∧
        t.woQueue CNV_STM_TRN_CMD.OP c = s.woQueue CNV_STM_TRN_CMD.OP c ++ [BitVec.ofNat 64 (op * 65536 + v % 4096)] ∧
        t.rdN CNV_STM_STATUS.QUEUE_DEPTH c = (s.woQueue CNV_STM_TRN_CMD.OP c).length + 1 ∧
        t.seqPc k = (s.seqPc k + 4) % 2 ^ 40 ∧ t.sth k = s.sth k ∧ t.mem = s.mem) ∧
      ((s.woQueue CNV_STM_TRN_CMD.OP c).length = 32 → ∃ t, exec i s = .next t ∧ Waits th (.command c) s t ∧ WaitFrame th s t)) ∧
    (CanIssue s th [ra, rb] → ∀ code u, s.dmaPost v (s.seqPart k) ((s.sth k).get rb).toNat = (some code, u) →
      ∃ t, exec (.dmapost th rd ra rb) s = .next t ∧ (∀ r, (t.sth k).get r = if r % 64 = rd % 64 ∧ r % 64 ≠ 0 then codeVal code else (u.sth k).get r)) ∧
    (CanIssue s th [ra, rb] → v / 8 / 256 = th.canvas → s.panelUp (v / 8) = true → s.rdN CNV_PNL_THR_CTL.STATE v = 0 →
      s.on CNV_PNL_THR_CTL.ENABLE v = false → s.panelPart (v / 8) = some (s.seqPart k) →
      ∃ t, exec (.pnlgo th rd ra rb) s = .next t ∧ RegWritten th rd 0 s t ∧
        t.rdN CNV_PNL_THR_PC.PC v = ((s.sth k).get rb).toNat / 16 % 2 ^ 36 ∧ t.on CNV_PNL_THR_CTL.ENABLE v = true ∧
        t.rdN CNV_PNL_THR_CTL.STATE v = 1 ∧ (t.pth v).ab.head? = (s.pth v).ab.head?.map (fun _ => 0) ∧
        t.rd CNV_PNL_THR_CTL.CLASS v = s.rd CNV_PNL_THR_CTL.CLASS v ∧ t.rd CNV_PNL_THR_CTL.PHASE v = s.rd CNV_PNL_THR_CTL.PHASE v ∧
        t.rd CNV_PNL_THR_STEP.STEP v = s.rd CNV_PNL_THR_STEP.STEP v ∧ t.mem = s.mem) ∧
    (CanIssue s th [ra, rb] → (v / 8 / 256 ≠ th.canvas ∨ s.rdN CNV_PNL_THR_CTL.STATE v ≠ 0 ∨ s.panelPart (v / 8) ≠ some (s.seqPart k)) →
      ∃ t, exec (.pnlgo th rd ra rb) s = .next t ∧ RegWritten th rd 1 s t ∧ Advances th s t ∧ SeqFrame th s t)

open Sys2Proof.Claim in
/-- Switching, waits, enabling and mailboxes (R200, R202, R205, R210, R214, R215, R621). -/
def Obligations.SequencerScheduling : Prop :=
  ∀ (s : State),
    -- THREAD_SWITCH: with no thread RUNNING, the longest-READY thread runs
    (∀ canvas core k, canvas < 4 → core < 16 → s.island (seqIsland (canvas * 16 + core)) = islActive →
      (∀ t < 32, s.rdN CNV_SEQ_THR_CTL.STATE ((canvas * 16 + core) * 32 + t) ≠ 2) → s.longestReady (canvas * 16 + core) = some k →
      ∃ t, exec (.threadSwitch canvas core) s = .next t ∧ t.rdN CNV_SEQ_THR_CTL.STATE k = 2 ∧
        t.rd CNV_SEQ_SWITCH.COUNT canvas = s.rd CNV_SEQ_SWITCH.COUNT canvas + 1 ∧
        RegsSame s t [CNV_SEQ_THR_CTL.STATE.key k, CNV_SEQ_SWITCH.COUNT.key canvas] ∧ t.mem = s.mem) ∧
    -- SEQ_WAIT_END: data of a load or an atomic arrives, a fence or a place in a queue is reached
    (∀ (th : SeqThread) (rd d n : Nat) (bs : List Byte) (u : State), s.rdN CNV_SEQ_THR_CTL.STATE (seqKey th) = 3 →
      (∀ op x cmp, (s.sth (seqKey th)).wait = some (.amo rd d op n x cmp) →
        s.access1 (s.seqAgent (seqKey th)) d n (.atomic op x cmp) = .done 0 bs u → (u.sth (seqKey th)).stop = 0 →
        ∃ t, exec (.seqWaitEnd th) s = .next t ∧ t.rdN CNV_SEQ_THR_CTL.STATE (seqKey th) = 1 ∧ t.mem = u.mem ∧
          (∀ r, (t.sth (seqKey th)).get r = if r % 64 = rd % 64 ∧ r % 64 ≠ 0 then BitVec.ofNat 64 (leNat bs) else (u.sth (seqKey th)).get r)) ∧
      ((s.sth (seqKey th)).wait = some (.load rd d n false true) →
        s.readRange (s.seqAgent (seqKey th)) d n = .done 0 bs u → (u.sth (seqKey th)).stop = 0 →
        ∃ t, exec (.seqWaitEnd th) s = .next t ∧ t.rdN CNV_SEQ_THR_CTL.STATE (seqKey th) = 1 ∧ t.mem = u.mem ∧
          (∀ r, (t.sth (seqKey th)).get r = if r % 64 = rd % 64 ∧ r % 64 ≠ 0 then
            BitVec.ofNat 64 (leNat (forward ((u.core (coreKey (seqKey th))).stores.filter (fun e => e.thread == seqKey th % 32)) d bs))
            else (u.sth (seqKey th)).get r)) ∧
      ((s.sth (seqKey th)).wait = some (.fence true false) → s.seqStores (seqKey th) = false →
        ∃ t, exec (.seqWaitEnd th) s = .next t ∧ t.rdN CNV_SEQ_THR_CTL.STATE (seqKey th) = 1 ∧
          (t.core (coreKey (seqKey th))).dcache = [] ∧ t.seqPc (seqKey th) = (s.seqPc (seqKey th) + 4) % 2 ^ 40)) ∧
    -- SEQ_ENABLE and SEQ_DISABLE
    (∀ th : SeqThread, th.canvas < 4 → th.core < 16 → th.thread < 32 → s.island (seqIsland (coreKey (seqKey th))) = islActive →
      (s.rdN CNV_SEQ_THR_CTL.STATE (seqKey th) = 0 →
        ∃ t, exec (.seqEnable th) s = .next t ∧ t.on CNV_SEQ_THR_CTL.ENABLE (seqKey th) = true ∧
          t.rdN CNV_SEQ_THR_CTL.STATE (seqKey th) = 1 ∧ (t.sth (seqKey th)).scratch = 0 ∧ t.mem = s.mem) ∧
      (s.rdN CNV_SEQ_THR_CTL.STATE (seqKey th) ≠ 0 → (s.sth (seqKey th)).wait = none →
        ∃ t, exec (.seqDisable th) s = .next t ∧ t.on CNV_SEQ_THR_CTL.ENABLE (seqKey th) = false ∧
          t.rdN CNV_SEQ_THR_CTL.STATE (seqKey th) = 0 ∧ t.mem = s.mem)) ∧
    -- posts: queued, or with the mailbox full counted as LOST
    (∀ (m : Nat) (w : Word32), m < 4096 → s.island (tetherIsland (m / 1024)) = islActive →
      ((s.box m).words.length < 16 →
        (∃ t, exec (.mailboxPost m w) s = .next t ∧ (t.box m).words = (s.box m).words ++ [(w, none)]) ∧
        (∃ t, exec (.mbxPostRegister m w) s = .next t ∧ (t.box m).words = (s.box m).words ++ [(w, none)])) ∧
      (16 ≤ (s.box m).words.length →
        ∃ t, exec (.mailboxPost m w) s = .next t ∧ (t.box m).words = (s.box m).words ∧
          t.on CNV_SEQ_STATUS.MBX_OVERFLOW (m / 1024) = true ∧
          t.rdN CNV_SEQ_MBX_STAT.LOST m = (s.rdN CNV_SEQ_MBX_STAT.LOST m + 1) % 2 ^ 16 ∧
          RegsSame s t [CNV_SEQ_MBX_STAT.LOST.key m, CNV_SEQ_STATUS.MBX_OVERFLOW.key (m / 1024)])) ∧
    -- MAILBOX_DELIVER: the oldest word goes to the thread that has waited longest
    (∀ (m rd : Nat) (th : SeqThread) (ths : List SeqThread) (w : Word32) (ws : List (Word32 × Option Nat)),
      m < 4096 → s.island (tetherIsland (m / 1024)) = islActive → (s.box m).waiters = th :: ths → (s.box m).words = (w, none) :: ws →
      (s.sth (seqKey th)).wait = some (.mailbox rd m) →
      ∃ t, exec (.mailboxDeliver m) s = .next t ∧ (t.box m).words = ws ∧ (t.box m).waiters = ths ∧
        t.rdN CNV_SEQ_THR_CTL.STATE (seqKey th) = 1 ∧ (t.sth (seqKey th)).wait = none ∧
        (∀ r, (t.sth (seqKey th)).get r = if r % 64 = rd % 64 ∧ r % 64 ≠ 0 then BitVec.ofNat 64 (2 ^ 32 + w.toNat) else (s.sth (seqKey th)).get r))

open Sys2Proof.Claim in
/-- Tier 2. The loads and the stores of the sequencers. -/
def Obligations.SequencerMemory : Prop := SequencerLoads ∧ SequencerStores

open Sys2Proof.Claim in
/-- Tier 2. The register instructions and the branches of the sequencers. -/
def Obligations.SequencerControlFlow : Prop := SequencerRegisterInstructions ∧ SequencerBranches


/-! ### Wells, caches, glaze and gesso (chapters 06 and 07) -/

namespace Sys2Proof.Claim

/-- A byte that the glaze holds. -/
def glzByte (s : State) (a : Nat) : Byte := Tab.get s.glz.data a 0

/-- A request at its home slice in the plain case: it lies in one gesso line that exists, the glaze island is ACTIVE, nothing
holds the line, no fill or write-back of it is in flight, it lies in no tack range, none of its words is poisoned, no load is
staging and it touches no doorbell word. -/
def AtSlice (s : State) (r : MemReq) : Prop :=
  (∃ c o, targetOf r.dpa = .gesso c o ∧ s.lineExists c (o / 2048) = true ∧ s.refusal (glazeIsland c (o / 2048)) = none) ∧
  reqInLine r = true ∧ Tab.get s.glz.held (keyOf r.dpa) none = none ∧ s.victim (keyOf r.dpa) = none ∧
  s.slot (keyOf r.dpa) = none ∧ s.inTackRange (keyOf r.dpa) = false ∧ (∀ w < 256, s.wordBad (r.dpa / 2048 * 256 + w) = false) ∧
  s.str.loader.phase = .idle ∧ s.rung r.dpa r.len = []

/-- The line is resident, not prefetched, and every sector that the request touches is VALID. -/
def Resident (s : State) (r : MemReq) (l : GlazeLine) : Prop :=
  s.line (keyOf r.dpa) = some l ∧ l.prefetched = false ∧ secMask r.dpa r.len &&& ~~~l.valid = 0

/-- New bytes in a resident line: every other byte of the glaze, every byte of memory and every other line are as before, and
the sectors written are VALID and DIRTY (R235). -/
def Written (s t : State) (r : MemReq) (l : GlazeLine) (new : List Byte) : Prop :=
  (∀ a, glzByte t a = if r.dpa ≤ a ∧ a < r.dpa + r.len then new.getD (a - r.dpa) 0 else glzByte s a) ∧
  t.line (keyOf r.dpa) = some { l with valid := l.valid ||| secMask r.dpa r.len, dirty := l.dirty ||| secMask r.dpa r.len } ∧
  (∀ k, k ≠ keyOf r.dpa → t.line k = s.line k) ∧ (∀ w, t.wordBad w = s.wordBad w) ∧
  t = { s with regs := t.regs, sent := t.sent,
               glz := { s.glz with lines := t.glz.lines, data := t.glz.data, bad := t.glz.bad } }

/-- The canvas of a request. -/
def reqCanvas (r : MemReq) : Nat := r.dpa / 0x1000000000

end Sys2Proof.Claim

open Sys2Proof.Claim in
/-- Reads at the home slice (R235, R249): a read or a turn read of VALID sectors is answered with the bytes, or with the bytes
turned, is counted, and changes nothing else; a read of an absent line takes a fill slot and a way and waits for the fill. -/
def Sys2Proof.Claim.SliceReads : Prop :=
  ∀ (s : State) (r : MemReq), AtSlice s r →
    (∀ l, Resident s r l →
      (∃ t, exec (.sliceRead r []) s = .next t ∧ t.sent = s.sent ++ [.memory r 0 (getBytes s.glz.data r.dpa r.len)] ∧
        t.rd CNV_GLZ_READ_HIT.COUNT (reqCanvas r) = s.rd CNV_GLZ_READ_HIT.COUNT (reqCanvas r) + 1 ∧
        RegsSame s t [CNV_GLZ_READ_HIT.COUNT.key (reqCanvas r)] ∧ t = { s with regs := t.regs, sent := t.sent }) ∧
      (∀ e, e = 1 ∨ e = 2 ∨ e = 4 → r.dpa % 2048 = 0 → r.len = 2048 →
        ∃ t, exec (.turnRead r e) s = .next t ∧ t.sent = s.sent ++ [.memory r 0 (turned e (getBytes s.glz.data r.dpa 2048))] ∧
          t.rd CNV_GLZ_TURN_LINES.COUNT (reqCanvas r) = s.rd CNV_GLZ_TURN_LINES.COUNT (reqCanvas r) + 1 ∧
          RegsSame s t [CNV_GLZ_READ_HIT.COUNT.key (reqCanvas r), CNV_GLZ_TURN_LINES.COUNT.key (reqCanvas r)] ∧
          t = { s with regs := t.regs, sent := t.sent })) ∧
    (∀ w u, s.line (keyOf r.dpa) = none → s.slotBar (keyOf r.dpa) r.part r.wash = .free → s.getWay (keyOf r.dpa) r.victim = some (w, u) →
      s.on CNV_GLZ_PF_CTL.ENABLE (reqCanvas r) = false →
      ∃ t, exec (.sliceRead r []) s = .next t ∧ t.line (keyOf r.dpa) = some ⟨w, 0, 0, false, false⟩ ∧
        t.slot (keyOf r.dpa) = some ⟨[⟨r, .read⟩], false, if r.wash then r.part else none, false⟩ ∧ t.sent = s.sent ∧ t.mem = s.mem)

open Sys2Proof.Claim in
/-- Writes and atomics at the home slice (R235, R238): the bytes are in the line at once and its sectors are DIRTY; a whole-sector
write of an absent line needs no fill; an atomic answers the old value; nothing else changes. -/
def Sys2Proof.Claim.SliceWrites : Prop :=
  ∀ (s : State) (r : MemReq), AtSlice s r →
    (∀ (bs : List Byte), bs.length = r.len →
      let i := if r.dpa % 256 = 0 ∧ r.len % 256 = 0 then Instr.sliceWholeWrite r bs else Instr.slicePartialWrite r bs
      (∀ l, Resident s r l → ∃ t, exec i s = .next t ∧ Written (s.popStore r bs) t r l bs ∧
        t.sent = s.sent ++ [.memory r 0 []] ∧ RegsSame s t []) ∧
      (∀ w u, r.dpa % 256 = 0 → r.len % 256 = 0 → s.line (keyOf r.dpa) = none → s.getWay (keyOf r.dpa) r.victim = some (w, u) →
        ∃ t, exec i s = .next t ∧ t.sent = s.sent ++ [.memory r 0 []] ∧ t.mem = s.mem ∧
          t.line (keyOf r.dpa) = some ⟨w, secMask r.dpa r.len, secMask r.dpa r.len, false, false⟩ ∧
          ∀ a, r.dpa ≤ a → a < r.dpa + r.len → glzByte t a = bs.getD (a - r.dpa) 0)) ∧
    (∀ l op x y, Resident s r l → r.len = 4 ∨ r.len = 8 → r.dpa % r.len = 0 →
      let old := getBytes s.glz.data r.dpa r.len
      ∃ t, exec (.sliceAtomic r op x y) s = .next t ∧
        Written s t r l (leBytes r.len (atomicNew op (leNat old) x.toNat y.toNat (8 * r.len))) ∧
        t.sent = s.sent ++ [.memory r 0 old] ∧ RegsSame s t [])

open Sys2Proof.Claim in
/-- Add-to-line (R240, R241, R243): in FP32 every element becomes the rounded sum; in EXACT96 every sector whose containers all
combine takes the combined containers, and one that faults is left as it was, its code answered and captured in
CNV_GLZ_ERR. -/
def Sys2Proof.Claim.AddToLine : Prop :=
  ∀ (s : State) (r : MemReq) (l : GlazeLine) (bs : List Byte), AtSlice s r → Resident s r l → bs.length = r.len →
    r.dpa % 256 = 0 → r.len % 256 = 0 →
    (∃ t, exec (.addToLineFp32 r bs) s = .next t ∧ Written s t r l (addFp32Bytes (getBytes s.glz.data r.dpa r.len) bs) ∧
      t.sent = s.sent ++ [.memory r 0 []] ∧
      t.rd CNV_GLZ_ADDL_SECTORS.COUNT (reqCanvas r) = s.rd CNV_GLZ_ADDL_SECTORS.COUNT (reqCanvas r) + BitVec.ofNat 64 (r.len / 256) ∧
      RegsSame s t [CNV_GLZ_ADDL_SECTORS.COUNT.key (reqCanvas r)]) ∧
    (r.len = 256 → ∀ ys, addEx96Sector (getBytes s.glz.data r.dpa 256) bs = .ok ys →
      ∃ t, exec (.addToLineEx96 r bs) s = .next t ∧ Written s t r l ys ∧ t.sent = s.sent ++ [.memory r 0 []] ∧
        RegsSame s t [CNV_GLZ_ADDL_SECTORS.COUNT.key (reqCanvas r)]) ∧
    (r.len = 256 → ∀ e, addEx96Sector (getBytes s.glz.data r.dpa 256) bs = .error e →
      ∃ t, exec (.addToLineEx96 r bs) s = .next t ∧ t.sent = s.sent ++ [.memory r e []] ∧ t.glz = s.glz ∧ t.mem = s.mem ∧
        t.on CNV_GLZ_STATUS.ADD_FAULT (reqCanvas r) = true ∧
        (s.on CNV_GLZ_ERR.VALID (reqCanvas r) = false → t.on CNV_GLZ_ERR.VALID (reqCanvas r) = true ∧
          t.rdN CNV_GLZ_ERR.DPA (reqCanvas r) = r.dpa % 2 ^ 40 ∧ t.rd CNV_GLZ_ERR.CODE (reqCanvas r) = codeVal e))

open Sys2Proof.Claim in
/-- A turn of a line (R249): for every element size, element (r, c) of the 32 rows of 64 bytes comes back at index
32 c + r. -/
def Sys2Proof.Claim.TurnedElements : Prop :=
  ∀ (bs : List Byte) (e r c j : Nat), bs.length = 2048 → e = 1 ∨ e = 2 ∨ e = 4 → r < 32 → c < 64 / e → j < e →
    (turned e bs).length = 2048 ∧ (turned e bs).getD (e * (32 * c + r) + j) 0 = bs.getD (64 * r + e * c + j) 0

open Sys2Proof.Claim in
/-- Fills (R216, R218, R236, R509): a fill delivered to the one read that waits for it answers the row's bytes, leaves the line
VALID and clean and releases the slot; the longest-waiting request that may proceed is the one that takes a place; a refresh
takes its bank for 80 ns from its offset in the period. -/
def Obligations.Fills : Prop :=
  ∀ (s : State) (canvas line : Nat),
    (∀ (r : MemReq) (w : Nat), keyOf r.dpa = lineKey canvas line → canvas < 4 → line < 0x2000000 →
      reqInLine r = true → targetOf r.dpa = .gesso canvas (r.dpa % 0x1000000000) →
      s.slot (lineKey canvas line) = some ⟨[⟨r, .read⟩], false, none, false⟩ →
      s.line (lineKey canvas line) = some ⟨w, 0, 0, false, false⟩ →
      s.refreshing (lineKey canvas line) = false → s.refusal (gessoIsland canvas line) = none →
      (∀ i < 64, s.cwUnreadable (lineKey canvas line) i = false) →
      ∃ t, exec (.fillDelivery canvas line []) s = .next t ∧
        t.sent = s.sent ++ [.memory r 0 ((((List.range 8).flatMap (s.rowSector (lineKey canvas line))).drop (r.dpa % 2048)).take r.len)] ∧
        t.slot (lineKey canvas line) = none ∧ t.line (lineKey canvas line) = some ⟨w, 255, 0, false, false⟩ ∧ t.mem = s.mem) ∧
    (∀ j, s.glz.waiting.find? (fun j => decide (j.req.dpa / 0x1000000000 = canvas) &&
        match s.arrive j with | .off _ => false | _ => true) = some j →
      exec (.fillSlotGrant canvas) s = .next ((s.onGlz (fun g => { g with waiting := g.waiting.erase j })).request j)) ∧
    (∀ bank, canvas < 4 → bank < 32 → s.now % s.refreshPeriod canvas = s.refreshPeriod canvas / 32 * bank →
      ∃ t, exec (.gessoRefresh canvas bank) s = .next t ∧ Tab.get t.gso.refresh (canvas * 32 + bank) none = some (s.now + 80) ∧
        t = { s with gso := { s.gso with refresh := t.gso.refresh } })

open Sys2Proof.Claim in
/-- Write-backs (R234, R281, R620): when a victim's write-back is performed, the bytes of its DIRTY sectors are in memory, every
other byte of memory is as before where the row was not all zero, and the line has left the victim buffer; a write-back that
the gesso island refuses stays there and answers nobody. -/
def Sys2Proof.Claim.WriteBacks : Prop :=
  ∀ (s : State) (canvas line : Nat) (v : Victim), canvas < 4 → line < 0x2000000 → s.victim (lineKey canvas line) = some v →
    (s.refusal (gessoIsland canvas line) = none → s.refreshing (lineKey canvas line) = false → (s.rowMeta (lineKey canvas line)).zt = false →
      ∀ i, i = Instr.writebackDone canvas line ∨ i = Instr.writebackRetry canvas line →
      ∃ t, exec i s = .next t ∧ t.victim (lineKey canvas line) = none ∧ t.sent = s.sent ∧
        (∀ a, targetOf a = .gesso canvas (line * 2048 + a % 2048) → memRead t.mem a =
          if v.dirty.getLsbD (a % 2048 / 256) then some (glzByte s a) else memRead s.mem a) ∧
        (∀ a, a < lineDpa canvas line ∨ lineDpa canvas line + 2048 ≤ a → memRead t.mem a = memRead s.mem a)) ∧
    (∀ e, s.refusal (gessoIsland canvas line) = some e →
      ∃ t, exec (.writebackRetry canvas line) s = .next t ∧
        (∃ n, t.victim (lineKey canvas line) = some { v with first := if v.tries = 0 then s.now else v.first, tries := n }) ∧
        t.sent = s.sent ∧ t.mem = s.mem)

open Sys2Proof.Claim in
/-- Flushes (R239): WRITE_BACK and INVALIDATE begin with FLUSH_BUSY; when the flush ends, no line of its range is DIRTY and none is
left in the victim buffer, after INVALIDATE only TACKED lines of the range are still resident, lines outside the range are as
before, and FLUSH_DONE is set. -/
def Sys2Proof.Claim.Flushes : Prop :=
  ∀ (s : State) (c lines : Nat), c < 4 →
    (s.on CNV_GLZ_STATUS.FLUSH_BUSY c = false → s.woQueue CNV_GLZ_FLUSH_CMD.OP c = [] → ∀ inv : Bool,
      ∃ t, exec (if inv then .flushInvalidate c lines else .flushWriteBack c lines) s = .next t ∧
        Tab.get t.glz.flush c none = some ⟨s.rdN CNV_GLZ_FLUSH_BASE.BASE_LINE c, lines % 2 ^ 25, inv⟩ ∧
        t.on CNV_GLZ_STATUS.FLUSH_BUSY c = true ∧ RegsSame s t [CNV_GLZ_STATUS.FLUSH_BUSY.key c] ∧
        t = { s with regs := t.regs, glz := { s.glz with flush := t.glz.flush } }) ∧
    (∀ f, Tab.get s.glz.flush c none = some f → (∀ l, s.refusal (gessoIsland c l) = none) → (∀ k, s.refreshing k = false) →
      ∃ t, exec (.flushDone c) s = .next t ∧ Tab.get t.glz.flush c none = none ∧
        t.on CNV_GLZ_STATUS.FLUSH_BUSY c = false ∧ t.on CNV_GLZ_STATUS.FLUSH_DONE c = true ∧
        (∀ k, f.covers c k = true → t.victim k = none ∧
          (∀ l, t.line k = some l → l.dirty = 0 ∧ (f.inv = true → l.tacked = true ∨ (s.slot k).isSome = true))) ∧
        (∀ k, f.covers c k = false → t.line k = s.line k ∧ t.victim k = s.victim k))

open Sys2Proof.Claim in
/-- The read-only caches (R229, R231): RO_INV begins with INV_BUSY and ends with every line of the canvas's panels discarded; a
line is filled from what its reads return. -/
def Sys2Proof.Claim.ReadOnlyCaches : Prop :=
  ∀ (s : State) (c : Nat), c < 4 →
    (s.on CNV_GLZ_STATUS.INV_BUSY c = false → s.woQueue CNV_GLZ_RO_INV.GO c = [] →
      ∃ t, exec (.roInv c) s = .next t ∧ t.on CNV_GLZ_STATUS.INV_BUSY c = true ∧ RegsSame s t [CNV_GLZ_STATUS.INV_BUSY.key c] ∧
        t = { s with regs := t.regs }) ∧
    (s.on CNV_GLZ_STATUS.INV_BUSY c = true →
      ∃ t, exec (.roInvDone c) s = .next t ∧ t.on CNV_GLZ_STATUS.INV_BUSY c = false ∧ RegsSame s t [CNV_GLZ_STATUS.INV_BUSY.key c] ∧
        (∀ p x d, p < 1024 → x < 3 → d < 2 ^ 40 →
          Tab.find t.glz.ro (roKey p x d) = if p / 256 = c then none else Tab.find s.glz.ro (roKey p x d)) ∧
        t = { s with regs := t.regs, glz := { s.glz with ro := t.glz.ro } }) ∧
    (∀ (p x d : Nat) (bs : List Byte) (u : State), s.readRange (roAgent p x) (d / 512 * 512) 512 = .done 0 bs u →
      ∃ t, exec (.roFillDone p x d) s = .next t ∧ Tab.get t.glz.ro (roKey p x d) none = some bs ∧
        (∀ k, k ≠ roKey p x d → Tab.get t.glz.ro k none = Tab.get u.glz.ro k none) ∧
        t = { u with glz := { u.glz with ro := t.glz.ro } })

open Sys2Proof.Claim in
/-- Tack ranges (R245): a write that overlaps no other enabled entry takes its values, with ENABLE where it asks for it and names
lines; one that enables an overlapping entry stays disabled, with CONFLICT and TACK_REFUSED. -/
def Sys2Proof.Claim.TackRanges : Prop :=
  ∀ (s : State) (c e : Nat) (v : Val), c < 4 → e < 64 →
    let base := v.toNat % 2 ^ 25
    let lines := v.toNat / 2 ^ 25 % 2 ^ 25
    let clash := v.getLsbD 63 = true ∧ lines > 0 ∧ ∃ x, x < 64 ∧ x ≠ e ∧ s.on CNV_GLZ_TACK_RANGE.ENABLE (c * 64 + x) = true ∧
      s.rdN CNV_GLZ_TACK_RANGE.BASE_LINE (c * 64 + x) < base + lines ∧
      base < s.rdN CNV_GLZ_TACK_RANGE.BASE_LINE (c * 64 + x) + s.rdN CNV_GLZ_TACK_RANGE.LINES (c * 64 + x)
    ∃ t, exec (.tackRangeWrite c e v) s = .next t ∧
      t.rdN CNV_GLZ_TACK_RANGE.BASE_LINE (c * 64 + e) = base ∧ t.rdN CNV_GLZ_TACK_RANGE.LINES (c * 64 + e) = lines ∧
      (clash → t.on CNV_GLZ_TACK_RANGE.ENABLE (c * 64 + e) = false ∧ t.on CNV_GLZ_TACK_RANGE.CONFLICT (c * 64 + e) = true ∧
        t.on CNV_GLZ_STATUS.TACK_REFUSED c = true) ∧
      (¬ clash → t.on CNV_GLZ_TACK_RANGE.ENABLE (c * 64 + e) = (v.getLsbD 63 && decide (lines > 0)) ∧
        t.on CNV_GLZ_TACK_RANGE.CONFLICT (c * 64 + e) = false ∧
        t.rd CNV_GLZ_STATUS.TACK_REFUSED c = s.rd CNV_GLZ_STATUS.TACK_REFUSED c) ∧
      RegsSame s t [CNV_GLZ_TACK_RANGE.BASE_LINE.key (c * 64 + e), CNV_GLZ_TACK_RANGE.LINES.key (c * 64 + e),
        CNV_GLZ_TACK_RANGE.ENABLE.key (c * 64 + e), CNV_GLZ_TACK_RANGE.CONFLICT.key (c * 64 + e),
        CNV_GLZ_STATUS.TACK_REFUSED.key c, CNV_GLZ_TACK_INUSE.LINES.key c] ∧
      t = { s with regs := t.regs, glz := { s.glz with lines := t.glz.lines } } ∧
      ∀ k, (t.line k).map (fun l => { l with tacked := false }) = (s.line k).map (fun l => { l with tacked := false })

open Sys2Proof.Claim in
/-- Tier 2. Reads, writes, adds and turned elements at the slices. -/
def Obligations.SliceCommands : Prop := SliceReads ∧ SliceWrites ∧ AddToLine ∧ TurnedElements

open Sys2Proof.Claim in
/-- Tier 2. How dirty lines leave the glaze: write-backs and flushes. -/
def Obligations.WriteBacksAndFlushes : Prop := WriteBacks ∧ Flushes

open Sys2Proof.Claim in
/-- Tier 2. The read-only caches and the tack entries. -/
def Obligations.CachesAndTacks : Prop := ReadOnlyCaches ∧ TackRanges


/-! ### Row engines, and what every ring queue shares (chapter 08) -/

namespace Sys2Proof.Claim

/-- A queue's registers can be reached from a port, which may write them (R267, R497, R542). -/
def QReach (s : State) (port : Port) (q : QId) : Prop :=
  q.exists_ = true ∧ s.island q.island = islActive ∧ s.hostBarred port = false ∧
    (s.on SEC_STATUS.CONF 0 = true → port = .host → (s.qPart q).isSome = true)

/-- The register fields of a queue that its control may change, and the summary bits that follow its STATE. -/
def qKeys (q : QId) : List Nat :=
  let f := q.kind.fields
  [f.tail.key q.n, f.head.key q.n, f.state.key q.n, f.code.key q.n, f.err.key q.n, f.enable.key q.n,
    CNV_ROW_STATUS.Q_ERR.key (q.n / 65), CNV_FIN_STATUS.Q_ERR.key (q.n / 65), COL_STATUS.Q_ERR.key 0,
    DMA_ENG_STATUS.CH_ERR.key (q.n / 64)]

/-- The commands that write the TAIL of a queue. -/
def TailCommand (port : Port) (c n : Nat) (x : Word32) (i : Instr) (q : QId) : Prop :=
  (i = .rowQTail port c n x ∧ q = rowQ c n) ∨ (i = .finQTail port c n x ∧ q = finQ c n) ∨ (i = .coatQTail port n x ∧ q = coatQ n) ∨
    (i = .colQTail port n x ∧ q = ⟨.col, n⟩) ∨ (i = .dmaTailWrite port n x ∧ q = dmaQ n)

/-- The commands that resume a queue. -/
def ResumeCommand (port : Port) (c n : Nat) (i : Instr) (q : QId) : Prop :=
  (i = .rowQResume port c n ∧ q = rowQ c n) ∨ (i = .finQResume port c n ∧ q = finQ c n) ∨ (i = .coatQResume port n ∧ q = coatQ n) ∨
    (i = .colQResume port n ∧ q = ⟨.col, n⟩) ∨ (i = .dmaResumeRetry port n ∧ q = dmaQ n)

/-- The commands that write the ENABLE of a queue. -/
def EnableCommand (port : Port) (c n : Nat) (b : Bool) (i : Instr) (q : QId) : Prop :=
  (i = .rowQEnable port c n b ∧ q = rowQ c n) ∨ (i = .finQEnable port c n b ∧ q = finQ c n) ∨ (i = .coatQEnable port n b ∧ q = coatQ n) ∨
    (i = .colQEnable port n b ∧ q = ⟨.col, n⟩) ∨ (i = .dmaEnable port n b ∧ q = dmaQ n)

/-- A TAIL that R270 allows: at most the ring's size ahead of HEAD, and not behind the next command to be read. -/
def TailAllowed (s : State) (q : QId) (tail : Nat) : Prop :=
  seqAhead (s.rdN q.kind.fields.head q.n) tail ≤ s.qSize q ∧
    seqAhead (s.rdN q.kind.fields.head q.n) (s.ring q).read ≤ seqAhead (s.rdN q.kind.fields.head q.n) tail

/-- STATE of a queue that is not halted (R622). -/
def runState (s t : State) (q : QId) : Nat :=
  if (s.ring q).busy || (t.qOn q && t.rd q.kind.fields.head q.n != t.rd q.kind.fields.tail q.n) then 1 else 0

end Sys2Proof.Claim

open Sys2Proof.Claim in
/-- A write of TAIL, for every kind of ring queue (R269, R270, R622): TAIL takes the value; where R270 allows it the queue runs on,
and otherwise the queue halts with its overrun code, ERR is set and TAIL keeps the value written. -/
def Sys2Proof.Claim.QueueTails : Prop :=
  ∀ (s : State) (port : Port) (c n : Nat) (x : Word32) (i : Instr) (q : QId), TailCommand port c n x i q → QReach s port q →
    ∃ t, exec i s = .next t ∧ t.rd q.kind.fields.tail q.n = x.setWidth 64 ∧
      (TailAllowed s q x.toNat →
        t.rdN q.kind.fields.state q.n =
          (if 2 ≤ s.rdN q.kind.fields.state q.n then s.rdN q.kind.fields.state q.n else runState s t q) ∧
        RegsSame s t [q.kind.fields.tail.key q.n, q.kind.fields.state.key q.n] ∧ t = { s with regs := t.regs }) ∧
      (¬ TailAllowed s q x.toNat →
        t.rdN q.kind.fields.state q.n = 2 ∧ t.rd q.kind.fields.code q.n = codeVal q.kind.overrun ∧
        t.on q.kind.fields.err q.n = true ∧ t.rd q.kind.fields.head q.n = s.rd q.kind.fields.head q.n ∧
        t.ring q = { s.ring q with overrun := true } ∧ RegsSame s t (qKeys q) ∧ t = { s with regs := t.regs, rings := t.rings })

open Sys2Proof.Claim in
/-- RESUME and ENABLE, for every kind of ring queue (R270, R273, R274, R622): RESUME of a queue that is not halted does nothing; it
skips the failed command, counting it as completed; after an overrun it skips none and checks TAIL again; ENABLE takes its
value and STATE follows. -/
def Sys2Proof.Claim.QueueControl : Prop :=
  ∀ (s : State) (port : Port) (c n : Nat) (q : QId), QReach s port q → Tab.get s.dma.broken n none = none →
    (∀ i, ResumeCommand port c n i q →
      (s.qHalted q = false → exec i s = .next s) ∧
      (s.qHalted q = true → (s.ring q).overrun = false → (s.ring q).failed = [s.rdN q.kind.fields.head q.n] → (s.ring q).done = [] →
        ∃ t, exec i s = .next t ∧ t.rdN q.kind.fields.head q.n = seqNext (s.rdN q.kind.fields.head q.n) ∧
          t.rdN q.kind.fields.state q.n = runState s t q ∧ (t.ring q).failed = [] ∧ RegsSame s t (qKeys q) ∧
          t = { s with regs := t.regs, rings := t.rings }) ∧
      (s.qHalted q = true → (s.ring q).overrun = true → (s.ring q).failed = [] → (s.ring q).done = [] →
        ∃ t, exec i s = .next t ∧ t.rd q.kind.fields.head q.n = s.rd q.kind.fields.head q.n ∧
          t.rdN q.kind.fields.state q.n =
            (if s.qTailOk q then runState s t q else 2) ∧
          RegsSame s t (qKeys q) ∧ t = { s with regs := t.regs, rings := t.rings })) ∧
    (∀ b i, EnableCommand port c n b i q →
      ∃ t, exec i s = .next t ∧ t.on q.kind.fields.enable q.n = b ∧
        (s.rdN q.kind.fields.state q.n < 2 → t.rdN q.kind.fields.state q.n = runState s t q) ∧
        (s.rdN q.kind.fields.state q.n = 2 → t.rdN q.kind.fields.state q.n = 2) ∧
        RegsSame s t [q.kind.fields.enable.key q.n, q.kind.fields.state.key q.n] ∧ t = { s with regs := t.regs })

namespace Sys2Proof.Claim

/-- The row commands, each with the operation that it starts; none for a reserved one. -/
def RowCommand (c q : Nat) (i : Instr) (op : Option RowOp) : Prop :=
  (i = .rowCopy c q ∧ op = some .copy) ∨ (i = .rowFill c q ∧ op = some .fill) ∨ (i = .rowZero c q ∧ op = some .zero) ∨
    (i = .rowAnd c q ∧ op = some .and) ∨ (i = .rowOr c q ∧ op = some .or) ∨ (i = .rowXor c q ∧ op = some .xor) ∨
    (i = .rowAndn c q ∧ op = some .andn) ∨ (i = .rowXnor c q ∧ op = some .xnor) ∨ (i = .rowNot c q ∧ op = some .not) ∨
    (i = .rowSelect c q ∧ op = some .select) ∨ (i = .rowOpReserved c q ∧ op = none)

/-- A refused row command (R266, R273): the queue halts with the code, the command's number and the line; it is read but not
started, and the commands already running go on. -/
def RowRefused (c q seq : Nat) (code : Code) (line : Dpa) (u t : State) : Prop :=
  t.rdN CNV_ROW_Q_STATUS.STATE (c * 65 + q) = 2 ∧ t.rd CNV_ROW_Q_STATUS.CODE (c * 65 + q) = codeVal code ∧
  t.on CNV_ROW_Q_STATUS.ERR (c * 65 + q) = true ∧ t.rdN CNV_ROW_Q_FAIL.SEQ (c * 65 + q) = seq % 2 ^ 24 ∧
  t.rdN CNV_ROW_Q_FAIL.DPA (c * 65 + q) = line % 2 ^ 40 ∧ t.rows = u.rows ∧ t.mem = u.mem

/-- The byte that a row engine reads at a place of a row (R262, R281). -/
def rowByte (s : State) (k j : Nat) : Byte :=
  if (s.rowMeta k).zt then 0 else (memRead s.mem (lineDpa (keyCanvas k) (keyLine k) + j)).getD 0

/-- The byte that a row operation writes, from the bytes of A, B and D at its place (the table of R262). -/
def rowOut (op : RowOp) (p : Val) (a b d : Byte) (j : Nat) : Byte :=
  match op with
  | .copy => a
  | .fill => (p >>> (8 * (j % 8))).setWidth 8
  | .zero => 0
  | .and => a &&& b
  | .or => a ||| b
  | .xor => a ^^^ b
  | .andn => a &&& ~~~b
  | .xnor => ~~~(a ^^^ b)
  | .not => ~~~a
  | .select => (b &&& a) ||| (~~~b &&& d)

/-- The metadata written with D (the table of R262). -/
def rowMetaOut (op : RowOp) (a : RowMeta) : RowMeta :=
  match op with
  | .copy => a
  | .zero => ⟨true, 0⟩
  | _ => ⟨false, 0⟩

end Sys2Proof.Claim

open Sys2Proof.Claim in
/-- The row commands (R264 to R266, R271, R273): the command that a queue reads next is started where the check of R266 passes, with
the fields of its 32 bytes; a refused one, and every one of a reserved OP, halts the queue with its code and number. -/
def Sys2Proof.Claim.RowCommands : Prop :=
  ∀ (s u : State) (c q : Nat) (bs : List Byte) (i : Instr) (op : Option RowOp), c < 4 → q < 65 → RowCommand c q i op →
    s.qNext (rowQ c q) = .cmd bs u → rowOpOf (leField bs 0 1) = op →
    u.qMayStart (rowQ c q) ((bs.getD 1 0).getLsbD 0) (u.rowCmds c q).length 7 = true →
    let k := rowFields (u.ring (rowQ c q)).read bs
    (∀ o, op = some o → u.rowCheck c q k o bs = none →
      ∃ t, exec i s = .next t ∧ t.rowCmds c q = u.rowCmds c q ++ [k] ∧
        (t.ring (rowQ c q)).read = seqNext (u.ring (rowQ c q)).read ∧
        (∀ x, x ≠ c * 65 + q → Tab.get t.rows.cmds x [] = Tab.get u.rows.cmds x []) ∧
        RegsSame u t [CNV_ROW_Q_STATUS.STATE.key (c * 65 + q)] ∧
        t = { u with regs := t.regs, rings := t.rings, rows := t.rows }) ∧
    (∀ o code d, op = some o → u.rowCheck c q k o bs = some (code, d) → ∃ t, exec i s = .next t ∧ RowRefused c q k.seq code d u t) ∧
    (op = none → ∃ t, exec i s = .next t ∧ RowRefused c q k.seq 0x0901 0 u t)

open Sys2Proof.Claim in
/-- A row operation (R262, R263, R276, R281): its dispatch holds the lines it names; when it is performed the destination row holds the
operation's bytes and metadata, every other byte of memory is as before, the lines are released and the operation is
counted. -/
def Sys2Proof.Claim.RowOperations : Prop :=
  ∀ (s : State) (c q seq : Nat) (k : RowCmd) (op : RowOp), c < 4 → q < 65 →
    (s.rowCmds c q).find? (fun k => k.seq == seq) = some k → rowOpOf k.op = some op → (∀ i < k.lines, ∀ x ∈ k.operands op i, 0 ≤ x.1 ∧ x.1 < 2 ^ 25) →
    (s.qOn (rowQ c q) = true → k.next < k.lines → s.bankLoad c (rowLine k.dst k.dstStep k.next).toNat < 64 →
      (∀ x ∈ k.keys op c k.next, s.lineHeld x = false ∧ s.slot x = none ∧ s.victim x = none ∧ s.line x = none) →
      ∃ t, exec (.rowOpDispatch c q seq) s = .next t ∧ (∀ x ∈ k.keys op c k.next, t.lineHeld x = true) ∧
        (∀ x, x ∉ k.keys op c k.next → t.lineHeld x = s.lineHeld x) ∧ t.mem = s.mem ∧
        { k with next := k.next + 1, flying := k.flying ++ [k.next] } ∈ t.rowCmds c q) ∧
    (∀ i, i ∈ k.flying → i < k.lines →
      let ka := lineKey c (rowLine k.a k.aStep i).toNat
      let kb := lineKey c (rowLine k.b k.bStep i).toNat
      let kd := lineKey c (rowLine k.dst k.dstStep i).toNat
      s.refusal (gessoIsland c (rowLine k.dst k.dstStep i).toNat) = none →
      (∀ x ∈ k.keys op c i, s.refreshing x = false ∧ Tab.get s.glz.held x none = some [] ∧ (∀ w < 64, s.cwUnreadable x w = false) ∧
        (s.line x = none ∨ ∃ l, s.line x = some l ∧ l.dirty = 0)) →
      ∃ t, exec (.rowOpPerformed c q seq i []) s = .next t ∧
        (∀ j, j < 2048 → memRead t.mem (lineDpa c (keyLine kd) + j) =
          some (rowOut op k.pattern (rowByte s ka j) (rowByte s kb j) (rowByte s kd j) j)) ∧
        (∀ a, a < lineDpa c (keyLine kd) ∨ lineDpa c (keyLine kd) + 2048 ≤ a → Tab.find t.mem a = Tab.find s.mem a) ∧
        t.rowMeta kd = rowMetaOut op (s.rowMeta ka) ∧ (∀ x, x ≠ kd → t.rowMeta x = s.rowMeta x) ∧
        (∀ x ∈ k.keys op c i, t.lineHeld x = false) ∧
        t.rd CNV_ROW_OPS.COUNT c = s.rd CNV_ROW_OPS.COUNT c + 1)

open Sys2Proof.Claim in
/-- Tier 2. The queues: TAIL writes and control. -/
def Obligations.Queues : Prop := QueueTails ∧ QueueControl

open Sys2Proof.Claim in
/-- Tier 2. The row commands of a queue and the row operations they run. -/
def Obligations.GessoRows : Prop := RowCommands ∧ RowOperations


/-! ### Finish units and training state (chapter 09) -/

namespace Sys2Proof.Claim

/-- A task of a finish queue that still has its work to do, with its descriptor. -/
def Running (s : State) (c q seq recipe : Nat) (k : FinTask) (d : TaskDesc) : Prop :=
  s.finTask c q seq = some k ∧ k.done = false ∧ d = TaskDesc.ofBytes k.desc ∧ d.recipe = recipe

/-- The task's work has ended with a code, after its last write: nothing but the task's own record changes any more until the
task completes. -/
def WorkEnded (u t : State) (c : Nat) (k : FinTask) (code : Code) : Prop :=
  ∃ ev, t = u.putTask c { k with done := true, code := code, events := ev }

/-- A built-in recipe on operands that read well: it writes the values that its pseudocode computes from the current version,
the gradient and the hyperparameters to the next version and the working copy (R298, R302), and ends with the code of its
writes. -/
def RecipeRuns (mk : Nat → Nat → Nat → Instr) (recipe : Nat) : Prop :=
  ∀ (s u v : State) (c q seq : Nat) (k : FinTask) (d : TaskDesc) (bs : List (List Byte)) (gs : List (Machine.Num × Events × Bool)) (code : Code),
    Running s c q seq recipe k d → s.finReads (k.agent c d) (d.recipeReads k.step) = some (bs, none, u) →
    gradElems d.gfmt d.n (bs.getD 1 []) = .ok gs →
    let hp := wordsOf (bs.getD 2 [])
    let iters := if recipe = 3 then (if hp.getD 8 0 = 0 then 5 else hp.getD 8 0) else (if hp.getD 7 0 = 0 then 12 else hp.getD 7 0)
    (recipe = 3 → hp.getD 8 0 < 2 ^ 31) → (recipe = 4 → hp.getD 7 0 < 2 ^ 31 ∧ 0 < hp.getD 6 0 ∧ hp.getD 6 0 < 2 ^ 31) →
    let r := d.compute bs gs iters (d.stepReq % hp.getD 6 0 == 0) (u.jobSeed (some k.part) false)
    let sc := if recipe = 3 ∨ recipe = 4 then u.scratchLeft d.scratchBytes else ([], u)
    sc.2.finWrites (k.agent c d) (d.recipeWrites k.step r.1 r.2.1 sc.1) = some (code, v) →
    ∃ t, exec (mk c q seq) s = .next t ∧ WorkEnded v t c k code

end Sys2Proof.Claim

open Sys2Proof.Claim in
/-- The built-in recipes FIN_ADAMW, FIN_SIGNMOM, FIN_ORTHO and FIN_KRON (R298, R302 to R305), with ITERS not negative and for
FIN_KRON ROOT_EVERY at least 1; what FIN_ORTHO and FIN_KRON leave in SCRATCH is a free value. -/
def Sys2Proof.Claim.FinishRecipes : Prop :=
  RecipeRuns .finAdamw 1 ∧ RecipeRuns .finSignmom 2 ∧ RecipeRuns .finOrtho 3 ∧ RecipeRuns .finKron 4

open Sys2Proof.Claim in
/-- The elementwise recipes do not mix elements (R302): what FIN_ADAMW and FIN_SIGNMOM write for an element depends on that element
and the hyperparameters alone, so a task may be cut into parts in any way and the parts put together give the same bits
(R290). -/
def Sys2Proof.Claim.RecipeElements : Prop :=
  ∀ (r : RecipeIn) (i : Nat), i < r.g.length → r.w.length = r.g.length → r.m1.length = r.g.length →
    (r.m2.length = r.g.length → ∃ e, (adamwElem r (r.g.getD i 0) (r.w.getD i 0) (r.m1.getD i 0) (r.m2.getD i 0) e).1 =
      ((adamw r .none).1.w.getD i 0, (adamw r .none).1.m1.getD i 0, (adamw r .none).1.m2.getD i 0)) ∧
    (∃ e, (signmomElem r (r.g.getD i 0) (r.w.getD i 0) (r.m1.getD i 0) e).1 =
      ((signmom r .none).1.w.getD i 0, (signmom r .none).1.m1.getD i 0)) ∧
    (∀ e e', (adamwElem r (r.g.getD i 0) (r.w.getD i 0) (r.m1.getD i 0) (r.m2.getD i 0) e).1 =
      (adamwElem r (r.g.getD i 0) (r.w.getD i 0) (r.m1.getD i 0) (r.m2.getD i 0) e').1)

open Sys2Proof.Claim in
/-- FIN_CLEAR (R301): it writes zeros over G, +0 for every FP32 element and for an EXACT96 gradient containers on the grid of byte
96 with V = 0 and no flag. -/
def Sys2Proof.Claim.FinishClear : Prop :=
  (∀ (s v : State) (c q seq : Nat) (k : FinTask) (d : TaskDesc) (code : Code), Running s c q seq 6 k d →
    s.finWrites (k.agent c d) [((d.g : Int), clearBytes d.gfmt (k.desc.getD 96 0) (sectorUp d.gBytes))] = some (code, v) →
    ∃ t, exec (.finClear c q seq) s = .next t ∧ WorkEnded v t c k code) ∧
  (∀ (grid : BitVec 8) (n : Nat),
    (∀ i < n, (clearBytes 0 grid n).getD i 1 = 0) ∧
    (∀ i, i < 21 * n → Exact.unpack (leField (clearBytes 12 grid (256 * n)) (256 * (i / 21) + 12 * (i % 21)) 12) = some (Exact.zero grid)))

open Sys2Proof.Claim in
/-- Signatures (R309): the signature of elements does not depend on their order, and the signature of a whole is the exclusive or
of the signatures of its parts, under any sharding. -/
def Obligations.SignatureAdditive : Prop :=
  ∀ (h : BitVec 128) (fmt : Nat),
    (∀ xs ys : List (Nat × Nat), signature h fmt (xs ++ ys) = signature h fmt xs ^^^ signature h fmt ys) ∧
    (∀ xs ys : List (Nat × Nat), xs.Perm ys → signature h fmt xs = signature h fmt ys) ∧
    signature h fmt [] = 0

open Sys2Proof.Claim in
/-- FIN_SIGN, FIN_EXPORT and FIN_ADOPT (R309 to R314) on records and shards that read well: the record is sealed with the signature of the
shard, STEP and VERSION, and for an export the completed record and the data are written at DATA; an adoption whose record
does not agree with the template, or whose signature is not that of its data, writes nothing and ends with its code, and
otherwise it writes the elements that lie in both boxes. -/
def Obligations.ShardRecords : Prop :=
  ∀ (s u v : State) (c q seq : Nat) (k : FinTask) (d : TaskDesc) (hd bs : List (List Byte)),
    (∀ recipe, recipe = 7 ∨ recipe = 8 → Running s c q seq recipe k d →
      s.finReads (k.agent c d) [((d.recAt : Int), 256, 1), (d.hp, 256, 1)] = some (hd, none, u) →
      u.finReads (k.agent c d) [((d.w : Int) + d.shardShift k.step, (Shard.ofBytes (hd.getD 0 [])).bytes, 1)] = some (bs, none, v) →
      ∀ w code, v.finWrites (k.agent c d) (signWrites d k.step (hd.getD 0 []) (hd.getD 1 []) (bs.getD 0 [])) = some (code, w) →
      ∃ t, exec (if recipe = 7 then .finSign c q seq else .finExport c q seq) s = .next t ∧ WorkEnded w t c k code) ∧
    (Running s c q seq 9 k d →
      s.finReads (k.agent c d) [((d.recAt : Int), 256, 1), (d.hp, 256, 1), (d.data, 256, 1)] = some (hd, none, u) →
      let tpl := Shard.ofBytes (hd.getD 0 [])
      let got := Shard.ofBytes (hd.getD 2 [])
      (recordAgrees tpl got = false → ∃ t, exec (.finAdopt c q seq) s = .next t ∧ WorkEnded u t c k 0x0A0A) ∧
      (recordAgrees tpl got = true → u.finReads (k.agent c d) [((d.data : Int) + 256, got.bytes, 1)] = some (bs, none, v) →
        let vals := elemsAt (fmtOf tpl.dtype) (bs.getD 0 []) (List.range (boxCount got.extent))
        ((got.sign (hd.getD 1 []) vals).toNat ≠ leField (hd.getD 2 []) 224 16 →
          ∃ t, exec (.finAdopt c q seq) s = .next t ∧ WorkEnded v t c k 0x0A0B) ∧
        ((got.sign (hd.getD 1 []) vals).toNat = leField (hd.getD 2 []) 224 16 → ∀ w code,
          v.adoptWrite (k.agent c d) (adoptBits d ((d.w : Int) + d.shardShift k.step) tpl got vals) = some (code, w) →
          ∃ t, exec (.finAdopt c q seq) s = .next t ∧ WorkEnded w t c k code)))

open Sys2Proof.Claim in
/-- Tasks from dispatch to completion, user programs, and the committed step (R272, R293 to R295, R299, R306, R307): a task that the
check passes starts on idle units with the committed step that it finds, a refused one halts its queue; a stroke of a user
program that fires has the effect of its operation; a task whose writes are performed leaves its units and its queue goes on;
CNV_FIN_STEP is written only while the queue is IDLE and no open coat names the partition. -/
def Obligations.FinishTasks : Prop :=
  ∀ (s : State) (c q : Nat), c < 4 → q < 65 → s.canvasUp c = true →
    (∀ (t u : State) (b : List Byte), s.finPick c (s.finOrder c) = (t, some (q, b)) →
      (∀ code, t.finCheck c q b = .refuse code u →
        ∃ v, exec (.finTaskDispatch c) s = .next v ∧ v.rdN CNV_FIN_Q_STATUS.STATE (c * 65 + q) = 2 ∧
          v.rd CNV_FIN_Q_STATUS.CODE (c * 65 + q) = codeVal code ∧ v.on CNV_FIN_Q_STATUS.ERR (c * 65 + q) = true ∧
          v.finTasks c = u.finTasks c ∧ v.mem = u.mem) ∧
      (t.finCheck c q b = .ok u →
        let d := TaskDesc.ofBytes b
        let need := min d.units (u.finActive c).length
        0 < need → need ≤ (u.finIdle c).length →
        ∃ v k, exec (.finTaskDispatch c) s = .next v ∧ v.finTasks c = u.finTasks c ++ [k] ∧ k.queue = q ∧ k.desc = b ∧
          k.part = d.part c q ∧ k.step = u.rdN CNV_FIN_STEP.STEP (d.part c q) ∧ k.units.length = need ∧
          (∀ x ∈ k.units, x ∈ u.finIdle c) ∧ k.done = false ∧ v.mem = u.mem)) ∧
    (∀ (seq unit : Nat) (k : FinTask) (d : TaskDesc) (r r2 : UnitRun) (w : BitVec 128) (st : Stroke) (bs : List Byte) (u x : State)
        (ev : Events) (i : Instr),
      (i = .finUser c q seq unit [] ∧ isVec 14 w = false ∧ isVec 15 w = false) ∨ (i = .finVecSqrt c q seq unit ∧ isVec 14 w = true) ∨
        (i = .finVecDiv c q seq unit ∧ isVec 15 w = true) →
      Running s c q seq 5 k d → k.runs.find? (fun y => y.unit == unit) = some r → r.halted = false → r.regions.isEmpty = false →
      inCanvas c r.pc = true → inCanvas c (r.pc + 15) = true →
      (∀ p, (k.agent c d).part = some p → s.windowOk p .x r.pc 16 = true) →
      s.readRange { k.agent c d with src := .finish (c * 16 + unit) } r.pc 16 = .done 0 bs u → w = BitVec.ofNat 128 (leField bs 0 16) →
      decodeStroke true w = .ok st → u.unitDecode (k.agent c d).part r w = none → r.fires (mergeUses st.uses) = true →
      u.unitExec c { k.agent c d with src := .finish (c * 16 + unit) } k (c * 16 + unit) r.pc { r with pc := (r.pc + 16) % 2 ^ 40 } st =
        .done r2 ev x →
      let runs := k.runs.map (fun y => if y.unit = unit then r2.tokens (mergeUses st.uses) else y)
      exec i s = .next (x.putTask c { k with runs := runs, done := runs.all (·.halted), events := k.events ||| eventBits ev })) ∧
    (∀ (seq : Nat) (k k' : FinTask), s.finTask c q seq = some k → k'.queue = q → k'.seq = seq → k'.units = k.units →
      let t := s.putTask c k'
      t.finTask c q seq = some k' ∧ RegsSame s t [CNV_FIN_STATUS.UNITS_BUSY.key c, CNV_FIN_Q_STATUS.STATE.key (c * 65 + q)] ∧
        t = { s with regs := t.regs, rings := t.rings, fin := { s.fin with tasks := t.fin.tasks } }) ∧
    (∀ (seq : Nat) (k : FinTask), s.finTask c q seq = some k → k.done = true → k.code = 0 →
      s.rdN CNV_FIN_Q_HEAD.HEAD (c * 65 + q) = seq → (s.ring (finQ c q)).done = [] →
      ∃ t, exec (.finTaskComplete c q seq) s = .next t ∧ t.finTask c q seq = none ∧
        t.rd CNV_FIN_TASKS.COUNT c = s.rd CNV_FIN_TASKS.COUNT c + 1 ∧
        t.rdN CNV_FIN_Q_HEAD.HEAD (c * 65 + q) = seqNext seq ∧ t.mem = s.mem) ∧
    (∀ (port : Port) (p : Nat) (x : Word32), p / 64 = c → s.hostBarred port = false → (s.on SEC_STATUS.CONF 0 = true → port ≠ .host) →
      let may := s.rdN CNV_FIN_Q_STATUS.STATE (p / 64 * 65 + p % 64) = 0 ∧ ∀ e ∈ s.openCoats, p ∉ e.2.named
      ∃ t, exec (.finStepWrite port p x) s = .next t ∧ t = { s with regs := t.regs } ∧
        (may → t.rd CNV_FIN_STEP.STEP p = x.setWidth 64 ∧ RegsSame s t [CNV_FIN_STEP.STEP.key p]) ∧
        (¬ may → t.on CNV_FIN_STATUS.STEP_REFUSED c = true ∧ RegsSame s t [CNV_FIN_STATUS.STEP_REFUSED.key c]))

open Sys2Proof.Claim in
/-- Tier 2. What the finish recipes compute, element by element, and CLEAR. -/
def Obligations.FinishRecipeSteps : Prop := FinishRecipes ∧ RecipeElements ∧ FinishClear


/-! ### Coats (chapter 10) -/

namespace Sys2Proof.Claim

/-- The registers that show a coat: its entry, its timestamp and COAT_INUSE. -/
def coatKeys (id : Nat) : List Nat :=
  [COAT_ENTRY.STATE.key id, COAT_ENTRY.ROLE.key id, COAT_ENTRY.OWNER.key id, COAT_ENTRY.NACT.key id, COAT_ENTRY.VOTES.key id,
    COAT_TS.TS.key id, COAT_INUSE.OPEN.key 0, COAT_INUSE.ACTIONS.key 0]

/-- No request waits on a line that the coat holds. -/
def Unwaited (s : State) (c : Coat) : Prop :=
  ∀ k ∈ c.lines, Tab.get s.glz.held k none = some [] ∨ Tab.get s.glz.held k none = none

/-- The open coat of a timestamp. -/
def CoatIs (s : State) (ts : Val) (id : Nat) (c : Coat) : Prop := s.coatOf ts = some (id, c) ∧ s.coat id = some c ∧ id < 1024

/-- A coat goes on with a changed record; its entry shows it, and nothing else of the device changes but what it sends. -/
def CoatGoesOn (s t : State) (id : Nat) (c : Coat) (sent : List Msg) : Prop :=
  t.coat id = some c ∧ t.rdN COAT_ENTRY.STATE id = c.stage.num ∧ (∀ j, j ≠ id → t.coat j = s.coat j) ∧ RegsSame s t (coatKeys id) ∧
    t = { s with regs := t.regs, coats := { s.coats with table := t.coats.table }, sent := s.sent ++ sent }

/-- A coat has completed: its id is free, its entry keeps the outcome and the code, it is counted, and memory and the committed
steps are as they were. -/
def CoatEnds (s t : State) (id : Nat) (committed : Bool) (code : Code) : Prop :=
  t.coat id = none ∧ (∀ j, j ≠ id → t.coat j = s.coat j) ∧ t.rdN COAT_ENTRY.STATE id = (if committed then 5 else 6) ∧
  t.rd COAT_ENTRY_CODE.CODE id = codeVal code ∧
  (if committed then t.rd COAT_COMMITS.COUNT 0 = s.rd COAT_COMMITS.COUNT 0 + 1
    else t.rd COAT_ABORTS.COUNT 0 = s.rd COAT_ABORTS.COUNT 0 + 1 ∧ t.on COAT_STATUS.ABORTED 0 = true) ∧
  t.mem = s.mem ∧ ∀ p, t.rd CNV_FIN_STEP.STEP p = s.rd CNV_FIN_STEP.STEP p

/-- A coordinator's record after it has decided ABORT. -/
def abortedCoat (c : Coat) (code : Code) (now : Nat) : Coat :=
  { c with held := [], wanted := [], descs := [], stage := .aborted, decided := some code, code := code, ended := some now, acks := c.devices }

/-- A coordinator decides ABORT: its part is released and every device is told (R331, R333). -/
def DecidesAbort (s t : State) (id : Nat) (c : Coat) (code : Code) : Prop :=
  t.coat id = some (abortedCoat c code s.now) ∧ (∀ j, j ≠ id → t.coat j = s.coat j) ∧
  t.sent = s.sent ++ c.devices.map (fun d => .coat .abort d c.ts code) ∧ t.mem = s.mem

/-- A refused coat command (R327, R334): its queue halts with the code, ABORTED is set and the refusal is counted; no coat opens. -/
def CoatRefused (u t : State) (q : Nat) (code : Code) : Prop :=
  t.rdN COAT_Q_STATUS.STATE q = 2 ∧ t.rd COAT_Q_STATUS.CODE q = codeVal code ∧ t.on COAT_STATUS.ABORTED 0 = true ∧
  t.rd COAT_ABORTS.COUNT 0 = u.rd COAT_ABORTS.COUNT 0 + 1 ∧ t.coats = u.coats ∧ t.mem = u.mem

end Sys2Proof.Claim

open Sys2Proof.Claim in
/-- COAT_START (R326, R327): the refusals in the order of R327, each with its code; a participant's part is accepted as staged, with the
fields of its descriptor and its actions; a local coat is accepted and prepares at once. -/
def Obligations.CoatStart : Prop :=
  ∀ (s u : State) (q : Nat) (b : List Byte), q < 257 → s.str.loader.phase = .idle → s.qNext (coatQ q) = .cmd b u →
    u.qMayStart (coatQ q) ((leField b 4 1).testBit 0) (u.openCoats.countP (fun e => e.2.queue == q)) 15 = true →
    let id := leField b 0 2
    let ts := BitVec.ofNat 64 (leField b 8 8)
    (u.coatDescOk q b = false → ∃ t, exec (.coatStart q) s = .next t ∧ CoatRefused u t q 0x0401) ∧
    (u.coatDescOk q b = true → (u.coat id).isSome = true → ∃ t, exec (.coatStart q) s = .next t ∧ CoatRefused u t q 0x0402) ∧
    (u.coatDescOk q b = true → u.coat id = none → (∃ e ∈ u.openCoats, e.2.ts = ts) →
      ∃ t, exec (.coatStart q) s = .next t ∧ CoatRefused u t q 0x0403) ∧
    (u.coatDescOk q b = true → u.coat id = none → (∀ e ∈ u.openCoats, e.2.ts ≠ ts) → ∀ (v : State) (bytes : List Byte) (acts : List (Nat × CoatAction)),
      1 ≤ leField b 24 4 → leField b 24 4 ≤ 1024 →
      u.readRange (coatAgent (0x70000 + q)) (leField b 16 8) (48 * leField b 24 4) = .done 0 bytes v →
      (∀ c < 4, (pieces 48 bytes).countP (fun r => leField r 1 1 == c) ≤ 256) →
      (pieces 48 bytes).filterMap v.parseAction = acts → acts.length = leField b 24 4 →
      (q < 256 → ∀ a ∈ acts, v.actionAllowed q a.2 = true) →
      ∃ w c, c.ts = ts ∧ c.queue = q ∧ c.actions = acts ∧ c.stage = .staged ∧ c.owner = (if q < 256 then q else leField b 42 1) ∧
        c.wide = (leField b 4 1).testBit 3 ∧ w.coat id = some c ∧ w.mem = v.mem ∧ (w.ring (coatQ q)).read = seqNext (v.ring (coatQ q)).read ∧
        ((leField b 4 1).testBit 3 = true → (leField b 4 1).testBit 4 = false →
          (∀ h ∈ v.coats.held, h.1 ≠ ts) → exec (.coatStart q) s = .next w) ∧
        ((leField b 4 1).testBit 3 = false → exec (.coatStart q) s = .next (w.prepareBegin id)))

open Sys2Proof.Claim in
/-- Prepare, locks and the vote (R328 to R331, R335): a part that may prepare begins with its keys requested; a free key goes to a
waiting coat unless an older one waits for it; a part whose every action is held has prepared: a local coat decides COMMIT, a
participant votes YES; a PREPARE with no matching part is held 10 ms. -/
def Obligations.CoatPrepare : Prop :=
  ∀ (s : State) (id : Nat) (c : Coat), id < 1024 → s.coat id = some c →
    ((c.actions.filterMap (fun a => a.2.key)).dedup = [] → s.coatOnLost c = false →
      (∀ st, s.slotsTaken st + c.actions.countP (fun a => a.1 == st) ≤ 2048) → s.patchCheck c = true →
      CoatGoesOn s (s.prepareBegin id) id { c with stage := .preparing, prepAt := some s.now, wanted := [] } []) ∧
    (∀ (coord : Nat), s.coatOf c.ts = some (id, c) → c.wide = true → c.isCoord = false → c.stage = .staged → c.coord = coord →
      exec (.prepare coord c.ts) s = .next (s.prepareBegin id)) ∧
    (∀ (coord : Nat) (ts : Val), s.coatOf ts = none → (∀ h ∈ s.coats.held, h.1 ≠ ts) →
      exec (.prepare coord ts) s = .next { s with coats := { s.coats with held := s.coats.held ++ [(ts, coord, s.now)] } }) ∧
    (∀ (ts : Val), ∃ t, exec (.prepareDiscard ts) s = .next t ∧ t = { s with coats := { s.coats with held := t.coats.held } } ∧
      ∀ h, h ∈ t.coats.held ↔ h ∈ s.coats.held ∧ (h.1 ≠ ts ∨ s.now < h.2.2 + 10000000)) ∧
    (∀ k, c.wanted = [k] → s.lockHolder k = none → (∀ e ∈ s.openCoats, k ∈ e.2.wanted → e.2.ts.ult c.ts = false) →
      ∃ t, exec (.lockGrant id) s = .next t ∧ CoatGoesOn s t id { c with held := c.held ++ [k], wanted := [] } []) ∧
    (c.stage = .preparing → c.wanted = [] → (∀ i < c.actions.length, i ∈ c.conds) → c.actions.length ≤ c.conds.length →
      (c.wide = false → ∃ t, exec (.coatPrepared id) s = .next t ∧
        CoatGoesOn s t id { c with stage := .committed, votedAt := some s.now, votes := if c.isCoord then [s.coord] else [],
                                   decided := some 0, learnt := some s.now } []) ∧
      (c.wide = true → c.isCoord = false → ∃ t, exec (.coatPrepared id) s = .next t ∧
        CoatGoesOn s t id { c with stage := .prepared, votedAt := some s.now, votes := [] } [.coat (.vote true) c.coord c.ts 0])) ∧
    (∀ (cv : Nat) (a : CoatAction), c.stage = .preparing → c.wanted = [] → c.conds = [] → c.actions = [(cv, a)] → c.wide = false → c.isCoord = false →
      s.prepareAction id c 0 a = .ready s →
      ∃ t, exec (.coatPrepared id) s = .next t ∧ t.mem = s.mem ∧
        t.coat id = some { c with conds := [0], stage := .committed, votedAt := some s.now, votes := [], decided := some 0, learnt := some s.now })

open Sys2Proof.Claim in
/-- The coordinator (R331, R333, R335, R338): the last YES decides COMMIT and tells every device; the first NO, and a WOUND, decide ABORT; an
ACK is taken off, and with the last one, or 10 ms after the decision with ACK_MISSING, the coat completes; a QUERY is answered
from the coat table, RESTARTED where it holds no record. -/
def Obligations.CoatCoordinator : Prop :=
  ∀ (s : State) (ts : Val) (id : Nat) (c : Coat), CoatIs s ts id c → c.isCoord = true → c.wide = true →
    (∀ d, c.decided = none → d ∈ c.devices →
      let votes := if c.votes.contains d then c.votes else c.votes ++ [d]
      ((∀ x ∈ c.devices ++ [s.coord], x ∈ votes) → ∃ t, exec (.vote d ts 0) s = .next t ∧
        CoatGoesOn s t id { c with votes := votes, acks := c.devices, stage := .committed, decided := some 0, learnt := some s.now }
          (c.devices.map (fun x => .coat .commit x c.ts 0))) ∧
      ((∃ x ∈ c.devices ++ [s.coord], x ∉ votes) → ∃ t, exec (.vote d ts 0) s = .next t ∧ CoatGoesOn s t id { c with votes := votes } []) ∧
      (∀ code, code ≠ 0 → Unwaited s c → ∃ t, exec (.vote d ts code) s = .next t ∧ DecidesAbort s t id c code)) ∧
    (c.decided = none → Unwaited s c → ∃ t, exec (.wound ts) s = .next t ∧ DecidesAbort s t id c 0x0408 ∧
      t.rd COAT_WOUNDS.COUNT 0 = s.rd COAT_WOUNDS.COUNT 0 + 1) ∧
    (∀ d, c.decided.isSome = true →
      (c.ended = none ∨ (∃ x ∈ c.acks, x ≠ d) → ∃ t, exec (.ack d ts) s = .next t ∧
        CoatGoesOn s t id { c with acks := c.acks.filter (fun x => x != d) } []) ∧
      (c.ended.isSome = true → (∀ x ∈ c.acks, x = d) → ∃ t, exec (.ack d ts) s = .next t ∧ CoatEnds s t id c.learnt.isSome c.code)) ∧
    (c.decided.isSome = true → c.ended.isSome = true → c.acks ≠ [] → c.decidedAt + 10000000 ≤ s.now →
      ∃ t, exec (.ackWaitExpiry id) s = .next t ∧ CoatEnds s t id c.learnt.isSome c.code ∧ t.on COAT_STATUS.ACK_MISSING 0 = true) ∧
    (∀ d, ∃ t, exec (.query d ts) s = .next t ∧ t = { s with sent := t.sent } ∧
      (c.decided = none → t.sent = s.sent ++ [.coat (.outcome 0) d ts 0]) ∧
      (c.decided = some 0 → t.sent = s.sent ++ [.coat (.outcome 1) d ts 0]) ∧
      (∀ e, e ≠ 0 → c.decided = some e → t.sent = s.sent ++ [.coat (.outcome 2) d ts c.code]))

open Sys2Proof.Claim in
/-- A participant after its vote, and doubt (R332, R333, R336, R338, R339, R341): COMMIT is learnt; ABORT releases the part with an ACK; 10 ms after
the vote QUERY goes out every 1 ms; RESTARTED, or 10 ms without an answer, puts the part in doubt; the RESOLVE commands end the
doubt; a part that may still abort does so at its timeout and at software's ABORT; other commands are refused. -/
def Obligations.CoatParticipant : Prop :=
  ∀ (s : State) (ts : Val) (id : Nat) (c : Coat), CoatIs s ts id c →
    let learnt := { c with stage := CoatStage.committed, decided := some 0, learnt := some s.now }
    (c.awaits c.coord = true →
      (∃ t, exec (.commit c.coord ts) s = .next t ∧ CoatGoesOn s t id learnt []) ∧
      (∃ t, exec (.outcome ts 1 0) s = .next t ∧ CoatGoesOn s t id learnt []) ∧
      (∀ code, Unwaited s c → (∃ t, exec (.abort c.coord ts code) s = .next t ∧ CoatEnds s t id false code) ∧
        (∃ t, exec (.outcome ts 2 code) s = .next t ∧ CoatEnds s t id false code)) ∧
      (c.stage ≠ .inDoubt → (∃ t, exec (.outcome ts 3 0) s = .next t ∧ t.coat id = some { c with stage := .inDoubt } ∧ t.on COAT_STATUS.IN_DOUBT 0 = true) ∧
        (c.queried = none → c.votedAt.getD 0 + 10000000 ≤ s.now → ∃ t, exec (.queryTimer id) s = .next t ∧
          CoatGoesOn s t id { c with queried := some (s.now, s.now) } [.coat .query c.coord c.ts 0]) ∧
        (∀ first last, c.queried = some (first, last) →
          (s.now < first + 10000000 → last + 1000000 ≤ s.now → ∃ t, exec (.queryTimer id) s = .next t ∧
            CoatGoesOn s t id { c with queried := some (first, s.now) } [.coat .query c.coord c.ts 0]) ∧
          (first + 10000000 ≤ s.now → ∃ t, exec (.queryTimer id) s = .next t ∧ t.coat id = some { c with stage := .inDoubt } ∧
            t.on COAT_STATUS.IN_DOUBT 0 = true)))) ∧
    (c.wide = false → Unwaited s c → c.expired s.now = true → ∃ t, exec (.coatTimeout id) s = .next t ∧ CoatEnds s t id false 0x0407) ∧
    (s.island 141 = islActive → s.woQueue COAT_CMD.OP 0 = [] →
      (c.wide = false → c.unvoted = true → Unwaited s c → ∃ t, exec (.coatCmdAbort id) s = .next t ∧ CoatEnds s t id false 0x040A) ∧
      (c.unvoted = false → (c.isCoord = true → c.decided.isSome = true) → exec (.coatCmdAbort id) s = .next (s.set1 COAT_STATUS.CMD_REFUSED 0)) ∧
      (c.stage = .inDoubt → (∃ t, exec (.resolveCommit id) s = .next t ∧ CoatGoesOn s t id learnt []) ∧
        (Unwaited s c → c.isCoord = false → ∃ t code, exec (.resolveAbort id) s = .next t ∧ CoatEnds s t id false code)) ∧
      (c.stage ≠ .inDoubt → exec (.resolveCommit id) s = .next (s.set1 COAT_STATUS.CMD_REFUSED 0) ∧
        exec (.resolveAbort id) s = .next (s.set1 COAT_STATUS.CMD_REFUSED 0)))

open Sys2Proof.Claim in
/-- COAT_APPLY (R297, R318, R321, R332, R333): 2 µs after the decision is learnt every action of the part takes effect in one step, and a
local coat completes as committed; a VERSION_FLIP adds 1 to the committed step; a MEM_WRITE changes exactly the masked bits of
its word; before that time nothing happens. -/
def Obligations.CoatApply : Prop :=
  (∀ (s : State) (id : Nat) (c : Coat) (at_ : Nat), id < 1024 → s.coat id = some c → c.learnt = some at_ → c.ended = none →
    (s.now < at_ + 2000 → exec (.coatApply id) s = .next s) ∧
    (at_ + 2000 ≤ s.now → c.wide = false → c.irq = false → c.notify = false → (∀ a ∈ c.actions, ∃ p, a.2 = .versionFlip p ∧ p < 256) →
      (∀ a ∈ c.actions, s.actionLost a = false) → c.descs = [] →
      ∃ t, exec (.coatApply id) s = .next t ∧ t.coat id = none ∧ t.rdN COAT_ENTRY.STATE id = 5 ∧ t.rd COAT_ENTRY_CODE.CODE id = 0 ∧
        (∀ p, p < 256 → s.rdN CNV_FIN_STEP.STEP p < 2 ^ 32 → t.rdN CNV_FIN_STEP.STEP p =
          (s.rdN CNV_FIN_STEP.STEP p + c.actions.countP (fun a => a.2 == .versionFlip p)) % 2 ^ 32) ∧
        t.mem = s.mem)) ∧
  (∀ (s : State) (d : Nat) (v m : Val) (l : GlazeLine), d % 8 = 0 → s.line (keyOf d) = some l → s.wordBad (d / 8) = false →
    s.str.loader.phase = .idle → s.rung d 8 = [] →
    let t := s.applyAction (.memWrite d v m)
    (∀ i < 64, (glzByte t (d + i / 8)).getLsbD (i % 8) = if m.getLsbD i then v.getLsbD i else (glzByte s (d + i / 8)).getLsbD (i % 8)) ∧
    (∀ a, a < d ∨ d + 8 ≤ a → glzByte t a = glzByte s a) ∧ t.mem = s.mem ∧ t.regs = s.regs)

/-! ### DMA engines (chapter 11) -/

namespace Sys2Proof.Claim

/-- The commands that start a descriptor, each with the OP that it is for; 3 stands for every reserved one. -/
def DmaStart (ch : Nat) (i : Instr) (op : Nat) : Prop :=
  (i = .dmaCopy ch ∧ op = 0) ∨ (i = .dmaAdd ch ∧ op = 1) ∨ (i = .dmaTurn ch ∧ op = 2) ∨ (i = .dmaOpReserved ch ∧ op = 3)

/-- The registers that follow a channel's started descriptors. -/
def runKeys (ch : Nat) : List Nat :=
  [DMA_CH_STATUS.TAGS.key ch, DMA_CH_STATUS.STATE.key ch, DMA_ENG_STATUS.TAGS_FREE.key (ch / 64)]

/-- A channel's started descriptors become a list; nothing else of the device changes but the registers that follow them, what is
sent, and the arbitration's turn. -/
def RunsBecome (s t : State) (ch : Nat) (rs : List DmaRun) (sent : List Msg) : Prop :=
  t.dmaRuns ch = rs ∧ (∀ x, x ≠ ch → t.dmaRuns x = s.dmaRuns x) ∧ RegsSame s t (runKeys ch) ∧ t.mem = s.mem ∧ t.glz = s.glz ∧
    t.sent = s.sent ++ sent ∧ t.dma.broken = s.dma.broken

/-- A plain burst in flight, of a descriptor with both ends in this device's gesso or wells. -/
def LocalBurst (s : State) (ch : Nat) (r : DmaRun) (b : DmaBurst) : Prop :=
  s.dmaRun ch r.seq = some r ∧ r.flying.find? (fun x => x.offset == b.offset && !x.again) = some b ∧ r.failed = none ∧
    (dmaDesc r.desc).srcRemote = false ∧ (dmaDesc r.desc).dstRemote = false

end Sys2Proof.Claim

open Sys2Proof.Claim in
/-- Descriptors (R350 to R352, R358, R365): the descriptor that a channel reads next starts where the check of R351 passes, and otherwise
halts the channel with the first code that applies and is kept for RESUME; every reserved OP halts it with DMA_BAD_DESC. -/
def Obligations.DmaDescriptors : Prop :=
  ∀ (s u : State) (ch op : Nat) (b : List Byte) (i : Instr), ch < 320 → DmaStart ch i op → s.on DMA_CH_CTL.STOP ch = false →
    s.qNext (dmaQ ch) = .cmd b u → min (dmaDesc b).op 3 = op → u.dmaRuns ch = [] →
    ((dmaDesc b).fence = true → u.rdN DMA_CH_HEAD.HEAD ch = (u.ring (dmaQ ch)).read) →
    (u.dmaCheck ch b = 0 → op ≠ 3 ∧ ∃ t, exec i s = .next t ∧ RunsBecome u t ch [⟨(u.ring (dmaQ ch)).read, b, 0, [], none, 0, none⟩] [] ∧
      (t.ring (dmaQ ch)).read = seqNext (u.ring (dmaQ ch)).read) ∧
    (u.dmaCheck ch b ≠ 0 → ∃ t, exec i s = .next t ∧ t.dmaRuns ch = [] ∧ t.rdN DMA_CH_STATUS.STATE ch = 2 ∧
      t.rd DMA_CH_STATUS.CODE ch = codeVal (u.dmaCheck ch b) ∧ t.on DMA_CH_STATUS.ERR ch = true ∧ t.rdN DMA_CH_FAIL.OFFSET ch = 0 ∧
      t.rdN DMA_CH_FAIL.SEQ ch = (u.ring (dmaQ ch)).read % 2 ^ 22 ∧ (Tab.get t.dma.broken ch none).isSome = true ∧ t.mem = u.mem) ∧
    (op = 3 → u.dmaCheck ch b = 0x0302)

open Sys2Proof.Claim in
/-- The funnel (R354): the accesses of a destination range follow one another without a gap, cover it exactly, and each is a whole aligned
sector or an aligned power of two of at most 128 bytes. -/
def Sys2Proof.Claim.FunnelCovers : Prop :=
  ∀ (a n : Nat), n ≤ 2048 →
    (∀ x, (a ≤ x ∧ x < a + n) ↔ ∃ w ∈ funnel a n, w.1 ≤ x ∧ x < w.1 + w.2) ∧
    ((funnel a n).map Prod.snd).sum = n ∧
    (∀ w ∈ funnel a n, w.1 % w.2 = 0 ∧ (w.2 = 256 ∨ ∃ k, k < 8 ∧ w.2 = 2 ^ k)) ∧
    (∀ l r w w', funnel a n = l ++ w :: w' :: r → w.1 + w.2 = w'.1)

open Sys2Proof.Claim in
/-- The bursts of a descriptor tile its bytes (R350, R357): the burst at an offset below the total is not empty and begins there, its parts
follow one another, each lies in one row and in one 2 KiB block of the destination, and it ends at or before the total; here for
rows that do not overlap at the destination. -/
def Sys2Proof.Claim.BurstsTile : Prop :=
  ∀ (d : DmaDesc) (o : Nat), d.op ≠ 2 → 0 < d.rowBytes → d.rows ≤ 1 ∨ d.rowBytes ≤ d.dstPitch → o < d.total →
    0 < partsLen (d.burstAt o) ∧ partsLen (d.burstAt o) ≤ 2048 ∧ o + partsLen (d.burstAt o) ≤ d.total ∧
    (∀ p ∈ d.burstAt o, p.src = d.src + p.off / d.rowBytes * d.srcPitch + p.off % d.rowBytes ∧
      p.dst = d.dst + p.off / d.rowBytes * d.dstPitch + p.off % d.rowBytes ∧
      p.off % d.rowBytes + p.len ≤ d.rowBytes ∧ p.dst / 2048 = (p.dst + p.len - 1) / 2048 ∧ 0 < p.len ∧ p.len ≤ 2048) ∧
    (∀ x, (o ≤ x ∧ x < o + partsLen (d.burstAt o)) ↔ ∃ p ∈ d.burstAt o, p.off ≤ x ∧ x < p.off + p.len)

open Sys2Proof.Claim in
/-- Bursts and their responses (R355, R357, R360, R363, R364): the granted channel issues its next burst; a local burst whose accesses succeed
leaves, and after the last one the read-back is issued; an error that is no bus error, and a timeout of an ADD, end the
descriptor at the burst's offset; a timeout of a COPY issues the burst again. -/
def Obligations.DmaBursts : Prop :=
  (∀ (s : State) (e ch o : Nat) (r : DmaRun), e < 5 → ch < 320 → s.dmaGrant e = some ch → s.dmaNext ch = some (r, o) →
    (dmaDesc r.desc).srcRemote = false → (dmaDesc r.desc).dstRemote = false → inHost (dmaDesc r.desc).src = false →
    r.flying.find? (fun b => b.offset == o) = none → (s.dmaRuns ch) = [r] →
    let ps := (dmaDesc r.desc).burstAt o
    ∃ t, exec (.burstIssue e) s = .next t ∧
      RunsBecome s t ch [{ r with flying := r.flying.filter (fun b => b.offset != o) ++
        [⟨o, partsLen ps, (dmaDesc r.desc).burstTags ps, 0, s.now, false⟩], next := max r.next (o + partsLen ps) }] []) ∧
  (∀ (s u v : State) (ch : Nat) (r : DmaRun) (b : DmaBurst) (bs : List Byte), ch < 320 → LocalBurst s ch r b → s.dmaRuns ch = [r] →
    let d := dmaDesc r.desc
    let ag := s.dmaAgent ch r.seq b.offset
    s.burstRead ag d (d.burstAt b.offset) = .done 0 bs u → u.burstWrite ag d (d.burstAt b.offset) bs = some (0, v) →
    let rest := r.flying.filter (fun x => x.offset != b.offset)
    ∃ t, exec (.dmaResponse ch r.seq b.offset none) s = .next t ∧ t.mem = v.mem ∧ t.glz = v.glz ∧
      (rest = [] ∧ d.total ≤ r.next → v.dmaRuns ch = [r] → t.dmaRuns ch = [{ r with flying := [], back := some v.now }]) ∧
      (rest ≠ [] ∨ r.next < d.total → v.dmaRuns ch = [r] → t.dmaRuns ch = [{ r with flying := rest }])) ∧
  (∀ (s : State) (ch : Nat) (r : DmaRun) (b : DmaBurst), ch < 320 → LocalBurst s ch r b → s.dmaRuns ch = [r] → r.back = none →
    b.sent + 1000000 ≤ s.now → r.flying = [b] →
    ((dmaDesc r.desc).op ≠ 1 → b.retries < s.rdN DMA_CH_RETRY.RETRY ch →
      ∃ t, exec (.dmaRequestTimeout ch r.seq b.offset) s = .next t ∧
        RunsBecome s t ch [{ r with flying := [{ b with retries := b.retries + 1, again := true }] }] []) ∧
    ((dmaDesc r.desc).op = 1 ∨ s.rdN DMA_CH_RETRY.RETRY ch ≤ b.retries →
      ∃ t, exec (.dmaRequestTimeout ch r.seq b.offset) s = .next t ∧ t.dmaRuns ch = [] ∧ t.rdN DMA_CH_STATUS.STATE ch = 2 ∧
        t.rd DMA_CH_STATUS.CODE ch = codeVal (if (dmaDesc r.desc).op = 1 then 0x030A else 0x0308) ∧
        t.rdN DMA_CH_FAIL.OFFSET ch = b.offset % 2 ^ 42 ∧ t.mem = s.mem))

open Sys2Proof.Claim in
/-- Completion, remote requests and the channel's registers (R344, R348, R355, R360, R361, R365, R366): a read-back that returns completes the
descriptor: the SIGNAL region becomes READY where it is FREE and of the channel's class, HEAD advances and the bytes are
counted, and otherwise the channel halts; a request from another device outside the windows of its partition is answered
with DMA_REMOTE_BOUNDS and performs nothing; RETRY reruns the kept descriptor and SKIP counts it as completed; STOP of a
channel with nothing started makes it STOPPED; the owner is written. -/
def Obligations.DmaCompletion : Prop :=
  (∀ (s u : State) (ch : Nat) (r : DmaRun) (at_ : Nat) (bs : List Byte), ch < 320 → s.dmaRun ch r.seq = some r → r.back = some at_ →
    let d := dmaDesc r.desc
    let p := d.backPiece
    d.dstRemote = false → inHost d.dst = false → s.readRange (s.dmaAgent ch r.seq d.total) p.1 p.2 = .done 0 bs u →
    u.rdN DMA_CH_HEAD.HEAD ch = r.seq → (u.ring (dmaQ ch)).done = [] → u.on DMA_CH_CTL.STOP ch = false →
    let i := regIx d.panel d.handle
    let fits := d.signal = false ∨ (u.rdN CNV_PNL_REGION.TOKEN i = 0 ∧ u.rdN CNV_PNL_REGION.LEN i ≠ 0 ∧
      u.on CNV_PNL_REGION.JOB i = (match u.qPart (dmaQ ch) with | some q => q.2 | none => false))
    ∃ t, exec (.dmaReadbackDone ch r.seq none) s = .next t ∧ t.mem = u.mem ∧
      t.rd DMA_CH_BYTES.COUNT ch = u.rd DMA_CH_BYTES.COUNT ch + BitVec.ofNat 64 d.total ∧
      (fits → t.rdN DMA_CH_HEAD.HEAD ch = seqNext r.seq ∧ (d.signal = true → t.rdN CNV_PNL_REGION.TOKEN i = 2)) ∧
      (¬ fits → t.rdN DMA_CH_STATUS.STATE ch = 2 ∧ t.rd DMA_CH_STATUS.CODE ch = codeVal 0x030B ∧
        t.rd CNV_PNL_REGION.TOKEN i = u.rd CNV_PNL_REGION.TOKEN i)) ∧
  (∀ (s : State) (r : MemReq) (act : RemoteAct) (p : Nat), reqInLine r = true → r.part = some p →
    let perm : Perm := match act with | .read => .r | .turn _ => .r | .write _ => .w | .addFp32 _ => .a | .addEx96 _ => .a
    let mem : MemAct := match act with
      | .read => .read | .turn e => .turn e | .write b => .write b | .addFp32 b => .addFp32 b | .addEx96 b => .addEx96 b
    (s.windowOk p perm r.dpa r.len = false → exec (.remoteRequest r act) s = .next { s with sent := s.sent ++ [.memory r 0x0305 []] }) ∧
    (s.windowOk p perm r.dpa r.len = true → exec (.remoteRequest r act) s = .next (s.request ⟨r, mem⟩))) ∧
  (∀ (s : State) (port : Port) (ch : Nat), QReach s port (dmaQ ch) → ch < 320 →
    (∀ r, s.qHalted (dmaQ ch) = true → Tab.get s.dma.broken ch none = some r → (s.ring (dmaQ ch)).failed = [r.seq] → s.dmaRuns ch = [] →
      (∃ t, exec (.dmaResumeRetry port ch) s = .next t ∧ t.dmaRuns ch = [r] ∧ t.qHalted (dmaQ ch) = false ∧
        Tab.get t.dma.broken ch none = none ∧ t.rd DMA_CH_HEAD.HEAD ch = s.rd DMA_CH_HEAD.HEAD ch ∧ t.mem = s.mem) ∧
      ((s.ring (dmaQ ch)).overrun = false → (s.ring (dmaQ ch)).done = [] → s.rdN DMA_CH_HEAD.HEAD ch = r.seq →
        ∃ t, exec (.dmaResumeSkip port ch) s = .next t ∧ Tab.get t.dma.broken ch none = none ∧ t.qHalted (dmaQ ch) = false ∧
          t.rdN DMA_CH_HEAD.HEAD ch = seqNext r.seq ∧ t.mem = s.mem)) ∧
    (s.dmaRuns ch = [] → s.qHalted (dmaQ ch) = false → ∃ t, exec (.dmaStop port ch) s = .next t ∧ t.rdN DMA_CH_STATUS.STATE ch = 3 ∧
      t.on DMA_CH_CTL.STOP ch = false ∧ RegsSame s t [DMA_CH_STATUS.STATE.key ch, DMA_CH_CTL.STOP.key ch] ∧ t = { s with regs := t.regs }) ∧
    (s.dmaRuns ch ≠ [] → ∃ t, exec (.dmaStop port ch) s = .next t ∧ t.on DMA_CH_CTL.STOP ch = true ∧ RegsSame s t [DMA_CH_CTL.STOP.key ch]) ∧
    (∀ (x : Word32), (s.on SEC_STATUS.CONF 0 = true → port ≠ .host) → s.dmaReserved ch = 0 →
      ∃ t, exec (.dmaOwnerWrite port ch x) s = .next t ∧ t.on DMA_CH_OWNER.OWNED ch = x.getLsbD 9 ∧ t.on DMA_CH_OWNER.JOBCLASS ch = x.getLsbD 8 ∧
        t.rdN DMA_CH_OWNER.PARTITION ch = x.toNat % 256 ∧ t = { s with regs := t.regs } ∧
        RegsSame s t [DMA_CH_OWNER.OWNED.key ch, DMA_CH_OWNER.JOBCLASS.key ch, DMA_CH_OWNER.PARTITION.key ch]) ∧
    (∀ (x : Word32), s.dmaReserved ch ≠ 0 → (s.on SEC_STATUS.CONF 0 = true → port ≠ .host) → exec (.dmaOwnerWrite port ch x) s = .next s))

open Sys2Proof.Claim in
/-- Tier 2. The bursts of a channel cover its copy once, and the funnel visits every burst once. -/
def Obligations.BurstOrder : Prop := FunnelCovers ∧ BurstsTile


/-! ### Tether links and the hub (chapter 12) -/

namespace Sys2Proof.Claim

/-- A flit that arrives over a tether, by the command of each of its types. -/
def FlitArrives (i : Instr) (c dir : Nat) (bs : List Byte) : Prop :=
  i = .tetherData c dir none (some bs) ∨ i = .tetherNull c dir bs ∨ i = .tetherNak c dir bs ∨ i = .tetherHeartbeat c dir bs

/-- Only the links, what is sent and the listed register fields change. -/
def LinkOnly (s t : State) (ks : List Nat) : Prop :=
  t = { s with regs := t.regs, links := t.links, sent := t.sent } ∧ RegsSame s t ks

/-- The flits still held after an acknowledgement. -/
def heldAfter (h : List LinkFlit) (a : Nat) : List LinkFlit :=
  if h.any (fun f => f.seq == a) then (h.dropWhile (fun f => f.seq != a)).drop 1 else h

end Sys2Proof.Claim

open Sys2Proof.Claim in
/-- Flits of a tether (R371, R372, R376, R379, R380, R386, R387), over an UP link: a new DATA flit spends one credit, is held, and where it
arrives whole and in order its payload is delivered and counted; without a credit or a replay slot none is sent; a flit of
another length or with a bad check is counted and answered with one NAK; a DATA flit accepted before is discarded without
one; NULL takes the acknowledgement; NAK and the 200 ns timeout send every held flit again; a HEARTBEAT sets its end's timer,
and one with another BOOT_EPOCH marks the canvas LOST; a skip set realigns the receiver. -/
def Obligations.TetherFlits : Prop :=
  ∀ (s : State) (c dir : Nat), c < 4 → dir < 2 → s.rdN TTH_STATUS.LINK c = 2 →
    let a := tetherEnd c dir
    let k := tetherEnd c (1 - dir)
    let count := if dir = 0 then TTH_FLITS_UP.COUNT else TTH_FLITS_DN.COUNT
    (∀ (l : LinkLoad), l.vc < 3 → l.start < 32 → l.payload.length = 116 → (s.linkEnd a).held.length < 256 →
      0 < s.rdN TTH_CREDIT.AVAIL (tetherVc a l.vc) → s.rdN TTH_CREDIT.AVAIL (tetherVc a l.vc) ≤ 512 → (s.linkEnd k).aligned = true → (s.linkEnd k).expect = (s.linkEnd a).next →
      (s.linkEnd a).next < 4096 → (∀ v, Tab.get (s.linkEnd a).freed v 0 < 1024) →
      ∃ t, exec (.tetherData c dir (some l) none) s = .next t ∧ .tetherPayload c dir l.vc l.start l.payload ∈ t.sent ∧
        (t.linkEnd k).expect = ((s.linkEnd a).next + 1) % 4096 ∧ (t.linkEnd a).next = ((s.linkEnd a).next + 1) % 4096 ∧
        (t.linkEnd a).held = (s.linkEnd a).held ++ [⟨(s.linkEnd a).next, l.vc, l.start, l.payload, 0⟩] ∧
        t.rdN TTH_CREDIT.AVAIL (tetherVc a l.vc) = s.rdN TTH_CREDIT.AVAIL (tetherVc a l.vc) - 1 ∧
        t.rd count c = s.rd count c + 1 ∧
        LinkOnly s t [TTH_CREDIT.AVAIL.key (tetherVc a l.vc), TTH_CREDIT.AVAIL.key (tetherVc k (l.crVc % 3)), count.key c]) ∧
    (∀ (l : LinkLoad), 256 ≤ (s.linkEnd a).held.length ∨ s.rdN TTH_CREDIT.AVAIL (tetherVc a l.vc) = 0 →
      exec (.tetherData c dir (some l) none) s = .next s) ∧
    (∀ (i : Instr) (bs : List Byte), FlitArrives i c dir bs → (bs.length ≠ 128 ∨ flitGood bs = false ∨ (s.linkEnd k).aligned = false) →
      ∃ t, exec i s = .next t ∧ t.rd TTH_CRC_ERR.COUNT c = s.rd TTH_CRC_ERR.COUNT c + 1 ∧ (t.linkEnd k).naking = true ∧
        (t.linkEnd k).expect = (s.linkEnd k).expect ∧ LinkOnly s t [TTH_CRC_ERR.COUNT.key c] ∧
        (if (s.linkEnd k).naking then t.sent = s.sent else
          ∃ f, t.sent = s.sent ++ [.tetherFlit c (1 - dir) f] ∧ f = (s.linkEnd k).plain 2 0 0)) ∧
    (∀ (i : Instr) (bs : List Byte), FlitArrives i c dir bs → (s.linkEnd k).aligned = true → flitGood bs = true → bs.length = 128 →
      let h := TetherHead.read bs
      let held := heldAfter (s.linkEnd k).held h.ack
      (h.type = 0 → h.seq ≠ (s.linkEnd k).expect → ((s.linkEnd k).expect + 4096 - h.seq) % 4096 ≤ 2048 →
        ∃ t, exec i s = .next t ∧ t.sent = s.sent ∧ (t.linkEnd k).expect = (s.linkEnd k).expect ∧ (t.linkEnd k).held = held ∧
          LinkOnly s t [TTH_CREDIT.AVAIL.key (tetherVc k h.crVc)]) ∧
      (h.type = 1 → ∃ t, exec i s = .next t ∧ t.sent = s.sent ∧ (t.linkEnd k).expect = (s.linkEnd k).expect ∧ (t.linkEnd k).held = held ∧
          LinkOnly s t [TTH_CREDIT.AVAIL.key (tetherVc k h.crVc)]) ∧
      (h.type = 2 → (∀ f ∈ held, f.resent < 8) → ∃ t, exec i s = .next t ∧
        t.sent = s.sent ++ held.flatMap (fun f => [.tetherSkip c (1 - dir), .tetherFlit c (1 - dir) ((t.linkEnd k).dataFlit f 0)]) ∧
        (t.linkEnd k).held = held.map (fun f => { f with resent := f.resent + 1 }) ∧
        t.rd TTH_REPLAYS.COUNT c = s.rd TTH_REPLAYS.COUNT c + BitVec.ofNat 64 held.length ∧
        LinkOnly s t [TTH_CREDIT.AVAIL.key (tetherVc k h.crVc), TTH_REPLAYS.COUNT.key c]) ∧
      (h.type = 3 → (dir = 0 → (s.tether c).seenEpoch = none ∨ (s.tether c).seenEpoch = some (h.low / 1024 % 256)) →
        ∃ t, exec i s = .next t ∧ t.sent = s.sent ∧ LinkOnly s t [TTH_CREDIT.AVAIL.key (tetherVc k h.crVc)] ∧
          (dir = 0 → (t.tether c).hubBeat = s.now ∧ (t.tether c).seenEpoch = some (h.low / 1024 % 256) ∧
            (t.tether c).seenKept = h.low.testBit 9) ∧ (dir = 1 → (t.tether c).canvBeat = s.now)) ∧
      (h.type = 3 → dir = 0 → (∃ x, (s.tether c).seenEpoch = some x ∧ x ≠ h.low / 1024 % 256) →
        ∃ t, exec i s = .next t ∧ t.on TTH_STATUS.LOST c = true)) ∧
    (let e := s.linkEnd a;
      (e.held = [] ∨ s.now < e.ackAt + 200 → exec (.tetherReplayTimeout c dir) s = .next s) ∧
      (e.held ≠ [] → e.ackAt + 200 ≤ s.now → (∀ f ∈ e.held, f.resent < 8) → ∃ t, exec (.tetherReplayTimeout c dir) s = .next t ∧
        t.sent = s.sent ++ e.held.map (fun f => .tetherFlit c dir (e.dataFlit f 0)) ∧ LinkOnly s t [TTH_REPLAYS.COUNT.key c]) ∧
      (e.held ≠ [] → e.ackAt + 200 ≤ s.now → (∃ f ∈ e.held, 8 ≤ f.resent) → ∃ t, exec (.tetherReplayTimeout c dir) s = .next t ∧
        t.rdN TTH_STATUS.LINK c = 1 ∧ t.sent = s.sent ∧ LinkOnly s t [TTH_STATUS.LINK.key c])) ∧
    (∀ (v : Nat), (s.tether c).epoch < 256 → (∀ x, Tab.get (s.linkEnd a).freed x 0 < 1024) → ∃ t f, exec (.heartbeatSend c dir v) s = .next t ∧ t.sent = s.sent ++ [.tetherFlit c dir f] ∧ flitGood f = true ∧
      t.regs = s.regs ∧ t = { s with links := t.links, sent := t.sent }) ∧
    (∀ (z : Int), ∃ t, exec (.skipSet c dir z) s = .next t ∧ (t.linkEnd k).aligned = true ∧ (t.linkEnd k).slips = (s.linkEnd k).slips + z ∧
      t = { s with links := t.links }) ∧
    (∀ (v : Nat), v < 3 → s.rdN TTH_CREDIT.AVAIL (tetherVc a v) < 512 → Tab.get (s.linkEnd a).lastData v 0 + 1000000 ≤ s.now →
      Tab.get (s.linkEnd k).lastData v 0 + 1000000 ≤ s.now → ∃ t, exec (.creditLeakCheck false a v) s = .next t ∧
        t.on TTH_STATUS.CREDIT_LEAK c = true ∧ t = { s with regs := t.regs } ∧ RegsSame s t [TTH_STATUS.CREDIT_LEAK.key c])

open Sys2Proof.Claim in
/-- Retraining, a lost canvas and its recovery, and packets at the hub (R369, R375, R381 to R393): RETRAIN and a lost symbol lock make an UP link
train; after 20 µs the failed lanes are kept, each direction takes the largest width that fits, and the link is UP, or
ISOLATED with the canvas LOST where a direction has fewer than 16 lanes; RECOVER of a LOST canvas trains its link, and the end
frees the canvas with no configuration, its gesso zeroed or untrusted; HB_TIMEOUT marks the canvas LOST and its islands; the
canvas's own timeout halts its threads; a packet is routed, or answered where it cannot be. -/
def Obligations.TetherLoss : Prop :=
  (∀ (s : State) (c : Nat), c < 4 → s.rdN TTH_STATUS.LINK c = 2 →
    (∃ t, exec (.tthRetrain c) s = .next t ∧ t.rdN TTH_STATUS.LINK c = 1 ∧ t.on TTH_CTL.RETRAIN c = true ∧ (t.tether c).start = s.now ∧
      LinkOnly s t [TTH_STATUS.LINK.key c, TTH_CTL.RETRAIN.key c]) ∧
    (∃ t, exec (.symbolLockLost c) s = .next t ∧ t.rdN TTH_STATUS.LINK c = 1 ∧ (t.tether c).start = s.now ∧
      LinkOnly s t [TTH_STATUS.LINK.key c]) ∧
    (s.island (tetherIsland c) ≠ islAsleep → s.on TTH_STATUS.LOST c = false →
      (s.now < (s.tether c).hubBeat + s.hbLimit c → exec (.hbTimeout c) s = .next s) ∧
      ((s.tether c).hubBeat + s.hbLimit c ≤ s.now → ∃ t, exec (.hbTimeout c) s = .next t ∧ t.on TTH_STATUS.LOST c = true ∧
        t.on TTH_STATUS.LOST_EVT c = true ∧ (∀ l, l < 34 → t.island (islandOf c l) = islLost) ∧
        ∀ p, p < 64 → (s.part (c * 64 + p)).isSome = true → t.on GLB_PART_FAULT.PRIMARY (c * 64 + p) = true ∧
          t.on GLB_PART_FAULT.WASH (c * 64 + p) = true))) ∧
  (∀ (s : State) (c : Nat), c < 4 →
    (s.on TTH_STATUS.LOST c = false → exec (.tthRecover c) s = .next s) ∧
    (s.on TTH_STATUS.LOST c = true → ∃ t, exec (.tthRecover c) s = .next t ∧ t.on TTH_CTL.RECOVER c = true ∧ t.rdN TTH_STATUS.LINK c = 1 ∧
      (t.tether c).start = s.now ∧ LinkOnly s t [TTH_STATUS.LINK.key c, TTH_CTL.RECOVER.key c])) ∧
  (∀ (s : State) (c up dn : Nat), c < 4 → s.rdN TTH_STATUS.LINK c = 1 → (s.tether c).start + 20000 ≤ s.now →
    (∀ k, s.failedLanes k < 2 ^ 68) →
    let fu := s.failedLanes (tetherEnd c 0) ||| up % 2 ^ 68
    let fd := s.failedLanes (tetherEnd c 1) ||| dn % 2 ^ 68
    let nu := onesBelow 68 fu
    let nd := onesBelow 68 fd
    ∃ t, exec (.tetherRetrainDone c up dn) s = .next t ∧ t.rd TTH_RETRAINS.COUNT c = s.rd TTH_RETRAINS.COUNT c + 1 ∧ t.on TTH_CTL.RETRAIN c = false ∧
      (nu ≤ 52 → nd ≤ 52 → t.rdN TTH_STATUS.LINK c = 2 ∧ t.on TTH_CTL.RECOVER c = false ∧
        t.rdN TTH_STATUS.WIDTH_UP c = (if nu ≤ 4 then 3 else if nu ≤ 36 then 2 else 1) ∧
        t.rdN TTH_STATUS.WIDTH_DN c = (if nd ≤ 4 then 3 else if nd ≤ 36 then 2 else 1) ∧
        t.rdN TTH_STATUS.FAILED_UP c = nu ∧ t.rdN TTH_STATUS.FAILED_DN c = nd ∧
        t.failedLanes (tetherEnd c 0) = fu ∧ t.failedLanes (tetherEnd c 1) = fd ∧
        (s.on TTH_CTL.RECOVER c = true → t.on TTH_STATUS.LOST c = false ∧ t.str.sketch = s.str.sketch.without c ∧
          (∀ q, q < 64 → t.on GLB_QUAD_PART.ASSIGNED (c * 64 + q) = false) ∧
          (if (s.tether c).seenKept = false ∨ s.conf = true then Tab.get t.isl.zeroing c false = true
            else t.on TTH_STATUS.GESSO_UNTRUSTED c = true))) ∧
      (52 < nu ∨ 52 < nd → t.rdN TTH_STATUS.LINK c = 3 ∧
        (s.on TTH_CTL.RECOVER c = true → t.on TTH_STATUS.RECOVER_FAILED c = true ∧ t.on TTH_CTL.RECOVER c = false ∧
          t.on TTH_STATUS.LOST c = s.on TTH_STATUS.LOST c) ∧
        (s.on TTH_CTL.RECOVER c = false → t.on TTH_STATUS.LOST c = true))) ∧
  (∀ (s : State) (c : Nat), c < 4 → s.rdN TTH_STATUS.LINK c ≠ 4 →
    (s.now < (s.tether c).canvBeat + s.hbLimit c → exec (.canvasHbLoss c) s = .next s) ∧
    ((s.tether c).canvBeat + s.hbLimit c ≤ s.now → ∃ t, exec (.canvasHbLoss c) s = .next t ∧ t.mem = s.mem ∧
      (∀ k, k / 512 = c → (s.rdN CNV_SEQ_THR_CTL.STATE k = 1 ∨ s.rdN CNV_SEQ_THR_CTL.STATE k = 2 ∨ s.rdN CNV_SEQ_THR_CTL.STATE k = 3) →
        t.rdN CNV_SEQ_THR_CTL.STATE k = stopState 2 ∨ (t.sth k).stop = 2))) ∧
  (∀ (s : State) (p : HubPacket) (bad : Bool),
    let answer := fun (code : Code) => if p.vc = 0 then [Msg.hubAnswer p.src p.tag code] else []
    (p.op = 0 ∨ 14 < p.op ∨ endpointExists p.dst = false → ∃ t, exec (.hubPacket p bad) s = .next t ∧
      t.on HUB_FABRIC_STATUS.ROUTE_ERR 0 = true ∧ t.sent = s.sent ++ answer 0x0203 ∧ t = { s with regs := t.regs, sent := t.sent } ∧
      (s.on HUB_FABRIC_ERR.VALID 0 = false → t.on HUB_FABRIC_ERR.VALID 0 = true ∧ t.rd HUB_FABRIC_ERR.CODE 0 = codeVal 0x0203 ∧
        t.rdN HUB_FABRIC_ERR.SRC 0 = p.src % 65536 ∧ t.rdN HUB_FABRIC_ERR.DST 0 = p.dst % 65536) ∧
      (s.on HUB_FABRIC_ERR.VALID 0 = true → t.on HUB_FABRIC_ERR.OVERRUN 0 = true)) ∧
    (0 < p.op → p.op ≤ 14 → endpointExists p.dst = true → bad = false → p.flags.testBit 0 = false →
      (hubLocation p < 4 → s.on TTH_STATUS.LOST (hubLocation p) = true →
        (p.op = 7 → ∃ t, exec (.hubPacket p bad) s = .next t ∧ t.sent = s.sent ∧
          t.rd TTH_DROPPED.COUNT (hubLocation p) = s.rd TTH_DROPPED.COUNT (hubLocation p) + 1 ∧ t = { s with regs := t.regs } ∧
          RegsSame s t [TTH_DROPPED.COUNT.key (hubLocation p)]) ∧
        (p.op ≠ 7 → exec (.hubPacket p bad) s = .next { s with sent := s.sent ++ answer 0x0201 })) ∧
      ((hubLocation p < 4 → s.on TTH_STATUS.LOST (hubLocation p) = false) →
        exec (.hubPacket p bad) s = .next { s with sent := s.sent ++ [.hubPacket (hubLocation p) p] })) ∧
    (0 < p.op → p.op ≤ 14 → endpointExists p.dst = true → bad = true → (hubLocation p < 4 → s.on TTH_STATUS.LOST (hubLocation p) = false) →
      ∃ t, exec (.hubPacket p bad) s = .next t ∧ t.on HUB_FABRIC_STATUS.POISONED 0 = true ∧
        t.sent = s.sent ++ [.hubPacket (hubLocation p) { p with flags := p.flags ||| 1 }] ++ answer 0x0202))

/-! ### Spar links (chapter 13) -/

namespace Sys2Proof.Claim

/-- A flit that arrives over a spar port, by the command of each of its types. -/
def SparArrives (i : Instr) (p : Nat) (bs : List Byte) (fec : FecResult) : Prop :=
  i = .sparData p bs fec ∨ i = .sparNull p bs fec ∨ i = .sparNak p bs fec

/-- The device with another coordinate. -/
def placedAt (s : State) (c : Nat) : State := s.wrN SPR_COORD.COORD 0 c

/-- The device to which a packet goes next from one at a coordinate, where every device holds the same SPR_DIM and cuts. -/
def nextDevice (s : State) (dst c : Nat) : Nat :=
  match (placedAt s c).routePort dst with
  | none => c
  | some p => (placedAt s c).wired p

/-- The devices that a packet reaches one after another. -/
def deviceAfter (s : State) (dst : Nat) : Nat → Nat → Nat
  | 0, c => c
  | n + 1, c => deviceAfter s dst n (nextDevice s dst c)

/-- The sizes and cuts of a mural: no ring longer than its field allows, every cut at a position of its ring. -/
def Mural (s : State) : Prop :=
  ∀ a, a < 4 → s.axisSize a ≤ (if a = 0 then 4 else if a = 1 then 8 else if a = 2 then 32 else 64) ∧
    ∀ k, s.axisCut a = some k → k < s.axisSize a

/-- Whether the + path from a position to another on an axis crosses the link from k to k + 1. -/
def plusCrosses (n o d k : Nat) : Prop := (k + n - o) % n < (d + n - o) % n

end Sys2Proof.Claim

open Sys2Proof.Claim in
/-- Routing (R408, R409, R411): among coordinates below the axis sizes a packet goes along the first axis of X, Y, Z, W that differs, in the
direction that crosses no cut, and with no cut in that with fewer hops, + on a tie; a device is told apart from every other;
and from any device to any other it takes at most 104 hops. -/
def Obligations.SparRoutes : Prop :=
  ∀ (s : State) (c d : Nat), Mural s → c < 65536 → d < 65536 → s.reachable c = true → s.reachable d = true →
    ((placedAt s c).routePort d = none ↔ c = d) ∧
    (∀ p, (placedAt s c).routePort d = some p → p < 8 ∧
      let a := p / 2
      let n := s.axisSize a
      let o := coordAxis c a
      let e := coordAxis d a
      (∀ b, b < a → coordAxis c b = coordAxis d b) ∧ o ≠ e ∧
      (s.axisCut a = none → (p % 2 = 0 ↔ (e + n - o) % n ≤ (o + n - e) % n)) ∧
      (∀ k, s.axisCut a = some k → (p % 2 = 0 ↔ ¬ plusCrosses n o e k))) ∧
    s.reachable (nextDevice s d c) = true ∧ nextDevice s d c < 65536 ∧
    ∃ n, n ≤ 104 ∧ deviceAfter s d n c = d

open Sys2Proof.Claim in
/-- Packets at the spar crossbar (R403, R408, R411 to R414, R422): a packet to a coordinate outside the rings, or of too many hops, or to a port
that is DOWN is answered where it is a REQ packet and discarded otherwise; one to this device is delivered; any other leaves,
with HOPS one higher, on the port and VC of R409 where the port has credits and no older packet waits for it, and otherwise
waits at the head of its input, where its AGE rises every 64 ns up to 255. -/
def Obligations.SparPackets : Prop :=
  (∀ (s : State) (input vc : Nat) (q : SparPacket), input ≤ 8 → vc < 8 → s.sparHead input vc = none →
    let k := if input = 8 then { q with age := 0, hops := 0 } else q
    let answer := fun (code : Code) => if vc < 2 then [Msg.sparAnswer k.srcCoord k.src k.tag code] else []
    (s.reachable k.dstCoord = false → ∃ t, exec (.transitForward input vc q) s = .next t ∧ t.on SPR_GLB_STATUS.UNREACHABLE 0 = true ∧
      t.sent = s.sent ++ answer 0x0221 ∧ t = { s with regs := t.regs, sent := t.sent } ∧ RegsSame s t [SPR_GLB_STATUS.UNREACHABLE.key 0]) ∧
    (s.reachable k.dstCoord = true → s.routePort k.dstCoord = none →
      exec (.transitForward input vc q) s = .next { s with sent := s.sent ++ [.sparLocal k] }) ∧
    (∀ p, s.reachable k.dstCoord = true → s.routePort k.dstCoord = some p →
      (127 ≤ k.hops → ∃ t, exec (.transitForward input vc q) s = .next t ∧ t.on SPR_GLB_STATUS.HOP_LIMIT 0 = true ∧
        t.sent = s.sent ++ answer 0x0222 ∧ t = { s with regs := t.regs, sent := t.sent } ∧ RegsSame s t [SPR_GLB_STATUS.HOP_LIMIT.key 0]) ∧
      (k.hops < 127 → s.sparLink p = 0 → ∃ t, exec (.transitForward input vc q) s = .next t ∧ t.sent = s.sent ++ answer 0x0220 ∧
        (2 ≤ vc → t.rd SPR_DROPPED.COUNT p = s.rd SPR_DROPPED.COUNT p + 1) ∧ t = { s with regs := t.regs, sent := t.sent } ∧
        RegsSame s t (if vc < 2 then [] else [SPR_DROPPED.COUNT.key p])) ∧
      (k.hops < 127 → s.sparLink p ≠ 0 →
        let h : SparHead := ⟨p, s.routeVc input vc p, s.now, 0, k⟩
        let ps := pieces 236 (sparBytes { k with hops := k.hops + 1 })
        (s.mayLeave input vc h = false → ∃ t, exec (.transitForward input vc q) s = .next t ∧ t.sparHead input vc = some h ∧
          t = { s with links := t.links }) ∧
        (s.mayLeave input vc h = true → s.rdN SPR_CREDIT.AVAIL (p * 8 + h.outVc) ≤ 512 → p < 8 →
          ∃ t, exec (.transitForward input vc q) s = .next t ∧ t.sparHead input vc = none ∧
            (t.linkEnd (16 + p)).held.length = (s.linkEnd (16 + p)).held.length + ps.length ∧
            (t.linkEnd (16 + p)).held.map (fun f => f.payload) = (s.linkEnd (16 + p)).held.map (fun f => f.payload) ++ ps ∧
            t.rdN SPR_CREDIT.AVAIL (p * 8 + h.outVc) = s.rdN SPR_CREDIT.AVAIL (p * 8 + h.outVc) - ps.length ∧
            t.rd SPR_FLITS_TX.COUNT p = s.rd SPR_FLITS_TX.COUNT p + BitVec.ofNat 64 ps.length ∧
            t.rd SPR_TRANSIT.COUNT p = s.rd SPR_TRANSIT.COUNT p + (if input < 8 then 1 else 0) ∧ t.mem = s.mem)))) ∧
  (∀ (s : State) (input vc : Nat) (h : SparHead), s.sparHead input vc = some h →
    (s.now < h.since + 64 * (h.ticks + 1) → exec (.ageTick input vc) s = .next s) ∧
    (h.since + 64 * (h.ticks + 1) ≤ s.now → ∃ t, exec (.ageTick input vc) s = .next t ∧
      t.sparHead input vc = some { h with ticks := h.ticks + 1, packet := { h.packet with age := min 255 (h.packet.age + 1) } } ∧
      t = { s with links := t.links }))

open Sys2Proof.Claim in
/-- Flits of a spar port that is UP (R396, R400, R401, R404, R406): a flit in an uncorrectable codeword is discarded; an authenticated one is
taken under the least counter above the last with its low bits, a DATA flit in order is delivered and counted; the tag of any
other fails, is counted, and the sixteenth within 1 ms takes the port DOWN; the 400 ns timeout sends every held flit again
under new counters; 2 µs without a flit begin a retrain; a quiet VC with credits missing sets CREDIT_LEAK. -/
def Obligations.SparFlits : Prop :=
  ∀ (s : State) (p : Nat), p < 8 → s.sparLink p = 3 →
    let k := 16 + p
    let e := s.linkEnd k
    (∀ (i : Instr) (bs : List Byte) (fec : FecResult), SparArrives i p bs fec →
      (fec.hit = true → ∃ t, exec i s = .next t ∧ t.rd SPR_FEC_CORR.COUNT p = s.rd SPR_FEC_CORR.COUNT p + BitVec.ofNat 64 fec.corrected ∧
        t.rd SPR_FEC_UNCORR.COUNT p = s.rd SPR_FEC_UNCORR.COUNT p + BitVec.ofNat 64 fec.failed ∧ (t.linkEnd k).expect = e.expect ∧
        (t.linkEnd k).naking = true ∧ t.rd SPR_RX_CTR.VALUE p = s.rd SPR_RX_CTR.VALUE p ∧ t.mem = s.mem) ∧
      (∀ key, fec.hit = false → bs.length = 256 →
        let h := leField bs 0 8
        let slot := h / 2 ^ 49 % 2
        slot = s.rdN SPR_KEY.RX_KEY p → Tab.get (s.spar p).rxKey slot none = some key →
        let ctr := nextCounter (s.rdN SPR_RX_CTR.VALUE p) (h / 2 ^ 50 % 16384)
        (s.rdN SPR_RX_CTR.VALUE p < ctr ∧ ctr % 16384 = h / 2 ^ 50 ∧ ctr ≤ s.rdN SPR_RX_CTR.VALUE p + 16384) ∧
        ∃ t, exec i s = .next t ∧
          match Config.gcmOpen key (sparIv (s.wired p) (wiredPort p) ctr) (bs.take 8) ((bs.drop 8).take 236) (bs.drop 244) with
          | none => t.rd SPR_AUTH_FAIL.COUNT p = s.rd SPR_AUTH_FAIL.COUNT p + 1 ∧
              t.rd SPR_RX_CTR.VALUE p = s.rd SPR_RX_CTR.VALUE p ∧
              (if ((s.spar p).fails.filter (fun x => decide (s.now < x + 1000000))).length < 15 then
                t.sparLink p = 3 ∧ t.mem = s.mem ∧ (t.linkEnd k).expect = e.expect
              else t.sparLink p = 0 ∧ t.on SPR_STATUS.AUTH_EVT p = true ∧ t.on SPR_STATUS.DOWN_EVT p = true)
          | some pt => t.rdN SPR_RX_CTR.VALUE p = ctr % 2 ^ 64 ∧ t.mem = s.mem ∧ t.rd SPR_AUTH_FAIL.COUNT p = s.rd SPR_AUTH_FAIL.COUNT p ∧
              (h / 2 ^ 22 % 8 = 0 → h / 2 ^ 37 % 4096 = e.expect → t.sent = s.sent ++ [.sparPayload p (h / 2 ^ 19 % 8) (h % 64) pt] ∧
                (t.linkEnd k).expect = (e.expect + 1) % 4096 ∧ t.rd SPR_FLITS_RX.COUNT p = s.rd SPR_FLITS_RX.COUNT p + 1) ∧
              (h / 2 ^ 22 % 8 = 1 → t.sent = s.sent ∧ (t.linkEnd k).expect = e.expect ∧
                (t.linkEnd k).held = heldAfter e.held (h / 2 ^ 25 % 4096)))) ∧
    (e.held = [] ∨ s.now < e.ackAt + 400 → exec (.sparReplayTimeout p) s = .next s) ∧
    (∀ key, e.held ≠ [] → e.ackAt + 400 ≤ s.now → (∀ f ∈ e.held, f.resent < 8) → Tab.get (s.spar p).txKey (s.rdN SPR_KEY.TX_KEY p) none = some key →
      ∃ t, exec (.sparReplayTimeout p) s = .next t ∧ t.sent.length = s.sent.length + e.held.length ∧
        t.rd SPR_TX_CTR.VALUE p = s.rd SPR_TX_CTR.VALUE p + BitVec.ofNat 64 e.held.length ∧
        t.rd SPR_REPLAYS.COUNT p = s.rd SPR_REPLAYS.COUNT p + BitVec.ofNat 64 e.held.length ∧
        (t.linkEnd k).held = e.held.map (fun f => { f with resent := f.resent + 1 }) ∧
        LinkOnly s t [SPR_TX_CTR.VALUE.key p, SPR_KEY_FLITS.VALUE.key p, SPR_REPLAYS.COUNT.key p]) ∧
    (s.now < (s.spar p).lastRx + 2000 → exec (.sparRxIdle p) s = .next s) ∧
    ((s.spar p).lastRx + 2000 ≤ s.now → ∃ t, exec (.sparRxIdle p) s = .next t ∧ t.sparLink p = 1 ∧ (t.spar p).retrain = true ∧
      LinkOnly s t [SPR_STATUS.LINK.key p]) ∧
    (∀ v, v < 8 → s.rdN SPR_CREDIT.AVAIL (p * 8 + v) < 512 → Tab.get e.lastData v 0 + 1000000 ≤ s.now →
      ∃ t, exec (.creditLeakCheck true p v) s = .next t ∧ t.on SPR_STATUS.CREDIT_LEAK p = true ∧ t = { s with regs := t.regs } ∧
        RegsSame s t [SPR_STATUS.CREDIT_LEAK.key p])

open Sys2Proof.Claim in
/-- The life of a spar link (R402, R415 to R422): ENABLE starts training on a DOWN port and clears its failed lanes; the lane test gives the
width or leaves the port DOWN; BOOT carries checked BOOT flits, and with keys and TRAIN flits the link is UP with SEQ at 0 and
credits at 512, or DOWN where the wiring is wrong; a retrain keeps the ends; keys are renewed, held back and exhausted by the
flits sent under them; a peer without keys for 1 s takes the port DOWN. -/
def Obligations.SparLife : Prop :=
  ∀ (s : State) (p : Nat), p < 8 →
    (s.island (sparIsland p) = islActive →
      (s.sparLink p = 0 → ∃ t, exec (.sparEnable p) s = .next t ∧ t.sparLink p = 1 ∧ t.on SPR_CTL.ENABLE p = true ∧
        (s.on SPR_CTL.ENABLE p = false → t.rdN SPR_LANE_FAIL.RX p = 0 ∧ t.rdN SPR_LANE_FAIL.TX p = 0) ∧
        LinkOnly s t [SPR_STATUS.LINK.key p, SPR_CTL.ENABLE.key p, SPR_LANE_FAIL.RX.key p, SPR_LANE_FAIL.TX.key p]) ∧
      (∃ t, exec (.sparDisable p) s = .next t ∧ t.on SPR_CTL.ENABLE p = false ∧ t.sparLink p = 0)) ∧
    (∀ rx tx, s.sparLink p = 1 → (s.spar p).start + 20000 ≤ s.now → s.rdN SPR_LANE_FAIL.RX p < 65536 → s.rdN SPR_LANE_FAIL.TX p < 65536 →
      let bad := max (onesBelow 16 (s.rdN SPR_LANE_FAIL.RX p ||| rx)) (onesBelow 16 (s.rdN SPR_LANE_FAIL.TX p ||| tx))
      ((s.spar p).retrain = false → ∃ t, exec (.sparTrainingDone p rx tx) s = .next t ∧ t.mem = s.mem ∧
        t.rdN SPR_LANE_FAIL.RX p = s.rdN SPR_LANE_FAIL.RX p ||| rx % 65536 ∧
        (8 < bad → t.sparLink p = 0 ∧ t.on SPR_STATUS.DOWN_EVT p = true) ∧
        (bad ≤ 8 → t.sparLink p = 2 ∧ t.rdN SPR_STATUS.WIDTH p = (if bad = 0 then 2 else 1) ∧
          t.on SPR_STATUS.RATE p = s.str.sketch.primer ∧ ∃ key, t.sent = s.sent ++ [.keyMsg p (.offer 0 key true)])) ∧
      ((s.spar p).retrain = true → (s.spar p).trained.isSome = true → ∃ t, exec (.sparRetrainDone p rx tx) s = .next t ∧
        (8 < bad → t.sparLink p = 0 ∧ t.on SPR_STATUS.DOWN_EVT p = true) ∧
        (bad ≤ 8 → t.rdN SPR_STATUS.WIDTH p = (if bad = 0 then 2 else 1) ∧ t.mem = s.mem ∧ t.on SPR_CTL.RETRAIN p = false ∧
          t.sparLink p = (if 2 ^ 40 - 2 ^ 24 ≤ s.rdN SPR_KEY_FLITS.VALUE p then 4 else 3) ∧
          t.rd SPR_RETRAINS.COUNT p = s.rd SPR_RETRAINS.COUNT p + 1 ∧ (t.linkEnd (16 + p)).expect = (s.linkEnd (16 + p)).expect ∧
          (t.linkEnd (16 + p)).next = (s.linkEnd (16 + p)).next ∧ (t.linkEnd (16 + p)).held = (s.linkEnd (16 + p)).held.map (fun f => { f with resent := 0 }) ∧
          (t.spar p).txKey = (s.spar p).txKey ∧ (t.spar p).rxKey = (s.spar p).rxKey))) ∧
    (s.sparLink p = 2 →
      (∀ rx tx dims, (Tab.get (s.spar p).txKey (s.rdN SPR_KEY.TX_KEY p) none).isSome = true → (s.spar p).trained = some dims →
        (s.wiringGood p dims = true → ∃ t, exec (.sparTrainingDone p rx tx) s = .next t ∧ t.sparLink p = 3 ∧
          t.linkEnd (16 + p) = LinkEnd.idle ∧ (∀ v, v < 8 → t.rdN SPR_CREDIT.AVAIL (p * 8 + v) = 512) ∧
          LinkOnly s t (SPR_STATUS.LINK.key p :: (List.range 8).map (fun v => SPR_CREDIT.AVAIL.key (p * 8 + v)))) ∧
        (s.wiringGood p dims = false → ∃ t, exec (.sparTrainingDone p rx tx) s = .next t ∧ t.sparLink p = 0 ∧
          t.on SPR_STATUS.WIRING_ERR p = true ∧ t.on SPR_STATUS.DOWN_EVT p = true)) ∧
      (∀ bs, (bs.length = 256 ∧ leField bs 0 8 / 2 ^ 22 % 8 = 4 ∧ leField bs 244 4 = (crc32 (bs.take 244)).toNat ∧ leField bs 248 8 = 0 →
          ∃ t, exec (.sparBoot p bs) s = .next t ∧ t.sent = s.sent ++ [.sparBoot p ((bs.drop 8).take 236)] ∧ LinkOnly s t []) ∧
        (bs.length ≠ 256 ∨ leField bs 244 4 ≠ (crc32 (bs.take 244)).toNat → exec (.sparBoot p bs) s = .next s)) ∧
      (∀ c q dims n, (Tab.get (s.spar p).rxKey (s.rdN SPR_KEY.RX_KEY p) none).isSome = true → ∃ t, exec (.sparTrain p c q dims n true) s = .next t ∧
        t.on SPR_PEER.VALID p = true ∧ t.rdN SPR_PEER.COORD p = c % 65536 ∧ t.rdN SPR_PEER.PORT p = q % 8 ∧
        t.rdN SPR_RX_CTR.VALUE p = n % 2 ^ 64 ∧ (t.spar p).trained = some dims ∧
        LinkOnly s t [SPR_PEER.VALID.key p, SPR_PEER.COORD.key p, SPR_PEER.PORT.key p, SPR_RX_CTR.VALUE.key p]) ∧
      (s.now < (s.spar p).bootAt + 1000000000 → exec (.keyAgreeTimeout p) s = .next s) ∧
      ((s.spar p).bootAt + 1000000000 ≤ s.now → ∃ t, exec (.keyAgreeTimeout p) s = .next t ∧ t.sparLink p = 0 ∧ t.on SPR_STATUS.DOWN_EVT p = true)) ∧
    (s.sparLink p = 3 →
      (∃ t, exec (.sparRetrain p) s = .next t ∧ t.sparLink p = 1 ∧ t.on SPR_CTL.RETRAIN p = true ∧
        LinkOnly s t [SPR_STATUS.LINK.key p, SPR_CTL.RETRAIN.key p]) ∧
      (∃ t, exec (.rekey p) s = .next t ∧ t.on SPR_CTL.REKEY p = true ∧ t.on SPR_STATUS.REKEY_DUE p = true ∧ t.sparLink p = 3 ∧ t.mem = s.mem) ∧
      (s.rdN SPR_KEY_FLITS.VALUE p < 2 ^ 39 → exec (.rekeyDue p) s = .next s) ∧
      (2 ^ 39 ≤ s.rdN SPR_KEY_FLITS.VALUE p → ∃ t, exec (.rekeyDue p) s = .next t ∧ t.on SPR_STATUS.REKEY_DUE p = true ∧ t.mem = s.mem) ∧
      (2 ^ 40 - 2 ^ 24 ≤ s.rdN SPR_KEY_FLITS.VALUE p → ∃ t, exec (.keyHold p) s = .next t ∧ t.sparLink p = 4 ∧
        t.on SPR_STATUS.KEY_EXHAUSTED p = true ∧ t = { s with regs := t.regs } ∧
        RegsSame s t [SPR_STATUS.LINK.key p, SPR_STATUS.KEY_EXHAUSTED.key p]) ∧
      (2 ^ 40 ≤ s.rdN SPR_KEY_FLITS.VALUE p → ∃ t, exec (.keyExhaust p) s = .next t ∧ t.sparLink p = 0 ∧ t.on SPR_STATUS.DOWN_EVT p = true) ∧
      (∀ slot, s.on SPR_KEY.NEXT_TX p = true → slot < 2 → slot ≠ s.rdN SPR_KEY.TX_KEY p → ∃ t, exec (.keyMsg p (.installed slot)) s = .next t ∧
        t.rdN SPR_KEY.TX_KEY p = slot ∧ t.on SPR_KEY.NEXT_TX p = false ∧ t.rdN SPR_KEY_FLITS.VALUE p = 0 ∧ t.on SPR_CTL.REKEY p = false ∧
        t.rd SPR_TX_CTR.VALUE p = s.rd SPR_TX_CTR.VALUE p ∧
        LinkOnly s t [SPR_KEY.TX_KEY.key p, SPR_KEY.NEXT_TX.key p, SPR_KEY_FLITS.VALUE.key p, SPR_CTL.REKEY.key p, SPR_STATUS.LINK.key p]) ∧
      (∀ slot key, ∃ t, exec (.keyMsg p (.offer slot key false)) s = .next t ∧ t.sparLink p = 0))

/-! ### Collectives (chapter 14) -/

namespace Sys2Proof.Claim

/-- The commands that start a collective, each with the OP that it is for; 0 stands for every reserved one. -/
def CollStarts (q : Nat) (i : Instr) (op : Nat) : Prop :=
  (i = .allReduce q ∧ op = 1) ∨ (i = .reduceScatter q ∧ op = 2) ∨ (i = .allGather q ∧ op = 3) ∨ (i = .broadcast q ∧ op = 4) ∨
    (i = .pass q ∧ op = 5) ∨ (i = .permute q ∧ op = 6) ∨ (i = .sigCmp q ∧ op = 7) ∨ (i = .collectiveOpReserved q ∧ op = 0)

/-- A collective queue. -/
def colQ (q : Nat) : QId := ⟨.col, q⟩

/-- The members that a member table names. -/
def membersOf (n : Nat) (table : List Byte) : List (Nat × Nat) :=
  (List.range n).map (fun r => (leField table (4 * r) 2, leField table (4 * r + 2) 1))

/-- A collective is over at this member. -/
def CollGone (t : State) (c : Coll) : Prop := ∀ x ∈ t.colls, ¬ (x.queue = c.queue ∧ x.seq = c.seq)

/-- A member's part has halted (R437): its queue halts with the code, and the first such halt is captured. -/
def CollHalted (s t : State) (c : Coll) (code : Code) (remote : Bool) (rank : Nat) : Prop :=
  CollGone t c ∧ t.rdN COL_Q_STATUS.STATE c.queue = 2 ∧ t.rd COL_Q_STATUS.CODE c.queue = codeVal code ∧ t.on COL_Q_STATUS.ERR c.queue = true ∧
  t.mem = s.mem ∧
  (s.on COL_ERR.VALID 0 = false → t.rd COL_ERR.CODE 0 = codeVal code ∧ t.rdN COL_ERR.RANK 0 = rank % 64 ∧ t.on COL_ERR.REMOTE 0 = remote ∧
    t.rdN COL_ERR.GROUP 0 = c.group % 65536 ∧ t.rdN COL_ERR.SEQ 0 = c.num % 65536) ∧
  (s.on COL_ERR.VALID 0 = true → t.on COL_ERR.OVERRUN 0 = true ∧ t.rd COL_ERR.CODE 0 = s.rd COL_ERR.CODE 0)

end Sys2Proof.Claim

open Sys2Proof.Claim in
/-- A collective starts (R425 to R429): a descriptor with a reserved value halts its queue with DMA_BAD_DESC, and the checks of R428 halt it
with the first code that applies; one that passes them grants landing space to every member that it will receive from and is
open, with the members that its table names. -/
def Obligations.CollectiveStart : Prop :=
  ∀ (s t : State) (q op : Nat) (i : Instr) (b : List Byte), CollStarts q i op → q < 257 → s.str.loader.phase = .idle → s.island 141 = islActive →
    s.qNext (colQ q) = .cmd b t → (if leField b 0 1 ≤ 7 then leField b 0 1 else 0) = op → t.colls.length < 32 →
    t.qMayStart (colQ q) ((leField b 1 1).testBit 0) (t.colls.filter (fun c => c.queue == q)).length 7 = true →
    let d := collDesc b
    let part := if q < 256 then q else d.owner
    let len := if d.op = 6 then 32 * d.nlist else 0
    (op = 0 → d.ok b q = false) ∧
    (d.ok b q = false → ∃ t', exec i s = .next t' ∧ t'.rdN COL_Q_STATUS.STATE q = 2 ∧ t'.rd COL_Q_STATUS.CODE q = codeVal 0x0302 ∧
      t'.colls = t.colls ∧ t'.mem = t.mem) ∧
    (∀ (u v : State) (table list : List Byte), d.ok b q = true → rangeLocal d.table (4 * d.n) = true → rangeLocal d.list len = true →
      (q = 256 ∨ t.windowOk part .r d.table (4 * d.n) = true) → (q = 256 ∨ len = 0 ∨ t.windowOk part .r d.list len = true) →
      t.readRange collAgent d.table (4 * d.n) = .done 0 table u → u.readRange collAgent d.list len = .done 0 list v →
      (v.collCheck q part b table list ≠ 0 → ∃ t', exec i s = .next t' ∧ t'.rdN COL_Q_STATUS.STATE q = 2 ∧
        t'.rd COL_Q_STATUS.CODE q = codeVal (v.collCheck q part b table list) ∧ t'.colls = v.colls ∧ t'.mem = v.mem) ∧
      (∀ (w x : State) (src : List Byte) (sends : List (Nat × CollMsg)), v.collCheck q part b table list = 0 →
        v.readRange collAgent d.src d.srcLen = .done 0 src w →
        (if d.op = 6 then w.permuteOut list d.nlist else some (0, [], w)) = some (0, sends, x) →
        (∀ e ∈ x.early, ¬ (e.1 = leField b 6 2 ∧ e.2.1 = leField b 12 4)) → x.coll (leField b 6 2) (leField b 12 4) = none →
        (∀ m ∈ membersOf d.n table, m.1 = x.coord ∨ (x.reachable m.1 = true ∧ ∀ p, x.routePort m.1 = some p → x.sparLink p ≠ 0)) →
        ∃ t', exec i s = .next t' ∧ (t'.ring (colQ q)).read = seqNext (x.ring (colQ q)).read ∧
          (∀ r ∈ d.sources, .collGrant ((membersOf d.n table).getD r (0, 0)).1 (leField b 6 2) (leField b 12 4)
            (d.grant (crc32 table).toNat) ∈ t'.sent) ∧
          (d.op ≠ 3 → (∀ m ∈ sends, m.1 ≠ d.rank) → t'.mem = x.mem ∧ ∃ c, t'.coll (leField b 6 2) (leField b 12 4) = some c ∧ c.queue = q ∧
            c.members = membersOf d.n table ∧ c.units = 0 ∧ c.grants = [] ∧ c.out = d.firstOut src ++ sends)))

open Sys2Proof.Claim in
/-- An open collective (R429, R433 to R437): a GRANT that agrees lets the waiting data to its sender leave, and one that does not halts the
member; a FAIL and a timeout halt it; data that R431 does not expect is left; a travelling partial is combined with this
member's own units and travels on, or becomes the result at its owner; BROADCAST and PASS data land at DST; when all is
written and sent the member completes. -/
def Obligations.CollectiveMembers : Prop :=
  ∀ (s : State) (g n : Nat) (c : Coll), s.coll g n = some c → c.group = g → c.num = n →
    (∀ x ∈ s.colls, (x.queue = c.queue ∧ x.seq = c.seq) → x = c) →
    let d := collDesc c.desc
    (∀ r, c.grants.contains r = false → ∃ t, exec (.grant g n r (d.grant c.tableCrc)) s = .next t ∧ t.mem = s.mem ∧
      (∃ c', t.coll g n = some c' ∧ c'.grants = c.grants ++ [r] ∧
        c'.out = c.out.filter (fun m => !(c.grants ++ [r]).contains m.1)) ∧
      ∀ m ∈ c.out, m.1 = r → .collData ((c.members.getD m.1 (0, 0)).1) c.group c.num m.2 ∈ t.sent) ∧
    (∀ r f, f ≠ d.grant c.tableCrc → ∃ t, exec (.grant g n r f) s = .next t ∧ CollHalted s t c 0x0302 false c.rank) ∧
    (∀ r code, ∃ t, exec (.fail g n r code) s = .next t ∧ CollHalted s t c code true r ∧ t.on COL_STATUS.REMOTE_FAIL 0 = true) ∧
    (s.rdN COL_TIMEOUT.MS 0 = 0 ∨ s.now < c.last + s.rdN COL_TIMEOUT.MS 0 * 1000000 → exec (.colTimeoutExpiry g n) s = .next s) ∧
    (s.rdN COL_TIMEOUT.MS 0 ≠ 0 → c.last + s.rdN COL_TIMEOUT.MS 0 * 1000000 ≤ s.now →
      ∃ t, exec (.colTimeoutExpiry g n) s = .next t ∧ CollHalted s t c 0x0308 false c.rank) ∧
    (∀ r m, d.expects r m = false → exec (.collMessage g n r m) s = .next s) ∧
    (∀ r m own v t, d.expects r m = true → m.kind = 1 ∨ m.kind = 2 → m.block ≠ d.rank →
      s.readRange collAgent (d.src + d.blockAt m.block + m.offset) m.data.length = .done 0 own t → t.colls = s.colls →
      collCombine d.dtype m.data own = .ok v → c.grants.contains (if m.kind = 1 then (d.rank + 1) % d.n else (d.rank + d.n - 1) % d.n) = true →
      ∃ t', exec (.collMessage g n r m) s = .next t' ∧ t'.mem = t.mem ∧
        .collData ((c.members.getD (if m.kind = 1 then (d.rank + 1) % d.n else (d.rank + d.n - 1) % d.n) (0, 0)).1) c.group c.num
          { m with data := v } ∈ t'.sent) ∧
    (∀ r m own v t u, d.op = 2 → d.addl = false → d.expects r m = true → m.kind = 1 ∨ m.kind = 2 → m.block = d.rank →
      s.readRange collAgent (d.src + d.blockAt m.block + m.offset) m.data.length = .done 0 own t →
      collCombine d.dtype m.data own = .ok v → t.writeRange collAgent (d.dst + m.offset) v = .done 0 [] u →
      ∃ t', exec (.collMessage g n r m) s = .next t' ∧ t'.mem = u.mem) ∧
    (∀ r m u, (d.op = 4 ∨ d.op = 5) → d.addl = false → d.expects r m = true →
      s.writeRange collAgent (d.dst + m.offset) m.data = .done 0 [] u →
      ∃ t', exec (.collMessage g n r m) s = .next t' ∧ t'.mem = u.mem ∧
        t'.rd COL_BYTES_RX.COUNT 0 = u.rd COL_BYTES_RX.COUNT 0 + BitVec.ofNat 64 m.data.length) ∧
    (c.out = [] → c.units = d.toWrite → c.passed = d.toPass → s.rdN COL_Q_HEAD.HEAD c.queue = c.seq → (s.ring (colQ c.queue)).done = [] →
      ∃ t, exec (.collectiveComplete g n) s = .next t ∧ CollGone t c ∧ t.rd COL_OPS.COUNT 0 = s.rd COL_OPS.COUNT 0 + 1 ∧
        t.rdN COL_Q_HEAD.HEAD c.queue = seqNext c.seq ∧ t.mem = s.mem) ∧
    (c.out ≠ [] ∨ c.units ≠ d.toWrite → exec (.collectiveComplete g n) s = .next s)

open Sys2Proof.Claim in
/-- Blocks and signatures (R430, R438): the blocks of a collective follow one another and hold its bytes, each beginning on a sector; and bit r
of the word of record i is 1 exactly where rank r's record differs from rank 0's in TENSOR_ID, GLOBAL_SHAPE, OFFSET, EXTENT
or SIGNATURE. -/
def Obligations.CollectiveBlocks : Prop :=
  (∀ (d : CollDesc), 2 ≤ d.n → d.n ≤ 64 →
    (∀ b, d.blockAt b % 256 = 0) ∧
    (∀ x, x < d.extent ↔ ∃ b, b < d.n ∧ d.blockAt b ≤ x ∧ x < d.blockAt b + d.blockLen b) ∧
    (∀ b c x, d.blockAt b ≤ x → x < d.blockAt b + d.blockLen b → d.blockAt c ≤ x → x < d.blockAt c + d.blockLen c → b = c) ∧
    (∀ b, d.lowerLen b ≤ d.blockLen b)) ∧
  (∀ (n count : Nat) (recs : List (List Byte)) (i r : Nat), n ≤ 64 → recs.length = n → (∀ x ∈ recs, x.length = 256 * count) → i < count → r < n →
    let rec_ := fun k => ((recs.getD k []).drop (256 * i)).take 256
    (sigWords n count recs).1.length = 8 * count ∧
    ((leField (sigWords n count recs).1 (8 * i) 8).testBit r = true ↔
      ((rec_ r).drop 8).take 4 ≠ ((rec_ 0).drop 8).take 4 ∨ ((rec_ r).drop 32).take 208 ≠ ((rec_ 0).drop 32).take 208) ∧
    ((sigWords n count recs).2 = none ↔ ∀ j, j < count → leField (sigWords n count recs).1 (8 * j) 8 = 0))

/-! ### Power and thermal control (chapter 15) -/

namespace Sys2Proof.Claim

/-- The watts of the tokens that the manager counts as held. -/
def heldSum (s : State) : Nat := ((List.range 144).map s.tokensKept).sum

/-- The token books (R452): what the registers show, and that pool, held and in flight make the pool size. -/
def Balanced (s : State) : Prop :=
  heldSum s + s.tokensFlying ≤ s.power.size ∧ s.power.size < 8192 ∧ s.rdN PWR_TOKENS.HELD 0 = heldSum s ∧
    s.rdN PWR_TOKENS.INFLIGHT 0 = s.tokensFlying ∧
    s.rdN PWR_TOKENS.POOL 0 + s.rdN PWR_TOKENS.HELD 0 + s.rdN PWR_TOKENS.INFLIGHT 0 = s.power.size

/-- Only the power manager, the throttle reasons and the listed register fields change. -/
def PowerOnly (s t : State) (ks : List Nat) : Prop :=
  t = { s with regs := t.regs, power := t.power } ∧
  RegsSame s t (ks ++ [PWR_THR_REASON.REASON.key 0, PWR_THR_SEEN.REASON.key 0] ++ (List.range 12).map PWR_THR_TIME.NS.key)

/-- A throttle reason's bit, and that a rising edge is kept in SEEN (R461). -/
def ReasonIs (s t : State) (b : Nat) (v : Bool) : Prop :=
  (t.rdN PWR_THR_REASON.REASON 0).testBit b = v ∧
  (v = true → (s.rdN PWR_THR_REASON.REASON 0).testBit b = false → (t.rdN PWR_THR_SEEN.REASON 0).testBit b = true)

/-- What haul-down has become. -/
def HauledTo (s t : State) (on : Bool) : Prop :=
  t.on PWR_STATUS.HAULDOWN_ACTIVE 0 = on ∧
  (on = s.hauled → t.power.size = s.power.size) ∧
  (on ≠ s.hauled → (∀ i, i < 144 → t.on PWR_ISL.HD i = on) ∧ ReasonIs s t 6 on ∧ (on = true → t.on PWR_STATUS.HAULDOWN_EVT 0 = true) ∧
    t.power.size = min s.power.size s.hdW ∧ (on = false → t.power.ramp = true)) ∧
  t = { s with regs := t.regs, power := t.power }

end Sys2Proof.Claim

open Sys2Proof.Claim in
/-- Tokens and limits (R446 to R462, R477): a control interval takes the pool size of R449; a grant and a revocation that arrive change the
island's tokens, and with the acknowledgement they keep the books, pool, held and in flight together the pool size; the local
limiter and the droop detector stretch the island's clock and an IVR at its limit lowers its point; haul-down follows the pin and
FORCE together; a cap that is lowered shrinks the pool at once and one that is raised lets grants ramp; PWR_PHASE_PO takes writes
only with a Sketch resident. None of these changes memory. -/
def Obligations.PowerManager : Prop :=
  (∀ (s : State) (watts : Nat) (demands : List IslandDemand), s.island 142 = islActive →
    (∀ x, s.power.interval = some x → x + 10000 ≤ s.now) → s.power.ramp = false →
    let s' := { s with power := { s.power with samples := watts :: s.power.samples.take 99999 } }
    ∃ t, exec (.controlInterval watts demands) s = .next t ∧
      t.power.size = min (min s.fastW s'.averagePool) (if s.hauled then s.hdW else s.fastW) ∧ t.power.interval = some s.now ∧
      (∀ i, hasPoint i = true → i < 136 → Tab.get t.power.pref i 0 < 8 → t.rdN PWR_ISL.PO i ≤ Tab.get t.power.pref i 0) ∧ t.mem = s.mem ∧
      t = { s with regs := t.regs, power := t.power }) ∧
  (∀ (s : State) (i : Nat) (m : TokenMsg) (ms : List TokenMsg), i < 144 → Balanced s → s.rdN PWR_ISL.TOKENS i < 2048 →
    (takeMsg (fun x => x.island == i && x.grant && !x.arrived) s.power.flights = some (m, ms) → s.rdN PWR_ISL.TOKENS i + m.watts < 2048 →
      ∃ t, exec (.tokenGrant i) s = .next t ∧ t.rdN PWR_ISL.TOKENS i = s.rdN PWR_ISL.TOKENS i + m.watts ∧ Balanced t ∧
        t.power.size = s.power.size ∧ PowerOnly s t [PWR_ISL.TOKENS.key i, PWR_ISL.PO.key i, PWR_TOKENS.HELD.key 0, PWR_TOKENS.INFLIGHT.key 0, PWR_TOKENS.POOL.key 0]) ∧
    (takeMsg (fun x => x.island == i && !x.grant && !x.arrived) s.power.flights = some (m, ms) →
      ∃ t, exec (.tokenRevoke i) s = .next t ∧ t.rdN PWR_ISL.TOKENS i = s.rdN PWR_ISL.TOKENS i - m.watts ∧ Balanced t ∧
        t.power.size = s.power.size ∧ PowerOnly s t [PWR_ISL.TOKENS.key i, PWR_ISL.PO.key i, PWR_TOKENS.HELD.key 0, PWR_TOKENS.INFLIGHT.key 0, PWR_TOKENS.POOL.key 0]) ∧
    (takeMsg (fun x => x.island == i && x.arrived) s.power.flights = some (m, ms) →
      ∃ t, exec (.tokenAck i) s = .next t ∧ t.power.flights = ms ∧ Balanced t ∧ t.power.size = s.power.size ∧
        PowerOnly s t [PWR_TOKENS.HELD.key 0, PWR_TOKENS.INFLIGHT.key 0, PWR_TOKENS.POOL.key 0])) ∧
  (∀ (s : State) (i : Nat), i < 144 →
    (∀ estimate, ∃ t, exec (.localLimiter i estimate) s = .next t ∧
      t.on PWR_ISL.STRETCH i = (decide (s.rdN PWR_ISL.TOKENS i < estimate) || Tab.get s.power.droop i false) ∧ PowerOnly s t [PWR_ISL.STRETCH.key i]) ∧
    (Tab.get s.power.droop i false = false → ∃ t, exec (.droopDetect i) s = .next t ∧ t.on PWR_ISL.STRETCH i = true ∧ ReasonIs s t 3 true ∧
      t.rd PWR_DROOP_EVENTS.COUNT 0 = s.rd PWR_DROOP_EVENTS.COUNT 0 + 1 ∧ PowerOnly s t [PWR_ISL.STRETCH.key i, PWR_DROOP_EVENTS.COUNT.key 0]) ∧
    (Tab.get s.power.droop i false = true → ∃ t, exec (.droopRecover i) s = .next t ∧ t.on PWR_ISL.STRETCH i = Tab.get s.power.limiter i false ∧
      PowerOnly s t [PWR_ISL.STRETCH.key i]) ∧
    (s.island 142 = islActive → ∃ t, exec (.ivrCurrentLimit i) s = .next t ∧ ReasonIs s t 2 true ∧
      (hasPoint i = true → t.rdN PWR_ISL.PO i ≤ (Tab.get s.power.pref i 0 - 1) % 8 ∨ 8 ≤ Tab.get s.power.pref i 0) ∧ PowerOnly s t [PWR_ISL.PO.key i]) ∧
    (∀ n, n ≤ 4 → s.island 142 = islActive → ∃ t, exec (.haulDownRecompute [(i, n)]) s = .next t ∧ t.rdN PWR_ISL.HD_DIV i = n ∧
      t = { s with regs := t.regs } ∧ RegsSame s t [PWR_ISL.HD_DIV.key i])) ∧
  (∀ (s : State), s.power.size < 8192 →
    (∃ t, exec .haulDownAssert s = .next t ∧ HauledTo s t true ∧ t.on SBD_STATUS.HAUL_DOWN 0 = true ∧ t.power.hdPin = true) ∧
    (∃ t, exec .haulDownRelease s = .next t ∧ HauledTo s t (s.on PWR_HAULDOWN.FORCE 0) ∧ t.on SBD_STATUS.HAUL_DOWN 0 = false) ∧
    (∀ force low, ∃ t, exec (.haulDownForce force low) s = .next t ∧ HauledTo s t (force || low || s.power.hdPin) ∧
      t.on PWR_HAULDOWN.FORCE 0 = force)) ∧
  (∀ (s : State) (w : Nat), w < 8192 →
    (∃ t, exec (.capWrite false w) s = .next t ∧ t.rdN PWR_CAP.CAP_W 0 = w ∧ t.capW = max 1500 (min 4000 w) ∧ t.power.size ≤ t.fastW ∧
      (t.capW < s.capW → t.power.samples = []) ∧ (s.capW < t.capW → t.power.ramp = true) ∧ t = { s with regs := t.regs, power := t.power }) ∧
    (∃ t, exec (.capWrite true w) s = .next t ∧ t.rdN PWR_CAP_FAST.FAST_W 0 = w ∧ t.fastW = max s.capW (min 4600 w) ∧ t.power.size ≤ t.fastW ∧
      (t.fastW < s.fastW → t.power.samples = []) ∧ (s.fastW < t.fastW → t.power.ramp = true) ∧ t = { s with regs := t.regs, power := t.power })) ∧
  (∀ (s : State) (i v : Nat), i < 8 →
    (s.str.sketch.primer = true → exec (.phasePoWrite i v) s = .next s) ∧
    (s.str.sketch.primer = false → ∃ t, exec (.phasePoWrite i v) s = .next t ∧ t.rdN PWR_PHASE_PO.PO i = v % 8 ∧ t = { s with regs := t.regs } ∧
      RegsSame s t [PWR_PHASE_PO.PO.key i]))

open Sys2Proof.Claim in
/-- Sensors, the trip, energy and wear (R463 to R475, R478, R480): a sample shows each trusted sensor's own value where at least half of its die
is trusted, sets WARN where a value stands at warn, engages the throttle of a die with a value at throttle, and at trip turns off
every island but 136 and 143; islands 136 and 143 follow once the record is written; SUSPECT clears unless a sample marks it in
the same cycle; an interval's measured energy goes to the device's counter to the nanojoule; a sample of the bond temperature
counts wear and never less. -/
def Obligations.ThermalControl : Prop :=
  (∀ (s : State) (temps : List Int), s.island 142 = islActive → s.therm.tripPin = false → temps.length = 496 →
    (∀ x, s.therm.sampleAt = some x → x + 100000 ≤ s.now) →
    let val := fun i => (s.sensorValue temps i).1
    let lim := fun i => dieLimits (dieKind (dieOf i))
    let rise := fun i => val i - (s.therm.history.getD 9 ((List.range 496).map val)).getD i 0
    let trips := fun i => (lim i).2.2 ≤ val i ∨ (80 < rise i ∧ 19 ≤ Tab.get s.therm.soaring i 0)
    ((∀ i, i < 496 → ¬ trips i) → ∃ t, exec (.sensorSample temps) s = .next t ∧ t.mem = s.mem ∧ t.therm.tripPin = false ∧
      (∀ i, i < 496 → t.rd THM_SENSOR.TEMP i = (BitVec.ofInt 16 (val i)).setWidth 64) ∧
      ((∃ i, i < 496 ∧ (lim i).1 ≤ val i) → t.on THM_STATUS.WARN 0 = true) ∧
      (∀ i, i < 496 → s.throttleAt (dieOf i) ≤ val i → Tab.get t.therm.level (dieOf i) false = true) ∧
      (∀ i, i < 496 → 24 < rise i → 39 ≤ Tab.get s.therm.rising i 0 → Tab.get t.therm.rate (dieOf i) false = true) ∧
      (∀ d, d < 29 → (∀ i, i < 496 → dieOf i = d → val i ≤ s.throttleAt d - 48 ∧ ¬ (24 < rise i)) →
        Tab.get t.therm.level d false = false ∧ Tab.get t.therm.rate d false = false)) ∧
    ((∃ i, i < 496 ∧ trips i) → ∃ t, exec (.sensorSample temps) s = .next t ∧ t.therm.tripPin = true ∧
      (∀ i, i < 144 → i ≠ 136 → i ≠ 143 → s.island i ≠ islFused → s.island i ≠ islLost → t.island i = islAsleep) ∧
      t.island 136 = s.island 136 ∧ t.island 143 = s.island 143 ∧
      (∀ a c x, targetOf a = .gesso c x → c < 4 → Tab.find t.mem a = none))) ∧
  (∀ (s : State) (temps : List Int) (i : Nat), i < 496 → s.on THM_SENSOR.SUSPECT i = false →
    2 * ((List.range 496).filter (fun n => dieOf n == dieOf i)).length ≤ 4 * (((List.range 496).filter (fun n => dieOf n == dieOf i)).filter s.trusted).length →
    s.sensorValue temps i = (temps.getD i 0, false)) ∧
  (∀ (s : State), s.therm.tripPin = true → s.island 136 = islActive → (∀ e ∈ s.jnl.queue, e.record.type ≠ 0x10) →
    (∀ r ∈ s.jnl.waiting, r.type ≠ 0x10) → ∃ t, exec .tripRecordDone s = .next t ∧ t.island 136 = islAsleep ∧ t.island 143 = islAsleep ∧
      t.mem = s.mem ∧ ∀ i, i ≠ 136 → i ≠ 143 → i < 4294967296 → t.island i = s.island i) ∧
  (∀ (s : State) (i : Nat), i < 496 →
    (∃ t, exec (.suspectClear i true) s = .next t ∧ t.on THM_SENSOR.SUSPECT i = true ∧ t.on THM_STATUS.SUSPECT_EVT 0 = true ∧
      t = { s with regs := t.regs } ∧ RegsSame s t [THM_SENSOR.SUSPECT.key i, THM_STATUS.SUSPECT_EVT.key 0]) ∧
    (∃ t, exec (.suspectClear i false) s = .next t ∧ t.on THM_SENSOR.SUSPECT i = false ∧ t.on THM_SENSOR.STANDIN i = false ∧
      Tab.get t.therm.off i 0 = 0 ∧ RegsSame s t [THM_SENSOR.SUSPECT.key i, THM_SENSOR.STANDIN.key i] ∧ t.mem = s.mem)) ∧
  (∀ (s : State) (nj : Nat) (used : List EnergyUse) (leaks : List (Nat × Nat)), s.island 142 = islActive → s.power.energyAt + 1000000 ≤ s.now →
    ∃ t, exec (.energyInterval nj used leaks) s = .next t ∧ t.mem = s.mem ∧ t.power.energyAt = s.now ∧
      (s.conf = false → t.rd PWR_ENERGY_DEVICE.COUNT 0 = s.rd PWR_ENERGY_DEVICE.COUNT 0 +
          BitVec.ofNat 64 ((Tab.get s.power.nj 0 0 + s.power.hidden + nj) / 1000) ∧
        Tab.get t.power.nj 0 0 = (Tab.get s.power.nj 0 0 + s.power.hidden + nj) % 1000) ∧
      (s.conf = true → s.power.hiddenMs < 99 → t.rd PWR_ENERGY_DEVICE.COUNT 0 = s.rd PWR_ENERGY_DEVICE.COUNT 0 ∧
        t.rd PWR_POWER.WATTS 0 = s.rd PWR_POWER.WATTS 0)) ∧
  (∀ (s : State) (c : Nat), c < 4 → s.island 142 = islActive → 10 ≤ s.therm.history.length → ∃ t, exec (.bondWearSample c) s = .next t ∧
    Tab.get s.therm.wear c 0 ≤ Tab.get t.therm.wear c 0 ∧ t.rdN THM_WEAR.UNITS c = Tab.get t.therm.wear c 0 / 1000000 % 131072 ∧
    (80000000000 ≤ Tab.get t.therm.wear c 0 → t.on THM_STATUS.WEAR_DERATE 0 = true) ∧
    (100000000000 ≤ Tab.get t.therm.wear c 0 → Tab.get s.therm.wear c 0 < 100000000000 → t.on THM_STATUS.WEAR_LIFE 0 = true) ∧
    (∀ x, x ≠ c → Tab.get t.therm.wear x 0 = Tab.get s.therm.wear x 0) ∧ t.mem = s.mem) ∧
  (∀ (a b : Int), cycleWear (a - b) = cycleWear (b - a) ∧ ((a - b).natAbs ≤ 51200 → cycleWear (a - b) = 0)) ∧ cycleWear 76800 = 562500

/-! ### The root of trust and confidential mode (chapter 16) -/

namespace Sys2Proof.Claim

/-- The mailbox is free and the RTP takes a command whose request is the given bytes (R484). -/
def Accepting (s : State) (req : MbxRequest) (b : List Byte) : Prop :=
  s.rtpUp = true ∧ s.on SEC_MBX_STATUS.BUSY 0 = false ∧ s.on SEC_STATUS.EXITING 0 = false ∧ s.sec.entering = none ∧ s.stage ≠ 6 ∧
    s.on JNL_STATUS.COMPACTING 0 = false ∧
    (match req with | .host n => b = s.mbxBuffer n | .smbus x => b = x.take 4096)

/-- The command is accepted: it runs, and will end with a code and a response. -/
def Runs (t : State) (code : Code) (resp : List Byte) : Prop :=
  t.sec.run = some ⟨code, resp.take 4096⟩ ∧ t.on SEC_MBX_STATUS.BUSY 0 = true

/-- A command that runs and changes nothing else. -/
def RunsOnly (s t : State) (code : Code) (resp : List Byte) : Prop :=
  Runs t code resp ∧ t = { s with regs := t.regs, sec := { s.sec with run := t.sec.run } } ∧ RegsSame s t [SEC_MBX_STATUS.BUSY.key 0]

/-- The mailbox commands, with their OPCODEs. -/
def MailCommand (i : Instr) (op : Nat) (req : MbxRequest) (flashOk : Bool) : Prop :=
  (i = .enroll req ∧ op = 0x01) ∨ (i = .revoke req ∧ op = 0x02) ∨ (i = .saltChange req ∧ op = 0x03) ∨ (i = .clearTamper req ∧ op = 0x04) ∨
    (i = .forceExit req ∧ op = 0x05) ∨ (i = .readCert req ∧ op = 0x06) ∨ (i = .jnlRead req ∧ op = 0x10) ∨ (i = .jnlAppend req ∧ op = 0x11) ∨
    (i = .jnlCompact req ∧ op = 0x12) ∨ (i = .fwWrite req flashOk ∧ op = 0x18) ∨ (i = .fwActivate req flashOk ∧ op = 0x19) ∨
    (i = .fwCommitSvn req ∧ op = 0x1A)

/-- The commands that R484 and R577 refuse in confidential mode. -/
def RefusedInConf (op : Nat) : Prop := op ∈ [0x01, 0x02, 0x03, 0x04, 0x18, 0x19, 0x1A]

/-- The salt has changed (R499 to R501): to another byte of even weight, counted, and no well word is readable. -/
def Salted (s t : State) : Prop :=
  t.sec.salt ≠ s.sec.salt ∧ popcount t.sec.salt.toNat % 2 = 0 ∧ t.rdN SEC_EPOCH.COUNT 0 = (s.rdN SEC_EPOCH.COUNT 0 + 1) % 2 ^ 32 ∧
  ∀ a p o, targetOf a = .well p o → Tab.find t.mem a = none

/-- An SPDM answer is sent and nothing else changes but the root of trust. -/
def Answers (s t : State) (m : Msg) : Prop := t = { s with sec := t.sec, sent := s.sent ++ [m] }

end Sys2Proof.Claim

open Sys2Proof.Claim in
/-- The RTP mailbox (R484, R486, R489, R500, R504, R577, R585, R587): a host command sent while one runs sets DENIED; one sent during an exit,
an entry or a compaction ends with SEC_BUSY; confidential mode refuses the commands that the tables say; each accepted command
has its effect and runs until its end gives CODE and response, clears BUSY and sets MBX_DONE; an OPCODE of no table is refused. -/
def Obligations.MailboxCommands : Prop :=
  (∀ (s : State) (i : Instr) (op n : Nat) (ok : Bool), MailCommand i op (.host n) ok → s.rtpUp = true → s.on SEC_MBX_STATUS.BUSY 0 = true →
    ∃ t, exec i s = .next t ∧ t.on SEC_STATUS.DENIED 0 = true ∧ t = { s with regs := t.regs } ∧ RegsSame s t [SEC_STATUS.DENIED.key 0]) ∧
  (∀ (s : State) (i : Instr) (op : Nat) (req : MbxRequest) (ok : Bool), MailCommand i op req ok → s.rtpUp = true → s.on SEC_MBX_STATUS.BUSY 0 = false →
    (s.on SEC_STATUS.EXITING 0 = true ∨ s.sec.entering.isSome = true ∨ (op = 0x12 ∧ s.on JNL_STATUS.COMPACTING 0 = true)) →
    ∃ t, exec i s = .next t ∧ t.rd SEC_MBX_STATUS.CODE 0 = codeVal 0x0601 ∧ t.rdN SEC_MBX_STATUS.RLEN 0 = 0 ∧ t.on SEC_STATUS.MBX_DONE 0 = true ∧
      t.on SEC_MBX_STATUS.BUSY 0 = false ∧ t = { s with regs := t.regs, sec := { s.sec with run := none } } ∧
      RegsSame s t [SEC_MBX_STATUS.CODE.key 0, SEC_MBX_STATUS.RLEN.key 0, SEC_MBX_STATUS.BUSY.key 0, SEC_STATUS.MBX_DONE.key 0]) ∧
  (∀ (s : State) (req : MbxRequest) (b : List Byte) (ok : Bool), Accepting s req b →
    (∀ i op, MailCommand i op req ok → RefusedInConf op → s.conf = true → ∃ t, exec i s = .next t ∧ RunsOnly s t 0x0604 []) ∧
    (s.conf = false → ∃ t, exec (.forceExit req) s = .next t ∧ RunsOnly s t 0x0605 []) ∧
    (s.conf = true → ∃ t, exec (.forceExit req) s = .next t ∧ Runs t 0 [] ∧ t.on SEC_STATUS.EXITING 0 = true ∧ t.sec.exiting = .drain) ∧
    (s.conf = false → 64 ≤ b.length → byteAt b 0 ≤ 3 → ∃ t, exec (.enroll req) s = .next t ∧ Runs t 0 [] ∧
      t.sec.slots = s.sec.slots.set (byteAt b 0) (some (BitVec.ofNat 384 (leField b 16 48))) ∧ t.mem = s.mem) ∧
    (s.conf = false → 1 ≤ b.length → byteAt b 0 ≤ 3 → ∃ t, exec (.revoke req) s = .next t ∧ Runs t 0 [] ∧
      t.sec.slots = s.sec.slots.set (byteAt b 0) none ∧ t.mem = s.mem) ∧
    (s.conf = false → (b.length < 64 ∨ 3 < byteAt b 0) → ∃ t, exec (.enroll req) s = .next t ∧ RunsOnly s t 0x0603 []) ∧
    (s.conf = false → s.quiesced = false → ∃ t, exec (.saltChange req) s = .next t ∧ RunsOnly s t 0x0602 []) ∧
    (s.conf = false → s.quiesced = true → ∃ t, exec (.saltChange req) s = .next t ∧ Runs t 0 [] ∧ Salted s t) ∧
    (s.conf = false → ∃ t, exec (.clearTamper req) s = .next t ∧ Runs t 0 [] ∧ t.on SEC_STATUS.TAMPER_LATCH 0 = false ∧
      t.sec.clears = s.sec.clears + 1 ∧ (∀ e, t.rd SEC_TAMPER.CAUSE e = s.rd SEC_TAMPER.CAUSE e) ∧ t.mem = s.mem) ∧
    (1 ≤ b.length → byteAt b 0 ≤ 2 → ∃ t, exec (.readCert req) s = .next t ∧ RunsOnly s t 0 (s.cert (byteAt b 0))) ∧
    (4 ≤ b.length → ∃ t, exec (.jnlRead req) s = .next t ∧
      RunsOnly s t 0 (((sortSeq (s.jnlRecords.filter (fun r => decide (leField b 0 4 ≤ r.seq)))).take 64).flatMap JRecord.bytes)) ∧
    (40 ≤ b.length → s.jnl.queue.length < 256 → s.jnl.waiting = [] → ∃ t, exec (.jnlAppend req) s = .next t ∧ Runs t 0 [] ∧ t.mem = s.mem ∧
      ∃ e, t.jnl.queue = s.jnl.queue ++ [e] ∧ e.record.type = 0xF0 ∧ e.record.payload = b.take 40) ∧
    (∃ t, exec (.jnlCompact req) s = .next t ∧ Runs t 0 [] ∧ t.on JNL_STATUS.COMPACTING 0 = true ∧ t.jnl.compact = some s.jnl.slots.length ∧ t.mem = s.mem) ∧
    (s.conf = false → (leField b 4 4 = 0 ∨ 4032 < leField b 4 4 ∨ b.length < 64 + leField b 4 4) → ∃ t, exec (.fwWrite req ok) s = .next t ∧
      RunsOnly s t 0x0603 []) ∧
    (s.conf = false → 1 ≤ leField b 4 4 → leField b 4 4 ≤ 4032 → 64 + leField b 4 4 ≤ b.length → leField b 0 4 + leField b 4 4 ≤ slotSize →
      (∃ t, exec (.fwWrite req true) s = .next t ∧ Runs t 0 [] ∧ t.mem = s.mem ∧
        ∀ j, j < leField b 4 4 → t.slotByte s.targetSlot (leField b 0 4 + j) = b.getD (64 + j) 0) ∧
      ∃ t, exec (.fwWrite req false) s = .next t ∧ RunsOnly s t 0x0612 []) ∧
    (s.conf = false → ∃ t, exec (.fwActivate req true) s = .next t ∧
      match s.verifySlot s.targetSlot with
      | .error c => RunsOnly s t c []
      | .ok _ => Runs t 0 [] ∧ t.boot.preferred = s.targetSlot ∧ t.mem = s.mem) ∧
    (s.conf = false → ∃ t, exec (.fwCommitSvn req) s = .next t ∧ Runs t 0 [] ∧ t.boot.minSvn = max s.boot.minSvn s.boot.svn ∧
      RegsSame s t [SEC_MBX_STATUS.BUSY.key 0] ∧ t.mem = s.mem) ∧
    (∀ op, mbxGo true op = none → ∃ t, exec (.secBadCmd op req) s = .next t ∧ RunsOnly s t 0x0603 [])) ∧
  (∀ (s : State) (r : MbxRun), s.sec.run = some r → s.sec.waiting = [] → r.resp.length ≤ 4096 → ∃ t, exec .mbxCommandEnd s = .next t ∧
    t.rd SEC_MBX_STATUS.CODE 0 = codeVal r.code ∧ t.rdN SEC_MBX_STATUS.RLEN 0 = r.resp.length ∧ t.on SEC_MBX_STATUS.BUSY 0 = false ∧
    t.on SEC_STATUS.MBX_DONE 0 = true ∧ t.mbxBuffer r.resp.length = r.resp ∧ t.sec.run = none ∧ t = { s with regs := t.regs, sec := t.sec } ∧
    RegsSame s t [SEC_MBX_STATUS.CODE.key 0, SEC_MBX_STATUS.RLEN.key 0, SEC_MBX_STATUS.BUSY.key 0, SEC_STATUS.MBX_DONE.key 0])

open Sys2Proof.Claim in
/-- Attestation (R487, R488): while the RTP answers SPDM, every request of the table is answered, measurements on request signed, at most four
sessions are open, and any other request is answered with UnsupportedRequest; none of them changes registers or memory. -/
def Obligations.Attestation : Prop :=
  ∀ (s : State), s.spdmUp = true →
    exec .getVersion s = .next { s with sent := s.sent ++ [.spdm 0x84 false (Config.spdmContent 0x84)] } ∧
    exec .getCapabilities s = .next { s with sent := s.sent ++ [.spdm 0xE1 false (Config.spdmContent 0xE1)] } ∧
    exec .negotiateAlgorithms s = .next { s with sent := s.sent ++ [.spdm 0xE3 false (Config.spdmContent 0xE3)] } ∧
    exec .getDigests s = .next { s with sent := s.sent ++ [.spdm 0x81 false (digestBytes (Config.sha384 s.chain))] } ∧
    (∀ o n, exec (.getCertificate 0 o n) s = .next { s with sent := s.sent ++ [.spdm 0x82 false ((s.chain.drop o).take n)] }) ∧
    (∀ x, ∃ t sig, exec (.challenge 0 x) s = .next t ∧ Answers s t (.spdm 0x83 false (digestBytes (Config.sha384 s.chain) ++ sig)) ∧
      sig = Config.rtpSign s.sec.derived (digestBytes (Config.sha384 s.chain) ++ x)) ∧
    (∀ i, i < 6 →
      exec (.getMeasurements (i + 1) none) s = .next { s with sent := s.sent ++ [.spdm 0xE0 false (s.measBytes i)] } ∧
      ∀ n, exec (.getMeasurements (i + 1) (some n)) s =
        .next { s with sent := s.sent ++ [.spdm 0xE0 false (s.measBytes i ++ Config.rtpSign s.sec.derived (s.measBytes i ++ n))] }) ∧
    (∀ key, (∃ n, n < 4 ∧ s.session n = none) → ∃ t n m, exec (.keyExchange key) s = .next t ∧ n < 4 ∧ s.session n = none ∧
      t.session n = some ⟨false, 0⟩ ∧ (∀ k, k ≠ n → t.session k = s.session k) ∧ Answers s t (.spdm 0xE4 false m)) ∧
    (∀ key, (∀ n, n < 4 → (s.session n).isSome = true) → ∃ t, exec (.keyExchange key) s = .next t ∧ t.sec = s.sec ∧ Answers s t (.spdm 0xE4 true [0x0A])) ∧
    (∀ n k, s.session n = some ⟨false, k⟩ →
      (∃ t, exec (.finish n true) s = .next t ∧ t.session n = some ⟨true, k⟩ ∧ Answers s t (.spdm 0xE5 false [])) ∧
      (∃ t, exec (.finish n false) s = .next t ∧ t.session n = none ∧ Answers s t (.spdm 0xE5 true [0x06]))) ∧
    (∀ n k, s.session n = some ⟨true, k⟩ →
      (∃ t, exec (.endSession n) s = .next t ∧ t.session n = none ∧ (∀ x, x ≠ n → t.session x = s.session x) ∧ Answers s t (.spdm 0xEC false [])) ∧
      exec (.heartbeat n) s = .next { s with sent := s.sent ++ [.spdm 0xE8 false []] } ∧
      (∃ t, exec (.keyUpdate n) s = .next t ∧ t.session n = some ⟨true, k + 1⟩ ∧ Answers s t (.spdm 0xE9 false []))) ∧
    (∀ x, exec (.spdmUnsupported x) s = .next { s with sent := s.sent ++ [.spdm x true [0x07]] })

open Sys2Proof.Claim in
/-- Confidential mode (R489 to R493, R497, R498, R503): CONF_ENTER is refused in each case of R490; an accepted one applies the primer and
changes the salt, and after the zeroing the keys and the tenant's slots are in place and CONF is set; an exit begins on CONF_EXIT
or when the interface leaves RUN, faults every partition, erases every key, and at its end CONF and EXITING clear and the tenant
slots are empty; a tamper condition is logged once per episode, sets the latch and erases the warm keys. -/
def Obligations.ConfidentialMode : Prop :=
  (∀ (s : State) (n : Nat) (p : List Byte), s.spdmUp = true → s.secure n = true → s.on SEC_STATUS.EXITING 0 = false → s.sec.entering = none →
    let no := fun (c : Code) => ({ s with sent := s.sent ++ [.vendor 1 c []] } : State)
    (s.conf = true → exec (.confEnter n p) s = .next (no 0x0604)) ∧
    (s.conf = false → s.on SEC_STATUS.TAMPER_LATCH 0 = true → exec (.confEnter n p) s = .next (no 0x0606)) ∧
    (s.conf = false → s.on SEC_STATUS.TAMPER_LATCH 0 = false → s.quiesced = false → exec (.confEnter n p) s = .next (no 0x0602)) ∧
    (s.conf = false → s.on SEC_STATUS.TAMPER_LATCH 0 = false → s.quiesced = true → confReq p = none → exec (.confEnter n p) s = .next (no 0x0608)) ∧
    (∀ r, s.conf = false → s.on SEC_STATUS.TAMPER_LATCH 0 = false → s.quiesced = true → confReq p = some r →
      ∃ t, exec (.confEnter n p) s = .next t ∧ t.sec.entering = some (n, r) ∧ t.on SEC_STATUS.CONF 0 = s.on SEC_STATUS.CONF 0 ∧
        t.str.sketch.primer = true ∧ t.sec.salt ≠ s.sec.salt ∧ popcount t.sec.salt.toNat % 2 = 0 ∧
        (∀ a q o, targetOf a = .well q o → Tab.find t.mem a = none)) ∧
    (s.conf = true → ∃ t, exec (.confExit n) s = .next t ∧ t.on SEC_STATUS.EXITING 0 = true ∧ t.sec.exiting = .drain ∧
      (∀ q, q < 256 → t.on GLB_PART_FAULT.PRIMARY q = true ∧ t.on GLB_PART_FAULT.WASH q = true)) ∧
    (s.conf = false → exec (.confExit n) s = .next { s with sent := s.sent ++ [.vendor 2 0x0605 []] }) ∧
    exec (.confStatus n) s = .next { s with sent := s.sent ++ [.vendor 3 0 s.stateRecord] } ∧
    (∃ t, exec (.ideKmRequest n) s = .next t ∧ t.sec.ide = true ∧ t = { s with sec := { s.sec with ide := true }, sent := t.sent }) ∧
    (s.sec.tdisp = .unlocked → ∃ t, exec (.tdispRequest n .lock) s = .next t ∧ t.sec.tdisp = .locked ∧ t.regs = s.regs ∧ t.mem = s.mem) ∧
    (s.sec.tdisp = .locked → ∃ t, exec (.tdispRequest n .start) s = .next t ∧ t.sec.tdisp = .run ∧ t.regs = s.regs ∧ t.mem = s.mem) ∧
    (s.sec.tdisp = .run → s.conf = false → ∃ t, exec (.tdispRequest n .stop) s = .next t ∧ t.sec.tdisp = .unlocked ∧ t.regs = s.regs ∧ t.mem = s.mem)) ∧
  (∀ (s : State), s.on SEC_STATUS.EXITING 0 = false → s.sec.tdisp = .run →
    (s.conf = false → ∃ t, exec .tdispExit s = .next t ∧ t.sec.tdisp = .error ∧ t.regs = s.regs ∧ t.mem = s.mem) ∧
    (s.conf = true → ∃ t, exec .tdispExit s = .next t ∧ t.on SEC_STATUS.EXITING 0 = true ∧ t.sec.exiting = .drain)) ∧
  (∀ (s : State) (n : Nat) (r : ConfReq), s.sec.entering = some (n, r) → s.canZero = true → s.stage = 5 → r.digests.length ≤ 4 →
    s.sec.slots.length = 8 → ∃ t, exec .enterZeroDone s = .next t ∧ t.on SEC_STATUS.CONF 0 = true ∧ t.on SEC_STATUS.CONF_EVT 0 = true ∧
      t.sec.tmk = some r.tmk ∧ t.sec.tlk = some r.tlk ∧ t.sec.entering = none ∧ t.sec.slots.take 4 = s.sec.slots.take 4 ∧
      t.sec.slots.drop 4 = r.digests.map some ++ List.replicate (4 - r.digests.length) none) ∧
  (∀ (s : State), s.sec.exiting = .drain → s.allDrained = true → ∃ t, exec .exitDrained s = .next t ∧ t.sec.exiting = .zero ∧ t.sec.tmk = none ∧
    t.sec.tlk = none ∧ t.sec.ide = false ∧ t.sec.tdisp = .unlocked ∧ t.sec.salt ≠ s.sec.salt ∧
    (∀ a q o, targetOf a = .well q o → Tab.find t.mem a = none) ∧ ∀ k, (Tab.get t.glz.lines k none).isSome = false) ∧
  (∀ (s : State), s.sec.exiting = .zero → s.canZero = true → s.boot.resetDue = none → s.sec.slots.length = 8 →
    ∃ t, exec .exitZeroDone s = .next t ∧ t.on SEC_STATUS.CONF 0 = false ∧ t.on SEC_STATUS.EXITING 0 = false ∧ t.on SEC_STATUS.CONF_EVT 0 = true ∧
      t.on GLB_BOOT_STATUS.SCRUB_PENDING 0 = false ∧ t.sec.exiting = .none ∧ t.str.sketch.primer = true ∧
      t.sec.slots = s.sec.slots.take 4 ++ List.replicate 4 none) ∧
  (∀ (s : State) (cause value absent : Nat), s.boot.powered = false → 1 ≤ cause → cause ≤ 4 →
    (Tab.get s.sec.episodes cause false = true → absent < 1000000000 → exec (.tamperDetect cause value absent) s = .next s) ∧
    (Tab.get s.sec.episodes cause false = false ∨ 1000000000 ≤ absent → s.rdN SEC_TAMPER_HEAD.NEXT 0 < 32 →
      ∃ t, exec (.tamperDetect cause value absent) s = .next t ∧ t.rdN SEC_TAMPER.CAUSE (s.rdN SEC_TAMPER_HEAD.NEXT 0) = cause ∧
        t.rdN SEC_TAMPER.VALUE (s.rdN SEC_TAMPER_HEAD.NEXT 0) = value % 65536 ∧
        t.rdN SEC_TAMPER_HEAD.NEXT 0 = (s.rdN SEC_TAMPER_HEAD.NEXT 0 + 1) % 32 ∧ t.on SEC_STATUS.TAMPER_LATCH 0 = true ∧
        t.sec.warmKeys = none ∧ t = { s with regs := t.regs, sec := t.sec } ∧
        (∀ e, e ≠ s.rdN SEC_TAMPER_HEAD.NEXT 0 → e < 4294967296 → t.rd SEC_TAMPER.CAUSE e = s.rd SEC_TAMPER.CAUSE e)))

/-! ### Errors, scrubbing and stalls (chapter 17) -/

namespace Sys2Proof.Claim

/-- A stall captured in GLB_STALL (R530): its kind, its place, its object and the partition, or OVERRUN where one was captured before. -/
def StallSeen (s t : State) (kind place object lineHi : Nat) (part : Option Nat) : Prop :=
  t.on GLB_STALL.VALID 0 = true ∧
  (if s.on GLB_STALL.VALID 0 = true then t.on GLB_STALL.OVERRUN 0 = true ∧ t.rd GLB_STALL.KIND 0 = s.rd GLB_STALL.KIND 0 ∧
      t.rd GLB_STALL.OBJECT 0 = s.rd GLB_STALL.OBJECT 0 ∧ t.rd GLB_STALL.PARTITION 0 = s.rd GLB_STALL.PARTITION 0
    else t.rdN GLB_STALL.KIND 0 = kind % 8 ∧ t.rdN GLB_STALL.WHERE 0 = place % 8 ∧ t.rdN GLB_STALL.OBJECT 0 = object % 65536 ∧
      t.rdN GLB_STALL.LINE_HI 0 = lineHi % 512 ∧ t.on GLB_STALL.PART_VALID 0 = part.isSome ∧
      t.rdN GLB_STALL.PARTITION 0 = part.getD 0 % 256 ∧ t.on GLB_STALL.OVERRUN 0 = s.on GLB_STALL.OVERRUN 0)

/-- The register fields of GLB_STALL. -/
def stallKeys : List Nat :=
  [GLB_STALL.VALID.key 0, GLB_STALL.OVERRUN.key 0, GLB_STALL.KIND.key 0, GLB_STALL.WHERE.key 0, GLB_STALL.OBJECT.key 0,
    GLB_STALL.LINE_HI.key 0, GLB_STALL.PART_VALID.key 0, GLB_STALL.PARTITION.key 0]

/-- A page retirement begins or is refused with its code (R522, R523). -/
def RetireBegins (s t : State) (c g b page : Nat) : Prop :=
  if s.retireCheck c g b page = 0 then
    t.on CNV_ECC_STATUS.RETIRE_BUSY c = true ∧ Tab.get t.gso.retiring c none = some (g, b, page) ∧
      t = { s with regs := t.regs, gso := { s.gso with retiring := t.gso.retiring } } ∧ RegsSame s t [CNV_ECC_STATUS.RETIRE_BUSY.key c]
  else
    t.on CNV_ECC_STATUS.RETIRE_ERR c = true ∧ t.rd CNV_ECC_RETIRE_CODE.CODE c = codeVal (s.retireCheck c g b page) ∧
      t = { s with regs := t.regs } ∧ RegsSame s t [CNV_ECC_STATUS.RETIRE_ERR.key c, CNV_ECC_RETIRE_CODE.CODE.key c]

end Sys2Proof.Claim

open Sys2Proof.Claim in
/-- The scrubbers and retirement (R507, R509, R513 to R516, R522 to R525): a scrub of a row keeps its bytes, ZT and TAG and every other byte of
memory; a lap's end records its time; a scrub that finds nothing changes nothing; an upset in a clean glaze sector loses no data;
a page retirement is checked, copies its rows and switches their remap entries; a bank retirement leaves 24 banks or is ignored. -/
def Obligations.ScrubAndRetire : Prop :=
  ∀ (s : State) (c : Nat), c < 4 →
    (s.on CNV_ECC_CTL.SCRUB_EN c = false → ∀ u, exec (.gessoScrubOp c u) s = .next s) ∧
    (s.on CNV_ECC_CTL.SCRUB_EN c = true → ∀ u, s.scrubNext c s.scrubFuel (Tab.get s.gso.scrubAt c 0) = none →
      ∃ t, exec (.gessoScrubOp c u) s = .next t ∧ t.rdN CNV_ECC_SCRUB_LAP_US.US c = (s.now - Tab.get s.gso.lapStart c 0) / 1000 % 2 ^ 32 ∧
        Tab.get t.gso.scrubAt c 0 = 0 ∧ Tab.get t.gso.lapStart c 0 = s.now ∧ t = { s with regs := t.regs, gso := t.gso } ∧
        t.gso.bad = s.gso.bad ∧ t.gso.rows = s.gso.rows ∧ RegsSame s t [CNV_ECC_SCRUB_LAP_US.US.key c, CNV_ECC_STATUS.LAP_SLOW.key c]) ∧
    (s.on CNV_ECC_CTL.SCRUB_EN c = true → ∀ u l, s.scrubNext c s.scrubFuel (Tab.get s.gso.scrubAt c 0) = some l → l < 0x1800000 →
      s.refreshing (lineKey c l) = false → (∀ x ∈ u, x.correctable = true ∧ x.offset < 65) →
      ∃ t, exec (.gessoScrubOp c u) s = .next t ∧ t.glz = s.glz ∧
        t.rd CNV_ECC_SCRUB_FIXED.COUNT c = s.rd CNV_ECC_SCRUB_FIXED.COUNT c + BitVec.ofNat 64 u.length ∧
        (∀ a, (a < lineDpa c l ∨ lineDpa c l + 2048 ≤ a) → memRead t.mem a = memRead s.mem a) ∧
        (Tab.get s.gso.badMeta (lineKey c l) false = false → t.rowMeta (lineKey c l) = s.rowMeta (lineKey c l)) ∧
        ((s.rowMeta (lineKey c l)).zt = false → ∀ a, memRead t.mem a = memRead s.mem a)) ∧
    (s.on CNV_ECC_CTL.GLZ_SCRUB_EN c = false → ∀ l x u e, exec (.glazeScrubOp c l x u e) s = .next s) ∧
    (∀ l x, exec (.glazeScrubOp c l x [] false) s = .next s) ∧
    (s.on CNV_ECC_CTL.GLZ_SCRUB_EN c = true → ∀ l x, ∃ t, exec (.glazeScrubOp c l x [] true) s = .next t ∧
      t.rdN CNV_ECC_GLZ_LAP_US.US c = (s.now - Tab.get s.gso.glzStart c 0) / 1000 % 2 ^ 32 ∧ Tab.get t.gso.glzStart c 0 = s.now ∧
      t = { s with regs := t.regs, gso := { s.gso with glzStart := t.gso.glzStart } } ∧ RegsSame s t [CNV_ECC_GLZ_LAP_US.US.key c]) ∧
    (∀ layer ch bank page, layer < 4 → ch < 8 → bank < 32 → page < 1024 →
      let g := ch * 4 + layer
      let v : Val := BitVec.ofNat 64 (2 ^ 30 + layer * 2 ^ 22 + ch * 2 ^ 19 + bank * 2 ^ 14 + page)
      s.canvasUp c = true → s.woQueue CNV_ECC_RETIRE.OP c = [] →
      (s.on CNV_ECC_STATUS.RETIRE_BUSY c = false → ∃ t, exec (.retirePage c layer ch bank page) s = .next t ∧ RetireBegins s t c g bank page) ∧
      (s.on CNV_ECC_STATUS.RETIRE_BUSY c = true → ∃ t, exec (.retirePage c layer ch bank page) s = .next t ∧ t = { s with ports := t.ports } ∧
        (if 0 < woLimit CNV_ECC_RETIRE.OP then t.woQueue CNV_ECC_RETIRE.OP c = [v]
          else t.ports.held = s.ports.held ++ [HeldWrite.mk CNV_ECC_RETIRE.OP.reg c v]))) ∧
    (∀ g b page, Tab.get s.gso.retiring c none = some (g, b, page) → g < 32 → b < 32 → page < 768 → s.sparesUsed c g b < 2 →
      (∀ l ∈ s.pageLines c g b page, s.lineHeld (lineKey c l) = false) → s.island (gessoIsland c g) = islActive →
      ∃ t, exec (.retirePageDone c []) s = .next t ∧ Tab.get t.gso.remap (pageKey c g b page) none = some (s.sparesUsed c g b) ∧
        (∀ k, k ≠ pageKey c g b page → Tab.get t.gso.remap k none = Tab.get s.gso.remap k none) ∧
        t.sparesUsed c g b = s.sparesUsed c g b + 1 ∧ Tab.get t.gso.retiring c none = none ∧ t.on CNV_ECC_STATUS.RETIRE_BUSY c = false ∧
        t.on CNV_ECC_STATUS.RETIRE_DONE c = true ∧ t.rdN CNV_ECC_RETIRE_CODE.CODE c = 0 ∧ t.glz = s.glz) ∧
    (∀ ch mask, ch < 32 → s.canvasUp c = true →
      let new := s.rdN CNV_ECC_BANK_RETIRE.PENDING (c * 32 + ch) ||| mask.toNat
      ∃ t, exec (.bankRetireRequest c ch mask) s = .next t ∧ t = { s with regs := t.regs } ∧
        (if ((banksOf (s.rdN CNV_GSO_BANKS.WORKING (c * 32 + ch))).filter (fun b => !new.testBit b)).length < 24 then
          t.on CNV_ECC_STATUS.RETIRE_ERR c = true ∧ t.rdN CNV_ECC_RETIRE_CODE.CODE c = 0x0118 ∧
            RegsSame s t [CNV_ECC_STATUS.RETIRE_ERR.key c, CNV_ECC_RETIRE_CODE.CODE.key c]
        else t.rdN CNV_ECC_BANK_RETIRE.PENDING (c * 32 + ch) = new % 2 ^ 32 ∧ RegsSame s t [CNV_ECC_BANK_RETIRE.PENDING.key (c * 32 + ch)]))

open Sys2Proof.Claim in
/-- Partition faults cleared, and stalls (R526 to R530): each class bit written 1 clears unless its class is busy, which sets CLEAR_REFUSED;
a stalled stream faults the partitions of both its ends for its class; a stalled VC retrains its link and at the second stall
within 10 ms loses the canvas or takes the port down; a coat part without a vote aborts with COAT_STALL; a part in doubt is
reported only; an island's held requests and a fill's merged requesters are answered with STALL. -/
def Obligations.FaultClearAndStalls : Prop :=
  (∀ (s : State) (p : Nat) (d : Word32), p < 256 → ∃ t, exec (.partFaultClear p d) s = .next t ∧
    t = { s with regs := t.regs } ∧ RegsSame s t [GLB_PART_FAULT.PRIMARY.key p, GLB_PART_FAULT.WASH.key p, GLB_PART_FAULT.CLEAR_REFUSED.key p] ∧
    t.on GLB_PART_FAULT.PRIMARY p = (s.on GLB_PART_FAULT.PRIMARY p && !(d.getLsbD 31 && !s.classBusy p false)) ∧
    t.on GLB_PART_FAULT.WASH p = (s.on GLB_PART_FAULT.WASH p && !(d.getLsbD 30 && !s.classBusy p true)) ∧
    t.on GLB_PART_FAULT.CLEAR_REFUSED p = ((d.getLsbD 31 && s.classBusy p false) || (d.getLsbD 30 && s.classBusy p true) ||
      (s.on GLB_PART_FAULT.CLEAR_REFUSED p && !d.getLsbD 29))) ∧
  (∀ (s : State) (c m : Nat), c < 4 → m < 4096 →
    let k := c * 4096 + m
    let w := s.on CNV_STM_STREAM.CLASS k
    let rx := s.panelPart (s.rdN CNV_STM_STREAM.RECEIVER k)
    (s.rdN CNV_STM_STREAM.STATE k ≠ 1 ∨ (s.sendWaits c m = false ∧ s.recvs c m = []) → exec (.streamStall c m) s = .next s) ∧
    (s.rdN CNV_STM_STREAM.STATE k = 1 → (s.sendWaits c m = true ∨ s.recvs c m ≠ []) → ∃ t, exec (.streamStall c m) s = .next t ∧
      StallSeen s t 1 c m 0 rx ∧
      (∀ p, (s.panelPart (s.rdN CNV_STM_STREAM.SENDER k) = some p ∨ rx = some p) → t.faulted p w = true ∧ t.rdN CNV_STM_STREAM.STATE k = 2))) ∧
  (∀ (s : State) (spar : Bool) (link vc : Nat), link < 8 → vc < (if spar then 8 else 3) →
    let f := linkCredit spar link vc
    let k := if spar then 16 + link else link
    let e := s.linkEnd k
    (if spar then s.sparLive link = true else s.tetherUp (link / 2) = true) → s.rdN f.1 f.2 = 0 → Tab.get e.lastCredit vc 0 + 10000000 ≤ s.now →
    ∃ t, exec (.vcStall spar link vc) s = .next t ∧ StallSeen s t (if spar then 3 else 2) (if spar then 4 else link / 2) vc 0 none ∧
      (match Tab.get e.stalled vc none with
      | some x => if s.now ≤ x + 10000000 then
          (if spar then t.sparLink link = 0 ∧ t.on SPR_STATUS.DOWN_EVT link = true else t.on TTH_STATUS.LOST (link / 2) = true)
        else (t.linkEnd k) = { e with stalled := Tab.set e.stalled vc (some s.now) none } ∧
          (if spar then t.sparLink link = 1 else t.rdN TTH_STATUS.LINK (link / 2) = 1) ∧
          LinkOnly s t ((if spar then SPR_STATUS.LINK.key link else TTH_STATUS.LINK.key (link / 2)) :: stallKeys)
      | none => (t.linkEnd k) = { e with stalled := Tab.set e.stalled vc (some s.now) none } ∧
          (if spar then t.sparLink link = 1 else t.rdN TTH_STATUS.LINK (link / 2) = 1) ∧
          LinkOnly s t ((if spar then SPR_STATUS.LINK.key link else TTH_STATUS.LINK.key (link / 2)) :: stallKeys))) ∧
  (∀ (s : State) (id : Nat) (c : Coat), id < 1024 → s.coat id = some c →
    ((c.unvoted = false ∨ s.now < c.start + 10000000) → exec (.coatPartStall id) s = .next s) ∧
    (c.unvoted = true → c.start + 10000000 ≤ s.now → ∃ t, exec (.coatPartStall id) s = .next t ∧ StallSeen s t 4 4 id 0 none ∧
      (c.wide = false → t.coat id = none ∧ t.rd COAT_ENTRY_CODE.CODE id = codeVal 0x040B ∧ t.rdN COAT_ENTRY.STATE id = 6) ∧
      (c.wide = true → c.isCoord = true → ∃ c', t.coat id = some c' ∧ c'.stage = .aborted ∧ c'.decided = some 0x040B)) ∧
    (c.stage ≠ .inDoubt → exec (.inDoubtStall id) s = .next s) ∧
    (c.stage = .inDoubt → ∃ t, exec (.inDoubtStall id) s = .next t ∧ StallSeen s t 4 4 id 0 none ∧ t = { s with regs := t.regs } ∧
      RegsSame s t stallKeys)) ∧
  (∀ (s : State) (i : Nat) (held : List Nat), i < 144 → s.island i = islClosing →
    let stuck := (Tab.get s.isl.work i []).filter (fun w => held.contains w.id)
    let parts := stuck.filterMap (fun w => w.part.map (fun p => (p, w.wash)))
    (stuck = [] → exec (.islandStall i held) s = .next s) ∧
    (stuck ≠ [] → ∃ t, exec (.islandStall i held) s = .next t ∧
      StallSeen s t 5 (if i < 136 then i / 34 else 4) i 0 ((parts.map (·.1)).min?) ∧
      (∀ w ∈ stuck, Msg.packet w.id 0x0120 ∈ t.sent) ∧ (∀ p ∈ parts, t.faulted p.1 p.2 = true) ∧
      (parts = [] → t = { s with regs := t.regs, isl := t.isl, sent := t.sent } ∧ RegsSame s t stallKeys ∧
        Tab.get t.isl.work i [] = (Tab.get s.isl.work i []).filter (fun w => !held.contains w.id)))) ∧
  (∀ (s : State) (c l : Nat) (f : FillSlot), c < 4 → l < 0x2000000 → s.slot (lineKey c l) = some f → ∃ t, exec (.fillSlotStall c l) s = .next t ∧
    StallSeen s t 6 c (l % 65536) (l / 65536) none ∧ t.slot (lineKey c l) = none ∧ t.mem = s.mem ∧
    (∀ j ∈ f.jobs, j.act ≠ .prefetch → Msg.memory j.req 0x0120 [] ∈ t.sent))

/-! ### The host interface (chapter 18) -/

namespace Sys2Proof.Claim

/-- The registers in which the host interface captures an error, with an event. -/
def hostKeys (event : RegField) : List Nat :=
  [event.key 0, GLB_HOST_ERR.OVERRUN.key 0, GLB_HOST_ERR.VALID.key 0, GLB_HOST_ERR.ADDRESS.key 0, GLB_HOST_ERR.SOURCE.key 0, GLB_HOST_ERR.CODE.key 0]

/-- An error captured with an event: its source, address and code, or OVERRUN (R541, R545, R548). -/
def HostError (s t : State) (event : RegField) (source addr : Nat) (code : Code) : Prop :=
  t.on event 0 = true ∧ RegsSame s t (hostKeys event) ∧
  (if s.on GLB_HOST_ERR.VALID 0 = true then t.on GLB_HOST_ERR.OVERRUN 0 = true
    else t.on GLB_HOST_ERR.VALID 0 = true ∧ t.rdN GLB_HOST_ERR.ADDRESS 0 = addr % 2 ^ 40 ∧ t.rdN GLB_HOST_ERR.SOURCE 0 = source % 4 ∧
      t.rd GLB_HOST_ERR.CODE 0 = codeVal code)

/-- A host-window read ends: it is outstanding no more, and its requester has the reply. -/
def HostReadEnds (s t : State) (id : Nat) (r : HostRead) (code : Code) (data : List Byte) : Prop :=
  Tab.get t.host.reads id none = none ∧ t.host.replies = s.host.replies ++ [HostReply.mk r.src r.tag r.dpa code data] ∧
    t = { s with regs := t.regs, host := t.host } ∧
    (if code = 0 then t.regs = s.regs else HostError s t GLB_HOST_STATUS.HWIN_ERR 3 r.dpa code)

end Sys2Proof.Claim

open Sys2Proof.Claim in
/-- BAR2, the host window and the client queues (R497, R509, R543 to R545, R548 to R553): how BAR2 maps; a read or write within one
sector, backed or unbacked; completions, errors and timeouts of host-window reads; doorbells acted on, kept during a hold, refused
by a disabled queue or discarded; the tail word written and the wake-up posted once while PENDING is 0; writes of QUE_CTL. -/
def Sys2Proof.Claim.HostAccesses : Prop :=
  (∀ (n w : Nat), n < 4 → w < 0x1000000000 →
    (w < 0xC00000000 → bar2Dpa (n * 0x1000000000 + w) = some (n * 0x1000000000 + w)) ∧
    (0xE00000000 ≤ w → w < 0xE20000000 → bar2Dpa (n * 0x1000000000 + w) = some (0x8000000000 + n * 0x20000000 + (w - 0xE00000000))) ∧
    (0xC00000000 ≤ w → (w < 0xE00000000 ∨ 0xE20000000 ≤ w) → bar2Dpa (n * 0x1000000000 + w) = none)) ∧
  (∀ (s : State) (port : Port) (o n tag : Nat) (bs : List Byte),
    (s.conf = true ∨ s.hostBarred port = true → exec (.bar2Read port o n tag) s = .next (s.send (.unsupported tag)) ∧
      exec (.bar2Write port o bs) s = .next s) ∧
    (s.conf = false → s.hostBarred port = false →
      (sectorsOf o n = [(o, n)] → s.bar2Backed o = none → ∃ t, exec (.bar2Read port o n tag) s = .next t ∧
        HostError s t GLB_HOST_STATUS.BAD_ACCESS 1 o 0 ∧ t = { s with regs := t.regs, sent := s.sent ++ [.barRead 2 tag (List.replicate n 0)] }) ∧
      (∀ d, sectorsOf o n = [(o, n)] → s.bar2Backed o = some d →
        (∀ v, s.readRange ⟨.host, tag, none, false⟩ d n = .wait v → exec (.bar2Read port o n tag) s = .next s) ∧
        (∀ c xs u, s.readRange ⟨.host, tag, none, false⟩ d n = .done c xs u →
          exec (.bar2Read port o n tag) s = .next (u.send (if c = 0 then .barRead 2 tag xs else .barAbort tag)))) ∧
      (sectorsOf o bs.length = [(o, bs.length)] → s.bar2Backed o = none → ∃ t, exec (.bar2Write port o bs) s = .next t ∧
        HostError s t GLB_HOST_STATUS.BAD_ACCESS 1 o 0 ∧ t = { s with regs := t.regs }) ∧
      (∀ d, sectorsOf o bs.length = [(o, bs.length)] → s.bar2Backed o = some d →
        (∀ v, s.writeRange ⟨.host, 0, none, false⟩ d bs = .wait v → exec (.bar2Write port o bs) s = .next s) ∧
        (∀ c xs u, s.writeRange ⟨.host, 0, none, false⟩ d bs = .done c xs u → exec (.bar2Write port o bs) s = .next u)))) ∧
  (∀ (s : State) (id : Nat) (r : HostRead), Tab.get s.host.reads id none = some r →
    (s.hostBarred .host = false →
      (∀ bs, bs.length = r.len → ∃ t, exec (.hwinCompletion id (some bs)) s = .next t ∧ HostReadEnds s t id r 0 bs) ∧
      ∃ t, exec (.hwinCompletion id none) s = .next t ∧ HostReadEnds s t id r 0x0309 []) ∧
    (s.now < r.sent + 1000000 → exec (.hwinTimeout id) s = .next s) ∧
    (r.sent + 1000000 ≤ s.now → ∃ t, exec (.hwinTimeout id) s = .next t ∧ HostReadEnds s t id r 0x0308 [])) ∧
  (∀ (s : State) (port : Port) (q : Nat), q < 4096 → s.hostBarred port = false →
    (∀ n, exec (.doorbell port (4096 * q) (.read n)) s =
      .next (s.send (.barRead 4 q (if n = 4 then leBytes 4 (s.rdN QUE_TAIL.TAIL q) else List.replicate n 0)))) ∧
    (∀ o bs, o < 4096 → ¬ (o = 0 ∧ bs.length = 4) → ∃ t, exec (.doorbell port (4096 * q + o) (.write bs)) s = .next t ∧
      HostError s t GLB_HOST_STATUS.BAD_ACCESS 2 (4096 * q + o) 0 ∧ t = { s with regs := t.regs }) ∧
    (∀ bs, bs.length = 4 →
      let v : Word32 := BitVec.ofNat 32 (leNat bs)
      (s.bellsHeld = true → ∃ t, exec (.doorbell port (4096 * q) (.write bs)) s = .next t ∧ Tab.get t.host.kept q none = some v ∧
        (∀ x, x ≠ q → Tab.get t.host.kept x none = Tab.get s.host.kept x none) ∧ t = { s with host := { s.host with kept := t.host.kept } }) ∧
      (s.bellsHeld = false → s.on QUE_CTL.ENABLE q = true → ∃ t, exec (.doorbell port (4096 * q) (.write bs)) s = .next t ∧
        Tab.get t.host.tails q [] = Tab.get s.host.tails q [] ++ [v] ∧ t.rdN QUE_TAIL.TAIL q = v.toNat ∧
        t.rdN QUE_DOORBELLS.COUNT q = (s.rdN QUE_DOORBELLS.COUNT q + 1) % 2 ^ 32 ∧
        t = { s with regs := t.regs, host := { s.host with tails := t.host.tails } } ∧
        RegsSame s t [QUE_TAIL.TAIL.key q, QUE_DOORBELLS.COUNT.key q]) ∧
      (s.bellsHeld = false → s.on QUE_CTL.ENABLE q = false → ∃ t, exec (.doorbell port (4096 * q) (.write bs)) s = .next t ∧
        t.on QUE_STATUS.DB_DISABLED 0 = true ∧ t = { s with regs := t.regs } ∧
        (s.on QUE_STATUS.DB_DISABLED 0 = false → s.on QUE_STATUS.TAILWR_ERR 0 = false → t.rdN QUE_STATUS.QUEUE 0 = q) ∧
        RegsSame s t [QUE_STATUS.DB_DISABLED.key 0, QUE_STATUS.VALID.key 0, QUE_STATUS.QUEUE.key 0])) ∧
    (∀ x : Word32, (∃ t, exec (.queCtlWrite port q x) s = .next t ∧ t.on QUE_CTL.ENABLE q = x.getLsbD 31 ∧
      t.rdN QUE_CTL.MBX q = x.toNat % 4096 ∧ t = { s with regs := t.regs } ∧ RegsSame s t [QUE_CTL.ENABLE.key q, QUE_CTL.MBX.key q]))) ∧
  (∀ (s : State) (q : Nat) (v : Word32) (vs : List Word32), q < 4096 → Tab.get s.host.tails q [] = v :: vs →
    let d := 8 * s.rdN QUE_TAILPTR.TAIL_DPA q
    let s0 : State := { s with host := { s.host with tails := Tab.set s.host.tails q vs [] } }
    ((∀ c o, targetOf d ≠ .gesso c o) → exec (.doorbellTailWritten q) s = .next (s0.queEvent q QUE_STATUS.TAILWR_ERR)) ∧
    (∀ c o, targetOf d = .gesso c o →
      (∀ w, s0.writeRange ⟨.host, 0x40000 + q, none, false⟩ d (leBytes 8 v.toNat) = .wait w → exec (.doorbellTailWritten q) s = .next s) ∧
      (∀ e xs t, s0.writeRange ⟨.host, 0x40000 + q, none, false⟩ d (leBytes 8 v.toNat) = .done e xs t →
        (e ≠ 0 → ∃ u, exec (.doorbellTailWritten q) s = .next u ∧ u.on QUE_STATUS.TAILWR_ERR 0 = true ∧ u.mem = t.mem ∧ u.seq = t.seq ∧
          u.rd QUE_CTL.PENDING q = t.rd QUE_CTL.PENDING q) ∧
        (e = 0 → t.on QUE_CTL.PENDING q = true → exec (.doorbellTailWritten q) s = .next t) ∧
        (e = 0 → t.on QUE_CTL.PENDING q = false → ∃ u, exec (.doorbellTailWritten q) s = .next u ∧ u.mem = t.mem ∧
          (t.island (tetherIsland (t.rdN QUE_CTL.MBX q % 4096 / 1024)) = islActive → (t.box (t.rdN QUE_CTL.MBX q % 4096)).words.length < 16 →
            u.on QUE_CTL.PENDING q = true ∧ (u.box (t.rdN QUE_CTL.MBX q % 4096)).words = (t.box (t.rdN QUE_CTL.MBX q % 4096)).words ++
              [(BitVec.ofNat 32 (v.toNat % 2 ^ 20 * 4096 + q), some q)])))))

open Sys2Proof.Claim in
/-- The interrupt (R554 to R558): a summary bit reads 1 while a cause below it reads 1 or its FORCE bit is 1; a message is sent when the
condition begins to hold with none outstanding, none is sent while one is, EOI ends it, and 2 µs after EOI it is sent again
where the condition still holds, no sooner than HOLDOFF_US after the one before. -/
def Sys2Proof.Claim.Interrupts : Prop :=
  (∀ (s : State) (n : Nat), n < 17 →
    s.summary.testBit n = ((s.rdN GLB_INT_FORCE.FORCE 0).testBit n || (if n < 4 then s.intBlock n != 0 else (s.vectorBits n).any (·.2)))) ∧
  (∀ (s : State) (c p : Nat), c < 4 → p < 256 → (s.rd CNV_PNL_STATUS.FAULT (256 * c + p) ≠ 0 → (s.intBlock c).testBit 0 = true ∧ s.summary.testBit c = true)) ∧
  (∀ (s : State),
    let c := s.intCondition
    let m := s.rdN GLB_MSIX_ADDR_HI.ADDR 0 * 2 ^ 32 + s.rdN GLB_MSIX_ADDR_LO.ADDR 0 * 4
    let open_ := s.host.msix = true ∧ s.host.msixMask = false ∧ s.on GLB_MSIX_CTRL.MASK 0 = false
    let changed := [GLB_INT_CTL.CONDITION.key 0, GLB_INT_CTL.OUTSTANDING.key 0, GLB_MSIX_PBA.PENDING.key 0]
    (∃ t, exec .eoi s = .next t ∧ t.on GLB_INT_CTL.OUTSTANDING 0 = false ∧ t.host.lastEoi = some s.now ∧
      t = { s with regs := t.regs, host := { s.host with lastEoi := some s.now } } ∧ RegsSame s t [GLB_INT_CTL.OUTSTANDING.key 0]) ∧
    (∃ t, exec .intPropagate s = .next t ∧ t.on GLB_INT_CTL.CONDITION 0 = c ∧ t.host.condition = c ∧ t.host.intN = (c && s.boot.powered) ∧
      t = { s with regs := t.regs, host := t.host, sent := t.sent } ∧ RegsSame s t changed ∧
      (s.on GLB_INT_CTL.OUTSTANDING 0 = true → t.sent = s.sent) ∧ (c = false → t.sent = s.sent) ∧
      (s.on GLB_INT_CTL.OUTSTANDING 0 = false → c = true → s.host.condition = false → s.on GLB_MSIX_PBA.PENDING 0 = false →
        (s.holdoffOver = true → open_ → t.sent = s.sent ++ [.msix m (BitVec.ofNat 32 (s.rdN GLB_MSIX_DATA.DATA 0))] ∧
          t.on GLB_INT_CTL.OUTSTANDING 0 = true ∧ t.host.lastMsg = some s.now) ∧
        (s.holdoffOver = true → s.host.msix = true → ¬ open_ → t.sent = s.sent ∧ t.on GLB_MSIX_PBA.PENDING 0 = true) ∧
        (s.holdoffOver = false → t.sent = s.sent))) ∧
    ((s.host.lastEoi = none ∨ s.on GLB_INT_CTL.OUTSTANDING 0 = true) → exec .intReevaluate s = .next s) ∧
    (∀ e, s.host.lastEoi = some e → s.on GLB_INT_CTL.OUTSTANDING 0 = false →
      (s.now < e + 2000 → exec .intReevaluate s = .next s) ∧
      (e + 2000 ≤ s.now → c = true → s.holdoffOver = false → exec .intReevaluate s = .next s) ∧
      (e + 2000 ≤ s.now → c = false → ∃ t, exec .intReevaluate s = .next t ∧ t.sent = s.sent ∧ t.host.lastEoi = none ∧
        t.on GLB_INT_CTL.CONDITION 0 = false ∧ RegsSame s t changed) ∧
      (e + 2000 ≤ s.now → c = true → s.holdoffOver = true → open_ → ∃ t, exec .intReevaluate s = .next t ∧
        t.sent = s.sent ++ [.msix m (BitVec.ofNat 32 (s.rdN GLB_MSIX_DATA.DATA 0))] ∧ t.on GLB_INT_CTL.OUTSTANDING 0 = true ∧
        t.host.lastMsg = some s.now ∧ t.host.lastEoi = none ∧ RegsSame s t changed)))

open Sys2Proof.Claim in
/-- Tier 2. What the host port does: accesses of host and device, and interrupts. -/
def Obligations.HostPort : Prop := HostAccesses ∧ Interrupts


/-! ### Resets, bring-up and the sketchbook (chapter 19) -/

namespace Sys2Proof.Claim

/-- The device has been reset (R561): the gesso is lost, and the always-on domain, the fuses and the board flash are kept. -/
def DeviceReset (s t : State) (cause : Nat) : Prop :=
  t.stage = 0 ∧ t.rdN GLB_BOOT_STATUS.RESET_CAUSE 0 = cause ∧ t.rdN GLB_BOOT_COUNT.COUNT 0 = (s.rdN GLB_BOOT_COUNT.COUNT 0 + 1) % 2 ^ 32 ∧
  t.rdN GLB_TIME.NS 0 = 0 ∧ t.mem = [] ∧ t.jnl.queue = [] ∧ t.jnl.waiting = [] ∧ t.boot.flash = s.boot.flash ∧
  t.boot.preferred = s.boot.preferred ∧ t.boot.minSvn = s.boot.minSvn ∧ t.sec.salt = s.sec.salt ∧ t.sec.warmKeys = s.sec.warmKeys ∧
  t.sec.slots = s.sec.slots.take 4 ++ List.replicate 4 none ∧ t.therm.wear = s.therm.wear ∧ t.msNow = s.msNow % 2 ^ 40 ∧
  t.on GLB_BOOT_STATUS.SCRUB_PENDING 0 = s.on GLB_BOOT_STATUS.SCRUB_PENDING 0 ∧ t.on SEC_STATUS.TAMPER_LATCH 0 = s.on SEC_STATUS.TAMPER_LATCH 0 ∧
  t.rd GLB_SERIAL.SERIAL 0 = s.rd GLB_SERIAL.SERIAL 0 ∧ t.conf = false ∧
  (∀ i, i < 144 → t.island i = (if s.island i = islFused then islFused else if i = 136 then islActive else islWaking))

/-- The host domain has been reset (R561, R565, R611): bring-up starts at CANVASES, or at HUB during a power-disable stop, with
M3 equal to M2; power, thermal, security and sideband state, the sketchbook and the boot side are kept. -/
def HostReset (s t : State) (cause : Nat) : Prop :=
  t.stage = (if s.stopBars 0 then 2 else 3) ∧ t.rdN GLB_BOOT_STATUS.RESET_CAUSE 0 = cause ∧ t.rdN GLB_BOOT_STATUS.CANVAS_RESET 0 = 0 ∧
  t.mem = [] ∧ t.ports = State.reset.ports ∧ t.sec = s.sec ∧ t.jnl = s.jnl ∧ t.power = s.power ∧ t.therm = s.therm ∧ t.sbd = s.sbd ∧
  t.boot = { s.boot with resetDue := none } ∧ t.gso.remap = s.gso.remap ∧ t.meas 3 = s.meas 2 ∧ t.rd GLB_TIME.NS 0 = s.rd GLB_TIME.NS 0 ∧
  (∀ i, i ∈ hostIslands → s.island i ≠ islFused → t.island i = (if s.stopBars 0 = true ∧ i ≠ 137 then islAsleep else islWaking)) ∧
  (∀ i, i ∈ [136, 138, 142, 143] → t.island i = s.island i)

/-- The power is off (R599, R600): every island is off and the records not yet durable are lost. -/
def PowerOff (s t : State) : Prop :=
  t.boot.powered = false ∧ t.jnl.queue = [] ∧ t.jnl.waiting = [] ∧ t.host.intN = false ∧ t.therm.tripPin = false ∧
  (∀ i, i < 144 → t.island i = (if s.island i = islFused then islFused else islAsleep)) ∧
  t = { s with regs := t.regs, jnl := t.jnl, boot := t.boot, host := t.host, therm := t.therm } ∧
  RegsSame s t ((List.range 144).map GLB_ISL_STATE.STATE.key)

/-- A firmware image has started from a slot (R487, R500, R571, R576). -/
def FirmwareStarts (s t : State) (slot : Nat) (i : FwImage) (fallback : Bool) : Prop :=
  t.stage = 1 ∧ t.rdN GLB_BOOT_STATUS.FW_SLOT 0 = slot % 2 ∧ t.rdN GLB_FW_VERSION.VERSION 0 = i.version % 2 ^ 32 ∧
  t.on GLB_BOOT_STATUS.FW_FALLBACK 0 = fallback ∧ t.meas 1 = i.digest ∧ t.sec.salt ≠ s.sec.salt ∧ popcount t.sec.salt.toNat % 2 = 0 ∧
  t.rdN SEC_EPOCH.COUNT 0 = (s.rdN SEC_EPOCH.COUNT 0 + 1) % 2 ^ 32 ∧ t.boot.svn = i.svn ∧
  (s.on SEC_STATUS.TAMPER_LATCH 0 = true ∨ s.sec.warmKeys ≠ some i.digest → t.on GLB_BOOT_STATUS.TAMPER_BOOT 0 = true ∧ t.sec.warmKeys = some i.digest)

/-- The write queue after its head has gone (R584). -/
def QueueAfterHead (t : State) (s : State) (es : List JEntry) : Prop :=
  match s.jnl.waiting with
  | [] => t.jnl.queue = es ∧ t.jnl.waiting = []
  | r :: rs => t.jnl.queue = es ++ [JEntry.mk r 0 none] ∧ t.jnl.waiting = rs

end Sys2Proof.Claim

open Sys2Proof.Claim in
/-- The reset domains (R561 to R567, R583, R599, R600, R606): what each reset clears, keeps and shows; a host reset in confidential mode waits
for an exit; a fall of power; PERST_N; a canvas reset; the loss of the always-on domain. -/
def Obligations.ResetDomains : Prop :=
  ∀ (s : State), Tab.sorted s.regs = true →
    (∀ strap a b, (s.boot.powered = true → exec (.pwrgdRise strap a b) s = .next s) ∧
      (s.boot.powered = false → ∃ t, exec (.pwrgdRise strap a b) s = .next t ∧ DeviceReset s t 0 ∧ t.boot.powered = true ∧ t.boot.perstN = false ∧
        t.rdN SBD_STATUS.SMB_ADDR 0 = strap % 8 ∧ t.on SBD_STATUS.PWDIS_A 0 = a ∧ t.on SBD_STATUS.PWDIS_B 0 = b ∧
        t.on SBD_STATUS.STOPPED 0 = (a || b) ∧ t.jnl.slots = s.jnl.slots)) ∧
    (∀ torn, (s.boot.powered = true ∧ s.boot.perstN = true → ∃ t, exec (.perstFall torn) s = .next t ∧ DeviceReset s t 1 ∧ t.boot.perstN = false ∧
        t.boot.powered = true ∧ t.on SBD_STATUS.PWDIS_A 0 = s.on SBD_STATUS.PWDIS_A 0) ∧
      (s.boot.powered = false ∨ s.boot.perstN = false → exec (.perstFall torn) s = .next s) ∧
      (s.boot.powered = false → exec (.pwrgdFall torn) s = .next s ∧ exec (.supplyOutOfRange torn) s = .next s) ∧
      (s.boot.powered = true → (∃ t, exec (.pwrgdFall torn) s = .next t ∧ PowerOff s t) ∧ ∃ t, exec (.supplyOutOfRange torn) s = .next t ∧ PowerOff s t)) ∧
    (s.boot.powered = true → ∃ t, exec .perstRise s = .next t ∧ t.boot.perstN = true ∧ (2 ≤ s.stage → t.boot.linkUp = true) ∧ t = { s with boot := t.boot }) ∧
    (s.rtpUp = true → s.conf = false → s.on SEC_STATUS.EXITING 0 = false → s.on GLB_BOOT_STATUS.SCRUB_PENDING 0 = false →
      (∃ t, exec .flr s = .next t ∧ HostReset s t 2) ∧
      (s.woQueue GLB_RESET.OP 0 = [] → s.boot.resetDue = none → ∃ t, exec .hostReset s = .next t ∧ HostReset s t 3)) ∧
    (s.rtpUp = true → s.conf = true → s.on SEC_STATUS.EXITING 0 = false →
      (∃ t, exec .flr s = .next t ∧ t.boot.resetDue = some 2 ∧ t.on SEC_STATUS.EXITING 0 = true ∧ t.sec.exiting = .drain ∧ t.sec.tdisp = .unlocked) ∧
      (s.woQueue GLB_RESET.OP 0 = [] → s.boot.resetDue = none → ∃ t, exec .hostReset s = .next t ∧ t.boot.resetDue = some 3 ∧
        t.on SEC_STATUS.EXITING 0 = true ∧ t.sec.exiting = .drain)) ∧
    (∀ c, c < 4 → s.rtpUp = true → s.woQueue GLB_RESET.OP 0 = [] → s.boot.resetDue = none → ∃ t, exec (.canvasReset c) s = .next t ∧
      t.rdN TTH_STATUS.LINK c = 1 ∧ (t.tether c).epoch = ((s.tether c).epoch + 1) % 256 ∧ t.gso.remap = s.gso.remap ∧
      (∀ l, l < 34 → ¬ (22 ≤ l ∧ l < 26) → l ≠ 32 → s.island (islandOf c l) ≠ islFused → t.island (islandOf c l) = islWaking) ∧
      (∀ l, ((22 ≤ l ∧ l < 26) ∨ l = 32) → t.island (islandOf c l) = s.island (islandOf c l)) ∧
      (∀ d, d < 4 → d ≠ c → ∀ l, l < 34 → t.island (islandOf d l) = s.island (islandOf d l)) ∧
      (∀ a x o, targetOf a = .gesso x o → memRead t.mem a = memRead s.mem a)) ∧
    (s.boot.powered = false → ∃ t, exec .alwaysOnReset s = .next t ∧ t.rdN GLB_BOOT_COUNT.COUNT 0 = 0 ∧ t.sec.salt = 0 ∧ t.sec.warmKeys = none ∧
      t.on GLB_BOOT_STATUS.SCRUB_PENDING 0 = false ∧ t.on SEC_STATUS.TAMPER_LATCH 0 = true ∧ t.rdN SEC_TAMPER.CAUSE 0 = 2 ∧
      t.rdN SEC_TAMPER_HEAD.NEXT 0 = 1 ∧ t.therm.wear = [] ∧ t.jnl = s.jnl ∧ t.boot = s.boot) ∧
    (s.boot.powered = true → exec .alwaysOnReset s = .next s)

open Sys2Proof.Claim in
/-- Bring-up (R565, R566, R569, R571 to R573, R576, R586): the preferred image is tried first, then the other, else RECOVERY; the sketchbook is
opened, or formatted where no half has a header, and an uncleared trip is shown and held; canvases that fail go on without;
at SCRUB the gesso is zeroed, a pending exit completed and the primer applied; each stage passes only from the one before. -/
def Obligations.BringUp : Prop :=
  (∀ (s : State), s.stage = 0 → s.boot.powered = true → s.island 136 = islActive → ∃ t, exec .fwImageVerify s = .next t ∧
    match s.verifySlot s.boot.preferred with
    | .ok i => FirmwareStarts s t s.boot.preferred i false
    | .error _ =>
      match s.verifySlot (1 - s.boot.preferred) with
      | .ok i => FirmwareStarts s t (1 - s.boot.preferred) i true
      | .error _ => t.stage = 6 ∧ t.sec = s.sec ∧ t.mem = s.mem ∧ (s.boot.perstN = true → t.boot.linkUp = true)) ∧
  (∀ (s : State), (s.stage ≠ 0 ∨ s.boot.powered = false ∨ s.island 136 ≠ islActive) → exec .fwImageVerify s = .next s) ∧
  (∀ (s : State), (s.stage ≠ 1 → exec .sketchbookOpened s = .next s) ∧
    (s.stage = 1 → (∀ i ∈ [137, 138, 142, 143], s.island i = islActive) → ∃ t, exec .sketchbookOpened s = .next t ∧ t.stage = 2 ∧
      (s.boot.perstN = true → t.boot.linkUp = true) ∧
      (match s.jnl.slots with
        | some h :: _ => if h.type = 1 then t.rdN JNL_GEN.VALUE 0 = leField h.payload 0 4 % 2 ^ 32 ∧ t.jnl.slots = s.jnl.slots
            else t.on JNL_STATUS.FORMATTED 0 = true ∧ t.rdN JNL_GEN.VALUE 0 = 1 ∧ t.jnl.slots.length = 1
        | _ => t.on JNL_STATUS.FORMATTED 0 = true ∧ t.rdN JNL_GEN.VALUE 0 = 1 ∧ t.jnl.slots.length = 1) ∧
      (s.openImage.openTrips ≠ [] → t.on JNL_THERMAL_RECORD.PRESENT 0 = true ∧ t.on GLB_BOOT_STATUS.THERMAL_HOLD 0 = true))) ∧
  (∀ (s : State) (failed : List Nat), (s.stage ≠ 2 → s.stage ≠ 3 → exec (.canvasesUp failed) s = .next s) ∧
    (s.stage = 3 → (∀ i, (i < 136 ∨ (139 ≤ i ∧ i ≤ 141)) → s.island i = islWaking → i ∈ failed) → ∃ t, exec (.canvasesUp failed) s = .next t ∧
      t.stage = 4 ∧ (∀ i, (i < 136 ∨ (139 ≤ i ∧ i ≤ 141)) → t.island i = (if s.island i = islWaking then islAsleep else s.island i)) ∧
      t.mem = s.mem ∧ t.jnl = s.jnl)) ∧
  (∀ (s : State), (s.stage ≠ 4 → exec .bootScrubDone s = .next s) ∧
    (s.stage = 4 → s.listed CNV_ECC_BANK_RETIRE.PENDING = [] →
      (∀ c ∈ s.candidates, ∀ l, 22 ≤ l → l < 26 → s.island (islandOf c l) ≠ islWaking) → ∃ t, exec .bootScrubDone s = .next t ∧
      t.stage = 5 ∧ t.on JNL_STATUS.READY_EVT 0 = true ∧ t.str.sketch.primer = true ∧ t.on GLB_BOOT_STATUS.SCRUB_PENDING 0 = false ∧
      (∀ c ∈ s.candidates, Tab.get t.isl.gessoLost c false = false ∧
        (∀ l j, l < 0x1800000 → j < 8 → t.rowSector (lineKey c l) j = List.replicate 256 0))))

open Sys2Proof.Claim in
/-- The sketchbook's writing (R573, R583 to R585): the oldest record is programmed into the next slot; a failed program moves it on, and
after the third failure FLASH_ERR is set, a state record is kept and tried again each second, and any other is dropped and counted;
a compaction commits an image one generation on in the other half; clearing PRESENT appends one THERMAL_CLEAR for each trip. -/
def Obligations.SketchbookWrites : Prop :=
  (∀ (s : State) (r : JRecord) (fails : Nat) (es : List JEntry), s.jnlUp = true → s.jnl.queue = ⟨r, fails, none⟩ :: es →
    (∃ t, exec (.recordProgramDone true) s = .next t ∧ t.jnl.slots = s.jnl.slots ++ [some r] ∧ QueueAfterHead t s es ∧
      t.rdN JNL_FILL.SLOTS 0 = (s.jnl.slots.length + 1) % 2 ^ 18 ∧ t = { s with regs := t.regs, jnl := t.jnl } ∧
      (98304 ≤ s.jnl.slots.length + 1 → s.jnl.compact = none → t.on JNL_STATUS.COMPACTING 0 = true ∧ t.jnl.compact.isSome = true) ∧
      RegsSame s t [JNL_FILL.SLOTS.key 0, JNL_STATUS.COMPACTING.key 0]) ∧
    (∃ t, exec (.recordProgramDone false) s = .next t ∧ t.jnl.slots = s.jnl.slots ++ [none] ∧ t = { s with regs := t.regs, jnl := t.jnl } ∧
      (fails < 2 → t.jnl.queue = ⟨r, fails + 1, none⟩ :: es ∧ t.jnl.waiting = s.jnl.waiting ∧ t.on JNL_STATUS.FLASH_ERR 0 = s.on JNL_STATUS.FLASH_ERR 0) ∧
      (2 ≤ fails → t.on JNL_STATUS.FLASH_ERR 0 = true ∧
        (if stateType r.type = true then t.jnl.queue = ⟨r, fails + 1, some (s.now + 1000000000)⟩ :: es ∧ t.rd JNL_LOST.COUNT 0 = s.rd JNL_LOST.COUNT 0
        else QueueAfterHead t s es ∧ t.rdN JNL_LOST.COUNT 0 = (s.rdN JNL_LOST.COUNT 0 + 1) % 2 ^ 32 ∧ t.on JNL_STATUS.RECORD_LOST 0 = true)))) ∧
  (∀ (s : State) (r : JRecord) (fails due : Nat) (es : List JEntry), s.jnlUp = true → s.jnl.queue = ⟨r, fails, some due⟩ :: es →
    (s.now < due → ∀ ok, exec (.recordRetry ok) s = .next s) ∧
    (due ≤ s.now →
      (∃ t, exec (.recordRetry true) s = .next t ∧ t.jnl.slots = s.jnl.slots ++ [some r] ∧ QueueAfterHead t s es ∧ t = { s with regs := t.regs, jnl := t.jnl }) ∧
      ∃ t, exec (.recordRetry false) s = .next t ∧ t.jnl.slots = s.jnl.slots ++ [none] ∧
        t.jnl.queue = ⟨r, fails, some (s.now + 1000000000)⟩ :: es ∧ t = { s with regs := t.regs, jnl := t.jnl })) ∧
  (∀ (s : State),
    (s.jnl.compact = none → exec .compactionCommit s = .next s) ∧
    (∀ n, s.jnl.compact = some n → s.rtpUp = true → s.rdN JNL_FILL.HALF 0 ≤ 1 → ∃ t, exec .compactionCommit s = .next t ∧ t.jnl.compact = none ∧
      t.rdN JNL_GEN.VALUE 0 = (s.rdN JNL_GEN.VALUE 0 + 1) % 2 ^ 32 ∧ t.rdN JNL_FILL.HALF 0 = 1 - s.rdN JNL_FILL.HALF 0 ∧
      t.on JNL_STATUS.COMPACTING 0 = false ∧ t.on JNL_STATUS.COMPACT_DONE 0 = true ∧
      (∀ r, some r ∈ s.jnl.slots.drop n → some r ∈ t.jnl.slots) ∧
      (∀ r, some r ∈ s.jnl.slots.take n → r.isState ((s.jnl.slots.take n).filterMap id) = true → some r ∈ t.jnl.slots) ∧
      (∀ r, some r ∈ t.jnl.slots.drop 1 → some r ∈ s.jnl.slots) ∧ t.jnl.queue = s.jnl.queue ∧ t = { s with regs := t.regs, jnl := t.jnl }) ∧
    (s.rtpUp = false ∨ s.on JNL_THERMAL_RECORD.PRESENT 0 = false → exec .thermalRecordClear s = .next s) ∧
    (s.rtpUp = true → s.on JNL_THERMAL_RECORD.PRESENT 0 = true → ∃ t, exec .thermalRecordClear s = .next t ∧
      t.on JNL_THERMAL_RECORD.PRESENT 0 = false ∧ t.on GLB_BOOT_STATUS.THERMAL_HOLD 0 = false ∧ t = { s with regs := t.regs, jnl := t.jnl } ∧
      (∀ r ∈ s.openTrips, ∃ x ∈ t.jnl.queue.map (·.record) ++ t.jnl.waiting, x.type = 0x11 ∧ leField x.payload 0 4 = r.seq % 2 ^ 32)))

/-! ### The sideband (chapter 20) -/

namespace Sys2Proof.Claim

/-- An ERROR_SUMMARY record of the device is written, or merged or dropped where the rate of R520 says so; nothing else of the sketchbook's image
changes. -/
def SummaryOnly (s t : State) (ks : List Nat) : Prop :=
  t = { s with regs := t.regs, jnl := t.jnl, sbd := t.sbd } ∧ t.jnl.slots = s.jnl.slots ∧
    RegsSame s t (ks ++ [JNL_NEXT_SEQ.VALUE.key 0, JNL_LOST.COUNT.key 0, JNL_STATUS.RECORD_LOST.key 0])

/-- The state of a lamp after a check (R614). -/
def LampChecked (s t : State) (n : Nat) (low : Bool) : Prop :=
  t.rdN (lampState n) 0 = (if low then 1 else 0) ∧
    (low = true → s.rdN (lampState n) 0 ≠ 1 → t.on LMP_STATUS.OPEN_EVT 0 = true) ∧
    (low = false ∨ s.rdN (lampState n) 0 = 1 → t.on LMP_STATUS.OPEN_EVT 0 = s.on LMP_STATUS.OPEN_EVT 0) ∧
    t = { s with regs := t.regs, sbd := { s.sbd with flashAt := t.sbd.flashAt } } ∧ RegsSame s t [(lampState n).key 0, LMP_STATUS.OPEN_EVT.key 0]

end Sys2Proof.Claim

open Sys2Proof.Claim in
/-- Power disable (R607 to R612): the first channel stops the device, a second within 9,999 µs makes the stop a demand, 10,000 µs of
disagreement latch DISCREPANCY, and the count is shown; after both channels have been deasserted together for 100 ms RESTART_OK
sets with a host reset, unless DISCREPANCY holds it; DISCREPANCY clears only then. -/
def Sys2Proof.Claim.PowerDisable : Prop :=
  ∀ (s : State), s.watched = true →
    (∀ b, s.on (pwdisBit b) 0 = true → exec (.pwdisAssert b) s = .next s) ∧
    (∀ b, s.on (pwdisBit b) 0 = false → s.on (pwdisBit !b) 0 = false → ∃ t, exec (.pwdisAssert b) s = .next t ∧
      t.on (pwdisBit b) 0 = true ∧ t.on SBD_STATUS.STOPPED 0 = true ∧ t.on SBD_STATUS.RESTART_OK 0 = false ∧
      t.sbd.apart = some (s.now, true) ∧ t.sbd.clear = none ∧ (∀ c, c < 4 → t.on TTH_STATUS.LOST c = true) ∧
      (∀ i ∈ [136, 137, 138, 142, 143], t.island i = s.island i) ∧
      (∀ i ∈ stopIslands, t.island i ≠ islActive ∧ t.island i ≠ islWaking ∧ t.island i ≠ islClosing) ∧
      (s.conf = true → t.sec.tmk = none ∧ t.sec.tlk = none ∧ t.on GLB_BOOT_STATUS.SCRUB_PENDING 0 = true)) ∧
    (∀ b x, s.on (pwdisBit b) 0 = false → s.on (pwdisBit !b) 0 = true → s.sbd.apart = some (x, true) →
      let us := (s.now - x) / 1000
      ∃ t, exec (.pwdisAssert b) s = .next t ∧ t.on (pwdisBit b) 0 = true ∧ t.sbd.apart = none ∧ t.sbd.clear = none ∧
        t.rdN SBD_PWDIS_SKEW.US 0 = min us (2 ^ 32 - 1) ∧ (us ≤ 9999 → t.on SBD_STATUS.DEMAND_EVT 0 = true) ∧
        (9999 < us → t.rd SBD_STATUS.DEMAND_EVT 0 = s.rd SBD_STATUS.DEMAND_EVT 0 ∧ t.jnl = s.jnl) ∧
        SummaryOnly s t [(pwdisBit b).key 0, SBD_PWDIS_SKEW.US.key 0, SBD_STATUS.DEMAND_EVT.key 0]) ∧
    (∀ b, s.on (pwdisBit b) 0 = false → exec (.pwdisDeassert b) s = .next s) ∧
    (∀ b, s.on (pwdisBit b) 0 = true → s.on (pwdisBit !b) 0 = true → ∃ t, exec (.pwdisDeassert b) s = .next t ∧
      t.on (pwdisBit b) 0 = false ∧ t.sbd.apart = some (s.now, false) ∧ t = { s with regs := t.regs, sbd := t.sbd } ∧ RegsSame s t [(pwdisBit b).key 0]) ∧
    (∀ b x y, s.on (pwdisBit b) 0 = true → s.on (pwdisBit !b) 0 = false → s.sbd.apart = some (x, y) → ∃ t, exec (.pwdisDeassert b) s = .next t ∧
      t.on (pwdisBit b) 0 = false ∧ t.sbd.apart = none ∧ t.sbd.clear = some s.now ∧
      t.rdN SBD_PWDIS_SKEW.US 0 = min ((s.now - x) / 1000) (2 ^ 32 - 1) ∧ t = { s with regs := t.regs, sbd := t.sbd } ∧
      RegsSame s t [(pwdisBit b).key 0, SBD_PWDIS_SKEW.US.key 0]) ∧
    (∀ x y, s.sbd.apart = some (x, y) → s.sbd.latched = false →
      (s.now < x + 10000000 → exec .discrepancyTimeout s = .next s) ∧
      (x + 10000000 ≤ s.now → ∃ t, exec .discrepancyTimeout s = .next t ∧ t.on SBD_STATUS.DISCREPANCY 0 = true ∧
        t.rdN SBD_PWDIS_SKEW.US 0 = 10000 ∧ t.sbd.latched = true ∧ SummaryOnly s t [SBD_STATUS.DISCREPANCY.key 0, SBD_PWDIS_SKEW.US.key 0])) ∧
    (s.bothClear = true → s.on SBD_STATUS.STOPPED 0 = true → s.on SBD_STATUS.RESTART_OK 0 = false →
      (s.on SBD_STATUS.DISCREPANCY 0 = false → ∃ t, exec .restartTimer s = .next t ∧ t.on SBD_STATUS.RESTART_OK 0 = true ∧ t.stage = 3 ∧
        t.rdN GLB_BOOT_STATUS.RESET_CAUSE 0 = 4 ∧ t.sbd = s.sbd) ∧
      (s.on SBD_STATUS.DISCREPANCY 0 = true → exec .restartTimer s = .next s) ∧
      (∃ t, exec .discrepancyClear s = .next t ∧ t.on SBD_STATUS.DISCREPANCY 0 = false ∧ t.on SBD_STATUS.RESTART_OK 0 = true ∧ t.stage = 3)) ∧
    (s.bothClear = false → exec .restartTimer s = .next s ∧ ∃ t, exec .discrepancyClear s = .next t ∧
      t.on SBD_STATUS.CLEAR_REFUSED 0 = true ∧ t = { s with regs := t.regs } ∧ RegsSame s t [SBD_STATUS.CLEAR_REFUSED.key 0])

open Sys2Proof.Claim in
/-- Lamps and JTAG (R487, R605, R614, R615): a lamp is checked in an on-time of at least 40 µs and by a test flash when it is dim, unless QUIET
makes it UNVERIFIED; a write leaves it UNTESTED; JTAG instructions act as the table of R605 says, and TRST_N holds the TAP in reset. -/
def Sys2Proof.Claim.LampsAndJtag : Prop :=
  (∀ (s : State) (n : Nat) (low : Bool), s.lampsUp = true → n < 2 →
    let duty := s.rdN LMP_CTL.DUTY n
    (duty < 11 → exec (.lampCheck n low) s = .next s) ∧
    (11 ≤ duty → ∃ t, exec (.lampCheck n low) s = .next t ∧ LampChecked s t n low) ∧
    (11 ≤ duty → exec (.lampTestFlash n low) s = .next s) ∧
    (duty ≤ 10 → s.on LMP_CTL.QUIET n = true → ∃ t, exec (.lampTestFlash n low) s = .next t ∧ t.rdN (lampState n) 0 = 2 ∧
      t = { s with regs := t.regs } ∧ RegsSame s t [(lampState n).key 0]) ∧
    (duty ≤ 10 → s.on LMP_CTL.QUIET n = false → Tab.get s.sbd.flashAt n 0 + 4000000000 ≤ s.now → ∃ t, exec (.lampTestFlash n low) s = .next t ∧
      LampChecked s t n low ∧ Tab.get t.sbd.flashAt n 0 = s.now) ∧
    (duty ≤ 10 → s.on LMP_CTL.QUIET n = false → s.now < Tab.get s.sbd.flashAt n 0 + 4000000000 → exec (.lampTestFlash n low) s = .next s) ∧
    (∀ x : Word32, ∃ t, exec (.lmpCtlWrite n x) s = .next t ∧ t.rdN LMP_CTL.DUTY n = x.toNat % 256 ∧ t.on LMP_CTL.QUIET n = x.getLsbD 8 ∧
      t.rdN (lampState n) 0 = 3 ∧ t = { s with regs := t.regs } ∧ RegsSame s t [LMP_CTL.DUTY.key n, LMP_CTL.QUIET.key n, (lampState n).key 0])) ∧
  (∀ (s : State) (code : Nat), s.boot.powered = true → s.sec.jtagOpen = true → code < 256 →
    let acts := if code = 1 then 1 else if code = 2 ∧ s.conf = false then 2 else if code = 0 ∧ s.conf = false ∧ s.boot.perstN = false then 0 else 0xFF
    exec (.jtagInstruction code) s = .next { s with sbd := { s.sbd with ir := code }, sent := s.sent ++ [.jtag acts (if acts = 1 then 0x14800B47 else 0)] }) ∧
  (∀ (s : State), (s.boot.powered = false ∨ s.sec.jtagOpen = false → ∀ code, exec (.jtagInstruction code) s = .next s) ∧
    (∃ t, exec (.trstNChange true) s = .next t ∧ t.sec.jtagOpen = true ∧ t = { s with sec := { s.sec with jtagOpen := true } }) ∧
    (∃ t, exec (.trstNChange false) s = .next t ∧ t.sec.jtagOpen = false ∧ t.sbd.ir = 1 ∧
      t = { s with sec := { s.sec with jtagOpen := false }, sbd := { s.sbd with ir := 1 } }))

open Sys2Proof.Claim in
/-- Tier 2. The sideband inputs: power disable, lamps and JTAG. -/
def Obligations.SidebandInputs : Prop := PowerDisable ∧ LampsAndJtag

/-! ### The whole device -/

/-- Tier 1. A step takes the command at the front of the queue and runs it on the device with the rest of the queue;
with no command waiting, 1 ns of device time passes (the model's own choice, notes/assumptions/2.md). -/
def Obligations.StepRunsFront : Prop :=
  (∀ (c : Instr) (s : State), step (s.withCommand c) = exec c s) ∧
  (∀ (c : Instr) (cs : List Instr) (s : State), s.pending = c :: cs → step s = exec c { s with pending := cs }) ∧
  (∀ s : State, s.pending = [] → step s = .next s.tick ∧ s.tick.pending = [])

/-- Tier 2. Every command is carried out in every state: none stops the device with a fault or a refusal. No command
takes commands out of the queue or puts any in, and what has been sent to the outside stays sent. -/
def Obligations.EveryCommandCompletes : Prop :=
  ∀ (c : Instr) (s : State), ∃ t, exec c s = .next t ∧ t.pending = s.pending ∧ ∃ ms, t.sent = s.sent ++ ms

/-- Tier 3. From every state in which memory is in its canonical form and the register fields are listed in order, a
step leads to such a state. -/
def Obligations.StepKeepsTidy : Prop :=
  ∀ s t : State, s.Tidy → step s = .next t → t.Tidy

/-- Tier 1. The state right after a device reset (R46, R561): tables in order, nothing waiting, nothing sent, STAGE at
ROM, island 136 ACTIVE and every other island WAKING, and every other register field at its reset value. -/
def Obligations.ResetState : Prop :=
  State.reset.Tidy ∧ State.reset.pending = [] ∧ State.reset.sent = [] ∧
  State.reset.rdN GLB_BOOT_STATUS.STAGE 0 = 0 ∧
  State.reset.rdN GLB_ISL_STATE.STATE 136 = 0 ∧
  (∀ i, i < 144 → i ≠ 136 → State.reset.rdN GLB_ISL_STATE.STATE i = 3) ∧
  (∀ (f : RegField) (i : Nat), f.key i ≠ GLB_ISL_STATE.STATE.key 136 → State.reset.rd f i = f.reset)

namespace Sys2Proof.Claim

/-- The exact sum of terms onto an accumulator, term by term. -/
def sumTerms (x : Exact) (ts : List Machine.Num) : Exact := ts.foldl Exact.addTerm x

/-- A term in grid units, rounded to the nearest with ties to even (R79); 0 where it is NaN or infinite (R81). -/
def gridUnits (g : BitVec 8) (t : Machine.Num) : Int :=
  match t with
  | .fin n m e => (if n then -1 else 1) * (roundAt .rne m e g.toInt : Int)
  | _ => 0

/-- The true sum of terms in grid units. -/
def gridSum (g : BitVec 8) (ts : List Machine.Num) : Int := (ts.map (gridUnits g)).sum

/-- Whether a term is no multiple of the grid. -/
def offGrid (g : BitVec 8) (t : Machine.Num) : Prop :=
  match t with
  | .fin _ m e => e < g.toInt ∧ m % 2 ^ (g.toInt - e).toNat ≠ 0
  | _ => False

end Sys2Proof.Claim

open Sys2Proof.Claim in
/-- Tier 3. Exact-K sums (R79, R81, R82, R84). V is the sum of the terms in grid units, each rounded on its own, modulo
2^80: the true sum wherever that lies within −2^79 to 2^79 − 1, and nothing in the container tells a sum outside that
range. The flags tell whether some term was NaN, infinite or rounded. Neither the order of the terms nor how they are cut
into containers that are combined afterwards, in whatever order and grouping, changes a bit. The MMA sums its element
products so. -/
def Obligations.ExactSums : Prop :=
  (∀ (g : BitVec 8) (ts : List Machine.Num),
    (sumTerms (Exact.zero g) ts).g = g ∧
    (sumTerms (Exact.zero g) ts).v = BitVec.ofInt 80 (gridSum g ts) ∧
    (-(2 ^ 79) ≤ gridSum g ts → gridSum g ts < 2 ^ 79 → (sumTerms (Exact.zero g) ts).v.toInt = gridSum g ts) ∧
    ((sumTerms (Exact.zero g) ts).nan = true ↔ Num.nan ∈ ts) ∧
    ((sumTerms (Exact.zero g) ts).pinf = true ↔ Num.inf false ∈ ts) ∧
    ((sumTerms (Exact.zero g) ts).ninf = true ↔ Num.inf true ∈ ts) ∧
    ((sumTerms (Exact.zero g) ts).inexact = true ↔ ∃ t ∈ ts, offGrid g t)) ∧
  (∀ (x : Exact) (ts us : List Machine.Num), ts.Perm us → sumTerms x ts = sumTerms x us) ∧
  (∀ (g : BitVec 8) (ts us : List Machine.Num),
    sumTerms (Exact.zero g) (ts ++ us) = Exact.combine (sumTerms (Exact.zero g) ts) (sumTerms (Exact.zero g) us)) ∧
  (∀ a b c : Exact, Exact.combine (Exact.combine a b) c = Exact.combine a (Exact.combine b c)) ∧
  (∀ a b : Exact, a.g = b.g → Exact.combine a b = Exact.combine b a) ∧
  (∀ (x : Exact) (ps : List (Machine.Num × Machine.Num)), (dotExact x ps).1 = sumTerms x (ps.map (fun p => p.1.mul p.2))) ∧
  (∀ (x : Exact) (ps qs : List (Machine.Num × Machine.Num)), ps.Perm qs → dotExact x ps = dotExact x qs)
end

