-- ==== Sys2Proof/Laws/Bytes.lean ====
section
/-! SUPPORT. The laws of little-endian byte lists: what a number gives back after it is written as bytes, the fields of joined
lists, and the header of a tether flit. -/

namespace Sys2Proof.Machine

@[simp] theorem leBytes_length (n v : Nat) : (leBytes n v).length = n := by
  induction n generalizing v with
  | zero => rfl
  | succ n ih => simp [leBytes, ih]

@[simp] theorem leNat_nil : leNat [] = 0 := rfl

@[simp] theorem leNat_cons (b : Byte) (bs : List Byte) : leNat (b :: bs) = b.toNat + 256 * leNat bs := rfl

/-- A number written as n bytes reads back modulo 2 to the 8n. -/
@[simp] theorem leNat_leBytes (n v : Nat) : leNat (leBytes n v) = v % 2 ^ (8 * n) := by
  induction n generalizing v with
  | zero => simp [leBytes, Nat.mod_one]
  | succ n ih =>
    have e : 2 ^ (8 * (n + 1)) = 256 * 2 ^ (8 * n) := by rw [Nat.mul_succ, Nat.pow_add]; simp [Nat.mul_comm]
    rw [leBytes, leNat_cons, ih, e, Nat.mod_mul, BitVec.toNat_ofNat]

theorem leNat_lt (bs : List Byte) : leNat bs < 2 ^ (8 * bs.length) := by
  induction bs with
  | nil => simp
  | cons b bs ih =>
    have e : 2 ^ (8 * (bs.length + 1)) = 256 * 2 ^ (8 * bs.length) := by rw [Nat.mul_succ, Nat.pow_add]; simp [Nat.mul_comm]
    have := b.isLt
    rw [leNat_cons, List.length_cons, e]; omega

/-- The bytes of the number that a byte list spells are the list. -/
@[simp] theorem leBytes_leNat (bs : List Byte) : leBytes bs.length (leNat bs) = bs := by
  induction bs with
  | nil => rfl
  | cons b bs ih =>
    have hb := b.isLt
    have h1 : (b.toNat + 256 * leNat bs) / 256 = leNat bs := by omega
    have h2 : BitVec.ofNat 8 (b.toNat + 256 * leNat bs) = b := by apply BitVec.eq_of_toNat_eq; rw [BitVec.toNat_ofNat]; omega
    simp only [List.length_cons, leBytes, leNat_cons, h1, h2, ih]

theorem leField_append_left {a b : List Byte} {o n : Nat} (h : o + n ≤ a.length) : leField (a ++ b) o n = leField a o n := by
  unfold leField
  rw [List.drop_append_of_le_length (by omega), List.take_append_of_le_length (by rw [List.length_drop]; omega)]

theorem leField_append_right (a b : List Byte) (o n : Nat) : leField (a ++ b) (a.length + o) n = leField b o n := by
  unfold leField
  rw [List.drop_length_add_append]

@[simp] theorem leField_leBytes (n v : Nat) : leField (leBytes n v) 0 n = v % 2 ^ (8 * n) := by
  unfold leField; rw [List.drop_zero, List.take_of_length_le (by simp), leNat_leBytes]

/-! ### Tether flits (R371) -/

/-- A header whose fields fit their bits. -/
def TetherHead.fits (h : TetherHead) : Prop :=
  h.seq < 4096 ∧ h.ack < 4096 ∧ h.type < 8 ∧ h.vc < 4 ∧ h.crVc < 4 ∧ h.total < 1024 ∧ h.start < 32 ∧ h.low < 2 ^ 18

@[simp] theorem TetherHead.flit_length (h : TetherHead) (p : List Byte) : (h.flit p).length = 128 := by
  simp [TetherHead.flit]

/-- A flit's header reads back. -/
theorem TetherHead.read_flit (h : TetherHead) (p : List Byte) (hf : h.fits) : TetherHead.read (h.flit p) = h := by
  obtain ⟨h1, h2, h3, h4, h5, h6, h7, h8⟩ := hf
  have e : leField (h.flit p) 0 8 =
      h.seq * 2 ^ 52 + h.ack * 2 ^ 40 + h.type * 2 ^ 37 + h.vc * 2 ^ 35 + h.crVc * 2 ^ 33 + h.total * 2 ^ 23 + h.start * 2 ^ 18 + h.low := by
    unfold TetherHead.flit
    rw [leField_append_left (by simp), leField_append_left (by simp), leField_leBytes, Nat.mod_eq_of_lt]
    omega
  unfold TetherHead.read
  simp only [e]
  obtain ⟨a, b, c, d, f, g, i, j⟩ := h
  simp only [TetherHead.mk.injEq] at *
  omega

/-- The payload of a flit. -/
theorem TetherHead.payload_flit (h : TetherHead) (p : List Byte) (hp : p.length = 116) : ((h.flit p).drop 8).take 116 = p := by
  unfold TetherHead.flit
  rw [List.append_assoc, List.drop_left' (by simp)]
  rw [List.take_append_of_le_length (by simp), List.take_take, Nat.min_self, List.take_append_of_le_length (by omega),
    List.take_of_length_le (by omega)]

/-- A flit that a sender makes is good, unless its type or VC is reserved. -/
theorem TetherHead.flit_good (h : TetherHead) (p : List Byte) (hf : h.fits) (ht : h.type < 4) (hv : h.type = 0 → h.vc ≠ 3) :
    flitGood (h.flit p) = true := by
  have hc : leField (h.flit p) 124 4 = (crc32 ((h.flit p).take 124)).toNat := by
    unfold TetherHead.flit
    have hl : ∀ v, (leBytes 8 v ++ (p ++ List.replicate 116 0).take 116).length = 124 := by intro v; simp
    have := leField_append_right (leBytes 8 (h.seq * 2 ^ 52 + h.ack * 2 ^ 40 + h.type * 2 ^ 37 + h.vc * 2 ^ 35 + h.crVc * 2 ^ 33 +
      h.total * 2 ^ 23 + h.start * 2 ^ 18 + h.low) ++ (p ++ List.replicate 116 0).take 116)
      (leBytes 4 (crc32 (leBytes 8 (h.seq * 2 ^ 52 + h.ack * 2 ^ 40 + h.type * 2 ^ 37 + h.vc * 2 ^ 35 + h.crVc * 2 ^ 33 +
      h.total * 2 ^ 23 + h.start * 2 ^ 18 + h.low) ++ (p ++ List.replicate 116 0).take 116)).toNat) 0 4
    rw [hl, Nat.add_zero] at this
    rw [this, leField_leBytes, List.take_left' (hl _), Nat.mod_eq_of_lt (BitVec.isLt _)]
  unfold flitGood
  rw [TetherHead.read_flit h p hf, TetherHead.flit_length, hc]
  by_cases h0 : h.type = 0
  · simp [h0, hv h0]
  · simp [ht, h0]

end Sys2Proof.Machine
end

