-- ==== Sys2Proof/Laws/Table.lean ====
section
/-! SUPPORT. The laws of sparse tables: what a lookup gives after an update, for every table, and which updates keep the
keys strictly rising. -/

namespace Sys2Proof.Machine

variable {α : Type}

@[simp] theorem Tab.find_nil (x : Nat) : Tab.find ([] : Tab α) x = none := rfl

@[simp] theorem Tab.find_put_self (m : Tab α) (k : Nat) (v : α) : Tab.find (Tab.put m k v) k = some v := by
  induction m with
  | nil => simp [Tab.put, Tab.find]
  | cons e m ih =>
    obtain ⟨k', w⟩ := e
    unfold Tab.put
    split
    · simp [Tab.find]
    · split
      · simp [Tab.find]
      · simp [Tab.find, *]

theorem Tab.find_put_ne (m : Tab α) {k x : Nat} (v : α) (h : x ≠ k) : Tab.find (Tab.put m k v) x = Tab.find m x := by
  induction m with
  | nil => simp [Tab.put, Tab.find, h]
  | cons e m ih =>
    obtain ⟨k', w⟩ := e
    unfold Tab.put
    split
    · next hk => subst hk; simp [Tab.find, h]
    · split
      · simp [Tab.find, h]
      · simp [Tab.find, ih]

@[simp] theorem Tab.find_del_self (m : Tab α) (k : Nat) : Tab.find (Tab.del m k) k = none := by
  induction m with
  | nil => rfl
  | cons e m ih =>
    obtain ⟨k', w⟩ := e
    unfold Tab.del
    split
    · exact ih
    · simp [Tab.find, *]

theorem Tab.find_del_ne (m : Tab α) {k x : Nat} (h : x ≠ k) : Tab.find (Tab.del m k) x = Tab.find m x := by
  induction m with
  | nil => rfl
  | cons e m ih =>
    obtain ⟨k', w⟩ := e
    unfold Tab.del
    split
    · next hk => subst hk; simp [Tab.find, h, ih]
    · simp [Tab.find, ih]

@[simp] theorem Tab.get_put_self (m : Tab α) (k : Nat) (v d : α) : Tab.get (Tab.put m k v) k d = v := by simp [Tab.get]

theorem Tab.get_put_ne (m : Tab α) {k x : Nat} (v d : α) (h : x ≠ k) : Tab.get (Tab.put m k v) x d = Tab.get m x d := by
  simp [Tab.get, Tab.find_put_ne m v h]

@[simp] theorem Tab.get_set_self [DecidableEq α] (m : Tab α) (k : Nat) (v d : α) : Tab.get (Tab.set m k v d) k d = v := by
  unfold Tab.set
  split
  · next h => simp [Tab.get, h]
  · simp [Tab.get]

theorem Tab.find_set_ne [DecidableEq α] (m : Tab α) {k x : Nat} (v d : α) (h : x ≠ k) :
    Tab.find (Tab.set m k v d) x = Tab.find m x := by
  unfold Tab.set
  split
  · exact Tab.find_del_ne m h
  · exact Tab.find_put_ne m v h

theorem Tab.get_set_ne [DecidableEq α] (m : Tab α) {k x : Nat} (v d e : α) (h : x ≠ k) :
    Tab.get (Tab.set m k v d) x e = Tab.get m x e := by simp [Tab.get, Tab.find_set_ne m v d h]

/-- What a table lists at a key after a set. -/
theorem Tab.get_set [DecidableEq α] (m : Tab α) (k x : Nat) (v d : α) :
    Tab.get (Tab.set m k v d) x d = if x = k then v else Tab.get m x d := by
  split
  · next h => subst h; exact Tab.get_set_self m x v d
  · next h => exact Tab.get_set_ne m v d d h

/-! ### Strictly rising keys -/

/-- Every key of a table is at least a bound. -/
def Tab.above (b : Nat) (m : Tab α) : Prop := ∀ e ∈ m, b < e.1

theorem Tab.sorted_cons (a : Nat) (v : α) (m : Tab α) : Tab.sorted ((a, v) :: m) = true ↔ Tab.above a m ∧ Tab.sorted m = true := by
  induction m generalizing a v with
  | nil => simp [Tab.sorted, Tab.above]
  | cons e m ih =>
    obtain ⟨b, w⟩ := e
    rw [Tab.sorted, Bool.and_eq_true, decide_eq_true_eq]
    constructor
    · rintro ⟨h, hs⟩
      refine ⟨?_, hs⟩
      intro x hx
      rcases List.mem_cons.1 hx with rfl | hx
      · exact h
      · have := ((ih b w).1 hs).1 x hx; omega
    · rintro ⟨h, hs⟩; exact ⟨h (b, w) List.mem_cons_self, hs⟩

theorem Tab.mem_put {m : Tab α} {k : Nat} {v : α} {e : Nat × α} (h : e ∈ Tab.put m k v) : e = (k, v) ∨ e ∈ m := by
  induction m with
  | nil => simpa [Tab.put] using h
  | cons f m ih =>
    obtain ⟨k', w⟩ := f
    unfold Tab.put at h
    split at h
    · rcases List.mem_cons.1 h with h | h
      · exact .inl h
      · exact .inr (List.mem_cons_of_mem _ h)
    · split at h
      · exact List.mem_cons.1 h
      · rcases List.mem_cons.1 h with h | h
        · exact .inr (h ▸ List.mem_cons_self)
        · exact (ih h).imp_right (List.mem_cons_of_mem _)

theorem Tab.mem_del {m : Tab α} {k : Nat} {e : Nat × α} (h : e ∈ Tab.del m k) : e ∈ m := by
  induction m with
  | nil => exact h
  | cons f m ih =>
    obtain ⟨k', w⟩ := f
    unfold Tab.del at h
    split at h
    · exact List.mem_cons_of_mem _ (ih h)
    · rcases List.mem_cons.1 h with h | h
      · exact h ▸ List.mem_cons_self
      · exact List.mem_cons_of_mem _ (ih h)

theorem Tab.sorted_put {m : Tab α} (k : Nat) (v : α) (h : Tab.sorted m = true) : Tab.sorted (Tab.put m k v) = true := by
  induction m with
  | nil => rfl
  | cons f m ih =>
    obtain ⟨k', w⟩ := f
    obtain ⟨ha, hs⟩ := (Tab.sorted_cons k' w m).1 h
    unfold Tab.put
    split
    · next hk => subst hk; exact (Tab.sorted_cons _ _ _).2 ⟨ha, hs⟩
    · split
      · next hk =>
        refine (Tab.sorted_cons _ _ _).2 ⟨?_, h⟩
        intro x hx
        rcases List.mem_cons.1 hx with rfl | hx
        · exact hk
        · have := ha x hx; omega
      · next hk hl =>
        refine (Tab.sorted_cons _ _ _).2 ⟨?_, ih hs⟩
        intro x hx
        rcases Tab.mem_put hx with rfl | hx
        · show k' < k; omega
        · exact ha x hx

theorem Tab.sorted_del {m : Tab α} (k : Nat) (h : Tab.sorted m = true) : Tab.sorted (Tab.del m k) = true := by
  induction m with
  | nil => rfl
  | cons f m ih =>
    obtain ⟨k', w⟩ := f
    obtain ⟨ha, hs⟩ := (Tab.sorted_cons k' w m).1 h
    unfold Tab.del
    split
    · exact ih hs
    · exact (Tab.sorted_cons _ _ _).2 ⟨fun x hx => ha x (Tab.mem_del hx), ih hs⟩

theorem Tab.sorted_set [DecidableEq α] {m : Tab α} (k : Nat) (v d : α) (h : Tab.sorted m = true) :
    Tab.sorted (Tab.set m k v d) = true := by
  unfold Tab.set
  split
  · exact Tab.sorted_del k h
  · exact Tab.sorted_put k v h

theorem Tab.sorted_filter {m : Tab α} (p : Nat × α → Bool) (h : Tab.sorted m = true) : Tab.sorted (m.filter p) = true := by
  induction m with
  | nil => rfl
  | cons f m ih =>
    obtain ⟨k', w⟩ := f
    obtain ⟨ha, hs⟩ := (Tab.sorted_cons k' w m).1 h
    rw [List.filter_cons]
    split
    · exact (Tab.sorted_cons _ _ _).2 ⟨fun x hx => ha x (List.mem_filter.1 hx).1, ih hs⟩
    · exact ih hs

end Sys2Proof.Machine
end

