-- ==== Sys2Proof/Laws/Memory.lean ====
section
/-! SUPPORT. The laws of memory: what a byte reads as after each operation of memory, and that each keeps the canonical
form. -/

namespace Sys2Proof.Machine

/-! ### Reads -/

theorem memRead_put_self (m : List Host.Cell) (a : Nat) (b : Byte) : memRead (Tab.put m a b) a = some b := by simp [memRead]

theorem memRead_put_ne (m : List Host.Cell) {a x : Nat} (b : Byte) (h : x ≠ a) : memRead (Tab.put m a b) x = memRead m x := by
  simp [memRead, Tab.find_put_ne m b h]

@[simp] theorem memRead_del_self (m : List Host.Cell) (a : Nat) : memRead (Tab.del m a) a = memUnlisted a := by simp [memRead]

theorem memRead_del_ne (m : List Host.Cell) {a x : Nat} (h : x ≠ a) : memRead (Tab.del m a) x = memRead m x := by
  simp [memRead, Tab.find_del_ne m h]

/-- A byte written is read back. -/
@[simp] theorem memRead_memWrite_self (m : List Host.Cell) (a : Nat) (b : Byte) : memRead (memWrite m a b) a = some b := by
  unfold memWrite
  split
  · next h => rw [memRead_del_self, h]
  · exact memRead_put_self m a b

/-- A byte written leaves every other byte as it was. -/
theorem memRead_memWrite_ne (m : List Host.Cell) {a x : Nat} (b : Byte) (h : x ≠ a) : memRead (memWrite m a b) x = memRead m x := by
  unfold memWrite
  split
  · exact memRead_del_ne m h
  · exact memRead_put_ne m b h

@[simp] theorem memRead_memErase_self (m : List Host.Cell) (a : Nat) : memRead (memErase m a) a = memUnlisted a := memRead_del_self m a

theorem memRead_memErase_ne (m : List Host.Cell) {a x : Nat} (h : x ≠ a) : memRead (memErase m a) x = memRead m x := memRead_del_ne m h

/-- A run of bytes written leaves every byte outside it as it was. -/
theorem memRead_memWriteBytes_ne (m : List Host.Cell) (a x : Nat) (bs : List Byte) (h : x < a ∨ a + bs.length ≤ x) :
    memRead (memWriteBytes m a bs) x = memRead m x := by
  induction bs generalizing m a with
  | nil => rfl
  | cons b bs ih =>
    simp only [List.length_cons] at h
    rw [memWriteBytes, ih _ _ (by omega), memRead_memWrite_ne _ _ (by omega)]

/-- A run of bytes written is read back byte by byte. -/
theorem memRead_memWriteBytes (m : List Host.Cell) (a i : Nat) (bs : List Byte) (h : i < bs.length) :
    memRead (memWriteBytes m a bs) (a + i) = some bs[i] := by
  induction bs generalizing m a i with
  | nil => simp at h
  | cons b bs ih =>
    rw [memWriteBytes]
    cases i with
    | zero => rw [memRead_memWriteBytes_ne _ _ _ _ (by omega)]; simp
    | succ i =>
      have := ih (memWrite m a b) (a + 1) i (by simpa using h)
      rw [show a + (i + 1) = a + 1 + i by omega, this]; simp

theorem find_filter (m : List Host.Cell) (p : Host.Cell → Bool) (x : Nat) (h : ∀ b, p (x, b) = true) :
    Tab.find (m.filter p) x = Tab.find m x := by
  induction m with
  | nil => rfl
  | cons e m ih =>
    obtain ⟨k, w⟩ := e
    by_cases hk : x = k
    · subst hk; simp [h w, Tab.find]
    · rw [List.filter_cons]
      split <;> simp [Tab.find, hk, ih]

theorem find_filter_none (m : List Host.Cell) (p : Host.Cell → Bool) (x : Nat) (h : ∀ b, p (x, b) = false) :
    Tab.find (m.filter p) x = none := by
  induction m with
  | nil => rfl
  | cons e m ih =>
    obtain ⟨k, w⟩ := e
    by_cases hk : x = k
    · subst hk; rw [List.filter_cons, h w]; exact ih
    · rw [List.filter_cons]
      split <;> simp [Tab.find, hk, ih]

/-- A range erased leaves every byte outside it as it was. -/
theorem memRead_memEraseRange_ne (m : List Host.Cell) (a n x : Nat) (h : x < a ∨ a + n ≤ x) :
    memRead (memEraseRange m a n) x = memRead m x := by
  unfold memRead memEraseRange
  rw [find_filter m _ x (by intro b; simp only [Bool.not_eq_true', Bool.and_eq_false_iff, decide_eq_false_iff_not]; omega)]

/-- A range erased reads as unlisted bytes do. -/
theorem memRead_memEraseRange (m : List Host.Cell) (a n x : Nat) (h1 : a ≤ x) (h2 : x < a + n) :
    memRead (memEraseRange m a n) x = memUnlisted x := by
  unfold memRead memEraseRange
  rw [find_filter_none m _ x (by intro b; simp [h1, h2])]

/-! ### The canonical form -/

theorem Memory.wf_iff (m : List Host.Cell) : Memory.wf m = true ↔ Tab.sorted m = true ∧ ∀ e ∈ m, memUnlisted e.1 ≠ some e.2 := by
  simp [Memory.wf]

@[simp] theorem Memory.wf_nil : Memory.wf [] = true := rfl

theorem Memory.wf_del {m : List Host.Cell} (a : Nat) (h : Memory.wf m = true) : Memory.wf (Tab.del m a) = true := by
  rw [Memory.wf_iff] at *
  exact ⟨Tab.sorted_del a h.1, fun e he => h.2 e (Tab.mem_del he)⟩

theorem Memory.wf_filter {m : List Host.Cell} (p : Host.Cell → Bool) (h : Memory.wf m = true) : Memory.wf (m.filter p) = true := by
  rw [Memory.wf_iff] at *
  exact ⟨Tab.sorted_filter p h.1, fun e he => h.2 e (List.mem_filter.1 he).1⟩

/-- A write of a byte keeps the canonical form. -/
theorem Memory.wf_memWrite {m : List Host.Cell} (a : Nat) (b : Byte) (h : Memory.wf m = true) : Memory.wf (memWrite m a b) = true := by
  unfold memWrite
  split
  · exact Memory.wf_del a h
  · next hb =>
    rw [Memory.wf_iff] at *
    refine ⟨Tab.sorted_put a b h.1, fun e he => ?_⟩
    rcases Tab.mem_put he with rfl | he
    · exact hb
    · exact h.2 e he

theorem Memory.wf_memErase {m : List Host.Cell} (a : Nat) (h : Memory.wf m = true) : Memory.wf (memErase m a) = true := Memory.wf_del a h

/-- A write of a run of bytes keeps the canonical form. -/
theorem Memory.wf_memWriteBytes {m : List Host.Cell} (a : Nat) (bs : List Byte) (h : Memory.wf m = true) :
    Memory.wf (memWriteBytes m a bs) = true := by
  induction bs generalizing m a with
  | nil => exact h
  | cons b bs ih => exact ih _ (Memory.wf_memWrite a b h)

/-- An erasure of a range keeps the canonical form. -/
theorem Memory.wf_memEraseRange {m : List Host.Cell} (a n : Nat) (h : Memory.wf m = true) : Memory.wf (memEraseRange m a n) = true :=
  Memory.wf_filter _ h

/-- A fold of steps that keep the canonical form keeps it. -/
theorem Memory.wf_foldl {α : Type} (f : List Host.Cell → α → List Host.Cell) (hf : ∀ m x, Memory.wf m = true → Memory.wf (f m x) = true)
    (xs : List α) {m : List Host.Cell} (h : Memory.wf m = true) : Memory.wf (xs.foldl f m) = true := by
  induction xs generalizing m with
  | nil => exact h
  | cons x xs ih => exact ih (hf m x h)

/-- The move of rows to another interleave keeps the canonical form. -/
theorem Memory.wf_rekeyMem (m : List Host.Cell) (f : Nat → Option Nat) : Memory.wf (rekeyMem m f) = true := by
  unfold rekeyMem
  refine Memory.wf_foldl _ (fun t e ht => ?_) m rfl
  split
  · exact Memory.wf_memWrite _ _ ht
  · exact ht

/-! ### Writes into wells (R510) -/

/-- A write into a well keeps the canonical form. -/
theorem State.wf_wellWrite {s : State} (d : Dpa) (bs : List Byte) (h : Memory.wf s.mem = true) : Memory.wf (s.wellWrite d bs).mem = true := by
  unfold State.wellWrite
  refine Memory.wf_foldl _ (fun m p hm => ?_) _ h
  dsimp only
  split
  · exact Memory.wf_memWrite _ _ hm
  · exact hm

/-- A write into a well changes nothing but memory. -/
theorem State.wellWrite_eq (s : State) (d : Dpa) (bs : List Byte) : s.wellWrite d bs = { s with mem := (s.wellWrite d bs).mem } := rfl

/-- A write into a well leaves every byte outside its range as it was. -/
theorem State.memRead_wellWrite_ne (s : State) (d x : Nat) (bs : List Byte) (h : x < d ∨ d + bs.length ≤ x) :
    memRead (s.wellWrite d bs).mem x = memRead s.mem x := by
  have key : ∀ (l : List (Nat × Byte)) (m : List Host.Cell), (∀ p ∈ l, p.1 < bs.length) →
      memRead (l.foldl (fun m p =>
        let a := d + p.1
        let w := a / 8 * 8
        if (decide (d ≤ w) && decide (w + 8 ≤ d + bs.length)) || wellWordOk s.mem a then memWrite m a p.2 else m) m) x = memRead m x := by
    intro l
    induction l with
    | nil => intro m _; rfl
    | cons p l ih =>
      intro m hl
      rw [List.foldl_cons, ih _ (fun q hq => hl q (List.mem_cons_of_mem _ hq))]
      have := hl p List.mem_cons_self
      dsimp only
      split
      · exact memRead_memWrite_ne m p.2 (by omega)
      · rfl
  exact key _ _ (fun p hp => List.mem_range.1 (List.of_mem_zip (a := p.1) (b := p.2) hp).1)

end Sys2Proof.Machine
end

