-- ==== Sys2Proof/Laws/Goes.lean ====
section
/-! SUPPORT. What every operation does to a state, said once (State.Goes): the queue of waiting commands stays, what has been sent
stays sent, and the tables stay in order. Here are the rules by which it is shown; the other Goes files have one lemma for each
shared operation. -/

namespace Sys2Proof.Machine

/-- A state goes on to another: its waiting commands stay, messages are only added, and memory and the register table keep their
form. -/
def State.Goes (s t : State) : Prop := t.pending = s.pending ∧ (∃ ms, t.sent = s.sent ++ ms) ∧ (s.Tidy → t.Tidy)

theorem Goes.refl (s : State) : s.Goes s := ⟨rfl, ⟨[], by simp⟩, id⟩

theorem Goes.trans {s t u : State} (h : s.Goes t) (k : t.Goes u) : s.Goes u := by
  obtain ⟨h1, ⟨m1, h2⟩, h3⟩ := h
  obtain ⟨k1, ⟨m2, k2⟩, k3⟩ := k
  exact ⟨k1.trans h1, ⟨m1 ++ m2, by rw [k2, h2, List.append_assoc]⟩, fun x => k3 (h3 x)⟩

/-- The last operation first. -/
theorem Goes.snoc {s t u : State} (k : t.Goes u) (h : s.Goes t) : s.Goes u := Goes.trans h k

/-- What is shown of a state named on the way may be used. -/
theorem Goes.cut {s t u : State} (h : s.Goes t) (k : s.Goes t → s.Goes u) : s.Goes u := k h

theorem Goes.cutP {s t : State} {P : Prop} (h : s.Goes t) (k : s.Goes t → P) : P := k h

theorem Goes.ite {s a b : State} {c : Prop} [Decidable c] (h : s.Goes a) (k : s.Goes b) : s.Goes (if c then a else b) := by
  split <;> assumption

theorem State.wr_goes {s : State} {f : RegField} {i : Nat} {v : Val} : s.Goes (s.wr f i v) :=
  ⟨rfl, ⟨[], by simp [State.wr]⟩, fun h => ⟨h.1, Tab.sorted_set _ _ _ h.2⟩⟩

theorem State.send_goes {s : State} {m : Msg} : s.Goes (s.send m) := ⟨rfl, ⟨[m], rfl⟩, id⟩

/-- An operation on memory alone. -/
theorem Goes.of_mem {s t : State} (hp : t.pending = s.pending) (hs : t.sent = s.sent) (hr : t.regs = s.regs)
    (hm : Memory.wf s.mem = true → Memory.wf t.mem = true) : s.Goes t :=
  ⟨hp, ⟨[], by simp [hs]⟩, fun h => ⟨hm h.1, by rw [hr]; exact h.2⟩⟩

/-! ### Loops -/

theorem Goes.each {α : Type} {s t : State} (h : s.Goes t) (xs : List α) (f : α → State → State)
    (hf : ∀ x u, State.Goes u (f x u)) : s.Goes (t.each xs f) := by
  unfold State.each
  induction xs generalizing t with
  | nil => exact h
  | cons x xs ih => exact ih (Goes.trans h (hf x t))

theorem Goes.when {s t : State} (h : s.Goes t) (b : Bool) (f : State → State) (hf : ∀ u, State.Goes u (f u)) :
    s.Goes (t.when b f) := by
  unfold State.when; split
  · exact Goes.trans h (hf t)
  · exact h

theorem Goes.foldl {α : Type} {s t : State} (h : s.Goes t) (xs : List α) (f : State → α → State)
    (hf : ∀ x u, State.Goes u (f u x)) : s.Goes (xs.foldl f t) := by
  induction xs generalizing t with
  | nil => exact h
  | cons x xs ih => exact ih (Goes.trans h (hf x t))

theorem Goes.foldlFst {α β : Type} {s : State} {a : State × β} (h : s.Goes a.1) (xs : List α) (f : State × β → α → State × β)
    (hf : ∀ x a, State.Goes a.1 (f a x).1) : s.Goes (xs.foldl f a).1 := by
  induction xs generalizing a with
  | nil => exact h
  | cons x xs ih => exact ih (Goes.trans h (hf x a))

theorem Goes.foldlSnd {α β : Type} {s : State} {a : β × State} (h : s.Goes a.2) (xs : List α) (f : β × State → α → β × State)
    (hf : ∀ x a, State.Goes a.2 (f a x).2) : s.Goes (xs.foldl f a).2 := by
  induction xs generalizing a with
  | nil => exact h
  | cons x xs ih => exact ih (Goes.trans h (hf x a))

/-- A loop that ends with none as soon as a turn does. -/
theorem Goes.foldlOpt {α τ : Type} (st : τ → State) {f : Option τ → α → Option τ}
    (hf : ∀ x a a', f (some a) x = some a' → (st a).Goes (st a')) (hn : ∀ x, f none x = none) {xs : List α} {a a' : τ}
    (h : xs.foldl f (some a) = some a') : (st a).Goes (st a') := by
  have stuck : ∀ ys : List α, ys.foldl f none = none := by
    intro ys; induction ys with
    | nil => rfl
    | cons y ys ih => rw [List.foldl_cons, hn]; exact ih
  induction xs generalizing a with
  | nil => cases h; exact Goes.refl _
  | cons x xs ih =>
    rw [List.foldl_cons] at h
    match e : f (some a) x with
    | none => rw [e, stuck] at h; cases h
    | some c => rw [e] at h; exact Goes.trans (hf _ _ _ e) (ih h)

/-! ### The states in answers -/

/-- The state of an access. -/
def Acc.state : Acc → State
  | .done _ _ t => t
  | .wait t => t

/-- The state of a look at a queue's head. -/
def Head?.state : Head? → State
  | .idle t => t
  | .failed t => t
  | .cmd _ t => t

/-- The state of a preparation. -/
def Prep.state : Prep → State
  | .wait t => t
  | .ready t => t
  | .fail _ t => t

/-- The state of a stroke of a user program, where it has one. -/
def UnitStep.Goes (s : State) : UnitStep → Prop
  | .wait => True
  | .lost t => s.Goes t
  | .fault _ t => s.Goes t
  | .done _ _ t => s.Goes t

theorem Goes.foldlAcc {α : Type} {s : State} {a : Acc} (h : s.Goes a.state) (xs : List α) (f : Acc → α → Acc)
    (hf : ∀ x a, State.Goes a.state (f a x).state) : s.Goes (xs.foldl f a).state := by
  induction xs generalizing a with
  | nil => exact h
  | cons x xs ih => exact ih (Goes.trans h (hf x a))

theorem Goes.foldlAcc_from {α : Type} {s : State} {a : Acc} (h : s.Goes a.state) (xs : List α) (f : Acc → α → Acc)
    (hf : ∀ x a, s.Goes (Acc.state a) → s.Goes (f a x).state) : s.Goes (xs.foldl f a).state := by
  induction xs generalizing a with
  | nil => exact h
  | cons x xs ih => exact ih (hf x a h)

/-! ### Updates of a state's fields -/

/-- Any fields but memory, registers, messages and the queue. -/
theorem Goes.record {s X : State} (h : s.Goes X) (ports isl pnl str seq glz gso rows rings fin coats dma links colls early
    power therm sec host jnl boot always sbd free) : s.Goes
    ⟨X.regs, X.mem, ports, isl, pnl, str, seq, glz, gso, rows, rings, fin, coats, dma, links, colls, early,
      power, therm, sec, host, jnl, boot, always, sbd, X.sent, free, X.pending⟩ :=
  Goes.trans h ⟨rfl, ⟨[], by simp⟩, fun x => ⟨x.1, x.2⟩⟩

/-- With a range of memory forgotten. -/
theorem Goes.recErase {s X : State} (h : s.Goes X) (d k : Nat) (ports isl pnl str seq glz gso rows rings fin coats dma links colls early
    power therm sec host jnl boot always sbd free) : s.Goes
    ⟨X.regs, memEraseRange X.mem d k, ports, isl, pnl, str, seq, glz, gso, rows, rings, fin, coats, dma, links, colls, early,
      power, therm, sec, host, jnl, boot, always, sbd, X.sent, free, X.pending⟩ :=
  Goes.trans h ⟨rfl, ⟨[], by simp⟩, fun x => ⟨Memory.wf_memEraseRange _ _ x.1, x.2⟩⟩

/-- With bytes written. -/
theorem Goes.recWriteBytes {s X : State} (h : s.Goes X) (d : Nat) (bs : List Byte) (ports isl pnl str seq glz gso rows rings fin coats dma links colls early
    power therm sec host jnl boot always sbd free) : s.Goes
    ⟨X.regs, memWriteBytes X.mem d bs, ports, isl, pnl, str, seq, glz, gso, rows, rings, fin, coats, dma, links, colls, early,
      power, therm, sec, host, jnl, boot, always, sbd, X.sent, free, X.pending⟩ :=
  Goes.trans h ⟨rfl, ⟨[], by simp⟩, fun x => ⟨Memory.wf_memWriteBytes _ _ x.1, x.2⟩⟩

/-- With memory at other addresses. -/
theorem Goes.recRekey {s X : State} (h : s.Goes X) (f : Nat → Option Nat) (ports isl pnl str seq glz gso rows rings fin coats dma links colls early
    power therm sec host jnl boot always sbd free) : s.Goes
    ⟨X.regs, rekeyMem X.mem f, ports, isl, pnl, str, seq, glz, gso, rows, rings, fin, coats, dma, links, colls, early,
      power, therm, sec, host, jnl, boot, always, sbd, X.sent, free, X.pending⟩ :=
  Goes.trans h ⟨rfl, ⟨[], by simp⟩, fun x => ⟨Memory.wf_rekeyMem _ _, x.2⟩⟩

/-- With part of memory forgotten. -/
theorem Goes.recFilter {s X : State} (h : s.Goes X) (p : Host.Cell → Bool) (ports isl pnl str seq glz gso rows rings fin coats dma links colls early
    power therm sec host jnl boot always sbd free) : s.Goes
    ⟨X.regs, X.mem.filter p, ports, isl, pnl, str, seq, glz, gso, rows, rings, fin, coats, dma, links, colls, early,
      power, therm, sec, host, jnl, boot, always, sbd, X.sent, free, X.pending⟩ :=
  Goes.trans h ⟨rfl, ⟨[], by simp⟩, fun x => ⟨Memory.wf_filter p x.1, x.2⟩⟩

/-- With register fields back at their reset values. -/
theorem Goes.recRegs {s X : State} (h : s.Goes X) (p : Nat × Val → Bool) (ports isl pnl str seq glz gso rows rings fin coats dma links colls early
    power therm sec host jnl boot always sbd free) : s.Goes
    ⟨X.regs.filter p, X.mem, ports, isl, pnl, str, seq, glz, gso, rows, rings, fin, coats, dma, links, colls, early,
      power, therm, sec, host, jnl, boot, always, sbd, X.sent, free, X.pending⟩ :=
  Goes.trans h ⟨rfl, ⟨[], by simp⟩, fun x => ⟨x.1, Tab.sorted_filter p x.2⟩⟩

end Sys2Proof.Machine
end

