-- ==== Sys2Proof/Laws/GoesMemory.lean ====
section
/-! SUPPORT. What the shared operations do to a state (State.Goes): the registers, queues, memory, glaze and gesso.
Each lemma covers every state, and an operation that answers a state beside a result or not at all has its lemma for every answer. -/

namespace Sys2Proof.Machine

/-! ### Machine/Ops.lean -/

theorem State.wrN_goes {s : State} {f : RegField} {i n : Nat} : s.Goes (State.wrN s f i n) := by
  unfold State.wrN
  with_reducible repeat' first
    | exact Goes.refl _ | assumption | fail_if_no_progress extract_lets +onlyGivenNames x | apply Goes.snoc State.wr_goes

theorem State.set1_goes {s : State} {f : RegField} {i : Nat} : s.Goes (State.set1 s f i) := by
  unfold State.set1
  with_reducible repeat' first
    | exact Goes.refl _ | assumption | fail_if_no_progress extract_lets +onlyGivenNames x | apply Goes.snoc State.wr_goes

theorem State.clr_goes {s : State} {f : RegField} {i : Nat} : s.Goes (State.clr s f i) := by
  unfold State.clr
  with_reducible repeat' first
    | exact Goes.refl _ | assumption | fail_if_no_progress extract_lets +onlyGivenNames x | apply Goes.snoc State.wr_goes

theorem State.flag_goes {s : State} {f : RegField} {i : Nat} {b : Bool} : s.Goes (State.flag s f i b) := by
  unfold State.flag
  with_reducible repeat' first
    | exact Goes.refl _ | assumption | fail_if_no_progress extract_lets +onlyGivenNames x | apply Goes.snoc State.wr_goes

theorem State.bump_goes {s : State} {f : RegField} {i n : Nat} : s.Goes (State.bump s f i n) := by
  unfold State.bump
  with_reducible repeat' first
    | exact Goes.refl _ | assumption | fail_if_no_progress extract_lets +onlyGivenNames x | apply Goes.snoc State.wr_goes

theorem State.draw_goes {s : State} : s.Goes (State.draw s).2 := by
  unfold State.draw
  with_reducible repeat' first
    | exact Goes.refl _ | assumption | fail_if_no_progress extract_lets +onlyGivenNames x | apply Goes.ite | split
    | dsimp -zeta only [Acc.state, Head?.state, Prep.state] | fail_if_no_progress apply Goes.record
theorem State.draw_goes_eq {s : State} {rb0 : Val} {rt : State} (hF : State.draw s = (rb0, rt)) : s.Goes rt := by
  unfold State.draw at hF
  revert hF
  with_reducible repeat' first
    | (rintro ⟨⟩) | exact Goes.refl _ | assumption | fail_if_no_progress extract_lets +onlyGivenNames x | apply Goes.ite | split
    | dsimp -zeta only [Acc.state, Head?.state, Prep.state] | fail_if_no_progress apply Goes.record

theorem State.setIsland_goes {s : State} {i st : Nat} : s.Goes (State.setIsland s i st) := by
  unfold State.setIsland
  with_reducible repeat' first
    | exact Goes.refl _ | assumption | fail_if_no_progress extract_lets +onlyGivenNames x | apply Goes.snoc State.wrN_goes
    | apply Goes.ite

theorem State.wellWrite_goes {s : State} {d : Dpa} {bs : List Byte} : s.Goes (s.wellWrite d bs) :=
  Goes.of_mem rfl rfl rfl (State.wf_wellWrite d bs)

theorem State.journal_goes {s : State} {ty source : Nat} {payload : List Byte}
    : s.Goes (State.journal s ty source payload) := by
  unfold State.journal
  with_reducible repeat' first
    | exact Goes.refl _ | assumption | fail_if_no_progress extract_lets +onlyGivenNames x | apply Goes.snoc State.bump_goes
    | apply Goes.snoc State.set1_goes | apply Goes.ite | split | dsimp -zeta only [Acc.state, Head?.state, Prep.state]
    | fail_if_no_progress apply Goes.record

theorem State.errorSummary_goes {s : State} {source : Nat} {code : Code} {cause dpa : Nat}
    : s.Goes (State.errorSummary s source code cause dpa) := by
  unfold State.errorSummary
  with_reducible repeat' first
    | exact Goes.refl _ | assumption | fail_if_no_progress extract_lets +onlyGivenNames x | apply Goes.snoc State.journal_goes
    | apply Goes.ite | split | dsimp -zeta only [Acc.state, Head?.state, Prep.state] | fail_if_no_progress apply Goes.record

theorem State.eccLog_goes {s : State} {c : Nat} {e : LogEntry} : s.Goes (State.eccLog s c e) := by
  unfold State.eccLog
  with_reducible repeat' first
    | exact Goes.refl _ | assumption
    | ((fail_if_no_progress extract_lets +onlyGivenNames x);
        refine Goes.cut (t := x) ?_ fun hx => ?_; (on_goal 1 => dsimp -zeta only [x]; clear x); on_goal 2 => clear_value x)
    | fail_if_no_progress extract_lets +onlyGivenNames x | apply Goes.snoc State.errorSummary_goes
    | apply Goes.snoc State.bump_goes | apply Goes.snoc State.set1_goes | apply Goes.snoc State.wrN_goes
    | apply Goes.snoc State.wr_goes | (apply Goes.when; on_goal 2 => intro u) | apply Goes.ite | split

theorem State.setBox_goes {s : State} {m : Nat} {b : Mailbox} : s.Goes (State.setBox s m b) := by
  unfold State.setBox
  with_reducible repeat' first
    | exact Goes.refl _ | assumption | fail_if_no_progress extract_lets +onlyGivenNames x | apply Goes.snoc State.wrN_goes
    | apply Goes.ite | split | dsimp -zeta only [Acc.state, Head?.state, Prep.state] | fail_if_no_progress apply Goes.record

theorem State.mailDiscard_goes {s : State} {m : Nat} {q : Option Nat} : s.Goes (State.mailDiscard s m q) := by
  unfold State.mailDiscard
  with_reducible repeat' first
    | exact Goes.refl _ | assumption
    | ((fail_if_no_progress extract_lets +onlyGivenNames x);
        refine Goes.cut (t := x) ?_ fun hx => ?_; (on_goal 1 => dsimp -zeta only [x]; clear x); on_goal 2 => clear_value x)
    | fail_if_no_progress extract_lets +onlyGivenNames x | apply Goes.snoc State.bump_goes | apply Goes.snoc State.clr_goes
    | apply Goes.snoc State.set1_goes | apply Goes.ite | split

theorem State.mailArrive_goes {s : State} {m : Nat} {w : Word32} {q : Option Nat} : s.Goes (State.mailArrive s m w q) := by
  unfold State.mailArrive
  with_reducible repeat' first
    | exact Goes.refl _ | assumption | fail_if_no_progress extract_lets +onlyGivenNames x
    | apply Goes.snoc State.mailDiscard_goes | apply Goes.snoc State.setBox_goes | apply Goes.ite

theorem State.post_goes {s : State} {m : Nat} {w : Word32} {q : Option Nat} : s.Goes (State.post s m w q) := by
  unfold State.post
  with_reducible repeat' first
    | exact Goes.refl _ | assumption
    | ((fail_if_no_progress extract_lets +onlyGivenNames x);
        refine Goes.cut (t := x) ?_ fun hx => ?_; (on_goal 1 => dsimp -zeta only [x]; clear x); on_goal 2 => clear_value x)
    | fail_if_no_progress extract_lets +onlyGivenNames x | apply Goes.snoc State.mailArrive_goes
    | apply Goes.snoc State.bump_goes | apply Goes.snoc State.clr_goes | apply Goes.ite | split
    | dsimp -zeta only [Acc.state, Head?.state, Prep.state] | fail_if_no_progress apply Goes.record

theorem State.mailTake_goes {s : State} {m : Nat} {rb0 : Word32} {rt : State} (hF : State.mailTake s m = some (rb0, rt))
    : s.Goes rt := by
  unfold State.mailTake at hF
  revert hF
  with_reducible repeat' first
    | (rintro ⟨⟩) | exact Goes.refl _ | assumption | fail_if_no_progress extract_lets +onlyGivenNames x
    | apply Goes.snoc State.setBox_goes | apply Goes.snoc State.clr_goes | apply Goes.ite | split

theorem State.setWo_goes {s : State} {f : RegField} {i : Nat} {q : List Val} : s.Goes (State.setWo s f i q) := by
  unfold State.setWo
  with_reducible repeat' first
    | exact Goes.refl _ | assumption
    | ((fail_if_no_progress extract_lets +onlyGivenNames x);
        refine Goes.cut (t := x) ?_ fun hx => ?_; (on_goal 1 => dsimp -zeta only [x]; clear x); on_goal 2 => clear_value x)
    | fail_if_no_progress extract_lets +onlyGivenNames x | apply Goes.snoc State.wrN_goes | apply Goes.ite | split
    | dsimp -zeta only [Acc.state, Head?.state, Prep.state] | fail_if_no_progress apply Goes.record

theorem State.woTake_goes {s : State} {f : RegField} {i : Nat} {v : Val} {rt : State} (hF : State.woTake s f i v = some rt)
    : s.Goes rt := by
  unfold State.woTake at hF
  revert hF
  with_reducible repeat' first
    | (rintro ⟨⟩) | exact Goes.refl _ | assumption | fail_if_no_progress extract_lets +onlyGivenNames x
    | apply Goes.snoc State.setWo_goes | apply Goes.ite | split

theorem State.woPush_goes {s : State} {f : RegField} {i : Nat} {v : Val} : s.Goes (State.woPush s f i v) := by
  unfold State.woPush
  with_reducible repeat' first
    | exact Goes.refl _ | assumption | fail_if_no_progress extract_lets +onlyGivenNames x | apply Goes.snoc State.setWo_goes
    | apply Goes.ite | split | dsimp -zeta only [Acc.state, Head?.state, Prep.state] | fail_if_no_progress apply Goes.record

theorem State.woRun_goes {s : State} {f : RegField} {i : Nat} {v : Val} {busy : Bool} {go : State → State}
    (hgo : ∀ (a0 : State), State.Goes a0 (go a0)) : s.Goes (State.woRun s f i v busy go) := by
  unfold State.woRun
  with_reducible repeat' first
    | exact Goes.refl _ | assumption | fail_if_no_progress extract_lets +onlyGivenNames x | apply Goes.snoc State.woPush_goes
    | (apply Goes.snoc (State.woTake_goes (hF := by assumption))) | apply Goes.snoc (hgo _) | apply Goes.ite | split

/-! ### Machine/Queues.lean -/

theorem State.setRing_goes {s : State} {q : QId} {r : Ring} : s.Goes (State.setRing s q r) := by
  unfold State.setRing
  with_reducible repeat' first
    | exact Goes.refl _ | assumption | fail_if_no_progress extract_lets +onlyGivenNames x | apply Goes.ite | split
    | dsimp -zeta only [Acc.state, Head?.state, Prep.state] | fail_if_no_progress apply Goes.record

theorem State.qSummary_goes {s : State} {q : QId} : s.Goes (State.qSummary s q) := by
  unfold State.qSummary
  with_reducible repeat' first
    | exact Goes.refl _ | assumption | fail_if_no_progress extract_lets +onlyGivenNames x | apply Goes.snoc State.flag_goes
    | apply Goes.ite | split

theorem State.qRefresh_goes {s : State} {q : QId} : s.Goes (State.qRefresh s q) := by
  unfold State.qRefresh
  with_reducible repeat' first
    | exact Goes.refl _ | assumption | fail_if_no_progress extract_lets +onlyGivenNames x | apply Goes.snoc State.wrN_goes
    | apply Goes.ite

theorem State.qBusy_goes {s : State} {q : QId} {b : Bool} : s.Goes (State.qBusy s q b) := by
  unfold State.qBusy
  with_reducible repeat' first
    | exact Goes.refl _ | assumption | fail_if_no_progress extract_lets +onlyGivenNames x | apply Goes.snoc State.qRefresh_goes
    | apply Goes.snoc State.setRing_goes

theorem State.qHalt_goes {s : State} {q : QId} {code : Code} : s.Goes (State.qHalt s q code) := by
  unfold State.qHalt
  with_reducible repeat' first
    | exact Goes.refl _ | assumption | fail_if_no_progress extract_lets +onlyGivenNames x | apply Goes.snoc State.qSummary_goes
    | apply Goes.snoc State.set1_goes | apply Goes.snoc State.wrN_goes | apply Goes.snoc State.wr_goes

theorem State.qOverrun_goes {s : State} {q : QId} : s.Goes (State.qOverrun s q) := by
  unfold State.qOverrun
  with_reducible repeat' first
    | exact Goes.refl _ | assumption | fail_if_no_progress extract_lets +onlyGivenNames x | apply Goes.snoc State.qHalt_goes
    | apply Goes.snoc State.setRing_goes

theorem State.qSetTail_goes {s : State} {q : QId} {t : Val} : s.Goes (State.qSetTail s q t) := by
  unfold State.qSetTail
  with_reducible repeat' first
    | exact Goes.refl _ | assumption
    | ((fail_if_no_progress extract_lets +onlyGivenNames x);
        refine Goes.cut (t := x) ?_ fun hx => ?_; (on_goal 1 => dsimp -zeta only [x]; clear x); on_goal 2 => clear_value x)
    | fail_if_no_progress extract_lets +onlyGivenNames x | apply Goes.snoc State.qOverrun_goes
    | apply Goes.snoc State.qRefresh_goes | apply Goes.snoc State.wr_goes | apply Goes.ite

theorem State.qAdvance_goes {n : Nat} {s : State} {q : QId} : s.Goes (State.qAdvance n s q) := by
  induction n generalizing s with
  | zero => exact Goes.refl s
  | succ n ih =>
    unfold State.qAdvance
    dsimp only
    split
    · exact Goes.trans (Goes.trans State.setRing_goes State.wrN_goes) ih
    · exact Goes.refl s

theorem State.qDone_goes {s : State} {q : QId} {seq : Nat} : s.Goes (State.qDone s q seq) := by
  unfold State.qDone
  with_reducible repeat' first
    | exact Goes.refl _ | assumption
    | ((fail_if_no_progress extract_lets +onlyGivenNames x);
        refine Goes.cut (t := x) ?_ fun hx => ?_; (on_goal 1 => dsimp -zeta only [x]; clear x); on_goal 2 => clear_value x)
    | fail_if_no_progress extract_lets +onlyGivenNames x | apply Goes.snoc State.qAdvance_goes
    | apply Goes.snoc State.qRefresh_goes | apply Goes.snoc State.setRing_goes

theorem State.qComplete_goes {s : State} {q : QId} {seq : Nat} {notify irq : Bool} {mbx : Nat}
    : s.Goes (State.qComplete s q seq notify irq mbx) := by
  unfold State.qComplete
  with_reducible repeat' first
    | exact Goes.refl _ | assumption
    | ((fail_if_no_progress extract_lets +onlyGivenNames x);
        refine Goes.cut (t := x) ?_ fun hx => ?_; (on_goal 1 => dsimp -zeta only [x]; clear x); on_goal 2 => clear_value x)
    | fail_if_no_progress extract_lets +onlyGivenNames x | apply Goes.snoc State.qDone_goes | apply Goes.snoc State.post_goes
    | apply Goes.snoc State.set1_goes | (apply Goes.when; on_goal 2 => intro u)

theorem State.qFail_goes {s : State} {q : QId} {seq : Nat} {code : Code} {notify : Bool} {mbx : Nat}
    : s.Goes (State.qFail s q seq code notify mbx) := by
  unfold State.qFail
  with_reducible repeat' first
    | exact Goes.refl _ | assumption
    | ((fail_if_no_progress extract_lets +onlyGivenNames x);
        refine Goes.cut (t := x) ?_ fun hx => ?_; (on_goal 1 => dsimp -zeta only [x]; clear x); on_goal 2 => clear_value x)
    | fail_if_no_progress extract_lets +onlyGivenNames x | apply Goes.snoc State.qHalt_goes | apply Goes.snoc State.setRing_goes
    | apply Goes.snoc State.post_goes | apply Goes.snoc State.wrN_goes | apply Goes.snoc State.wr_goes
    | (apply Goes.when; on_goal 2 => intro u) | apply Goes.ite | split

theorem State.qTake_goes {s : State} {q : QId} : s.Goes (State.qTake s q) := by
  unfold State.qTake
  with_reducible repeat' first
    | exact Goes.refl _ | assumption | fail_if_no_progress extract_lets +onlyGivenNames x | apply Goes.snoc State.setRing_goes

theorem State.qResume_goes {s : State} {q : QId} : s.Goes (State.qResume s q) := by
  unfold State.qResume
  with_reducible repeat' first
    | exact Goes.refl _ | assumption
    | ((fail_if_no_progress extract_lets +onlyGivenNames x);
        refine Goes.cut (t := x) ?_ fun hx => ?_; (on_goal 1 => dsimp -zeta only [x]; clear x); on_goal 2 => clear_value x)
    | fail_if_no_progress extract_lets +onlyGivenNames x | apply Goes.snoc State.qAdvance_goes
    | apply Goes.snoc State.qOverrun_goes | apply Goes.snoc State.qRefresh_goes | apply Goes.snoc State.qSummary_goes
    | apply Goes.snoc State.setRing_goes | apply Goes.snoc State.wrN_goes | apply Goes.ite

theorem State.qEnable_goes {s : State} {q : QId} {b : Bool} : s.Goes (State.qEnable s q b) := by
  unfold State.qEnable
  with_reducible repeat' first
    | exact Goes.refl _ | assumption | fail_if_no_progress extract_lets +onlyGivenNames x | apply Goes.snoc State.qRefresh_goes
    | apply Goes.snoc State.flag_goes

theorem State.qLoad_goes {s : State} {q : QId} : s.Goes (State.qLoad s q) := by
  unfold State.qLoad
  with_reducible repeat' first
    | exact Goes.refl _ | assumption | fail_if_no_progress extract_lets +onlyGivenNames x | apply Goes.snoc State.qRefresh_goes
    | apply Goes.snoc State.qSummary_goes | apply Goes.snoc State.setRing_goes | apply Goes.snoc State.clr_goes
    | apply Goes.snoc State.wrN_goes | apply Goes.snoc State.wr_goes

theorem State.denied_goes {s : State} {port : Port} {forbidden : Bool} {f : State → State}
    (hf : ∀ (a0 : State), State.Goes a0 (f a0)) : s.Goes (State.denied s port forbidden f) := by
  unfold State.denied
  with_reducible repeat' first
    | exact Goes.refl _ | assumption | fail_if_no_progress extract_lets +onlyGivenNames x | apply Goes.snoc State.set1_goes
    | apply Goes.snoc (hf _) | apply Goes.ite

theorem State.qWrite_goes {s : State} {port : Port} {q : QId} {f : State → State}
    (hf : ∀ (a0 : State), State.Goes a0 (f a0)) : s.Goes (State.qWrite s port q f) := by
  unfold State.qWrite
  with_reducible repeat' first
    | exact Goes.refl _ | assumption | fail_if_no_progress extract_lets +onlyGivenNames x
    | apply Goes.snoc (State.denied_goes ?_) | apply Goes.snoc (hf _) | apply Goes.ite

/-! ### Machine/Memory.lean -/

theorem State.onGlz_goes {s : State} {f : Glaze → Glaze} : s.Goes (State.onGlz s f) := by
  unfold State.onGlz
  with_reducible repeat' first
    | exact Goes.refl _ | assumption | fail_if_no_progress extract_lets +onlyGivenNames x | apply Goes.ite | split
    | dsimp -zeta only [Acc.state, Head?.state, Prep.state] | fail_if_no_progress apply Goes.record

theorem State.onGso_goes {s : State} {f : Gesso → Gesso} : s.Goes (State.onGso s f) := by
  unfold State.onGso
  with_reducible repeat' first
    | exact Goes.refl _ | assumption | fail_if_no_progress extract_lets +onlyGivenNames x | apply Goes.ite | split
    | dsimp -zeta only [Acc.state, Head?.state, Prep.state] | fail_if_no_progress apply Goes.record

theorem State.setLine_goes {s : State} {k : Nat} {l : Option GlazeLine} : s.Goes (State.setLine s k l) := by
  unfold State.setLine
  with_reducible repeat' first
    | exact Goes.refl _ | assumption | fail_if_no_progress extract_lets +onlyGivenNames x | apply Goes.snoc State.onGlz_goes

theorem State.tackRefresh_goes {s : State} {c : Nat} : s.Goes (State.tackRefresh s c) := by
  unfold State.tackRefresh
  with_reducible repeat' first
    | exact Goes.refl _ | assumption | fail_if_no_progress extract_lets +onlyGivenNames x | apply Goes.snoc State.wrN_goes

theorem State.setSlot_goes {s : State} {k : Nat} {f : Option FillSlot} : s.Goes (State.setSlot s k f) := by
  unfold State.setSlot
  with_reducible repeat' first
    | exact Goes.refl _ | assumption
    | ((fail_if_no_progress extract_lets +onlyGivenNames x);
        refine Goes.cut (t := x) ?_ fun hx => ?_; (on_goal 1 => dsimp -zeta only [x]; clear x); on_goal 2 => clear_value x)
    | fail_if_no_progress extract_lets +onlyGivenNames x | apply Goes.snoc State.onGlz_goes | apply Goes.snoc State.wrN_goes

theorem State.setVictim_goes {s : State} {k : Nat} {v : Option Victim} : s.Goes (State.setVictim s k v) := by
  unfold State.setVictim
  with_reducible repeat' first
    | exact Goes.refl _ | assumption
    | ((fail_if_no_progress extract_lets +onlyGivenNames x);
        refine Goes.cut (t := x) ?_ fun hx => ?_; (on_goal 1 => dsimp -zeta only [x]; clear x); on_goal 2 => clear_value x)
    | fail_if_no_progress extract_lets +onlyGivenNames x | apply Goes.snoc State.onGlz_goes | apply Goes.snoc State.flag_goes

theorem State.dropData_goes {s : State} {k : Nat} {m : BitVec 8} : s.Goes (State.dropData s k m) := by
  unfold State.dropData
  with_reducible repeat' first
    | exact Goes.refl _ | assumption | fail_if_no_progress extract_lets +onlyGivenNames x | apply Goes.snoc State.onGlz_goes

theorem State.setMeta_goes {s : State} {k : Nat} {m : RowMeta} : s.Goes (State.setMeta s k m) := by
  unfold State.setMeta
  with_reducible repeat' first
    | exact Goes.refl _ | assumption | fail_if_no_progress extract_lets +onlyGivenNames x | apply Goes.snoc State.onGso_goes

theorem State.setCw_goes {s : State} {k : Nat} {is : List Nat} {b : Bool} : s.Goes (State.setCw s k is b) := by
  unfold State.setCw
  with_reducible repeat' first
    | exact Goes.refl _ | assumption | fail_if_no_progress extract_lets +onlyGivenNames x | apply Goes.snoc State.onGso_goes

theorem State.rowUpsets_goes {s : State} {k source who : Nat} {ups : List Upset}
    : s.Goes (State.rowUpsets s k source who ups) := by
  unfold State.rowUpsets
  with_reducible repeat' first
    | exact Goes.refl _ | assumption | fail_if_no_progress extract_lets +onlyGivenNames x | apply Goes.snoc State.setCw_goes
    | apply Goes.snoc State.onGso_goes | apply Goes.snoc State.eccLog_goes | (apply Goes.each; (on_goal 2 => intro x u))
    | apply Goes.ite

theorem State.fillSectors_goes {s : State} {k : Nat} {m : BitVec 8} {source who : Nat}
    : s.Goes (State.fillSectors s k m source who) := by
  unfold State.fillSectors
  with_reducible repeat' first
    | exact Goes.refl _ | assumption
    | ((fail_if_no_progress extract_lets +onlyGivenNames x);
        refine Goes.cut (t := x) ?_ fun hx => ?_; (on_goal 1 => dsimp -zeta only [x]; clear x); on_goal 2 => clear_value x)
    | fail_if_no_progress extract_lets +onlyGivenNames x | apply Goes.snoc State.setLine_goes | apply Goes.snoc State.onGlz_goes
    | apply Goes.snoc State.eccLog_goes | (apply Goes.each; (on_goal 2 => intro x u)) | apply Goes.ite | split

theorem State.writeBack_goes {s : State} {k : Nat} {m : BitVec 8} : s.Goes (State.writeBack s k m) := by
  unfold State.writeBack
  with_reducible repeat' first
    | exact Goes.refl _ | assumption
    | ((fail_if_no_progress extract_lets +onlyGivenNames x);
        refine Goes.cut (t := x) ?_ fun hx => ?_; (on_goal 1 => dsimp -zeta only [x]; clear x); on_goal 2 => clear_value x)
    | fail_if_no_progress extract_lets +onlyGivenNames x | apply Goes.snoc State.setCw_goes | apply Goes.snoc State.setMeta_goes
    | apply Goes.snoc State.bump_goes | (apply Goes.each; (on_goal 2 => intro x u)) | apply Goes.recErase
    | apply Goes.recWriteBytes | apply Goes.recRekey | apply Goes.recFilter | apply Goes.ite

theorem State.cleanLine_goes {s : State} {k : Nat} : s.Goes (State.cleanLine s k) := by
  unfold State.cleanLine
  with_reducible repeat' first
    | exact Goes.refl _ | assumption | fail_if_no_progress extract_lets +onlyGivenNames x | apply Goes.snoc State.writeBack_goes
    | apply Goes.snoc State.setLine_goes | apply Goes.ite | split

theorem State.unusedPrefetch_goes {s : State} {k : Nat} {l : GlazeLine} : s.Goes (State.unusedPrefetch s k l) := by
  unfold State.unusedPrefetch
  with_reducible repeat' first
    | exact Goes.refl _ | assumption | fail_if_no_progress extract_lets +onlyGivenNames x | apply Goes.snoc State.bump_goes
    | (apply Goes.when; on_goal 2 => intro u)

theorem State.dropLine_goes {s : State} {k : Nat} : s.Goes (State.dropLine s k) := by
  unfold State.dropLine
  with_reducible repeat' first
    | exact Goes.refl _ | assumption | fail_if_no_progress extract_lets +onlyGivenNames x
    | apply Goes.snoc State.unusedPrefetch_goes | apply Goes.snoc State.dropData_goes | apply Goes.snoc State.tackRefresh_goes
    | apply Goes.snoc State.setLine_goes | apply Goes.ite | split

theorem State.usePrefetch_goes {s : State} {k : Nat} : s.Goes (State.usePrefetch s k) := by
  unfold State.usePrefetch
  with_reducible repeat' first
    | exact Goes.refl _ | assumption | fail_if_no_progress extract_lets +onlyGivenNames x | apply Goes.snoc State.setLine_goes
    | apply Goes.snoc State.bump_goes | apply Goes.ite | split

theorem State.logGlazeUe_goes {s : State} {d : Dpa} {who : Nat} : s.Goes (State.logGlazeUe s d who) := by
  unfold State.logGlazeUe
  with_reducible repeat' first
    | exact Goes.refl _ | assumption | fail_if_no_progress extract_lets +onlyGivenNames x | apply Goes.snoc State.eccLog_goes

theorem State.putLine_goes {s : State} {d : Dpa} {bs : List Byte} {who : Nat} : s.Goes (State.putLine s d bs who).st := by
  unfold State.putLine
  with_reducible repeat' first
    | exact Goes.refl _ | assumption
    | ((fail_if_no_progress extract_lets +onlyGivenNames x);
        refine Goes.cut (t := x) ?_ fun hx => ?_; (on_goal 1 => dsimp -zeta only [x]; clear x); on_goal 2 => clear_value x)
    | fail_if_no_progress extract_lets +onlyGivenNames x | apply Goes.snoc State.setLine_goes | apply Goes.snoc State.onGlz_goes
    | apply Goes.snoc State.eccLog_goes | apply Goes.snoc State.set1_goes | (apply Goes.when; on_goal 2 => intro u)
    | apply Goes.ite | split

theorem State.ringBells_goes {s : State} {d n : Nat} : s.Goes (State.ringBells s d n) := by
  unfold State.ringBells
  with_reducible repeat' first
    | exact Goes.refl _ | assumption | fail_if_no_progress extract_lets +onlyGivenNames x | apply Goes.snoc State.qSetTail_goes
    | (apply Goes.each; (on_goal 2 => intro x u))

theorem State.addFault_goes {s : State} {d : Dpa} {code : Code} : s.Goes (State.addFault s d code) := by
  unfold State.addFault
  with_reducible repeat' first
    | exact Goes.refl _ | assumption
    | ((fail_if_no_progress extract_lets +onlyGivenNames x);
        refine Goes.cut (t := x) ?_ fun hx => ?_; (on_goal 1 => dsimp -zeta only [x]; clear x); on_goal 2 => clear_value x)
    | fail_if_no_progress extract_lets +onlyGivenNames x | apply Goes.snoc State.set1_goes | apply Goes.snoc State.wrN_goes
    | apply Goes.snoc State.wr_goes | apply Goes.ite

theorem State.applyAct_goes {s : State} {fresh : BitVec 8} {j : MemJob} : s.Goes (State.applyAct s fresh j).st := by
  unfold State.applyAct
  with_reducible repeat' first
    | exact Goes.refl _ | assumption
    | ((fail_if_no_progress extract_lets +onlyGivenNames x);
        refine Goes.cut (t := x) ?_ fun hx => ?_; (on_goal 1 => dsimp -zeta only [x]; clear x); on_goal 2 => clear_value x)
    | ((fail_if_no_progress extract_lets +onlyGivenNames x);
        refine Goes.cut (t := (x : Ans).st) ?_ (fun hx => ?_); (on_goal 1 => (dsimp -zeta only [x]; clear x)); (on_goal 2 => clear_value x))
    | fail_if_no_progress extract_lets +onlyGivenNames x | apply Goes.snoc State.addFault_goes
    | apply Goes.snoc State.ringBells_goes | apply Goes.snoc State.putLine_goes | apply Goes.snoc State.logGlazeUe_goes
    | apply Goes.snoc State.bump_goes | apply Goes.snoc State.set1_goes | (apply Goes.each; (on_goal 2 => intro x u))
    | apply Goes.ite | split

theorem State.tack_goes {s : State} {k : Nat} : s.Goes (State.tack s k) := by
  unfold State.tack
  with_reducible repeat' first
    | exact Goes.refl _ | assumption | fail_if_no_progress extract_lets +onlyGivenNames x
    | apply Goes.snoc State.tackRefresh_goes | apply Goes.snoc State.setLine_goes | apply Goes.ite | split

theorem State.evict_goes {s : State} {k : Nat} {l : GlazeLine} : s.Goes (State.evict s k l) := by
  unfold State.evict
  with_reducible repeat' first
    | exact Goes.refl _ | assumption
    | ((fail_if_no_progress extract_lets +onlyGivenNames x);
        refine Goes.cut (t := x) ?_ fun hx => ?_; (on_goal 1 => dsimp -zeta only [x]; clear x); on_goal 2 => clear_value x)
    | fail_if_no_progress extract_lets +onlyGivenNames x | apply Goes.snoc State.unusedPrefetch_goes
    | apply Goes.snoc State.dropData_goes | apply Goes.snoc State.setVictim_goes | apply Goes.snoc State.setLine_goes
    | apply Goes.ite

theorem State.getWay_goes {s : State} {k choice : Nat} {rb0 : Nat} {rt : State}
    (hF : State.getWay s k choice = some (rb0, rt)) : s.Goes rt := by
  unfold State.getWay at hF
  revert hF
  with_reducible repeat' first
    | (rintro ⟨⟩) | exact Goes.refl _ | assumption | fail_if_no_progress extract_lets +onlyGivenNames x
    | apply Goes.snoc State.evict_goes | apply Goes.ite | split

theorem State.respond_goes {s : State} {j : MemJob} {code : Code} {data : List Byte}
    : s.Goes (State.respond s j code data) := by
  unfold State.respond
  with_reducible repeat' first
    | exact Goes.refl _ | assumption | fail_if_no_progress extract_lets +onlyGivenNames x | apply Goes.snoc State.send_goes
    | apply Goes.ite | split

theorem State.answer_goes {s : State} {j : MemJob} {a : Ans} (h : s.Goes a.st)
    : s.Goes (State.answer j a) := Goes.trans h State.respond_goes

theorem State.countRead_goes {s : State} {j : MemJob} {hit : Bool} : s.Goes (State.countRead s j hit) := by
  unfold State.countRead
  with_reducible repeat' first
    | exact Goes.refl _ | assumption
    | ((fail_if_no_progress extract_lets +onlyGivenNames x);
        refine Goes.cut (t := x) ?_ fun hx => ?_; (on_goal 1 => dsimp -zeta only [x]; clear x); on_goal 2 => clear_value x)
    | fail_if_no_progress extract_lets +onlyGivenNames x | apply Goes.snoc State.bump_goes
    | (apply Goes.when; on_goal 2 => intro u) | apply Goes.ite | split

theorem State.prefetchLine_goes {s : State} {k : Nat} {r : MemReq} : s.Goes (State.prefetchLine s k r) := by
  unfold State.prefetchLine
  with_reducible repeat' first
    | exact Goes.refl _ | assumption | fail_if_no_progress extract_lets +onlyGivenNames x
    | (apply Goes.snoc (State.getWay_goes (hF := by assumption))) | apply Goes.snoc State.setSlot_goes
    | apply Goes.snoc State.setLine_goes | apply Goes.snoc State.bump_goes | apply Goes.ite | split

theorem State.noteMiss_goes {s : State} {k : Nat} {r : MemReq} : s.Goes (State.noteMiss s k r) := by
  unfold State.noteMiss
  with_reducible repeat' first
    | exact Goes.refl _ | assumption
    | ((fail_if_no_progress extract_lets +onlyGivenNames x);
        refine Goes.cut (t := x) ?_ fun hx => ?_; (on_goal 1 => dsimp -zeta only [x]; clear x); on_goal 2 => clear_value x)
    | fail_if_no_progress extract_lets +onlyGivenNames x | apply Goes.snoc State.prefetchLine_goes
    | apply Goes.snoc State.onGlz_goes | (apply Goes.each; (on_goal 2 => intro x u)) | apply Goes.ite | split

theorem State.putOff_goes {s : State} {j : MemJob} {bank : Bool} : s.Goes (State.putOff s j bank) := by
  unfold State.putOff
  with_reducible repeat' first
    | exact Goes.refl _ | assumption | fail_if_no_progress extract_lets +onlyGivenNames x | apply Goes.snoc State.onGlz_goes
    | apply Goes.snoc State.bump_goes | (apply Goes.when; on_goal 2 => intro u)

theorem State.merge_goes {s : State} {k : Nat} {f : FillSlot} {j : MemJob} : s.Goes (State.merge s k f j) := by
  unfold State.merge
  with_reducible repeat' first
    | exact Goes.refl _ | assumption
    | ((fail_if_no_progress extract_lets +onlyGivenNames x);
        refine Goes.cut (t := x) ?_ fun hx => ?_; (on_goal 1 => dsimp -zeta only [x]; clear x); on_goal 2 => clear_value x)
    | fail_if_no_progress extract_lets +onlyGivenNames x | apply Goes.snoc State.noteMiss_goes
    | apply Goes.snoc State.countRead_goes | apply Goes.snoc State.setSlot_goes | apply Goes.snoc State.bump_goes
    | (apply Goes.when; on_goal 2 => intro u)

theorem State.overflow_goes {s : State} {k : Nat} : s.Goes (State.overflow s k) := by
  unfold State.overflow
  with_reducible repeat' first
    | exact Goes.refl _ | assumption | fail_if_no_progress extract_lets +onlyGivenNames x | apply Goes.snoc State.dropLine_goes
    | apply Goes.snoc State.cleanLine_goes | apply Goes.snoc State.bump_goes | apply Goes.snoc State.set1_goes

theorem State.arriveLine_goes_done {s : State} {k : Nat} {j : MemJob} {ra : Ans} (hF : State.arriveLine s k j = .done ra)
    : s.Goes ra.st := by
  unfold State.arriveLine at hF
  revert hF
  with_reducible repeat' first
    | (rintro ⟨⟩)
    | ((fail_if_no_progress extract_lets +onlyGivenNames x);
        refine Goes.cutP (s := s) (t := x) ?_ (fun hx => ?_); (on_goal 1 => (dsimp -zeta only [x]; clear x)); (on_goal 2 => clear_value x))
    | exact Goes.refl _ | assumption | fail_if_no_progress extract_lets +onlyGivenNames x | apply Goes.snoc State.overflow_goes
    | apply Goes.snoc State.noteMiss_goes | apply Goes.snoc State.countRead_goes
    | (apply Goes.snoc (State.getWay_goes (hF := by assumption))) | apply Goes.snoc State.tack_goes
    | apply Goes.snoc State.applyAct_goes | apply Goes.snoc State.usePrefetch_goes | apply Goes.snoc State.dropLine_goes
    | apply Goes.snoc State.unusedPrefetch_goes | apply Goes.snoc State.cleanLine_goes | apply Goes.snoc State.dropData_goes
    | apply Goes.snoc State.setSlot_goes | apply Goes.snoc State.setLine_goes | apply Goes.snoc State.bump_goes | apply Goes.ite
    | split
theorem State.arriveLine_goes_merged {s : State} {k : Nat} {j : MemJob} {rt : State}
    (hF : State.arriveLine s k j = .merged rt) : s.Goes rt := by
  unfold State.arriveLine at hF
  revert hF
  with_reducible repeat' first
    | (rintro ⟨⟩)
    | ((fail_if_no_progress extract_lets +onlyGivenNames x);
        refine Goes.cutP (s := s) (t := x) ?_ (fun hx => ?_); (on_goal 1 => (dsimp -zeta only [x]; clear x)); (on_goal 2 => clear_value x))
    | exact Goes.refl _ | assumption | fail_if_no_progress extract_lets +onlyGivenNames x | apply Goes.snoc State.overflow_goes
    | apply Goes.snoc State.noteMiss_goes | apply Goes.snoc State.countRead_goes
    | (apply Goes.snoc (State.getWay_goes (hF := by assumption))) | apply Goes.snoc State.tack_goes
    | apply Goes.snoc State.applyAct_goes | apply Goes.snoc State.usePrefetch_goes | apply Goes.snoc State.dropLine_goes
    | apply Goes.snoc State.unusedPrefetch_goes | apply Goes.snoc State.cleanLine_goes | apply Goes.snoc State.dropData_goes
    | apply Goes.snoc State.setSlot_goes | apply Goes.snoc State.setLine_goes | apply Goes.snoc State.bump_goes
    | (apply Goes.when; on_goal 2 => intro u) | apply Goes.ite | split

theorem State.hostErr_goes {s : State} {source addr : Nat} {code : Code} : s.Goes (State.hostErr s source addr code) := by
  unfold State.hostErr
  with_reducible repeat' first
    | exact Goes.refl _ | assumption | fail_if_no_progress extract_lets +onlyGivenNames x | apply Goes.snoc State.set1_goes
    | apply Goes.snoc State.wrN_goes | apply Goes.snoc State.wr_goes | apply Goes.ite

theorem State.hostRefuse_goes {s : State} {d : Dpa} {e : Code} : s.Goes (State.hostRefuse s d e) := by
  unfold State.hostRefuse
  with_reducible repeat' first
    | exact Goes.refl _ | assumption | fail_if_no_progress extract_lets +onlyGivenNames x | apply Goes.snoc State.hostErr_goes
    | apply Goes.snoc State.set1_goes | apply Goes.ite

theorem State.hostWrite_goes {s : State} {d : Dpa} {bs : List Byte} : s.Goes (State.hostWrite s d bs).2 := by
  unfold State.hostWrite
  with_reducible repeat' first
    | exact Goes.refl _ | assumption | fail_if_no_progress extract_lets +onlyGivenNames x
    | apply Goes.snoc State.hostRefuse_goes | apply Goes.snoc State.send_goes | apply Goes.ite | split
theorem State.hostWrite_goes_eq {s : State} {d : Dpa} {bs : List Byte} {rb0 : Code} {rt : State}
    (hF : State.hostWrite s d bs = (rb0, rt)) : s.Goes rt := by
  unfold State.hostWrite at hF
  revert hF
  with_reducible repeat' first
    | (rintro ⟨⟩) | exact Goes.refl _ | assumption | fail_if_no_progress extract_lets +onlyGivenNames x
    | apply Goes.snoc State.hostRefuse_goes | apply Goes.snoc State.send_goes | apply Goes.ite | split

theorem State.hostSend_goes {s : State} {src : Requester} {tag : Nat} {d : Dpa} {n : Nat}
    : s.Goes (State.hostSend s src tag d n) := by
  unfold State.hostSend
  with_reducible repeat' first
    | exact Goes.refl _ | assumption | fail_if_no_progress extract_lets +onlyGivenNames x | apply Goes.snoc State.send_goes
    | apply Goes.ite | split | dsimp -zeta only [Acc.state, Head?.state, Prep.state] | fail_if_no_progress apply Goes.record

theorem State.arrive_goes_done {s : State} {j : MemJob} {ra : Ans} (hF : State.arrive s j = .done ra) : s.Goes ra.st := by
  unfold State.arrive at hF
  revert hF
  with_reducible repeat' first
    | (rintro ⟨⟩)
    | ((fail_if_no_progress extract_lets +onlyGivenNames x);
        refine Goes.cutP (s := s) (t := x) ?_ (fun hx => ?_); (on_goal 1 => (dsimp -zeta only [x]; clear x)); (on_goal 2 => clear_value x))
    | exact Goes.refl _ | assumption | fail_if_no_progress extract_lets +onlyGivenNames x | apply Goes.snoc State.hostSend_goes
    | apply Goes.snoc State.hostWrite_goes | (apply Goes.snoc (State.hostWrite_goes_eq (hF := by assumption)))
    | apply Goes.snoc State.hostRefuse_goes | (apply Goes.snoc (State.arriveLine_goes_done (hF := by assumption)))
    | (apply Goes.snoc (State.arriveLine_goes_merged (hF := by assumption))) | apply Goes.snoc State.overflow_goes
    | apply Goes.snoc State.merge_goes | apply Goes.snoc State.tack_goes | apply Goes.snoc State.onGlz_goes
    | apply Goes.snoc State.eccLog_goes | apply Goes.snoc State.wellWrite_goes | apply Goes.snoc State.bump_goes
    | apply Goes.snoc State.set1_goes | (apply Goes.foldl; on_goal 2 => intro x u) | apply Goes.ite | split
    | dsimp -zeta only [Acc.state, Head?.state, Prep.state] | fail_if_no_progress apply Goes.record
    | (fail_if_no_progress clear_value *) | intro hF
theorem State.arrive_goes_merged {s : State} {j : MemJob} {rt : State} (hF : State.arrive s j = .merged rt) : s.Goes rt := by
  unfold State.arrive at hF
  revert hF
  with_reducible repeat' first
    | (rintro ⟨⟩)
    | ((fail_if_no_progress extract_lets +onlyGivenNames x);
        refine Goes.cutP (s := s) (t := x) ?_ (fun hx => ?_); (on_goal 1 => (dsimp -zeta only [x]; clear x)); (on_goal 2 => clear_value x))
    | exact Goes.refl _ | assumption | fail_if_no_progress extract_lets +onlyGivenNames x | apply Goes.snoc State.hostSend_goes
    | apply Goes.snoc State.hostWrite_goes | (apply Goes.snoc (State.hostWrite_goes_eq (hF := by assumption)))
    | apply Goes.snoc State.hostRefuse_goes | (apply Goes.snoc (State.arriveLine_goes_merged (hF := by assumption)))
    | apply Goes.snoc State.overflow_goes | apply Goes.snoc State.merge_goes | apply Goes.snoc State.tack_goes
    | apply Goes.snoc State.onGlz_goes | apply Goes.snoc State.eccLog_goes | apply Goes.snoc State.wellWrite_goes
    | apply Goes.snoc State.bump_goes | apply Goes.snoc State.set1_goes | (apply Goes.foldl; on_goal 2 => intro x u)
    | apply Goes.ite | split | dsimp -zeta only [Acc.state, Head?.state, Prep.state] | fail_if_no_progress apply Goes.record
    | (fail_if_no_progress clear_value *) | intro hF

theorem State.request_goes {s : State} {j : MemJob} : s.Goes (State.request s j) := by
  unfold State.request
  with_reducible repeat' first
    | exact Goes.refl _ | assumption | fail_if_no_progress extract_lets +onlyGivenNames x
    | (apply Goes.snoc (State.arrive_goes_done (hF := by assumption)))
    | (apply Goes.snoc (State.arrive_goes_merged (hF := by assumption))) | apply Goes.snoc State.putOff_goes
    | with_reducible apply State.answer_goes | apply Goes.ite | split

theorem State.deliverJobs_goes {s : State} {fresh : BitVec 8} {js : List MemJob} : s.Goes (State.deliverJobs s fresh js) := by
  unfold State.deliverJobs
  with_reducible repeat' first
    | exact Goes.refl _ | assumption | fail_if_no_progress extract_lets +onlyGivenNames x
    | with_reducible apply State.answer_goes | apply Goes.snoc State.applyAct_goes | (apply Goes.each; (on_goal 2 => intro x u))

theorem State.deliver_goes {s : State} {k : Nat} {ups : List Upset} : s.Goes (State.deliver s k ups) := by
  unfold State.deliver
  with_reducible repeat' first
    | exact Goes.refl _ | assumption
    | ((fail_if_no_progress extract_lets +onlyGivenNames x);
        refine Goes.cut (t := x) ?_ fun hx => ?_; (on_goal 1 => dsimp -zeta only [x]; clear x); on_goal 2 => clear_value x)
    | fail_if_no_progress extract_lets +onlyGivenNames x | apply Goes.snoc State.deliverJobs_goes
    | apply Goes.snoc State.overflow_goes | apply Goes.snoc State.respond_goes | apply Goes.snoc State.dropLine_goes
    | apply Goes.snoc State.cleanLine_goes | apply Goes.snoc State.fillSectors_goes | apply Goes.snoc State.rowUpsets_goes
    | apply Goes.snoc State.setSlot_goes | apply Goes.snoc State.setLine_goes | (apply Goes.each; (on_goal 2 => intro x u))
    | apply Goes.ite | split

theorem State.writeVictim_goes {s : State} {k : Nat} {v : Victim} : s.Goes (State.writeVictim s k v) := by
  unfold State.writeVictim
  with_reducible repeat' first
    | exact Goes.refl _ | assumption | fail_if_no_progress extract_lets +onlyGivenNames x | apply Goes.snoc State.writeBack_goes
    | apply Goes.snoc State.dropData_goes | apply Goes.snoc State.setVictim_goes

theorem State.accessLine_goes {s : State} {j : MemJob} {ra : Ans} (hF : State.accessLine s j = some ra) : s.Goes ra.st := by
  unfold State.accessLine at hF
  revert hF
  with_reducible repeat' first
    | (rintro ⟨⟩)
    | ((fail_if_no_progress extract_lets +onlyGivenNames x);
        refine Goes.cutP (s := s) (t := x) ?_ (fun hx => ?_); (on_goal 1 => (dsimp -zeta only [x]; clear x)); (on_goal 2 => clear_value x))
    | exact Goes.refl _ | assumption | fail_if_no_progress extract_lets +onlyGivenNames x
    | apply Goes.snoc State.writeVictim_goes | apply Goes.snoc State.deliver_goes
    | (apply Goes.snoc (State.arrive_goes_done (hF := by assumption)))
    | (apply Goes.snoc (State.arrive_goes_merged (hF := by assumption))) | apply Goes.snoc State.overflow_goes
    | apply Goes.snoc State.applyAct_goes | apply Goes.snoc State.dropLine_goes | apply Goes.snoc State.cleanLine_goes
    | apply Goes.snoc State.fillSectors_goes | apply Goes.snoc State.setSlot_goes | apply Goes.snoc State.setLine_goes
    | apply Goes.ite | split

theorem State.access1_goes {s : State} {ag : Agent} {d n : Nat} {act : MemAct} : s.Goes (State.access1 s ag d n act).state := by
  unfold State.access1
  with_reducible repeat' first
    | exact Goes.refl _ | assumption | fail_if_no_progress extract_lets +onlyGivenNames x
    | (apply Goes.snoc (State.accessLine_goes (hF := by assumption))) | apply Goes.snoc State.hostSend_goes
    | apply Goes.snoc State.hostWrite_goes | (apply Goes.snoc (State.hostWrite_goes_eq (hF := by assumption)))
    | apply Goes.snoc State.hostRefuse_goes | apply Goes.ite | split | dsimp -zeta only [Acc.state, Head?.state, Prep.state]
    | fail_if_no_progress apply Goes.record
theorem State.access1_goes_done {s : State} {ag : Agent} {d n : Nat} {act : MemAct} {rc : Code} {rd : List Byte}
    {rt : State} (hF : State.access1 s ag d n act = .done rc rd rt) : s.Goes rt := by
  have g := State.access1_goes (s := s) (ag := ag) (d := d) (n := n) (act := act)
  rw [hF] at g; exact g
theorem State.access1_goes_wait {s : State} {ag : Agent} {d n : Nat} {act : MemAct} {rt : State}
    (hF : State.access1 s ag d n act = .wait rt) : s.Goes rt := by
  have g := State.access1_goes (s := s) (ag := ag) (d := d) (n := n) (act := act)
  rw [hF] at g; exact g

theorem State.readRange_goes {s : State} {ag : Agent} {d n : Nat} : s.Goes (s.readRange ag d n).state := by
  unfold State.readRange
  refine Goes.foldlAcc_from ?_ _ _ (fun p a ha => ?_)
  · exact Goes.refl s
  · split
    · split
      · split
        · exact ha
        · exact Goes.trans ha State.hostSend_goes
      · exact ha
    · split
      · exact Goes.trans ha (State.access1_goes_done (hF := by assumption))
      · dsimp only [Acc.state]
        split
        · exact State.hostSend_goes
        · exact Goes.refl s
theorem State.readRange_goes_done {s : State} {ag : Agent} {d n : Nat} {rc : Code} {rd : List Byte} {rt : State}
    (hF : s.readRange ag d n = .done rc rd rt) : s.Goes rt := by
  have g := State.readRange_goes (s := s) (ag := ag) (d := d) (n := n)
  rw [hF] at g; exact g
theorem State.readRange_goes_wait {s : State} {ag : Agent} {d n : Nat} {rt : State} (hF : s.readRange ag d n = .wait rt)
    : s.Goes rt := by
  have g := State.readRange_goes (s := s) (ag := ag) (d := d) (n := n)
  rw [hF] at g; exact g

theorem State.writeRange_goes {s : State} {ag : Agent} {d : Nat} {bs : List Byte}
    : s.Goes (State.writeRange s ag d bs).state := by
  unfold State.writeRange
  with_reducible repeat' first
    | exact Goes.refl _ | assumption | fail_if_no_progress extract_lets +onlyGivenNames x | apply Goes.snoc State.access1_goes
    | (apply Goes.snoc (State.access1_goes_done (hF := by assumption)))
    | (apply Goes.snoc (State.access1_goes_wait (hF := by assumption))) | (apply Goes.foldlAcc; (on_goal 2 => intro x u))
    | apply Goes.ite | split | dsimp -zeta only [Acc.state, Head?.state, Prep.state]
theorem State.writeRange_goes_done {s : State} {ag : Agent} {d : Nat} {bs : List Byte} {rc : Code} {rd : List Byte}
    {rt : State} (hF : State.writeRange s ag d bs = .done rc rd rt) : s.Goes rt := by
  have g := State.writeRange_goes (s := s) (ag := ag) (d := d) (bs := bs)
  rw [hF] at g; exact g
theorem State.writeRange_goes_wait {s : State} {ag : Agent} {d : Nat} {bs : List Byte} {rt : State}
    (hF : State.writeRange s ag d bs = .wait rt) : s.Goes rt := by
  have g := State.writeRange_goes (s := s) (ag := ag) (d := d) (bs := bs)
  rw [hF] at g; exact g

theorem State.addRange_goes {s : State} {ag : Agent} {ex96 : Bool} {d : Nat} {bs : List Byte}
    : s.Goes (State.addRange s ag ex96 d bs).state := by
  unfold State.addRange
  with_reducible repeat' first
    | exact Goes.refl _ | assumption | fail_if_no_progress extract_lets +onlyGivenNames x | apply Goes.snoc State.access1_goes
    | (apply Goes.snoc (State.access1_goes_done (hF := by assumption)))
    | (apply Goes.snoc (State.access1_goes_wait (hF := by assumption))) | (apply Goes.foldlAcc; (on_goal 2 => intro x u))
    | apply Goes.ite | split | dsimp -zeta only [Acc.state, Head?.state, Prep.state]
theorem State.addRange_goes_done {s : State} {ag : Agent} {ex96 : Bool} {d : Nat} {bs : List Byte} {rc : Code}
    {rd : List Byte} {rt : State} (hF : State.addRange s ag ex96 d bs = .done rc rd rt) : s.Goes rt := by
  have g := State.addRange_goes (s := s) (ag := ag) (ex96 := ex96) (d := d) (bs := bs)
  rw [hF] at g; exact g
theorem State.addRange_goes_wait {s : State} {ag : Agent} {ex96 : Bool} {d : Nat} {bs : List Byte} {rt : State}
    (hF : State.addRange s ag ex96 d bs = .wait rt) : s.Goes rt := by
  have g := State.addRange_goes (s := s) (ag := ag) (ex96 := ex96) (d := d) (bs := bs)
  rw [hF] at g; exact g

/-! ### Machine/Glaze.lean -/

theorem State.glazeUpsets_goes {s : State} {k who : Nat} {ups : List Upset} : s.Goes (State.glazeUpsets s k who ups) := by
  unfold State.glazeUpsets
  with_reducible repeat' first
    | exact Goes.refl _ | assumption | fail_if_no_progress extract_lets +onlyGivenNames x | apply Goes.snoc State.onGlz_goes
    | apply Goes.snoc State.eccLog_goes | (apply Goes.each; (on_goal 2 => intro x u)) | apply Goes.ite | split

theorem State.wellUpsets_goes {s : State} {p d : Nat} {who : Nat} {ups : List Upset}
    : s.Goes (State.wellUpsets s p d who ups) := by
  unfold State.wellUpsets
  with_reducible repeat' first
    | exact Goes.refl _ | assumption | fail_if_no_progress extract_lets +onlyGivenNames x | apply Goes.snoc State.eccLog_goes
    | (apply Goes.each; (on_goal 2 => intro x u)) | apply Goes.recErase | apply Goes.recWriteBytes | apply Goes.recRekey
    | apply Goes.recFilter | apply Goes.ite

theorem State.upsets_goes {s : State} {req : MemReq} {ups : List Upset} : s.Goes (State.upsets s req ups) := by
  unfold State.upsets
  with_reducible repeat' first
    | exact Goes.refl _ | assumption | fail_if_no_progress extract_lets +onlyGivenNames x
    | apply Goes.snoc State.wellUpsets_goes | apply Goes.snoc State.glazeUpsets_goes | apply Goes.ite | split

theorem State.popStore_goes {s : State} {req : MemReq} {data : List Byte} : s.Goes (State.popStore s req data) := by
  unfold State.popStore
  with_reducible repeat' first
    | exact Goes.refl _ | assumption | fail_if_no_progress extract_lets +onlyGivenNames x | apply Goes.ite | split
    | dsimp -zeta only [Acc.state, Head?.state, Prep.state] | fail_if_no_progress apply Goes.record

theorem State.flushStart_goes {s : State} {c lines : Nat} {op : Val} : s.Goes (State.flushStart s c lines op) := by
  unfold State.flushStart
  with_reducible repeat' first
    | exact Goes.refl _ | assumption | fail_if_no_progress extract_lets +onlyGivenNames x | apply Goes.snoc State.onGlz_goes
    | apply Goes.snoc (State.woRun_goes ?_) | apply Goes.snoc State.set1_goes | apply Goes.ite | split | intro x

theorem State.roDrop_goes {s : State} {p : Nat → Bool} : s.Goes (State.roDrop s p) := by
  unfold State.roDrop
  with_reducible repeat' first
    | exact Goes.refl _ | assumption | fail_if_no_progress extract_lets +onlyGivenNames x | apply Goes.snoc State.onGlz_goes

theorem State.roFill_goes {s : State} {p cache d : Nat} : s.Goes (State.roFill s p cache d).state := by
  unfold State.roFill
  with_reducible repeat' first
    | exact Goes.refl _ | assumption | fail_if_no_progress extract_lets +onlyGivenNames x | apply Goes.snoc State.readRange_goes
    | (apply Goes.snoc (State.readRange_goes_done (hF := by assumption)))
    | (apply Goes.snoc (State.readRange_goes_wait (hF := by assumption))) | apply Goes.snoc State.onGlz_goes | apply Goes.ite
    | split | dsimp -zeta only [Acc.state, Head?.state, Prep.state]
theorem State.roFill_goes_done {s : State} {p cache d : Nat} {rc : Code} {rd : List Byte} {rt : State}
    (hF : State.roFill s p cache d = .done rc rd rt) : s.Goes rt := by
  have g := State.roFill_goes (s := s) (p := p) (cache := cache) (d := d)
  rw [hF] at g; exact g
theorem State.roFill_goes_wait {s : State} {p cache d : Nat} {rt : State} (hF : State.roFill s p cache d = .wait rt)
    : s.Goes rt := by
  have g := State.roFill_goes (s := s) (p := p) (cache := cache) (d := d)
  rw [hF] at g; exact g

theorem State.untackRange_goes {s : State} {c base lines : Nat} : s.Goes (State.untackRange s c base lines) := by
  unfold State.untackRange
  with_reducible repeat' first
    | exact Goes.refl _ | assumption | fail_if_no_progress extract_lets +onlyGivenNames x
    | apply Goes.snoc State.tackRefresh_goes | apply Goes.snoc State.onGlz_goes

theorem State.tackRangeCommit_goes {s : State} {c e : Nat} {v : Val} : s.Goes (State.tackRangeCommit s c e v) := by
  unfold State.tackRangeCommit
  with_reducible repeat' first
    | exact Goes.refl _ | assumption
    | ((fail_if_no_progress extract_lets +onlyGivenNames x);
        refine Goes.cut (t := x) ?_ fun hx => ?_; (on_goal 1 => dsimp -zeta only [x]; clear x); on_goal 2 => clear_value x)
    | fail_if_no_progress extract_lets +onlyGivenNames x | apply Goes.snoc State.untackRange_goes
    | apply Goes.snoc State.flag_goes | apply Goes.snoc State.set1_goes | apply Goes.snoc State.wrN_goes
    | (apply Goes.when; on_goal 2 => intro u)

/-! ### Machine/Containment.lean -/

theorem State.hold_goes {s : State} {k : Nat} : s.Goes (State.hold s k) := by
  unfold State.hold
  with_reducible repeat' first
    | exact Goes.refl _ | assumption | fail_if_no_progress extract_lets +onlyGivenNames x | apply Goes.snoc State.onGlz_goes
    | apply Goes.ite

theorem State.unhold_goes {s : State} {k : Nat} : s.Goes (State.unhold s k) := by
  unfold State.unhold
  with_reducible repeat' first
    | exact Goes.refl _ | assumption | fail_if_no_progress extract_lets +onlyGivenNames x | apply Goes.snoc State.request_goes
    | apply Goes.snoc State.onGlz_goes | (apply Goes.each; (on_goal 2 => intro x u)) | apply Goes.ite | split

theorem State.coatInuse_goes {s : State} : s.Goes (State.coatInuse s) := by
  unfold State.coatInuse
  with_reducible repeat' first
    | exact Goes.refl _ | assumption | fail_if_no_progress extract_lets +onlyGivenNames x | apply Goes.snoc State.wrN_goes

theorem State.setCoat_goes {s : State} {id : Nat} {c : Coat} : s.Goes (State.setCoat s id c) := by
  unfold State.setCoat
  with_reducible repeat' first
    | exact Goes.refl _ | assumption
    | ((fail_if_no_progress extract_lets +onlyGivenNames x);
        refine Goes.cut (t := x) ?_ fun hx => ?_; (on_goal 1 => dsimp -zeta only [x]; clear x); on_goal 2 => clear_value x)
    | fail_if_no_progress extract_lets +onlyGivenNames x | apply Goes.snoc State.coatInuse_goes | apply Goes.snoc State.wrN_goes
    | apply Goes.snoc State.wr_goes | apply Goes.ite | split | dsimp -zeta only [Acc.state, Head?.state, Prep.state]
    | fail_if_no_progress apply Goes.record

theorem State.coatRelease_goes {s : State} {id : Nat} {c : Coat} : s.Goes (State.coatRelease s id c) := by
  unfold State.coatRelease
  with_reducible repeat' first
    | exact Goes.refl _ | assumption
    | ((fail_if_no_progress extract_lets +onlyGivenNames x);
        refine Goes.cut (t := x) ?_ fun hx => ?_; (on_goal 1 => dsimp -zeta only [x]; clear x); on_goal 2 => clear_value x)
    | fail_if_no_progress extract_lets +onlyGivenNames x | apply Goes.snoc State.setCoat_goes
    | apply Goes.snoc State.unhold_goes | (apply Goes.each; (on_goal 2 => intro x u)) | apply Goes.ite

theorem State.coatFinish_goes {s : State} {id : Nat} {c : Coat} {committed : Bool} {code : Code}
    : s.Goes (State.coatFinish s id c committed code) := by
  unfold State.coatFinish
  with_reducible repeat' first
    | exact Goes.refl _ | assumption
    | ((fail_if_no_progress extract_lets +onlyGivenNames x);
        refine Goes.cut (t := x) ?_ fun hx => ?_; (on_goal 1 => dsimp -zeta only [x]; clear x); on_goal 2 => clear_value x)
    | fail_if_no_progress extract_lets +onlyGivenNames x | apply Goes.snoc State.coatInuse_goes
    | apply Goes.snoc State.qDone_goes | apply Goes.snoc State.setRing_goes | apply Goes.snoc State.post_goes
    | apply Goes.snoc State.bump_goes | apply Goes.snoc State.set1_goes | apply Goes.snoc State.wrN_goes
    | apply Goes.snoc State.wr_goes | (apply Goes.when; on_goal 2 => intro u) | apply Goes.ite | split | intro x
    | dsimp -zeta only [Acc.state, Head?.state, Prep.state] | fail_if_no_progress apply Goes.record

theorem State.coatAbort_goes {s : State} {id : Nat} {code : Code} : s.Goes (State.coatAbort s id code) := by
  unfold State.coatAbort
  with_reducible repeat' first
    | exact Goes.refl _ | assumption
    | ((fail_if_no_progress extract_lets +onlyGivenNames x);
        refine Goes.cut (t := x) ?_ fun hx => ?_; (on_goal 1 => dsimp -zeta only [x]; clear x); on_goal 2 => clear_value x)
    | fail_if_no_progress extract_lets +onlyGivenNames x | apply Goes.snoc State.coatFinish_goes
    | apply Goes.snoc State.coatRelease_goes | apply Goes.snoc State.setCoat_goes | apply Goes.snoc State.send_goes
    | (apply Goes.each; (on_goal 2 => intro x u)) | apply Goes.ite | split

theorem State.setRuns_goes {s : State} {ch : Nat} {rs : List DmaRun} : s.Goes (State.setRuns s ch rs) := by
  unfold State.setRuns
  with_reducible repeat' first
    | exact Goes.refl _ | assumption
    | ((fail_if_no_progress extract_lets +onlyGivenNames x);
        refine Goes.cut (t := x) ?_ fun hx => ?_; (on_goal 1 => dsimp -zeta only [x]; clear x); on_goal 2 => clear_value x)
    | fail_if_no_progress extract_lets +onlyGivenNames x | apply Goes.snoc State.qBusy_goes | apply Goes.snoc State.wrN_goes
    | apply Goes.ite | split | dsimp -zeta only [Acc.state, Head?.state, Prep.state] | fail_if_no_progress apply Goes.record

theorem State.dmaEnd_goes {s : State} {ch : Nat} {r : DmaRun} {code : Code} {off : Nat}
    : s.Goes (State.dmaEnd s ch r code off) := by
  unfold State.dmaEnd
  with_reducible repeat' first
    | exact Goes.refl _ | assumption
    | ((fail_if_no_progress extract_lets +onlyGivenNames x);
        refine Goes.cut (t := x) ?_ fun hx => ?_; (on_goal 1 => dsimp -zeta only [x]; clear x); on_goal 2 => clear_value x)
    | fail_if_no_progress extract_lets +onlyGivenNames x | apply Goes.snoc State.setRuns_goes | apply Goes.snoc State.qFail_goes
    | apply Goes.snoc State.wrN_goes | apply Goes.ite | split | dsimp -zeta only [Acc.state, Head?.state, Prep.state]
    | fail_if_no_progress apply Goes.record

theorem State.dmaSettle_goes {s : State} {ch : Nat} : s.Goes (State.dmaSettle s ch) := by
  unfold State.dmaSettle
  with_reducible repeat' first
    | exact Goes.refl _ | assumption | fail_if_no_progress extract_lets +onlyGivenNames x | apply Goes.snoc State.dmaEnd_goes
    | (apply Goes.each; (on_goal 2 => intro x u)) | apply Goes.ite | split

theorem State.setColls_goes {s : State} {cs : List Coll} : s.Goes (State.setColls s cs) := by
  unfold State.setColls
  with_reducible repeat' first
    | exact Goes.refl _ | assumption | fail_if_no_progress extract_lets +onlyGivenNames x | apply Goes.snoc State.wrN_goes
    | apply Goes.ite | split | dsimp -zeta only [Acc.state, Head?.state, Prep.state] | fail_if_no_progress apply Goes.record

theorem State.colErr_goes {s : State} {group num rank : Nat} {code : Code} {remote : Bool}
    : s.Goes (State.colErr s group num rank code remote) := by
  unfold State.colErr
  with_reducible repeat' first
    | exact Goes.refl _ | assumption | fail_if_no_progress extract_lets +onlyGivenNames x | apply Goes.snoc State.flag_goes
    | apply Goes.snoc State.set1_goes | apply Goes.snoc State.wrN_goes | apply Goes.snoc State.wr_goes | apply Goes.ite

theorem State.collHalt_goes {s : State} {c : Coll} {code : Code} {remote : Bool} {rank : Nat}
    : s.Goes (State.collHalt s c code remote rank) := by
  unfold State.collHalt
  with_reducible repeat' first
    | exact Goes.refl _ | assumption
    | ((fail_if_no_progress extract_lets +onlyGivenNames x);
        refine Goes.cut (t := x) ?_ fun hx => ?_; (on_goal 1 => dsimp -zeta only [x]; clear x); on_goal 2 => clear_value x)
    | fail_if_no_progress extract_lets +onlyGivenNames x | apply Goes.snoc State.colErr_goes
    | apply Goes.snoc State.setColls_goes | apply Goes.snoc State.qFail_goes | apply Goes.snoc State.setRing_goes
    | apply Goes.snoc State.send_goes | apply Goes.snoc State.set1_goes | (apply Goes.each; (on_goal 2 => intro x u))
    | apply Goes.ite

theorem State.setPth_goes {s : State} {q : Nat} {t : PanelThread} : s.Goes (State.setPth s q t) := by
  unfold State.setPth
  with_reducible repeat' first
    | exact Goes.refl _ | assumption | fail_if_no_progress extract_lets +onlyGivenNames x | apply Goes.ite | split
    | dsimp -zeta only [Acc.state, Head?.state, Prep.state] | fail_if_no_progress apply Goes.record

theorem State.panelRefresh_goes {s : State} {p : Nat} : s.Goes (State.panelRefresh s p) := by
  unfold State.panelRefresh
  with_reducible repeat' first
    | exact Goes.refl _ | assumption | fail_if_no_progress extract_lets +onlyGivenNames x | apply Goes.snoc State.flag_goes
    | apply Goes.snoc State.clr_goes | apply Goes.snoc State.wrN_goes | (apply Goes.when; on_goal 2 => intro u)

theorem State.threadSettle_goes {s : State} {q : Nat} : s.Goes (State.threadSettle s q) := by
  unfold State.threadSettle
  with_reducible repeat' first
    | exact Goes.refl _ | assumption | fail_if_no_progress extract_lets +onlyGivenNames x | apply Goes.snoc State.setPth_goes
    | apply Goes.snoc State.wrN_goes | (apply Goes.when; on_goal 2 => intro u) | apply Goes.ite

theorem State.threadHalt_goes {s : State} {q : Nat} : s.Goes (State.threadHalt s q) := by
  unfold State.threadHalt
  with_reducible repeat' first
    | exact Goes.refl _ | assumption | fail_if_no_progress extract_lets +onlyGivenNames x
    | apply Goes.snoc State.threadSettle_goes | apply Goes.snoc State.panelRefresh_goes | apply Goes.snoc State.setPth_goes

theorem State.setSth_goes {s : State} {k : Nat} {t : SeqState} : s.Goes (State.setSth s k t) := by
  unfold State.setSth
  with_reducible repeat' first
    | exact Goes.refl _ | assumption | fail_if_no_progress extract_lets +onlyGivenNames x | apply Goes.ite | split
    | dsimp -zeta only [Acc.state, Head?.state, Prep.state] | fail_if_no_progress apply Goes.record

theorem State.seqCapture_goes {s : State} {k cause : Nat} {code : Code} : s.Goes (State.seqCapture s k cause code) := by
  unfold State.seqCapture
  with_reducible repeat' first
    | exact Goes.refl _ | assumption | fail_if_no_progress extract_lets +onlyGivenNames x | apply Goes.snoc State.set1_goes
    | apply Goes.snoc State.wrN_goes | apply Goes.snoc State.wr_goes | apply Goes.ite

theorem State.unwait_goes {s : State} {th : SeqThread} : s.Goes (State.unwait s th) := by
  unfold State.unwait
  with_reducible repeat' first
    | exact Goes.refl _ | assumption | fail_if_no_progress extract_lets +onlyGivenNames x | apply Goes.ite | split
    | dsimp -zeta only [Acc.state, Head?.state, Prep.state] | fail_if_no_progress apply Goes.record

theorem State.seqStop_goes {s : State} {k stop : Nat} : s.Goes (State.seqStop s k stop) := by
  unfold State.seqStop
  with_reducible repeat' first
    | exact Goes.refl _ | assumption | fail_if_no_progress extract_lets +onlyGivenNames x | apply Goes.snoc State.unwait_goes
    | apply Goes.snoc State.setSth_goes | apply Goes.snoc State.wrN_goes | apply Goes.ite

theorem State.setStream_goes {s : State} {k : Nat} {t : StreamState} : s.Goes (State.setStream s k t) := by
  unfold State.setStream
  with_reducible repeat' first
    | exact Goes.refl _ | assumption | fail_if_no_progress extract_lets +onlyGivenNames x | apply Goes.ite | split
    | dsimp -zeta only [Acc.state, Head?.state, Prep.state] | fail_if_no_progress apply Goes.record

theorem State.breakStream_goes {s : State} {k : Nat} : s.Goes (State.breakStream s k) := by
  unfold State.breakStream
  with_reducible repeat' first
    | exact Goes.refl _ | assumption | fail_if_no_progress extract_lets +onlyGivenNames x | apply Goes.snoc State.setStream_goes
    | apply Goes.snoc State.set1_goes | apply Goes.snoc State.wrN_goes | apply Goes.ite

theorem State.setFlight_goes {s : State} {n : Nat} {f : Option Flight} : s.Goes (State.setFlight s n f) := by
  unfold State.setFlight
  with_reducible repeat' first
    | exact Goes.refl _ | assumption | fail_if_no_progress extract_lets +onlyGivenNames x | apply Goes.ite | split
    | dsimp -zeta only [Acc.state, Head?.state, Prep.state] | fail_if_no_progress apply Goes.record

theorem State.endRecvs_goes {s : State} : s.Goes (State.endRecvs s) := by
  unfold State.endRecvs
  with_reducible repeat' first
    | exact Goes.refl _ | assumption | fail_if_no_progress extract_lets +onlyGivenNames x | apply Goes.snoc State.setFlight_goes
    | (apply Goes.each; (on_goal 2 => intro x u)) | apply Goes.ite | split

theorem State.markFault_goes {s : State} {p : Nat} {wash : Bool} {code : Code} {origin : Option Nat}
    : s.Goes (State.markFault s p wash code origin) := by
  unfold State.markFault
  with_reducible repeat' first
    | exact Goes.refl _ | assumption
    | ((fail_if_no_progress extract_lets +onlyGivenNames x);
        refine Goes.cut (t := x) ?_ fun hx => ?_; (on_goal 1 => dsimp -zeta only [x]; clear x); on_goal 2 => clear_value x)
    | fail_if_no_progress extract_lets +onlyGivenNames x | apply Goes.snoc State.flag_goes | apply Goes.snoc State.set1_goes
    | apply Goes.snoc State.wrN_goes | apply Goes.snoc State.wr_goes | (apply Goes.when; on_goal 2 => intro u) | apply Goes.ite

theorem State.rowStop_goes {s : State} {n : Nat} {code : Code} : s.Goes (State.rowStop s n code) := by
  unfold State.rowStop
  with_reducible repeat' first
    | exact Goes.refl _ | assumption
    | ((fail_if_no_progress extract_lets +onlyGivenNames x);
        refine Goes.cut (t := x) ?_ fun hx => ?_; (on_goal 1 => dsimp -zeta only [x]; clear x); on_goal 2 => clear_value x)
    | fail_if_no_progress extract_lets +onlyGivenNames x | apply Goes.snoc State.qFail_goes | apply Goes.snoc State.qHalt_goes
    | apply Goes.snoc State.qBusy_goes | (apply Goes.each; (on_goal 2 => intro x u)) | apply Goes.ite | split | intro x
    | dsimp -zeta only [Acc.state, Head?.state, Prep.state] | fail_if_no_progress apply Goes.record

theorem State.finBusy_goes {s : State} {c : Nat} : s.Goes (State.finBusy s c) := by
  unfold State.finBusy
  with_reducible repeat' first
    | exact Goes.refl _ | assumption | fail_if_no_progress extract_lets +onlyGivenNames x | apply Goes.snoc State.wrN_goes

theorem State.finCount_goes {s : State} {c : Nat} {t : FinTask} : s.Goes (State.finCount s c t) := by
  unfold State.finCount
  with_reducible repeat' first
    | exact Goes.refl _ | assumption
    | ((fail_if_no_progress extract_lets +onlyGivenNames x);
        refine Goes.cut (t := x) ?_ fun hx => ?_; (on_goal 1 => dsimp -zeta only [x]; clear x); on_goal 2 => clear_value x)
    | fail_if_no_progress extract_lets +onlyGivenNames x | apply Goes.snoc State.bump_goes
    | (apply Goes.when; on_goal 2 => intro u)

theorem State.finStop_goes {s : State} {c local_ : Nat} {code : Code} : s.Goes (State.finStop s c local_ code) := by
  unfold State.finStop
  with_reducible repeat' first
    | exact Goes.refl _ | assumption
    | ((fail_if_no_progress extract_lets +onlyGivenNames x);
        refine Goes.cut (t := x) ?_ fun hx => ?_; (on_goal 1 => dsimp -zeta only [x]; clear x); on_goal 2 => clear_value x)
    | fail_if_no_progress extract_lets +onlyGivenNames x | apply Goes.snoc State.finCount_goes
    | apply Goes.snoc State.finBusy_goes | apply Goes.snoc State.qFail_goes | apply Goes.snoc State.qHalt_goes
    | apply Goes.snoc State.qBusy_goes | (apply Goes.each; (on_goal 2 => intro x u)) | apply Goes.ite | split | intro x
    | dsimp -zeta only [Acc.state, Head?.state, Prep.state] | fail_if_no_progress apply Goes.record

theorem State.partFault_goes {s : State} {p : Nat} {wash : Bool} {code : Code} {origin : Option Nat}
    : s.Goes (State.partFault s p wash code origin) := by
  unfold State.partFault
  with_reducible repeat' first
    | exact Goes.refl _ | assumption
    | ((fail_if_no_progress extract_lets +onlyGivenNames x);
        refine Goes.cut (t := x) ?_ fun hx => ?_; (on_goal 1 => dsimp -zeta only [x]; clear x); on_goal 2 => clear_value x)
    | fail_if_no_progress extract_lets +onlyGivenNames x | apply Goes.snoc State.finStop_goes
    | apply Goes.snoc State.rowStop_goes | apply Goes.snoc State.markFault_goes | apply Goes.snoc State.endRecvs_goes
    | apply Goes.snoc State.breakStream_goes | apply Goes.snoc State.seqStop_goes | apply Goes.snoc State.seqCapture_goes
    | apply Goes.snoc State.threadHalt_goes | apply Goes.snoc State.collHalt_goes | apply Goes.snoc State.dmaSettle_goes
    | apply Goes.snoc State.setRuns_goes | apply Goes.snoc State.coatAbort_goes | (apply Goes.each; (on_goal 2 => intro x u))
    | apply Goes.ite

theorem State.stall_goes {s : State} {kind place object lineHi : Nat} {part : Option Nat}
    : s.Goes (State.stall s kind place object lineHi part) := by
  unfold State.stall
  with_reducible repeat' first
    | exact Goes.refl _ | assumption | fail_if_no_progress extract_lets +onlyGivenNames x | apply Goes.snoc State.flag_goes
    | apply Goes.snoc State.set1_goes | apply Goes.snoc State.wrN_goes | apply Goes.ite

/-! ### Machine/Sketchbook.lean -/

theorem State.ringRead_goes {s : State} {q : QId} : s.Goes (State.ringRead s q).state := by
  unfold State.ringRead
  with_reducible repeat' first
    | exact Goes.refl _ | assumption | fail_if_no_progress extract_lets +onlyGivenNames x | apply Goes.snoc State.readRange_goes
    | (apply Goes.snoc (State.readRange_goes_done (hF := by assumption)))
    | (apply Goes.snoc (State.readRange_goes_wait (hF := by assumption))) | apply Goes.ite | split
    | dsimp -zeta only [Acc.state, Head?.state, Prep.state]
theorem State.ringRead_goes_done {s : State} {q : QId} {rc : Code} {rd : List Byte} {rt : State}
    (hF : State.ringRead s q = .done rc rd rt) : s.Goes rt := by
  have g := State.ringRead_goes (s := s) (q := q)
  rw [hF] at g; exact g
theorem State.ringRead_goes_wait {s : State} {q : QId} {rt : State} (hF : State.ringRead s q = .wait rt) : s.Goes rt := by
  have g := State.ringRead_goes (s := s) (q := q)
  rw [hF] at g; exact g

theorem State.qRefuse_goes {s : State} {q : QId} {code : Code} {notify : Bool} {mbx : Nat}
    : s.Goes (State.qRefuse s q code notify mbx) := by
  unfold State.qRefuse
  with_reducible repeat' first
    | exact Goes.refl _ | assumption | fail_if_no_progress extract_lets +onlyGivenNames x | apply Goes.snoc State.qTake_goes
    | apply Goes.snoc State.qFail_goes

theorem State.qNext_goes {s : State} {q : QId} : s.Goes (State.qNext s q).state := by
  unfold State.qNext
  with_reducible repeat' first
    | exact Goes.refl _ | assumption | fail_if_no_progress extract_lets +onlyGivenNames x | apply Goes.snoc State.qRefuse_goes
    | apply Goes.snoc State.ringRead_goes | (apply Goes.snoc (State.ringRead_goes_done (hF := by assumption)))
    | (apply Goes.snoc (State.ringRead_goes_wait (hF := by assumption))) | apply Goes.ite | split
    | dsimp -zeta only [Acc.state, Head?.state, Prep.state]
theorem State.qNext_goes_idle {s : State} {q : QId} {rt : State} (hF : State.qNext s q = .idle rt) : s.Goes rt := by
  have g := State.qNext_goes (s := s) (q := q)
  rw [hF] at g; exact g
theorem State.qNext_goes_failed {s : State} {q : QId} {rt : State} (hF : State.qNext s q = .failed rt) : s.Goes rt := by
  have g := State.qNext_goes (s := s) (q := q)
  rw [hF] at g; exact g
theorem State.qNext_goes_cmd {s : State} {q : QId} {rd : List Byte} {rt : State} (hF : State.qNext s q = .cmd rd rt)
    : s.Goes rt := by
  have g := State.qNext_goes (s := s) (q := q)
  rw [hF] at g; exact g

/-! ### Machine/Doorbells.lean -/

theorem State.queEvent_goes {s : State} {q : Nat} {bit : RegField} : s.Goes (State.queEvent s q bit) := by
  unfold State.queEvent
  with_reducible repeat' first
    | exact Goes.refl _ | assumption | fail_if_no_progress extract_lets +onlyGivenNames x | apply Goes.snoc State.set1_goes
    | apply Goes.snoc State.wrN_goes | apply Goes.ite

theorem State.ringClient_goes {s : State} {q : Nat} {v : Word32} : s.Goes (State.ringClient s q v) := by
  unfold State.ringClient
  with_reducible repeat' first
    | exact Goes.refl _ | assumption | fail_if_no_progress extract_lets +onlyGivenNames x | apply Goes.snoc State.queEvent_goes
    | apply Goes.snoc State.bump_goes | apply Goes.snoc State.wr_goes | apply Goes.ite | split
    | dsimp -zeta only [Acc.state, Head?.state, Prep.state] | fail_if_no_progress apply Goes.record

theorem State.releaseBells_goes {s : State} : s.Goes (State.releaseBells s) := by
  unfold State.releaseBells
  with_reducible repeat' first
    | exact Goes.refl _ | assumption | fail_if_no_progress extract_lets +onlyGivenNames x
    | apply Goes.snoc State.ringClient_goes | (apply Goes.each; (on_goal 2 => intro x u)) | apply Goes.ite | split | intro x
    | dsimp -zeta only [Acc.state, Head?.state, Prep.state] | fail_if_no_progress apply Goes.record

theorem State.setMeas_goes {s : State} {i : Nat} {d : BitVec 384} : s.Goes (State.setMeas s i d) := by
  unfold State.setMeas
  with_reducible repeat' first
    | exact Goes.refl _ | assumption | fail_if_no_progress extract_lets +onlyGivenNames x | apply Goes.snoc State.wrN_goes
    | (apply Goes.each; (on_goal 2 => intro x u))

theorem State.measureKeys_goes {s : State} : s.Goes (State.measureKeys s) := by
  unfold State.measureKeys
  with_reducible repeat' first
    | exact Goes.refl _ | assumption | fail_if_no_progress extract_lets +onlyGivenNames x | apply Goes.snoc State.setMeas_goes

theorem State.capacity_goes {s : State} : s.Goes (State.capacity s) := by
  unfold State.capacity
  with_reducible repeat' first
    | exact Goes.refl _ | assumption
    | ((fail_if_no_progress extract_lets +onlyGivenNames x);
        refine Goes.cut (t := x) ?_ fun hx => ?_; (on_goal 1 => dsimp -zeta only [x]; clear x); on_goal 2 => clear_value x)
    | fail_if_no_progress extract_lets +onlyGivenNames x | apply Goes.snoc State.set1_goes | apply Goes.snoc State.wrN_goes
    | (apply Goes.when; on_goal 2 => intro u)

theorem State.reason_goes {s : State} {b : Nat} {v : Bool} : s.Goes (State.reason s b v) := by
  unfold State.reason
  with_reducible repeat' first
    | exact Goes.refl _ | assumption
    | ((fail_if_no_progress extract_lets +onlyGivenNames x);
        refine Goes.cut (t := x) ?_ fun hx => ?_; (on_goal 1 => dsimp -zeta only [x]; clear x); on_goal 2 => clear_value x)
    | fail_if_no_progress extract_lets +onlyGivenNames x | apply Goes.snoc State.bump_goes | apply Goes.snoc State.wr_goes
    | apply Goes.ite | split | dsimp -zeta only [Acc.state, Head?.state, Prep.state] | fail_if_no_progress apply Goes.record

/-! ### Machine/Rows.lean -/

theorem State.setRowCmds_goes {s : State} {c q : Nat} {ks : List RowCmd} : s.Goes (State.setRowCmds s c q ks) := by
  unfold State.setRowCmds
  with_reducible repeat' first
    | exact Goes.refl _ | assumption | fail_if_no_progress extract_lets +onlyGivenNames x | apply Goes.snoc State.qBusy_goes
    | apply Goes.ite | split | dsimp -zeta only [Acc.state, Head?.state, Prep.state] | fail_if_no_progress apply Goes.record

theorem State.rowFail_goes {s : State} {c q seq : Nat} {code : Code} {line : Dpa} {notify : Bool} {mbx : Nat}
    : s.Goes (State.rowFail s c q seq code line notify mbx) := by
  unfold State.rowFail
  with_reducible repeat' first
    | exact Goes.refl _ | assumption | fail_if_no_progress extract_lets +onlyGivenNames x | apply Goes.snoc State.qFail_goes
    | apply Goes.snoc State.wrN_goes

theorem State.rowStart_goes {s : State} {c q : Nat} {want : Option RowOp} : s.Goes (State.rowStart s c q want) := by
  unfold State.rowStart
  with_reducible repeat' first
    | exact Goes.refl _ | assumption | fail_if_no_progress extract_lets +onlyGivenNames x | apply Goes.snoc State.rowFail_goes
    | apply Goes.snoc State.setRowCmds_goes | apply Goes.snoc State.qNext_goes
    | (apply Goes.snoc (State.qNext_goes_idle (hF := by assumption)))
    | (apply Goes.snoc (State.qNext_goes_failed (hF := by assumption)))
    | (apply Goes.snoc (State.qNext_goes_cmd (hF := by assumption))) | apply Goes.snoc State.qTake_goes | apply Goes.ite | split

theorem State.rowClean_goes {s : State} {k : RowCmd} {op : RowOp} {c i : Nat} : s.Goes (State.rowClean s k op c i) := by
  unfold State.rowClean
  with_reducible repeat' first
    | exact Goes.refl _ | assumption
    | ((fail_if_no_progress extract_lets +onlyGivenNames x);
        refine Goes.cut (t := x) ?_ fun hx => ?_; (on_goal 1 => dsimp -zeta only [x]; clear x); on_goal 2 => clear_value x)
    | fail_if_no_progress extract_lets +onlyGivenNames x | apply Goes.snoc State.dropLine_goes
    | apply Goes.snoc State.cleanLine_goes | (apply Goes.each; (on_goal 2 => intro x u)) | apply Goes.ite

theorem State.rowProbe_goes {s : State} {k : RowCmd} {op : RowOp} {c i : Nat} : s.Goes (State.rowProbe s k op c i) := by
  unfold State.rowProbe
  with_reducible repeat' first
    | exact Goes.refl _ | assumption | fail_if_no_progress extract_lets +onlyGivenNames x | apply Goes.snoc State.rowClean_goes
    | apply Goes.snoc State.hold_goes | (apply Goes.each; (on_goal 2 => intro x u))

theorem State.putRow_goes {s : State} {k : Nat} {r : RowImage} : s.Goes (State.putRow s k r) := by
  unfold State.putRow
  with_reducible repeat' first
    | exact Goes.refl _ | assumption
    | ((fail_if_no_progress extract_lets +onlyGivenNames x);
        refine Goes.cut (t := x) ?_ fun hx => ?_; (on_goal 1 => dsimp -zeta only [x]; clear x); on_goal 2 => clear_value x)
    | fail_if_no_progress extract_lets +onlyGivenNames x | apply Goes.snoc State.setCw_goes | apply Goes.snoc State.setMeta_goes
    | apply Goes.recErase | apply Goes.recWriteBytes

theorem State.logRow_goes {s : State} {k source : Nat} {bad : List Nat} : s.Goes (State.logRow s k source bad) := by
  unfold State.logRow
  with_reducible repeat' first
    | exact Goes.refl _ | assumption | fail_if_no_progress extract_lets +onlyGivenNames x | apply Goes.snoc State.eccLog_goes
    | (apply Goes.each; (on_goal 2 => intro x u))

theorem State.rowPerform_goes {s : State} {k : RowCmd} {op : RowOp} {c i : Nat} {ups : List Upset}
    : s.Goes (State.rowPerform s k op c i ups).1 := by
  unfold State.rowPerform
  with_reducible repeat' first
    | exact Goes.refl _ | assumption
    | ((fail_if_no_progress extract_lets +onlyGivenNames x);
        refine Goes.cut (t := x) ?_ fun hx => ?_; (on_goal 1 => dsimp -zeta only [x]; clear x); on_goal 2 => clear_value x)
    | fail_if_no_progress extract_lets +onlyGivenNames x | apply Goes.snoc State.logRow_goes | apply Goes.snoc State.putRow_goes
    | apply Goes.snoc State.rowUpsets_goes | apply Goes.snoc State.bump_goes | (apply Goes.each; (on_goal 2 => intro x u))
    | (apply Goes.when; on_goal 2 => intro u) | apply Goes.ite
theorem State.rowPerform_goes_eq {s : State} {k : RowCmd} {op : RowOp} {c i : Nat} {ups : List Upset} {rt : State}
    {rb1 : Option Dpa} (hF : State.rowPerform s k op c i ups = (rt, rb1)) : s.Goes rt := by
  unfold State.rowPerform at hF
  revert hF
  with_reducible repeat' first
    | (rintro ⟨⟩) | exact Goes.refl _ | assumption | fail_if_no_progress extract_lets +onlyGivenNames x
    | apply Goes.snoc State.logRow_goes | apply Goes.snoc State.putRow_goes | apply Goes.snoc State.rowUpsets_goes
    | apply Goes.snoc State.bump_goes | (apply Goes.each; (on_goal 2 => intro x u)) | (apply Goes.when; on_goal 2 => intro u)
    | apply Goes.ite

theorem State.rowEnd_goes {s : State} {c q : Nat} {k : RowCmd} : s.Goes (State.rowEnd s c q k) := by
  unfold State.rowEnd
  with_reducible repeat' first
    | exact Goes.refl _ | assumption
    | ((fail_if_no_progress extract_lets +onlyGivenNames x);
        refine Goes.cut (t := x) ?_ fun hx => ?_; (on_goal 1 => dsimp -zeta only [x]; clear x); on_goal 2 => clear_value x)
    | fail_if_no_progress extract_lets +onlyGivenNames x | apply Goes.snoc State.rowFail_goes
    | apply Goes.snoc State.setRowCmds_goes | apply Goes.snoc State.qComplete_goes | apply Goes.ite | split

end Sys2Proof.Machine
end

