-- ==== Sys2Proof/Laws/GoesCanvas.lean ====
section
/-! SUPPORT. What the shared operations do to a state (State.Goes): the panels, sequencers, trains, the Sketch, DMA and errors.
Each lemma covers every state, and an operation that answers a state beside a result or not at all has its lemma for every answer. -/

namespace Sys2Proof.Machine

/-! ### Machine/Panels.lean -/

theorem State.setToken_goes {s : State} {p h t : Nat} : s.Goes (State.setToken s p h t) := by
  unfold State.setToken
  with_reducible repeat' first
    | exact Goes.refl _ | assumption | fail_if_no_progress extract_lets +onlyGivenNames x | apply Goes.snoc State.wrN_goes

theorem State.strokeFault_goes {s : State} {p t : Nat} {dpa : Dpa} {wash : Bool} {code : Code}
    : s.Goes (State.strokeFault s p t dpa wash code) := by
  unfold State.strokeFault
  with_reducible repeat' first
    | exact Goes.refl _ | assumption
    | ((fail_if_no_progress extract_lets +onlyGivenNames x);
        refine Goes.cut (t := x) ?_ fun hx => ?_; (on_goal 1 => dsimp -zeta only [x]; clear x); on_goal 2 => clear_value x)
    | fail_if_no_progress extract_lets +onlyGivenNames x | apply Goes.snoc State.partFault_goes
    | apply Goes.snoc State.panelRefresh_goes | apply Goes.snoc State.set1_goes | apply Goes.snoc State.wrN_goes
    | apply Goes.snoc State.wr_goes | apply Goes.ite | split

theorem State.readDesc_goes {s : State} {p : Nat} {d : Dpa} : s.Goes (State.readDesc s p d).state := by
  unfold State.readDesc
  with_reducible repeat' first
    | exact Goes.refl _ | assumption | fail_if_no_progress extract_lets +onlyGivenNames x | apply Goes.snoc State.roFill_goes
    | (apply Goes.snoc (State.roFill_goes_done (hF := by assumption)))
    | (apply Goes.snoc (State.roFill_goes_wait (hF := by assumption))) | apply Goes.ite | split
    | dsimp -zeta only [Acc.state, Head?.state, Prep.state]
theorem State.readDesc_goes_done {s : State} {p : Nat} {d : Dpa} {rc : Code} {rd : List Byte} {rt : State}
    (hF : State.readDesc s p d = .done rc rd rt) : s.Goes rt := by
  have g := State.readDesc_goes (s := s) (p := p) (d := d)
  rw [hF] at g; exact g
theorem State.readDesc_goes_wait {s : State} {p : Nat} {d : Dpa} {rt : State} (hF : State.readDesc s p d = .wait rt)
    : s.Goes rt := by
  have g := State.readDesc_goes (s := s) (p := p) (d := d)
  rw [hF] at g; exact g

theorem State.oversizeMarks_goes {s : State} {p t : Nat} : s.Goes (State.oversizeMarks s p t) := by
  unfold State.oversizeMarks
  with_reducible repeat' first
    | exact Goes.refl _ | assumption | fail_if_no_progress extract_lets +onlyGivenNames x | apply Goes.snoc State.set1_goes
    | apply Goes.snoc State.wr_goes | apply Goes.ite | split

theorem State.releaseOps_goes {s : State} {n : Nat} {f : Flight} : s.Goes (State.releaseOps s n f) := by
  unfold State.releaseOps
  with_reducible repeat' first
    | exact Goes.refl _ | assumption
    | ((fail_if_no_progress extract_lets +onlyGivenNames x);
        refine Goes.cut (t := x) ?_ fun hx => ?_; (on_goal 1 => dsimp -zeta only [x]; clear x); on_goal 2 => clear_value x)
    | fail_if_no_progress extract_lets +onlyGivenNames x | apply Goes.snoc State.setToken_goes
    | apply Goes.snoc State.setFlight_goes | apply Goes.snoc State.wrN_goes | (apply Goes.each; (on_goal 2 => intro x u))
    | apply Goes.ite

theorem State.releaseEnded_goes {s : State} {p n : Nat} : s.Goes (State.releaseEnded s p n) := by
  unfold State.releaseEnded
  with_reducible repeat' first
    | exact Goes.refl _ | assumption | fail_if_no_progress extract_lets +onlyGivenNames x
    | apply Goes.snoc State.releaseOps_goes | (apply Goes.each; (on_goal 2 => intro x u)) | apply Goes.ite

theorem State.issue_goes {s : State} {p t n : Nat} {h : Head} {st : Stroke} : s.Goes (State.issue s p t n h st) := by
  unfold State.issue
  with_reducible repeat' first
    | exact Goes.refl _ | assumption
    | ((fail_if_no_progress extract_lets +onlyGivenNames x);
        refine Goes.cut (t := x) ?_ fun hx => ?_; (on_goal 1 => dsimp -zeta only [x]; clear x); on_goal 2 => clear_value x)
    | ((fail_if_no_progress extract_lets +onlyGivenNames x);
        refine Goes.cut (t := (x : Option (List Byte) × Option Code × State).2.2) ?_ (fun hx => ?_); (on_goal 1 => (dsimp -zeta only [x]; clear x)); (on_goal 2 => clear_value x))
    | fail_if_no_progress extract_lets +onlyGivenNames x | apply Goes.snoc State.readDesc_goes
    | (apply Goes.snoc (State.readDesc_goes_done (hF := by assumption)))
    | (apply Goes.snoc (State.readDesc_goes_wait (hF := by assumption))) | apply Goes.snoc State.setToken_goes
    | apply Goes.snoc State.setFlight_goes | apply Goes.snoc State.setPth_goes | apply Goes.snoc State.bump_goes
    | apply Goes.snoc State.wrN_goes | (apply Goes.each; (on_goal 2 => intro x u)) | (apply Goes.when; on_goal 2 => intro u)
    | apply Goes.ite | split | intro x | dsimp -zeta only [Acc.state, Head?.state, Prep.state]
    | fail_if_no_progress apply Goes.record

theorem State.cycleBegin_goes {s : State} {panel : Nat} {upsets : List Upset} : s.Goes (State.cycleBegin s panel upsets) := by
  unfold State.cycleBegin
  with_reducible repeat' first
    | exact Goes.refl _ | assumption
    | ((fail_if_no_progress extract_lets +onlyGivenNames x);
        refine Goes.cut (t := x) ?_ fun hx => ?_; (on_goal 1 => dsimp -zeta only [x]; clear x); on_goal 2 => clear_value x)
    | fail_if_no_progress extract_lets +onlyGivenNames x | apply Goes.snoc State.releaseEnded_goes
    | apply Goes.snoc State.oversizeMarks_goes | apply Goes.snoc State.upsets_goes | apply Goes.snoc State.wellUpsets_goes
    | (apply Goes.each; (on_goal 2 => intro x u)) | apply Goes.ite | split | intro x
    | dsimp -zeta only [Acc.state, Head?.state, Prep.state] | fail_if_no_progress apply Goes.record

theorem State.showWaits_goes {s : State} {panel : Nat} : s.Goes (State.showWaits s panel) := by
  unfold State.showWaits
  with_reducible repeat' first
    | exact Goes.refl _ | assumption
    | ((fail_if_no_progress extract_lets +onlyGivenNames x);
        refine Goes.cut (t := x) ?_ fun hx => ?_; (on_goal 1 => dsimp -zeta only [x]; clear x); on_goal 2 => clear_value x)
    | fail_if_no_progress extract_lets +onlyGivenNames x | apply Goes.snoc State.bump_goes | apply Goes.snoc State.wrN_goes
    | (apply Goes.each; (on_goal 2 => intro x u)) | (apply Goes.when; on_goal 2 => intro u)

theorem State.putRuns_goes {s : State} {p : Nat} {runs : List BitRun} : s.Goes (s.putRuns p runs) := by
  unfold State.putRuns
  extract_lets bs whole words ok m
  refine Goes.each ?_ _ _ (fun w t => State.eccLog_goes)
  refine Goes.of_mem rfl rfl rfl (fun hs => ?_)
  refine Memory.wf_foldl _ (fun m e hm => ?_) _ hs
  dsimp only
  split
  · exact Memory.wf_memWrite _ _ hm
  · exact hm

theorem State.logWellUe_goes {s : State} {f : Flight} {c : Code} : s.Goes (State.logWellUe s f c) := by
  unfold State.logWellUe
  with_reducible repeat' first
    | exact Goes.refl _ | assumption | fail_if_no_progress extract_lets +onlyGivenNames x | apply Goes.snoc State.eccLog_goes
    | apply Goes.ite

theorem State.flightFault_goes {s : State} {n : Nat} {f : Flight} {c : Code} : s.Goes (State.flightFault s n f c) := by
  unfold State.flightFault
  with_reducible repeat' first
    | exact Goes.refl _ | assumption | fail_if_no_progress extract_lets +onlyGivenNames x | apply Goes.snoc State.logWellUe_goes
    | apply Goes.snoc State.setFlight_goes

theorem State.compute_goes {s : State} {n cls op : Nat} {work : Flight → State → Stroke → Except Code StrokeResult}
    : s.Goes (State.compute s n cls op work) := by
  unfold State.compute
  with_reducible repeat' first
    | exact Goes.refl _ | assumption | fail_if_no_progress extract_lets +onlyGivenNames x
    | apply Goes.snoc State.flightFault_goes | apply Goes.snoc State.putRuns_goes | apply Goes.snoc State.setFlight_goes
    | apply Goes.ite | split

theorem State.flightGone_goes {s : State} {n : Nat} {f : Flight} : s.Goes (State.flightGone s n f) := by
  unfold State.flightGone
  with_reducible repeat' first
    | exact Goes.refl _ | assumption | fail_if_no_progress extract_lets +onlyGivenNames x | apply Goes.snoc State.setFlight_goes
    | apply Goes.snoc State.threadSettle_goes | apply Goes.snoc State.panelRefresh_goes

theorem State.tok_goes {s : State} {n op : Nat} {eff : Flight → TokFields → State → State}
    (heff : ∀ (a0 : Flight) (a1 : TokFields) (a2 : State), State.Goes a2 (eff a0 a1 a2)) : s.Goes (State.tok s n op eff) := by
  unfold State.tok
  with_reducible repeat' first
    | exact Goes.refl _ | assumption | fail_if_no_progress extract_lets +onlyGivenNames x
    | apply Goes.snoc State.flightGone_goes | apply Goes.snoc (heff _ _ _) | apply Goes.ite | split

theorem State.branchTo_goes {s : State} {f : Flight} {imm : Nat} : s.Goes (State.branchTo s f imm) := by
  unfold State.branchTo
  with_reducible repeat' first
    | exact Goes.refl _ | assumption | fail_if_no_progress extract_lets +onlyGivenNames x | apply Goes.snoc State.issue_goes
    | apply Goes.snoc State.setPth_goes | apply Goes.snoc State.wrN_goes

theorem State.countEvents_goes {s : State} {p : Nat} {e : BitVec 4} : s.Goes (State.countEvents s p e) := by
  unfold State.countEvents
  with_reducible repeat' first
    | exact Goes.refl _ | assumption | fail_if_no_progress extract_lets +onlyGivenNames x | apply Goes.snoc State.bump_goes
    | (apply Goes.when; on_goal 2 => intro u)

theorem State.threadStart_goes {s : State} {q : Nat} : s.Goes (State.threadStart s q) := by
  unfold State.threadStart
  with_reducible repeat' first
    | exact Goes.refl _ | assumption | fail_if_no_progress extract_lets +onlyGivenNames x
    | apply Goes.snoc State.panelRefresh_goes | apply Goes.snoc State.setPth_goes | apply Goes.snoc State.set1_goes
    | apply Goes.snoc State.wrN_goes | apply Goes.ite

theorem State.threadStop_goes {s : State} {q : Nat} : s.Goes (State.threadStop s q) := by
  unfold State.threadStop
  with_reducible repeat' first
    | exact Goes.refl _ | assumption | fail_if_no_progress extract_lets +onlyGivenNames x
    | apply Goes.snoc State.threadSettle_goes | apply Goes.snoc State.panelRefresh_goes | apply Goes.snoc State.setPth_goes
    | apply Goes.snoc State.clr_goes | apply Goes.ite

theorem execPanelDrain_goes {panel : Nat} {s : State} : ∃ t, execPanelDrain panel s = .next t ∧ s.Goes t := by
  unfold execPanelDrain
  all_goals try refine ⟨_, rfl, ?_⟩
  with_reducible repeat' first
    | exact Goes.refl _ | assumption | fail_if_no_progress extract_lets +onlyGivenNames x
    | apply Goes.snoc State.panelRefresh_goes | apply Goes.snoc State.set1_goes | apply Goes.ite

/-! ### Machine/Moves.lean -/

theorem State.putRegion_goes {s : State} {p h o : Nat} {bs : List Byte} : s.Goes (State.putRegion s p h o bs) := by
  unfold State.putRegion
  with_reducible repeat' first
    | exact Goes.refl _ | assumption | fail_if_no_progress extract_lets +onlyGivenNames x | apply Goes.snoc State.eccLog_goes
    | apply Goes.snoc State.wellWrite_goes | (apply Goes.when; on_goal 2 => intro u)

theorem State.readPieces_goes {s : State} {ag : Agent} {act : MemAct} {ps : List Piece}
    : s.Goes (s.readPieces ag act ps).state := by
  unfold State.readPieces
  refine Goes.foldlAcc_from (Goes.refl s) _ _ (fun p a ha => ?_)
  split
  · split
    · split
      · exact ha
      · exact Goes.trans ha State.hostSend_goes
    · exact ha
  · split
    · exact Goes.trans ha (State.access1_goes_done (hF := by assumption))
    · dsimp only [Acc.state]
      split
      · exact State.hostSend_goes
      · exact Goes.refl s
theorem State.readPieces_goes_done {s : State} {ag : Agent} {act : MemAct} {ps : List Piece} {rc : Code} {rd : List Byte}
    {rt : State} (hF : s.readPieces ag act ps = .done rc rd rt) : s.Goes rt := by
  have g := State.readPieces_goes (s := s) (ag := ag) (act := act) (ps := ps)
  rw [hF] at g; exact g
theorem State.readPieces_goes_wait {s : State} {ag : Agent} {act : MemAct} {ps : List Piece} {rt : State}
    (hF : s.readPieces ag act ps = .wait rt) : s.Goes rt := by
  have g := State.readPieces_goes (s := s) (ag := ag) (act := act) (ps := ps)
  rw [hF] at g; exact g

theorem State.readConsts_goes {s : State} {p : Nat} {ps : List Piece} : s.Goes (s.readConsts p ps).state := by
  unfold State.readConsts
  refine Goes.foldlAcc_from (Goes.refl s) _ _ (fun x a ha => ?_)
  split
  · exact ha
  · split
    · exact ha
    · split
      · exact Goes.trans ha (State.roFill_goes_done (hF := by assumption))
      · exact Goes.refl s
theorem State.readConsts_goes_done {s : State} {p : Nat} {ps : List Piece} {rc : Code} {rd : List Byte} {rt : State}
    (hF : s.readConsts p ps = .done rc rd rt) : s.Goes rt := by
  have g := State.readConsts_goes (s := s) (p := p) (ps := ps)
  rw [hF] at g; exact g
theorem State.readConsts_goes_wait {s : State} {p : Nat} {ps : List Piece} {rt : State} (hF : s.readConsts p ps = .wait rt)
    : s.Goes rt := by
  have g := State.readConsts_goes (s := s) (p := p) (ps := ps)
  rw [hF] at g; exact g

theorem State.loadPieces_goes {s : State} {n : Nat} {f : Flight} {ps : List Piece}
    : s.Goes (State.loadPieces s n f ps).state := by
  unfold State.loadPieces
  with_reducible repeat' first
    | exact Goes.refl _ | assumption | fail_if_no_progress extract_lets +onlyGivenNames x
    | apply Goes.snoc State.readConsts_goes | (apply Goes.snoc (State.readConsts_goes_done (hF := by assumption)))
    | (apply Goes.snoc (State.readConsts_goes_wait (hF := by assumption))) | apply Goes.snoc State.readPieces_goes
    | (apply Goes.snoc (State.readPieces_goes_done (hF := by assumption)))
    | (apply Goes.snoc (State.readPieces_goes_wait (hF := by assumption))) | apply Goes.ite | split
theorem State.loadPieces_goes_done {s : State} {n : Nat} {f : Flight} {ps : List Piece} {rc : Code} {rd : List Byte}
    {rt : State} (hF : State.loadPieces s n f ps = .done rc rd rt) : s.Goes rt := by
  have g := State.loadPieces_goes (s := s) (n := n) (f := f) (ps := ps)
  rw [hF] at g; exact g
theorem State.loadPieces_goes_wait {s : State} {n : Nat} {f : Flight} {ps : List Piece} {rt : State}
    (hF : State.loadPieces s n f ps = .wait rt) : s.Goes rt := by
  have g := State.loadPieces_goes (s := s) (n := n) (f := f) (ps := ps)
  rw [hF] at g; exact g

theorem State.writePieces_goes {s : State} {ag : Agent} {p h : Nat} {act : List Byte → MemAct} {ps : List Piece}
    {rb0 : Code} {rt : State}
    (hF : s.writePieces ag p h act ps = some (rb0, rt)) : s.Goes rt := by
  unfold State.writePieces at hF
  refine Goes.foldlOpt (·.2) (fun x a a' e => ?_) (fun x => rfl) hF
  obtain ⟨b, u⟩ := a
  revert e
  dsimp only
  split
  · rintro ⟨⟩; exact Goes.refl _
  · split
    · rintro ⟨⟩; exact State.access1_goes_done (hF := by assumption)
    · rintro ⟨⟩

theorem State.workEnd_goes {s : State} {n : Nat} {f : Flight} {c : Code} : s.Goes (State.workEnd s n f c) := by
  unfold State.workEnd
  with_reducible repeat' first
    | exact Goes.refl _ | assumption | fail_if_no_progress extract_lets +onlyGivenNames x
    | apply Goes.snoc State.flightFault_goes | apply Goes.snoc State.setFlight_goes | apply Goes.ite

theorem State.mov_goes {s : State} {n op : Nat} {go : Flight → MovFields → State}
    (hgo : ∀ (a0 : Flight) (a1 : MovFields), State.Goes s (go a0 a1)) : s.Goes (State.mov s n op go) := by
  unfold State.mov
  with_reducible repeat' first
    | exact Goes.refl _ | assumption | fail_if_no_progress extract_lets +onlyGivenNames x | apply Goes.snoc (hgo _ _)
    | apply Goes.ite | split

theorem State.recvMove_goes {s : State} {n : Nat} {f : Flight} {x : MovFields} : s.Goes (State.recvMove s n f x) := by
  unfold State.recvMove
  with_reducible repeat' first
    | exact Goes.refl _ | assumption
    | ((fail_if_no_progress extract_lets +onlyGivenNames x);
        refine Goes.cut (t := x) ?_ fun hx => ?_; (on_goal 1 => dsimp -zeta only [x]; clear x); on_goal 2 => clear_value x)
    | fail_if_no_progress extract_lets +onlyGivenNames x | apply Goes.snoc State.putRegion_goes
    | apply Goes.snoc State.setFlight_goes | apply Goes.snoc State.setStream_goes

theorem State.gath_goes {s : State} {n op : Nat} {go : Flight → GatherFields → State}
    (hgo : ∀ (a0 : Flight) (a1 : GatherFields), State.Goes s (go a0 a1)) : s.Goes (State.gath s n op go) := by
  unfold State.gath
  with_reducible repeat' first
    | exact Goes.refl _ | assumption | fail_if_no_progress extract_lets +onlyGivenNames x | apply Goes.snoc (hgo _ _)
    | apply Goes.ite | split

/-! ### Machine/Sequencers.lean -/

theorem State.setCore_goes {s : State} {c : Nat} {x : SeqCore} : s.Goes (State.setCore s c x) := by
  unfold State.setCore
  with_reducible repeat' first
    | exact Goes.refl _ | assumption | fail_if_no_progress extract_lets +onlyGivenNames x | apply Goes.ite | split
    | dsimp -zeta only [Acc.state, Head?.state, Prep.state] | fail_if_no_progress apply Goes.record

theorem State.seqReady_goes {s : State} {k : Nat} : s.Goes (State.seqReady s k) := by
  unfold State.seqReady
  with_reducible repeat' first
    | exact Goes.refl _ | assumption
    | ((fail_if_no_progress extract_lets +onlyGivenNames x);
        refine Goes.cut (t := x) ?_ fun hx => ?_; (on_goal 1 => dsimp -zeta only [x]; clear x); on_goal 2 => clear_value x)
    | fail_if_no_progress extract_lets +onlyGivenNames x | apply Goes.snoc State.setSth_goes | apply Goes.snoc State.wrN_goes
    | apply Goes.ite | split | dsimp -zeta only [Acc.state, Head?.state, Prep.state] | fail_if_no_progress apply Goes.record

theorem State.seqWait_goes {s : State} {k : Nat} {w : SeqWait} : s.Goes (State.seqWait s k w) := by
  unfold State.seqWait
  with_reducible repeat' first
    | exact Goes.refl _ | assumption | fail_if_no_progress extract_lets +onlyGivenNames x | apply Goes.snoc State.setSth_goes
    | apply Goes.snoc State.wrN_goes

theorem State.seqDone_goes {s : State} {k : Nat} : s.Goes (State.seqDone s k) := by
  unfold State.seqDone
  with_reducible repeat' first
    | exact Goes.refl _ | assumption | fail_if_no_progress extract_lets +onlyGivenNames x | apply Goes.snoc State.bump_goes
    | apply Goes.snoc State.wr_goes

theorem State.seqJump_goes {s : State} {k : Nat} {target : Dpa} : s.Goes (State.seqJump s k target) := by
  unfold State.seqJump
  with_reducible repeat' first
    | exact Goes.refl _ | assumption | fail_if_no_progress extract_lets +onlyGivenNames x | apply Goes.snoc State.bump_goes
    | apply Goes.snoc State.wrN_goes

theorem State.seqFault_goes {s : State} {k cause : Nat} {code : Code} : s.Goes (State.seqFault s k cause code) := by
  unfold State.seqFault
  with_reducible repeat' first
    | exact Goes.refl _ | assumption
    | ((fail_if_no_progress extract_lets +onlyGivenNames x);
        refine Goes.cut (t := x) ?_ fun hx => ?_; (on_goal 1 => dsimp -zeta only [x]; clear x); on_goal 2 => clear_value x)
    | ((fail_if_no_progress extract_lets +onlyGivenNames x);
        refine Goes.cut (t := (x : Val × State).2) ?_ (fun hx => ?_); (on_goal 1 => (dsimp -zeta only [x]; clear x)); (on_goal 2 => clear_value x))
    | fail_if_no_progress extract_lets +onlyGivenNames x | apply Goes.snoc State.partFault_goes
    | apply Goes.snoc State.seqStop_goes | apply Goes.snoc State.seqCapture_goes | apply Goes.snoc State.draw_goes
    | (apply Goes.snoc (State.draw_goes_eq (hF := by assumption))) | apply Goes.snoc State.bump_goes | apply Goes.ite

theorem State.seqExec_goes {s : State} {th : SeqThread} {srcs : List Nat} {body : Nat → State → State}
    (hbody : ∀ (a0 : Nat) (a1 : State), State.Goes a1 (body a0 a1)) : s.Goes (State.seqExec s th srcs body) := by
  unfold State.seqExec
  with_reducible repeat' first
    | exact Goes.refl _ | assumption
    | ((fail_if_no_progress extract_lets +onlyGivenNames x);
        refine Goes.cut (t := x) ?_ fun hx => ?_; (on_goal 1 => dsimp -zeta only [x]; clear x); on_goal 2 => clear_value x)
    | fail_if_no_progress extract_lets +onlyGivenNames x | apply Goes.snoc State.seqFault_goes
    | apply Goes.snoc State.setCore_goes | apply Goes.snoc (hbody _ _) | apply Goes.ite

theorem State.seqReg_goes {s : State} {th : SeqThread} {srcs : List Nat} {rd : Nat} {f : SeqState → State → Val}
    : s.Goes (State.seqReg s th srcs rd f) := by
  unfold State.seqReg
  with_reducible repeat' first
    | exact Goes.refl _ | assumption | fail_if_no_progress extract_lets +onlyGivenNames x
    | apply Goes.snoc (State.seqExec_goes ?_) | apply Goes.snoc State.seqDone_goes | apply Goes.snoc State.setSth_goes
    | apply Goes.ite | split | intro x

theorem State.alu_goes {s : State} {th : SeqThread} {op : AluOp} {rd ra rb : Nat} : s.Goes (State.alu s th op rd ra rb) := by
  unfold State.alu
  with_reducible repeat' first
    | exact Goes.refl _ | assumption | fail_if_no_progress extract_lets +onlyGivenNames x | apply Goes.snoc State.seqReg_goes

theorem State.shiftImm_goes {s : State} {th : SeqThread} {op : AluOp} {rd ra : Nat} {imm : BitVec 14}
    : s.Goes (State.shiftImm s th op rd ra imm) := by
  unfold State.shiftImm
  with_reducible repeat' first
    | exact Goes.refl _ | assumption | fail_if_no_progress extract_lets +onlyGivenNames x | apply Goes.snoc State.seqReg_goes
    | apply Goes.snoc (State.seqExec_goes ?_) | apply Goes.snoc State.seqFault_goes | apply Goes.ite | split | intro x

theorem State.seqLoad_goes {s : State} {th : SeqThread} {rd ra : Nat} {imm : BitVec 14} {n : Nat}
    {isSigned noncached cached : Bool} : s.Goes (State.seqLoad s th rd ra imm n isSigned noncached cached) := by
  unfold State.seqLoad
  with_reducible repeat' first
    | exact Goes.refl _ | assumption
    | ((fail_if_no_progress extract_lets +onlyGivenNames x);
        refine Goes.cut (t := x) ?_ fun hx => ?_; (on_goal 1 => dsimp -zeta only [x]; clear x); on_goal 2 => clear_value x)
    | fail_if_no_progress extract_lets +onlyGivenNames x | apply Goes.snoc (State.seqExec_goes ?_)
    | apply Goes.snoc State.seqFault_goes | apply Goes.snoc State.seqDone_goes | apply Goes.snoc State.seqWait_goes
    | apply Goes.snoc State.setCore_goes | apply Goes.snoc State.setSth_goes | apply Goes.snoc State.dropLine_goes
    | apply Goes.snoc State.bump_goes | apply Goes.ite | split | intro x

theorem State.seqStore_goes {s : State} {th : SeqThread} {rs ra : Nat} {imm : BitVec 14} {n : Nat}
    : s.Goes (State.seqStore s th rs ra imm n) := by
  unfold State.seqStore
  with_reducible repeat' first
    | exact Goes.refl _ | assumption | fail_if_no_progress extract_lets +onlyGivenNames x
    | apply Goes.snoc (State.seqExec_goes ?_) | apply Goes.snoc State.seqFault_goes | apply Goes.snoc State.seqDone_goes
    | apply Goes.snoc State.seqWait_goes | apply Goes.snoc State.setCore_goes | apply Goes.snoc State.hostWrite_goes
    | (apply Goes.snoc (State.hostWrite_goes_eq (hF := by assumption))) | apply Goes.ite | split | intro x

theorem State.seqAmo_goes {s : State} {th : SeqThread} {op : AtomicOp} {rd ra rb : Nat} {wide : Bool}
    : s.Goes (State.seqAmo s th op rd ra rb wide) := by
  unfold State.seqAmo
  with_reducible repeat' first
    | exact Goes.refl _ | assumption | fail_if_no_progress extract_lets +onlyGivenNames x
    | apply Goes.snoc (State.seqExec_goes ?_) | apply Goes.snoc State.seqFault_goes | apply Goes.snoc State.seqWait_goes
    | apply Goes.snoc State.setCore_goes | apply Goes.snoc State.dropLine_goes | apply Goes.ite | split | intro x

theorem State.predict_goes {s : State} {k : Nat} {predicted : Bool} : s.Goes (State.predict s k predicted) := by
  unfold State.predict
  with_reducible repeat' first
    | exact Goes.refl _ | assumption | fail_if_no_progress extract_lets +onlyGivenNames x | apply Goes.snoc State.bump_goes
    | (apply Goes.when; on_goal 2 => intro u)

theorem State.seqBranch_goes {s : State} {th : SeqThread} {ra rb : Nat} {imm : BitVec 14} {predicted : Bool}
    {cond : Val → Val → Bool} : s.Goes (State.seqBranch s th ra rb imm predicted cond) := by
  unfold State.seqBranch
  with_reducible repeat' first
    | exact Goes.refl _ | assumption
    | ((fail_if_no_progress extract_lets +onlyGivenNames x);
        refine Goes.cut (t := x) ?_ fun hx => ?_; (on_goal 1 => dsimp -zeta only [x]; clear x); on_goal 2 => clear_value x)
    | fail_if_no_progress extract_lets +onlyGivenNames x | apply Goes.snoc State.predict_goes
    | apply Goes.snoc (State.seqExec_goes ?_) | apply Goes.snoc State.seqDone_goes | apply Goes.snoc State.bump_goes
    | apply Goes.snoc State.wr_goes | apply Goes.ite | split | intro x

theorem State.seqInvalidate_goes {s : State} {k : Nat} : s.Goes (State.seqInvalidate s k) := by
  unfold State.seqInvalidate
  with_reducible repeat' first
    | exact Goes.refl _ | assumption | fail_if_no_progress extract_lets +onlyGivenNames x | apply Goes.snoc State.setCore_goes

theorem State.seqReleased_goes {s : State} {th : SeqThread} {srcs : List Nat} {body : Nat → State → State}
    (hbody : ∀ (a0 : Nat) (a1 : State), State.Goes a1 (body a0 a1)) : s.Goes (State.seqReleased s th srcs body) := by
  unfold State.seqReleased
  with_reducible repeat' first
    | exact Goes.refl _ | assumption | fail_if_no_progress extract_lets +onlyGivenNames x
    | apply Goes.snoc (State.seqExec_goes ?_) | apply Goes.snoc State.seqWait_goes | apply Goes.snoc (hbody _ _)
    | apply Goes.ite | split | intro x

theorem State.seqReturn_goes {s : State} {k rd : Nat} {code : Code} {v : Val} : s.Goes (State.seqReturn s k rd code v) := by
  unfold State.seqReturn
  with_reducible repeat' first
    | exact Goes.refl _ | assumption | fail_if_no_progress extract_lets +onlyGivenNames x | apply Goes.snoc State.seqFault_goes
    | apply Goes.snoc State.seqDone_goes | apply Goes.snoc State.seqReady_goes | apply Goes.snoc State.seqStop_goes
    | apply Goes.snoc State.setSth_goes | apply Goes.ite

theorem State.loadReturn_goes {s : State} {k rd : Nat} {d : Dpa} {n : Nat} {isSigned noncached : Bool}
    : s.Goes (State.loadReturn s k rd d n isSigned noncached) := by
  unfold State.loadReturn
  with_reducible repeat' first
    | exact Goes.refl _ | assumption
    | ((fail_if_no_progress extract_lets +onlyGivenNames x);
        refine Goes.cut (t := x) ?_ fun hx => ?_; (on_goal 1 => dsimp -zeta only [x]; clear x); on_goal 2 => clear_value x)
    | fail_if_no_progress extract_lets +onlyGivenNames x | apply Goes.snoc State.seqReturn_goes
    | apply Goes.snoc State.setCore_goes | apply Goes.snoc State.readRange_goes
    | (apply Goes.snoc (State.readRange_goes_done (hF := by assumption)))
    | (apply Goes.snoc (State.readRange_goes_wait (hF := by assumption))) | apply Goes.ite | split

theorem execSeqEnable_goes {th : SeqThread} {s : State} : ∃ t, execSeqEnable th s = .next t ∧ s.Goes t := by
  unfold execSeqEnable
  repeat' first | ((fail_if_no_progress extract_lets +onlyGivenNames x); refine Goes.cutP (s := s) (t := x) ?_ (fun hx => ?_); (on_goal 1 => (dsimp -zeta only [x]; clear x)); (on_goal 2 => clear_value x)) | fail_if_no_progress extract_lets +onlyGivenNames x
  all_goals try refine ⟨_, rfl, ?_⟩
  with_reducible repeat' first
    | exact Goes.refl _ | assumption | fail_if_no_progress extract_lets +onlyGivenNames x | apply Goes.snoc State.seqReady_goes
    | apply Goes.snoc State.setSth_goes | apply Goes.snoc State.set1_goes | apply Goes.ite

theorem execSeqDisable_goes {th : SeqThread} {s : State} : ∃ t, execSeqDisable th s = .next t ∧ s.Goes t := by
  unfold execSeqDisable
  repeat' first | ((fail_if_no_progress extract_lets +onlyGivenNames x); refine Goes.cutP (s := s) (t := x) ?_ (fun hx => ?_); (on_goal 1 => (dsimp -zeta only [x]; clear x)); (on_goal 2 => clear_value x)) | fail_if_no_progress extract_lets +onlyGivenNames x
  all_goals try refine ⟨_, rfl, ?_⟩
  with_reducible repeat' first
    | exact Goes.refl _ | assumption | fail_if_no_progress extract_lets +onlyGivenNames x | apply Goes.snoc State.seqStop_goes
    | apply Goes.snoc State.clr_goes | apply Goes.ite

/-! ### Machine/Trains.lean -/

theorem State.setLaunch_goes {s : State} {c : Nat} {l : Option Launch} : s.Goes (State.setLaunch s c l) := by
  unfold State.setLaunch
  with_reducible repeat' first
    | exact Goes.refl _ | assumption | fail_if_no_progress extract_lets +onlyGivenNames x | apply Goes.ite | split
    | dsimp -zeta only [Acc.state, Head?.state, Prep.state] | fail_if_no_progress apply Goes.record

theorem State.trainTurn_goes {s : State} {c : Nat} {v : Val} {rt : State} (hF : State.trainTurn s c v = some rt)
    : s.Goes rt := by
  unfold State.trainTurn at hF
  revert hF
  with_reducible repeat' first
    | (rintro ⟨⟩) | exact Goes.refl _ | assumption | fail_if_no_progress extract_lets +onlyGivenNames x
    | apply Goes.snoc State.setWo_goes | apply Goes.ite | split

theorem State.trainFinish_goes {s : State} {c : Nat} : s.Goes (State.trainFinish s c) := by
  unfold State.trainFinish
  with_reducible repeat' first
    | exact Goes.refl _ | assumption | fail_if_no_progress extract_lets +onlyGivenNames x | apply Goes.snoc State.setWo_goes

theorem State.resetStreams_goes {s : State} {e : Nat} : s.Goes (State.resetStreams s e) := by
  unfold State.resetStreams
  with_reducible repeat' first
    | exact Goes.refl _ | assumption | fail_if_no_progress extract_lets +onlyGivenNames x | apply Goes.snoc State.setStream_goes
    | apply Goes.snoc State.wrN_goes | apply Goes.snoc State.wr_goes | (apply Goes.each; (on_goal 2 => intro x u))
    | apply Goes.ite | split

theorem State.startLeafThread_goes {s : State} {l : Train} {r : StartRecord} : s.Goes (State.startLeafThread s l r) := by
  unfold State.startLeafThread
  with_reducible repeat' first
    | exact Goes.refl _ | assumption
    | ((fail_if_no_progress extract_lets +onlyGivenNames x);
        refine Goes.cut (t := x) ?_ fun hx => ?_; (on_goal 1 => dsimp -zeta only [x]; clear x); on_goal 2 => clear_value x)
    | fail_if_no_progress extract_lets +onlyGivenNames x | apply Goes.snoc State.threadStart_goes
    | apply Goes.snoc State.setPth_goes | apply Goes.snoc State.flag_goes | apply Goes.snoc State.wrN_goes

/-! ### Machine/Sketch.lean -/

theorem State.clearFields_goes {s : State} {fs : List RegField} : s.Goes (State.clearFields s fs) := by
  unfold State.clearFields
  with_reducible repeat' first
    | exact Goes.refl _ | assumption | fail_if_no_progress extract_lets +onlyGivenNames x | apply Goes.recRegs

theorem State.stopSeqs_goes {s : State} : s.Goes (State.stopSeqs s) := by
  unfold State.stopSeqs
  with_reducible repeat' first
    | exact Goes.refl _ | assumption | fail_if_no_progress extract_lets +onlyGivenNames x | apply Goes.snoc State.unwait_goes
    | apply Goes.snoc State.setSth_goes | apply Goes.snoc State.clr_goes | apply Goes.snoc State.wrN_goes
    | (apply Goes.each; (on_goal 2 => intro x u))

theorem State.putWell_goes {s : State} {w : WellRecord} : s.Goes (State.putWell s w) := by
  unfold State.putWell
  with_reducible repeat' first
    | exact Goes.refl _ | assumption
    | ((fail_if_no_progress extract_lets +onlyGivenNames x);
        refine Goes.cut (t := x) ?_ fun hx => ?_; (on_goal 1 => dsimp -zeta only [x]; clear x); on_goal 2 => clear_value x)
    | fail_if_no_progress extract_lets +onlyGivenNames x | apply Goes.snoc State.flag_goes | apply Goes.snoc State.wrN_goes
    | apply Goes.ite | split | dsimp -zeta only [Acc.state, Head?.state, Prep.state] | fail_if_no_progress apply Goes.record

theorem State.loadQueues_goes {s : State} {k : Sketch} : s.Goes (State.loadQueues s k) := by
  unfold State.loadQueues
  with_reducible repeat' first
    | exact Goes.refl _ | assumption
    | ((fail_if_no_progress extract_lets +onlyGivenNames x);
        refine Goes.cut (t := x) ?_ fun hx => ?_; (on_goal 1 => dsimp -zeta only [x]; clear x); on_goal 2 => clear_value x)
    | fail_if_no_progress extract_lets +onlyGivenNames x | apply Goes.snoc State.qLoad_goes
    | apply Goes.snoc State.qRefresh_goes | apply Goes.snoc State.wr_goes | (apply Goes.each; (on_goal 2 => intro x u))
    | apply Goes.ite | split | intro x | dsimp -zeta only [Acc.state, Head?.state, Prep.state]
    | fail_if_no_progress apply Goes.record

theorem State.rebank_goes {s : State} {c g : Nat} {new : Nat} : s.Goes (State.rebank s c g new) := by
  unfold State.rebank
  with_reducible repeat' first
    | exact Goes.refl _ | assumption
    | ((fail_if_no_progress extract_lets +onlyGivenNames x);
        refine Goes.cut (t := x) ?_ fun hx => ?_; (on_goal 1 => dsimp -zeta only [x]; clear x); on_goal 2 => clear_value x)
    | fail_if_no_progress extract_lets +onlyGivenNames x | apply Goes.snoc State.onGso_goes | apply Goes.snoc State.wrN_goes
    | apply Goes.recErase | apply Goes.recWriteBytes | apply Goes.recRekey

theorem State.applyRetirements_goes {s : State} : s.Goes (State.applyRetirements s) := by
  unfold State.applyRetirements
  with_reducible repeat' first
    | exact Goes.refl _ | assumption
    | ((fail_if_no_progress extract_lets +onlyGivenNames x);
        refine Goes.cut (t := x) ?_ fun hx => ?_; (on_goal 1 => dsimp -zeta only [x]; clear x); on_goal 2 => clear_value x)
    | fail_if_no_progress extract_lets +onlyGivenNames x | apply Goes.snoc State.rebank_goes
    | apply Goes.snoc State.journal_goes | apply Goes.snoc State.wrN_goes | (apply Goes.each; (on_goal 2 => intro x u))

theorem State.applyConfig_goes {s : State} {k : Sketch} : s.Goes (State.applyConfig s k) := by
  unfold State.applyConfig
  with_reducible repeat' first
    | exact Goes.refl _ | assumption
    | ((fail_if_no_progress extract_lets +onlyGivenNames x);
        refine Goes.cut (t := x) ?_ fun hx => ?_; (on_goal 1 => dsimp -zeta only [x]; clear x); on_goal 2 => clear_value x)
    | fail_if_no_progress extract_lets +onlyGivenNames x | apply Goes.snoc State.applyRetirements_goes
    | apply Goes.snoc State.loadQueues_goes | apply Goes.snoc State.putWell_goes | apply Goes.snoc State.stopSeqs_goes
    | apply Goes.snoc State.clearFields_goes | apply Goes.snoc State.seqReady_goes | apply Goes.snoc State.setSth_goes
    | apply Goes.snoc State.hold_goes | apply Goes.snoc State.untackRange_goes | apply Goes.snoc State.roDrop_goes
    | apply Goes.snoc State.flag_goes | apply Goes.snoc State.clr_goes | apply Goes.snoc State.set1_goes
    | apply Goes.snoc State.wrN_goes | apply Goes.snoc State.wr_goes | (apply Goes.each; (on_goal 2 => intro x u))
    | apply Goes.ite | split | intro x | dsimp -zeta only [Acc.state, Head?.state, Prep.state]
    | fail_if_no_progress apply Goes.record

theorem State.applyPrimer_goes {s : State} : s.Goes (State.applyPrimer s) := by
  unfold State.applyPrimer
  with_reducible repeat' first
    | exact Goes.refl _ | assumption
    | ((fail_if_no_progress extract_lets +onlyGivenNames x);
        refine Goes.cut (t := x) ?_ fun hx => ?_; (on_goal 1 => dsimp -zeta only [x]; clear x); on_goal 2 => clear_value x)
    | ((fail_if_no_progress extract_lets +onlyGivenNames x);
        refine Goes.cut (t := (x : Val × State).2) ?_ (fun hx => ?_); (on_goal 1 => (dsimp -zeta only [x]; clear x)); (on_goal 2 => clear_value x))
    | fail_if_no_progress extract_lets +onlyGivenNames x | apply Goes.snoc State.applyConfig_goes
    | apply Goes.snoc State.seqReady_goes | apply Goes.snoc State.reason_goes | apply Goes.snoc State.setMeas_goes
    | apply Goes.snoc State.setSth_goes | apply Goes.snoc State.draw_goes
    | (apply Goes.snoc (State.draw_goes_eq (hF := by assumption))) | apply Goes.snoc State.clr_goes
    | apply Goes.snoc State.set1_goes | apply Goes.snoc State.wrN_goes | apply Goes.snoc State.wr_goes
    | (apply Goes.each; (on_goal 2 => intro x u))

theorem State.sktState_goes {s : State} {v : Nat} : s.Goes (State.sktState s v) := by
  unfold State.sktState
  with_reducible repeat' first
    | exact Goes.refl _ | assumption | fail_if_no_progress extract_lets +onlyGivenNames x | apply Goes.snoc State.wrN_goes

theorem State.setLoader_goes {s : State} {l : Loader} : s.Goes (State.setLoader s l) := by
  unfold State.setLoader
  with_reducible repeat' first
    | exact Goes.refl _ | assumption | fail_if_no_progress extract_lets +onlyGivenNames x | apply Goes.ite | split
    | dsimp -zeta only [Acc.state, Head?.state, Prep.state] | fail_if_no_progress apply Goes.record

theorem execLoad_goes {s : State} : ∃ t, execLoad s = .next t ∧ s.Goes t := by
  unfold execLoad
  repeat' first | ((fail_if_no_progress extract_lets +onlyGivenNames x); refine Goes.cutP (s := s) (t := x) ?_ (fun hx => ?_); (on_goal 1 => (dsimp -zeta only [x]; clear x)); (on_goal 2 => clear_value x)) | fail_if_no_progress extract_lets +onlyGivenNames x
  all_goals try refine ⟨_, rfl, ?_⟩
  with_reducible repeat' first
    | exact Goes.refl _ | assumption | fail_if_no_progress extract_lets +onlyGivenNames x | apply Goes.snoc State.setLoader_goes
    | apply Goes.snoc State.sktState_goes | apply Goes.snoc State.clr_goes | apply Goes.snoc State.wr_goes | apply Goes.ite
    | split | dsimp -zeta only [Acc.state, Head?.state, Prep.state] | fail_if_no_progress apply Goes.record

theorem State.loadFails_goes {s : State} {code : Code} : s.Goes (State.loadFails s code) := by
  unfold State.loadFails
  with_reducible repeat' first
    | exact Goes.refl _ | assumption | fail_if_no_progress extract_lets +onlyGivenNames x | apply Goes.snoc State.setLoader_goes
    | apply Goes.snoc State.sktState_goes

theorem State.copyBodies_goes {s : State} {bs : List Byte} {cs : List (Dpa × Nat × Nat)} {rb0 : Code} {rt : State}
    (hF : s.copyBodies bs cs = some (rb0, rt)) : s.Goes rt := by
  unfold State.copyBodies at hF
  refine Goes.foldlOpt (·.2) (fun x a a' e => ?_) (fun x => rfl) hF
  obtain ⟨b, u⟩ := a
  revert e
  dsimp only
  split
  · rintro ⟨⟩; exact State.writeRange_goes_done (hF := by assumption)
  · rintro ⟨⟩

theorem State.clearPartFaults_goes {s : State} : s.Goes (State.clearPartFaults s) := by
  unfold State.clearPartFaults
  with_reducible repeat' first
    | exact Goes.refl _ | assumption | fail_if_no_progress extract_lets +onlyGivenNames x
    | apply Goes.snoc State.clearFields_goes

/-! ### Machine/Dma.lean -/

theorem State.dmaStart_goes {s : State} {ch op : Nat} : s.Goes (State.dmaStart s ch op) := by
  unfold State.dmaStart
  with_reducible repeat' first
    | exact Goes.refl _ | assumption
    | ((fail_if_no_progress extract_lets +onlyGivenNames x);
        refine Goes.cut (t := x) ?_ fun hx => ?_; (on_goal 1 => dsimp -zeta only [x]; clear x); on_goal 2 => clear_value x)
    | fail_if_no_progress extract_lets +onlyGivenNames x | apply Goes.snoc State.qNext_goes
    | (apply Goes.snoc (State.qNext_goes_idle (hF := by assumption)))
    | (apply Goes.snoc (State.qNext_goes_failed (hF := by assumption)))
    | (apply Goes.snoc (State.qNext_goes_cmd (hF := by assumption))) | apply Goes.snoc State.setRuns_goes
    | apply Goes.snoc State.qTake_goes | apply Goes.snoc State.qFail_goes | apply Goes.snoc State.wrN_goes | apply Goes.ite
    | split | dsimp -zeta only [Acc.state, Head?.state, Prep.state] | fail_if_no_progress apply Goes.record

theorem State.burstRead_goes {s : State} {ag : Agent} {d : DmaDesc} {ps : List BurstPart}
    : s.Goes (s.burstRead ag d ps).state := by
  unfold State.burstRead
  refine Goes.foldlAcc (Goes.refl s) _ _ (fun p a => ?_)
  dsimp only
  split
  · exact Goes.refl _
  · next c xs t =>
    have h : t.Goes (if d.op = 2 then t.access1 ag p.src 2048 (.turn d.fmt) else t.readRange ag p.src p.len).state := by
      split
      · exact State.access1_goes
      · exact State.readRange_goes
    generalize (if d.op = 2 then t.access1 ag p.src 2048 (.turn d.fmt) else t.readRange ag p.src p.len) = a at h ⊢
    cases a with
    | done c' ys u => exact h
    | wait u => exact Goes.record (X := u) h ..
theorem State.burstRead_goes_done {s : State} {ag : Agent} {d : DmaDesc} {ps : List BurstPart} {rc : Code} {rd : List Byte}
    {rt : State} (hF : s.burstRead ag d ps = .done rc rd rt) : s.Goes rt := by
  have g := State.burstRead_goes (s := s) (ag := ag) (d := d) (ps := ps)
  rw [hF] at g; exact g
theorem State.burstRead_goes_wait {s : State} {ag : Agent} {d : DmaDesc} {ps : List BurstPart} {rt : State}
    (hF : s.burstRead ag d ps = .wait rt) : s.Goes rt := by
  have g := State.burstRead_goes (s := s) (ag := ag) (d := d) (ps := ps)
  rw [hF] at g; exact g

theorem State.burstWrite_goes {s : State} {ag : Agent} {d : DmaDesc} {ps : List BurstPart} {bs : List Byte} {rb0 : Code} {rt
    : State}
    (hF : s.burstWrite ag d ps bs = some (rb0, rt)) : s.Goes rt := by
  unfold State.burstWrite at hF
  refine Goes.foldlOpt (·.2) (fun p a a' e => ?_) (fun x => rfl) hF
  refine Goes.foldlOpt (·.2) (fun w b b' k => ?_) (fun x => rfl) e
  obtain ⟨c, t⟩ := b
  revert k
  dsimp only
  split
  · rintro ⟨⟩; exact State.access1_goes_done (hF := by assumption)
  · rintro ⟨⟩

theorem State.burstRemote_goes {s : State} {d : DmaDesc} {ps : List BurstPart} {bs : List Byte}
    : s.Goes (State.burstRemote s d ps bs) := by
  unfold State.burstRemote
  with_reducible repeat' first
    | exact Goes.refl _ | assumption | fail_if_no_progress extract_lets +onlyGivenNames x | apply Goes.snoc State.send_goes
    | (apply Goes.each; (on_goal 2 => intro x u)) | apply Goes.ite

theorem State.burstHost_goes {s : State} {ag : Agent} {d : DmaDesc} {ps : List BurstPart}
    : s.Goes (State.burstHost s ag d ps) := by
  unfold State.burstHost
  with_reducible repeat' first
    | exact Goes.refl _ | assumption | fail_if_no_progress extract_lets +onlyGivenNames x | apply Goes.snoc State.hostSend_goes
    | (apply Goes.each; (on_goal 2 => intro x u)) | apply Goes.ite

theorem State.setRun_goes {s : State} {ch : Nat} {r : DmaRun} : s.Goes (State.setRun s ch r) := by
  unfold State.setRun
  with_reducible repeat' first
    | exact Goes.refl _ | assumption | fail_if_no_progress extract_lets +onlyGivenNames x | apply Goes.snoc State.setRuns_goes

theorem State.burstFail_goes {s : State} {ch : Nat} {r : DmaRun} {b : DmaBurst} {code : Code} {delivered : Bool}
    : s.Goes (State.burstFail s ch r b code delivered) := by
  unfold State.burstFail
  with_reducible repeat' first
    | exact Goes.refl _ | assumption | fail_if_no_progress extract_lets +onlyGivenNames x | apply Goes.snoc State.setRun_goes
    | apply Goes.snoc State.dmaSettle_goes | apply Goes.ite

theorem State.burstDone_goes {s : State} {ch : Nat} {r : DmaRun} {b : DmaBurst} : s.Goes (State.burstDone s ch r b) := by
  unfold State.burstDone
  with_reducible repeat' first
    | exact Goes.refl _ | assumption
    | ((fail_if_no_progress extract_lets +onlyGivenNames x);
        refine Goes.cut (t := x) ?_ fun hx => ?_; (on_goal 1 => dsimp -zeta only [x]; clear x); on_goal 2 => clear_value x)
    | fail_if_no_progress extract_lets +onlyGivenNames x | apply Goes.snoc State.setRun_goes
    | apply Goes.snoc State.dmaSettle_goes | apply Goes.snoc State.send_goes | apply Goes.ite

theorem State.dmaStopSettle_goes {s : State} {ch : Nat} : s.Goes (State.dmaStopSettle s ch) := by
  unfold State.dmaStopSettle
  with_reducible repeat' first
    | exact Goes.refl _ | assumption | fail_if_no_progress extract_lets +onlyGivenNames x | apply Goes.snoc State.clr_goes
    | apply Goes.snoc State.wrN_goes | apply Goes.ite

theorem State.dmaComplete_goes {s : State} {ch : Nat} {r : DmaRun} : s.Goes (State.dmaComplete s ch r) := by
  unfold State.dmaComplete
  with_reducible repeat' first
    | exact Goes.refl _ | assumption
    | ((fail_if_no_progress extract_lets +onlyGivenNames x);
        refine Goes.cut (t := x) ?_ fun hx => ?_; (on_goal 1 => dsimp -zeta only [x]; clear x); on_goal 2 => clear_value x)
    | fail_if_no_progress extract_lets +onlyGivenNames x | apply Goes.snoc State.dmaStopSettle_goes
    | apply Goes.snoc State.setRuns_goes | apply Goes.snoc State.qFail_goes | apply Goes.snoc State.qComplete_goes
    | apply Goes.snoc State.bump_goes | apply Goes.snoc State.wrN_goes | (apply Goes.when; on_goal 2 => intro u)
    | apply Goes.ite

theorem execDmaResumeRetry_goes {port : Port} {channel : Nat} {s : State}
    : ∃ t, execDmaResumeRetry port channel s = .next t ∧ s.Goes t := by
  unfold execDmaResumeRetry
  repeat' fail_if_no_progress extract_lets +onlyGivenNames x
  all_goals try refine ⟨_, rfl, ?_⟩
  with_reducible repeat' first
    | exact Goes.refl _ | assumption
    | ((fail_if_no_progress extract_lets +onlyGivenNames x);
        refine Goes.cut (t := x) ?_ fun hx => ?_; (on_goal 1 => dsimp -zeta only [x]; clear x); on_goal 2 => clear_value x)
    | fail_if_no_progress extract_lets +onlyGivenNames x | apply Goes.snoc State.setRuns_goes
    | apply Goes.snoc (State.qWrite_goes ?_) | apply Goes.snoc State.qResume_goes | apply Goes.snoc State.qRefresh_goes
    | apply Goes.snoc State.qSummary_goes | apply Goes.snoc State.setRing_goes | apply Goes.snoc State.wrN_goes | apply Goes.ite
    | split | intro x | dsimp -zeta only [Acc.state, Head?.state, Prep.state] | fail_if_no_progress apply Goes.record

theorem execDmaResumeSkip_goes {port : Port} {channel : Nat} {s : State}
    : ∃ t, execDmaResumeSkip port channel s = .next t ∧ s.Goes t := by
  unfold execDmaResumeSkip
  repeat' fail_if_no_progress extract_lets +onlyGivenNames x
  all_goals try refine ⟨_, rfl, ?_⟩
  with_reducible repeat' first
    | exact Goes.refl _ | assumption | fail_if_no_progress extract_lets +onlyGivenNames x
    | apply Goes.snoc State.dmaStopSettle_goes | apply Goes.snoc (State.qWrite_goes ?_) | apply Goes.snoc State.qResume_goes
    | apply Goes.ite | split | intro x | dsimp -zeta only [Acc.state, Head?.state, Prep.state]
    | fail_if_no_progress apply Goes.record

theorem execDmaStop_goes {port : Port} {channel : Nat} {s : State} : ∃ t, execDmaStop port channel s = .next t ∧ s.Goes t := by
  unfold execDmaStop
  all_goals try refine ⟨_, rfl, ?_⟩
  with_reducible repeat' first
    | exact Goes.refl _ | assumption | fail_if_no_progress extract_lets +onlyGivenNames x
    | apply Goes.snoc State.dmaStopSettle_goes | apply Goes.snoc (State.qWrite_goes ?_) | apply Goes.snoc State.set1_goes
    | apply Goes.ite | split | intro x

theorem execDmaEnable_goes {port : Port} {channel : Nat} {enable : Bool} {s : State}
    : ∃ t, execDmaEnable port channel enable s = .next t ∧ s.Goes t := by
  unfold execDmaEnable
  all_goals try refine ⟨_, rfl, ?_⟩
  with_reducible repeat' first
    | exact Goes.refl _ | assumption
    | ((fail_if_no_progress extract_lets +onlyGivenNames x);
        refine Goes.cut (t := x) ?_ fun hx => ?_; (on_goal 1 => dsimp -zeta only [x]; clear x); on_goal 2 => clear_value x)
    | fail_if_no_progress extract_lets +onlyGivenNames x | apply Goes.snoc (State.qWrite_goes ?_)
    | apply Goes.snoc State.qEnable_goes | apply Goes.snoc State.wrN_goes | apply Goes.ite | split | intro x

theorem State.postWrite_goes {s : State} {ch : Nat} {b : List Byte} {rt : State} (hF : State.postWrite s ch b = some rt)
    : s.Goes rt := by
  unfold State.postWrite at hF
  revert hF
  with_reducible repeat' first
    | (rintro ⟨⟩) | exact Goes.refl _ | assumption | fail_if_no_progress extract_lets +onlyGivenNames x
    | apply Goes.snoc State.writeRange_goes | (apply Goes.snoc (State.writeRange_goes_done (hF := by assumption)))
    | (apply Goes.snoc (State.writeRange_goes_wait (hF := by assumption))) | apply Goes.snoc State.qSetTail_goes
    | apply Goes.ite | split

theorem State.dmaPost_goes {s : State} {ch p : Nat} {d : Dpa} : s.Goes (State.dmaPost s ch p d).2 := by
  unfold State.dmaPost
  with_reducible repeat' first
    | exact Goes.refl _ | assumption | fail_if_no_progress extract_lets +onlyGivenNames x
    | (apply Goes.snoc (State.postWrite_goes (hF := by assumption))) | apply Goes.snoc State.readRange_goes
    | (apply Goes.snoc (State.readRange_goes_done (hF := by assumption)))
    | (apply Goes.snoc (State.readRange_goes_wait (hF := by assumption))) | apply Goes.ite | split
theorem State.dmaPost_goes_eq {s : State} {ch p : Nat} {d : Dpa} {rb0 : Option Code} {rt : State}
    (hF : State.dmaPost s ch p d = (rb0, rt)) : s.Goes rt := by
  unfold State.dmaPost at hF
  revert hF
  with_reducible repeat' first
    | (rintro ⟨⟩) | exact Goes.refl _ | assumption | fail_if_no_progress extract_lets +onlyGivenNames x
    | (apply Goes.snoc (State.postWrite_goes (hF := by assumption))) | apply Goes.snoc State.readRange_goes
    | (apply Goes.snoc (State.readRange_goes_done (hF := by assumption)))
    | (apply Goes.snoc (State.readRange_goes_wait (hF := by assumption))) | apply Goes.ite | split

/-! ### Machine/SeqCommands.lean -/

theorem State.seqTrain_goes {s : State} {th : SeqThread} {op ra : Nat} : s.Goes (State.seqTrain s th op ra) := by
  unfold State.seqTrain
  with_reducible repeat' first
    | exact Goes.refl _ | assumption | fail_if_no_progress extract_lets +onlyGivenNames x
    | apply Goes.snoc (State.seqReleased_goes ?_) | apply Goes.snoc State.seqDone_goes | apply Goes.snoc State.seqWait_goes
    | apply Goes.snoc State.setWo_goes | apply Goes.ite | split | intro x

/-! ### Machine/Errors.lean -/

theorem State.lapEnd_goes {s : State} {c : Nat} : s.Goes (State.lapEnd s c) := by
  unfold State.lapEnd
  with_reducible repeat' first
    | exact Goes.refl _ | assumption | fail_if_no_progress extract_lets +onlyGivenNames x | apply Goes.snoc State.onGso_goes
    | apply Goes.snoc State.wrN_goes

theorem State.lapWarn_goes {s : State} {c : Nat} : s.Goes (State.lapWarn s c) := by
  unfold State.lapWarn
  with_reducible repeat' first
    | exact Goes.refl _ | assumption | fail_if_no_progress extract_lets +onlyGivenNames x | apply Goes.snoc State.onGso_goes
    | apply Goes.snoc State.set1_goes | apply Goes.ite

theorem execBankRetireRequest_goes {canvas channel : Nat} {mask : Word32} {s : State}
    : ∃ t, execBankRetireRequest canvas channel mask s = .next t ∧ s.Goes t := by
  unfold execBankRetireRequest
  repeat' fail_if_no_progress extract_lets +onlyGivenNames x
  all_goals try refine ⟨_, rfl, ?_⟩
  with_reducible repeat' first
    | exact Goes.refl _ | assumption | fail_if_no_progress extract_lets +onlyGivenNames x | apply Goes.snoc State.set1_goes
    | apply Goes.snoc State.wrN_goes | apply Goes.ite

theorem execPartFaultClear_goes {part : Nat} {data : Word32} {s : State}
    : ∃ t, execPartFaultClear part data s = .next t ∧ s.Goes t := by
  unfold execPartFaultClear
  repeat' first | ((fail_if_no_progress extract_lets +onlyGivenNames x); refine Goes.cutP (s := s) (t := x) ?_ (fun hx => ?_); (on_goal 1 => (dsimp -zeta only [x]; clear x)); (on_goal 2 => clear_value x)) | fail_if_no_progress extract_lets +onlyGivenNames x
  all_goals try refine ⟨_, rfl, ?_⟩
  with_reducible repeat' first
    | exact Goes.refl _ | assumption | fail_if_no_progress extract_lets +onlyGivenNames x | apply Goes.snoc State.clr_goes
    | apply Goes.snoc State.set1_goes | (apply Goes.when; on_goal 2 => intro u) | apply Goes.ite

theorem State.stallFaults_goes {s : State} {ps : List (Nat × Bool)} : s.Goes (State.stallFaults s ps) := by
  unfold State.stallFaults
  with_reducible repeat' first
    | exact Goes.refl _ | assumption | fail_if_no_progress extract_lets +onlyGivenNames x | apply Goes.snoc State.partFault_goes
    | (apply Goes.each; (on_goal 2 => intro x u))

end Sys2Proof.Machine
end

