-- ==== Sys2Proof/Laws/GoesUnits.lean ====
section
/-! SUPPORT. What the shared operations do to a state (State.Goes): coats, the finish units, links, islands and collectives.
Each lemma covers every state, and an operation that answers a state beside a result or not at all has its lemma for every answer. -/

namespace Sys2Proof.Machine

/-! ### Machine/Coats.lean -/

theorem State.coatRefuse_goes {s : State} {q : Nat} {b : List Byte} {code : Code} : s.Goes (State.coatRefuse s q b code) := by
  unfold State.coatRefuse
  with_reducible repeat' first
    | exact Goes.refl _ | assumption
    | ((fail_if_no_progress extract_lets +onlyGivenNames x);
        refine Goes.cut (t := x) ?_ fun hx => ?_; (on_goal 1 => dsimp -zeta only [x]; clear x); on_goal 2 => clear_value x)
    | fail_if_no_progress extract_lets +onlyGivenNames x | apply Goes.snoc State.qRefuse_goes | apply Goes.snoc State.post_goes
    | apply Goes.snoc State.bump_goes | apply Goes.snoc State.set1_goes | apply Goes.snoc State.wrN_goes
    | apply Goes.snoc State.wr_goes | (apply Goes.when; on_goal 2 => intro u) | apply Goes.ite

theorem State.grantKey_goes {s : State} {id : Nat} {key : LockKey} : s.Goes (State.grantKey s id key) := by
  unfold State.grantKey
  with_reducible repeat' first
    | exact Goes.refl _ | assumption | fail_if_no_progress extract_lets +onlyGivenNames x | apply Goes.snoc State.setCoat_goes
    | apply Goes.ite | split

theorem State.requestKey_goes {s : State} {id : Nat} {key : LockKey} : s.Goes (State.requestKey s id key) := by
  unfold State.requestKey
  with_reducible repeat' first
    | exact Goes.refl _ | assumption
    | ((fail_if_no_progress extract_lets +onlyGivenNames x);
        refine Goes.cut (t := x) ?_ fun hx => ?_; (on_goal 1 => dsimp -zeta only [x]; clear x); on_goal 2 => clear_value x)
    | fail_if_no_progress extract_lets +onlyGivenNames x | apply Goes.snoc State.grantKey_goes
    | apply Goes.snoc State.coatAbort_goes | apply Goes.snoc State.send_goes | apply Goes.snoc State.bump_goes | apply Goes.ite
    | split

theorem State.prepareBegin_goes {s : State} {id : Nat} : s.Goes (State.prepareBegin s id) := by
  unfold State.prepareBegin
  with_reducible repeat' first
    | exact Goes.refl _ | assumption | fail_if_no_progress extract_lets +onlyGivenNames x
    | apply Goes.snoc State.requestKey_goes | apply Goes.snoc State.coatAbort_goes | apply Goes.snoc State.setCoat_goes
    | (apply Goes.each; (on_goal 2 => intro x u)) | apply Goes.ite | split

theorem State.prepareAction_goes {s : State} {id : Nat} {c : Coat} {i : Nat} {a : CoatAction}
    : s.Goes (State.prepareAction s id c i a).state := by
  unfold State.prepareAction
  with_reducible repeat' first
    | exact Goes.refl _ | assumption | fail_if_no_progress extract_lets +onlyGivenNames x | apply Goes.snoc State.setCoat_goes
    | apply Goes.snoc State.hold_goes | apply Goes.snoc State.readRange_goes
    | (apply Goes.snoc (State.readRange_goes_done (hF := by assumption)))
    | (apply Goes.snoc (State.readRange_goes_wait (hF := by assumption))) | apply Goes.ite | split
    | dsimp -zeta only [Acc.state, Head?.state, Prep.state]
theorem State.prepareAction_goes_wait {s : State} {id : Nat} {c : Coat} {i : Nat} {a : CoatAction} {rt : State}
    (hF : State.prepareAction s id c i a = .wait rt) : s.Goes rt := by
  have g := State.prepareAction_goes (s := s) (id := id) (c := c) (i := i) (a := a)
  rw [hF] at g; exact g
theorem State.prepareAction_goes_ready {s : State} {id : Nat} {c : Coat} {i : Nat} {a : CoatAction} {rt : State}
    (hF : State.prepareAction s id c i a = .ready rt) : s.Goes rt := by
  have g := State.prepareAction_goes (s := s) (id := id) (c := c) (i := i) (a := a)
  rw [hF] at g; exact g
theorem State.prepareAction_goes_fail {s : State} {id : Nat} {c : Coat} {i : Nat} {a : CoatAction} {rc : Code} {rt : State}
    (hF : State.prepareAction s id c i a = .fail rc rt) : s.Goes rt := by
  have g := State.prepareAction_goes (s := s) (id := id) (c := c) (i := i) (a := a)
  rw [hF] at g; exact g

theorem State.prepareStep_goes {s : State} {id i : Nat} : s.Goes (State.prepareStep s id i) := by
  unfold State.prepareStep
  with_reducible repeat' first
    | exact Goes.refl _ | assumption | fail_if_no_progress extract_lets +onlyGivenNames x
    | apply Goes.snoc State.prepareAction_goes | (apply Goes.snoc (State.prepareAction_goes_wait (hF := by assumption)))
    | (apply Goes.snoc (State.prepareAction_goes_ready (hF := by assumption)))
    | (apply Goes.snoc (State.prepareAction_goes_fail (hF := by assumption))) | apply Goes.snoc State.coatAbort_goes
    | apply Goes.snoc State.setCoat_goes | apply Goes.ite | split

theorem State.learn_goes {s : State} {id : Nat} {c : Coat} : s.Goes (State.learn s id c) := by
  unfold State.learn
  with_reducible repeat' first
    | exact Goes.refl _ | assumption | fail_if_no_progress extract_lets +onlyGivenNames x | apply Goes.snoc State.setCoat_goes

theorem State.coatTally_goes {s : State} {id : Nat} : s.Goes (State.coatTally s id) := by
  unfold State.coatTally
  with_reducible repeat' first
    | exact Goes.refl _ | assumption | fail_if_no_progress extract_lets +onlyGivenNames x | apply Goes.snoc State.learn_goes
    | apply Goes.snoc State.send_goes | (apply Goes.each; (on_goal 2 => intro x u)) | apply Goes.ite | split

theorem State.participantAbort_goes {s : State} {id : Nat} {c : Coat} {code : Code}
    : s.Goes (State.participantAbort s id c code) := by
  unfold State.participantAbort
  with_reducible repeat' first
    | exact Goes.refl _ | assumption | fail_if_no_progress extract_lets +onlyGivenNames x
    | apply Goes.snoc State.coatFinish_goes | apply Goes.snoc State.coatRelease_goes | apply Goes.snoc State.send_goes

theorem State.coatClose_goes {s : State} {id : Nat} : s.Goes (State.coatClose s id) := by
  unfold State.coatClose
  with_reducible repeat' first
    | exact Goes.refl _ | assumption | fail_if_no_progress extract_lets +onlyGivenNames x
    | apply Goes.snoc State.coatFinish_goes | apply Goes.ite | split

theorem State.inDoubt_goes {s : State} {id : Nat} {c : Coat} : s.Goes (State.inDoubt s id c) := by
  unfold State.inDoubt
  with_reducible repeat' first
    | exact Goes.refl _ | assumption | fail_if_no_progress extract_lets +onlyGivenNames x | apply Goes.snoc State.setCoat_goes
    | apply Goes.snoc State.set1_goes

theorem State.coatCmdRefused_goes {s : State} : s.Goes (State.coatCmdRefused s) := by
  unfold State.coatCmdRefused
  with_reducible repeat' first
    | exact Goes.refl _ | assumption | fail_if_no_progress extract_lets +onlyGivenNames x | apply Goes.snoc State.set1_goes

theorem State.coatCmd_goes {s : State} {op id : Nat} {go : Coat → State → Option State}
    (hgo : ∀ (a0 : Coat) (a1 : State) t, go a0 a1 = some t → State.Goes a1 t) : s.Goes (State.coatCmd s op id go) := by
  unfold State.coatCmd
  with_reducible repeat' first
    | exact Goes.refl _ | assumption | fail_if_no_progress extract_lets +onlyGivenNames x
    | apply Goes.snoc State.coatCmdRefused_goes | apply Goes.snoc (State.woRun_goes ?_)
    | apply Goes.snoc (hgo _ _ _ (by assumption)) | apply Goes.ite | split | intro x

theorem State.coatCanvasLost_goes {s : State} {c : Nat} : s.Goes (State.coatCanvasLost s c) := by
  unfold State.coatCanvasLost
  with_reducible repeat' first
    | exact Goes.refl _ | assumption | fail_if_no_progress extract_lets +onlyGivenNames x | apply Goes.snoc State.coatAbort_goes
    | (apply Goes.each; (on_goal 2 => intro x u)) | apply Goes.ite

/-! ### Machine/Finish.lean -/

theorem State.finRead_goes {s : State} {ag : Agent} {d n : Nat} {rb0 : List Byte} {rb1 : Option (Nat × Code)} {rt : State}
    (hF : s.finRead ag d n = some (rb0, rb1, rt)) : s.Goes rt := by
  unfold State.finRead at hF
  refine Goes.foldlOpt (·.2.2) (fun p a a' e => ?_) (fun x => rfl) hF
  obtain ⟨bs, bad, t⟩ := a
  revert e
  dsimp only
  split
  · rintro ⟨⟩
  · rintro ⟨⟩
    split <;> exact State.access1_goes_done (hF := by assumption)

theorem State.finReads_goes {s : State} {ag : Agent} {arrays : List (Int × Nat × Nat)} {rb0 : List (List Byte)}
    {rb1 : Option (Nat × Code)} {rt : State}
    (hF : s.finReads ag arrays = some (rb0, rb1, rt)) : s.Goes rt := by
  unfold State.finReads at hF
  refine Goes.foldlOpt (·.2.2) (fun p a a' e => ?_) (fun x => rfl) hF
  obtain ⟨bs, bad, t⟩ := a
  revert e
  dsimp only
  split
  · rintro ⟨⟩
  · rintro ⟨⟩; exact State.finRead_goes (hF := by assumption)

theorem State.finWrites_goes {s : State} {ag : Agent} {xs : List (Int × List Byte)} {rb0 : Code} {rt : State}
    (hF : s.finWrites ag xs = some (rb0, rt)) : s.Goes rt := by
  induction xs generalizing s with
  | nil => cases hF; exact Goes.refl _
  | cons x xs ih =>
    unfold State.finWrites at hF
    revert hF
    split
    · rintro ⟨⟩
    · split
      · exact fun h => Goes.trans (State.writeRange_goes_done (hF := by assumption)) (ih h)
      · rintro ⟨⟩; exact State.writeRange_goes_done (hF := by assumption)

theorem State.setTasks_goes {s : State} {c q : Nat} {ts : List FinTask} : s.Goes (State.setTasks s c q ts) := by
  unfold State.setTasks
  with_reducible repeat' first
    | exact Goes.refl _ | assumption | fail_if_no_progress extract_lets +onlyGivenNames x | apply Goes.snoc State.finBusy_goes
    | apply Goes.snoc State.qBusy_goes | apply Goes.ite | split | dsimp -zeta only [Acc.state, Head?.state, Prep.state]
    | fail_if_no_progress apply Goes.record

theorem State.putTask_goes {s : State} {c : Nat} {t : FinTask} : s.Goes (State.putTask s c t) := by
  unfold State.putTask
  with_reducible repeat' first
    | exact Goes.refl _ | assumption | fail_if_no_progress extract_lets +onlyGivenNames x | apply Goes.snoc State.setTasks_goes

theorem State.shardCheck_goes_ok {s : State} {c q : Nat} {d : TaskDesc} {rt : State}
    (hF : State.shardCheck s c q d = .ok rt) : s.Goes rt := by
  unfold State.shardCheck at hF
  revert hF
  with_reducible repeat' first
    | (rintro ⟨⟩) | exact Goes.refl _ | assumption | fail_if_no_progress extract_lets +onlyGivenNames x
    | (apply Goes.snoc (State.finReads_goes (hF := by assumption))) | apply Goes.ite | split
theorem State.shardCheck_goes_refuse {s : State} {c q : Nat} {d : TaskDesc} {rc : Code} {rt : State}
    (hF : State.shardCheck s c q d = .refuse rc rt) : s.Goes rt := by
  unfold State.shardCheck at hF
  revert hF
  with_reducible repeat' first
    | (rintro ⟨⟩) | exact Goes.refl _ | assumption | fail_if_no_progress extract_lets +onlyGivenNames x
    | (apply Goes.snoc (State.finReads_goes (hF := by assumption))) | apply Goes.ite | split

theorem State.finCheck_goes_ok {s : State} {c q : Nat} {b : List Byte} {rt : State} (hF : State.finCheck s c q b = .ok rt)
    : s.Goes rt := by
  unfold State.finCheck at hF
  revert hF
  with_reducible repeat' first
    | (rintro ⟨⟩) | exact Goes.refl _ | assumption | fail_if_no_progress extract_lets +onlyGivenNames x
    | (apply Goes.snoc (State.shardCheck_goes_ok (hF := by assumption))) | apply Goes.ite | split
    | dsimp -zeta only [Acc.state, Head?.state, Prep.state] | fail_if_no_progress apply Goes.record
    | (fail_if_no_progress clear_value *) | intro hF
theorem State.finCheck_goes_refuse {s : State} {c q : Nat} {b : List Byte} {rc : Code} {rt : State}
    (hF : State.finCheck s c q b = .refuse rc rt) : s.Goes rt := by
  unfold State.finCheck at hF
  revert hF
  with_reducible repeat' first
    | (rintro ⟨⟩) | exact Goes.refl _ | assumption | fail_if_no_progress extract_lets +onlyGivenNames x
    | (apply Goes.snoc (State.shardCheck_goes_ok (hF := by assumption)))
    | (apply Goes.snoc (State.shardCheck_goes_refuse (hF := by assumption))) | apply Goes.ite | split
    | dsimp -zeta only [Acc.state, Head?.state, Prep.state] | fail_if_no_progress apply Goes.record
    | (fail_if_no_progress clear_value *) | intro hF

theorem State.finStart_goes {s : State} {c q : Nat} {b : List Byte} {units : List Nat}
    : s.Goes (State.finStart s c q b units) := by
  unfold State.finStart
  with_reducible repeat' first
    | exact Goes.refl _ | assumption
    | ((fail_if_no_progress extract_lets +onlyGivenNames x);
        refine Goes.cut (t := x) ?_ fun hx => ?_; (on_goal 1 => dsimp -zeta only [x]; clear x); on_goal 2 => clear_value x)
    | fail_if_no_progress extract_lets +onlyGivenNames x | apply Goes.snoc State.setTasks_goes
    | apply Goes.snoc State.qTake_goes | apply Goes.ite | split | dsimp -zeta only [Acc.state, Head?.state, Prep.state]
    | fail_if_no_progress apply Goes.record

theorem State.finPick_goes {s : State} {c : Nat} {qs : List Nat} : s.Goes (s.finPick c qs).1 := by
  induction qs generalizing s with
  | nil => exact Goes.refl s
  | cons q qs ih =>
    unfold State.finPick
    repeat' first
      | with_reducible exact Goes.refl _
      | with_reducible exact ih
      | with_reducible apply Goes.trans (k := ih)
      | with_reducible apply Goes.trans (k := State.qNext_goes_idle (hF := by with_reducible assumption))
      | with_reducible apply Goes.trans (k := State.qNext_goes_failed (hF := by with_reducible assumption))
      | with_reducible apply Goes.trans (k := State.qNext_goes_cmd (hF := by with_reducible assumption))
      | split
      | dsimp only

theorem State.taskEnd_goes {s : State} {c : Nat} {t : FinTask} {code : Code} {ev : Events}
    : s.Goes (State.taskEnd s c t code ev) := by
  unfold State.taskEnd
  with_reducible repeat' first
    | exact Goes.refl _ | assumption | fail_if_no_progress extract_lets +onlyGivenNames x | apply Goes.snoc State.putTask_goes

theorem State.onTask_goes {s : State} {c q seq recipe : Nat} {go : FinTask → TaskDesc → State}
    (hgo : ∀ (a0 : FinTask) (a1 : TaskDesc), State.Goes s (go a0 a1)) : s.Goes (State.onTask s c q seq recipe go) := by
  unfold State.onTask
  with_reducible repeat' first
    | exact Goes.refl _ | assumption | fail_if_no_progress extract_lets +onlyGivenNames x | apply Goes.snoc (hgo _ _)
    | apply Goes.ite | split

theorem State.iterations_goes {s : State} {w dflt : Nat} : s.Goes (State.iterations s w dflt).2 := by
  unfold State.iterations
  with_reducible repeat' first
    | exact Goes.refl _ | assumption | fail_if_no_progress extract_lets +onlyGivenNames x | apply Goes.snoc State.draw_goes
    | (apply Goes.snoc (State.draw_goes_eq (hF := by assumption))) | apply Goes.ite | split
theorem State.iterations_goes_eq {s : State} {w dflt : Nat} {rb0 : Nat} {rt : State}
    (hF : State.iterations s w dflt = (rb0, rt)) : s.Goes rt := by
  unfold State.iterations at hF
  revert hF
  with_reducible repeat' first
    | (rintro ⟨⟩) | exact Goes.refl _ | assumption | fail_if_no_progress extract_lets +onlyGivenNames x
    | apply Goes.snoc State.draw_goes | apply Goes.ite | split

theorem State.rootStep_goes {s : State} {w step : Nat} : s.Goes (State.rootStep s w step).2 := by
  unfold State.rootStep
  with_reducible repeat' first
    | exact Goes.refl _ | assumption | fail_if_no_progress extract_lets +onlyGivenNames x | apply Goes.snoc State.draw_goes
    | (apply Goes.snoc (State.draw_goes_eq (hF := by assumption))) | apply Goes.ite | split
theorem State.rootStep_goes_eq {s : State} {w step : Nat} {rb0 : Bool} {rt : State}
    (hF : State.rootStep s w step = (rb0, rt)) : s.Goes rt := by
  unfold State.rootStep at hF
  revert hF
  with_reducible repeat' first
    | (rintro ⟨⟩) | exact Goes.refl _ | assumption | fail_if_no_progress extract_lets +onlyGivenNames x
    | apply Goes.snoc State.draw_goes | apply Goes.ite | split

theorem State.scratchLeft_goes {s : State} {n : Nat} : s.Goes (State.scratchLeft s n).2 := by
  unfold State.scratchLeft
  with_reducible repeat' first
    | exact Goes.refl _ | assumption | fail_if_no_progress extract_lets +onlyGivenNames x | apply Goes.ite | split
    | dsimp -zeta only [Acc.state, Head?.state, Prep.state] | fail_if_no_progress apply Goes.record
theorem State.scratchLeft_goes_eq {s : State} {n : Nat} {rb0 : List Byte} {rt : State}
    (hF : State.scratchLeft s n = (rb0, rt)) : s.Goes rt := by
  unfold State.scratchLeft at hF
  revert hF
  with_reducible repeat' first
    | (rintro ⟨⟩) | exact Goes.refl _ | assumption | fail_if_no_progress extract_lets +onlyGivenNames x | apply Goes.ite | split
    | dsimp -zeta only [Acc.state, Head?.state, Prep.state] | fail_if_no_progress apply Goes.record

theorem State.runRecipe_goes {s : State} {c : Nat} {t : FinTask} {d : TaskDesc} : s.Goes (s.runRecipe c t d) := by
  unfold State.runRecipe
  split
  · exact Goes.refl s
  · next bs bad u hr =>
    have hu : s.Goes u := State.finReads_goes hr
    extract_lets +onlyGivenNames grad
    extract_lets +onlyGivenNames fault
    clear_value grad fault
    split
    · exact Goes.trans hu State.taskEnd_goes
    · exact Goes.trans hu State.taskEnd_goes
    · extract_lets hp it u1 root u2 r sc
      have h1 : s.Goes u1 := by
        dsimp -zeta only [u1]
        split
        · exact Goes.trans hu State.iterations_goes
        · exact hu
      have h2 : s.Goes u2 := by
        dsimp -zeta only [u2]
        split
        · exact Goes.trans h1 State.rootStep_goes
        · exact h1
      have h3 : s.Goes sc.2 := by
        dsimp -zeta only [sc]
        split
        · exact Goes.trans h2 State.scratchLeft_goes
        · exact h2
      split
      · exact Goes.refl s
      · exact Goes.trans (Goes.trans h3 (State.finWrites_goes (hF := by assumption))) State.taskEnd_goes

theorem State.runSign_goes {s : State} {c : Nat} {t : FinTask} {d : TaskDesc} : s.Goes (State.runSign s c t d) := by
  unfold State.runSign
  with_reducible repeat' first
    | exact Goes.refl _ | assumption | fail_if_no_progress extract_lets +onlyGivenNames x | apply Goes.snoc State.taskEnd_goes
    | (apply Goes.snoc (State.finWrites_goes (hF := by assumption)))
    | (apply Goes.snoc (State.finReads_goes (hF := by assumption))) | apply Goes.ite | split

theorem State.adoptWrite_goes {s : State} {ag : Agent} {bits : Tab (Nat × Nat)} {rb0 : Code} {rt : State}
    (hF : State.adoptWrite s ag bits = some (rb0, rt)) : s.Goes rt := by
  unfold State.adoptWrite at hF
  revert hF
  with_reducible repeat' first
    | (rintro ⟨⟩) | exact Goes.refl _ | assumption | fail_if_no_progress extract_lets +onlyGivenNames x
    | (apply Goes.snoc (State.finWrites_goes (hF := by assumption)))
    | (apply Goes.snoc (State.finReads_goes (hF := by assumption))) | apply Goes.ite | split
    | dsimp -zeta only [Acc.state, Head?.state, Prep.state] | fail_if_no_progress apply Goes.record
    | (fail_if_no_progress clear_value *) | intro hF

theorem State.putPalette_goes {s : State} {bs : Tab (Nat × Nat)} : s.Goes (State.putPalette s bs) := by
  unfold State.putPalette
  with_reducible repeat' first
    | exact Goes.refl _ | assumption | fail_if_no_progress extract_lets +onlyGivenNames x | apply Goes.ite | split
    | dsimp -zeta only [Acc.state, Head?.state, Prep.state] | fail_if_no_progress apply Goes.record

theorem State.unitArith_goes_lost {s : State} {r : UnitRun} {unit : Nat} {res : Except Code StrokeResult} {rt : State}
    (hF : State.unitArith s r unit res = .lost rt) : s.Goes rt := by
  unfold State.unitArith at hF
  revert hF
  with_reducible repeat' first
    | (rintro ⟨⟩) | exact Goes.refl _ | assumption | fail_if_no_progress extract_lets +onlyGivenNames x
    | apply Goes.snoc State.putPalette_goes | apply Goes.ite | split
theorem State.unitArith_goes_fault {s : State} {r : UnitRun} {unit : Nat} {res : Except Code StrokeResult} {rc : Code}
    {rt : State} (hF : State.unitArith s r unit res = .fault rc rt) : s.Goes rt := by
  unfold State.unitArith at hF
  revert hF
  with_reducible repeat' first
    | (rintro ⟨⟩) | exact Goes.refl _ | assumption | fail_if_no_progress extract_lets +onlyGivenNames x
    | apply Goes.snoc State.putPalette_goes | apply Goes.ite | split
theorem State.unitArith_goes_done {s : State} {r : UnitRun} {unit : Nat} {res : Except Code StrokeResult} {rr : UnitRun}
    {re : Events} {rt : State} (hF : State.unitArith s r unit res = .done rr re rt) : s.Goes rt := by
  unfold State.unitArith at hF
  revert hF
  with_reducible repeat' first
    | (rintro ⟨⟩) | exact Goes.refl _ | assumption | fail_if_no_progress extract_lets +onlyGivenNames x
    | apply Goes.snoc State.putPalette_goes | apply Goes.ite | split

theorem State.unitWrites_goes {s : State} {ag : Agent} {unit : Nat} {r : UnitRun} {h : Nat} {act : List Byte → MemAct} {ps
    : List Piece} :
    UnitStep.Goes s (s.unitWrites ag unit r h act ps) := by
  have stuck : ∀ (x : UnitStep) (qs : List Piece), (∀ r' ev t, x ≠ .done r' ev t) → qs.foldl (fun acc p =>
    match acc with
    | .done r' ev t =>
      match t.palBytes unit r h p.off p.len with
      | none => .lost t
      | some bs => match t.access1 ag p.dpa p.len (act bs) with
        | .wait _ => .wait
        | .done c _ u => if c = 0 then .done r' ev u else .fault (memCode c) u
    | x => x) x = x := by
    intro x qs hx
    induction qs with
    | nil => rfl
    | cons q qs ih =>
      rw [List.foldl_cons]
      match x, hx with
      | .wait, _ => exact ih
      | .lost _, _ => exact ih
      | .fault _ _, _ => exact ih
      | .done a b c, hx => exact absurd rfl (hx a b c)
  have go : ∀ (qs : List Piece) (r' : UnitRun) (ev : Events) (t : State), s.Goes t → UnitStep.Goes s (qs.foldl (fun acc p =>
    match acc with
    | .done r' ev t =>
      match t.palBytes unit r h p.off p.len with
      | none => .lost t
      | some bs => match t.access1 ag p.dpa p.len (act bs) with
        | .wait _ => .wait
        | .done c _ u => if c = 0 then .done r' ev u else .fault (memCode c) u
    | x => x) (.done r' ev t)) := by
    intro qs
    induction qs with
    | nil => exact fun r' ev t ht => ht
    | cons q qs ih =>
      intro r' ev t ht
      rw [List.foldl_cons]
      dsimp only
      split
      · rw [stuck _ _ (by intros; nofun)]; exact ht
      · split
        · rw [stuck _ _ (by intros; nofun)]; trivial
        · split
          · exact ih _ _ _ (Goes.trans ht (State.access1_goes_done (hF := by assumption)))
          · rw [stuck _ _ (by intros; nofun)]; exact Goes.trans ht (State.access1_goes_done (hF := by assumption))
  exact go ps r .none s (Goes.refl s)
theorem State.unitWrites_goes_lost {s : State} {ag : Agent} {unit : Nat} {r : UnitRun} {h : Nat} {act : List Byte → MemAct}
    {ps : List Piece} {rt : State}
    (hF : s.unitWrites ag unit r h act ps = .lost rt) : s.Goes rt := by
  have g := State.unitWrites_goes (s := s) (ag := ag) (unit := unit) (r := r) (h := h) (act := act) (ps := ps)
  rw [hF] at g; exact g
theorem State.unitWrites_goes_fault {s : State} {ag : Agent} {unit : Nat} {r : UnitRun} {h : Nat}
    {act : List Byte → MemAct} {ps : List Piece} {rc : Code} {rt : State}
    (hF : s.unitWrites ag unit r h act ps = .fault rc rt) : s.Goes rt := by
  have g := State.unitWrites_goes (s := s) (ag := ag) (unit := unit) (r := r) (h := h) (act := act) (ps := ps)
  rw [hF] at g; exact g
theorem State.unitWrites_goes_done {s : State} {ag : Agent} {unit : Nat} {r : UnitRun} {h : Nat} {act : List Byte → MemAct}
    {ps : List Piece} {rr : UnitRun} {re : Events} {rt : State}
    (hF : s.unitWrites ag unit r h act ps = .done rr re rt) : s.Goes rt := by
  have g := State.unitWrites_goes (s := s) (ag := ag) (unit := unit) (r := r) (h := h) (act := act) (ps := ps)
  rw [hF] at g; exact g

theorem State.unitMov_goes_lost {s : State} {c : Nat} {ag : Agent} {unit : Nat} {r : UnitRun} {f : MovFields} {rt : State}
    (hF : State.unitMov s c ag unit r f = .lost rt) : s.Goes rt := by
  unfold State.unitMov at hF
  revert hF
  with_reducible repeat' first
    | (rintro ⟨⟩) | exact Goes.refl _ | assumption | fail_if_no_progress extract_lets +onlyGivenNames x
    | (apply Goes.snoc (State.unitWrites_goes_lost (hF := by assumption)))
    | (apply Goes.snoc (State.unitWrites_goes_fault (hF := by assumption)))
    | (apply Goes.snoc (State.unitWrites_goes_done (hF := by assumption))) | apply Goes.snoc State.putPalette_goes
    | apply Goes.snoc State.readPieces_goes | (apply Goes.snoc (State.readPieces_goes_done (hF := by assumption)))
    | apply Goes.ite | split | dsimp -zeta only [Acc.state, Head?.state, Prep.state] | fail_if_no_progress apply Goes.record
    | (fail_if_no_progress clear_value *) | intro hF
theorem State.unitMov_goes_fault {s : State} {c : Nat} {ag : Agent} {unit : Nat} {r : UnitRun} {f : MovFields} {rc : Code}
    {rt : State} (hF : State.unitMov s c ag unit r f = .fault rc rt) : s.Goes rt := by
  unfold State.unitMov at hF
  revert hF
  with_reducible repeat' first
    | (rintro ⟨⟩) | exact Goes.refl _ | assumption | fail_if_no_progress extract_lets +onlyGivenNames x
    | (apply Goes.snoc (State.unitWrites_goes_lost (hF := by assumption)))
    | (apply Goes.snoc (State.unitWrites_goes_fault (hF := by assumption)))
    | (apply Goes.snoc (State.unitWrites_goes_done (hF := by assumption))) | apply Goes.snoc State.putPalette_goes
    | apply Goes.snoc State.readPieces_goes | (apply Goes.snoc (State.readPieces_goes_done (hF := by assumption)))
    | apply Goes.ite | split | dsimp -zeta only [Acc.state, Head?.state, Prep.state] | fail_if_no_progress apply Goes.record
    | (fail_if_no_progress clear_value *) | intro hF
theorem State.unitMov_goes_done {s : State} {c : Nat} {ag : Agent} {unit : Nat} {r : UnitRun} {f : MovFields}
    {rr : UnitRun} {re : Events} {rt : State} (hF : State.unitMov s c ag unit r f = .done rr re rt) : s.Goes rt := by
  unfold State.unitMov at hF
  revert hF
  with_reducible repeat' first
    | (rintro ⟨⟩) | exact Goes.refl _ | assumption | fail_if_no_progress extract_lets +onlyGivenNames x
    | (apply Goes.snoc (State.unitWrites_goes_lost (hF := by assumption)))
    | (apply Goes.snoc (State.unitWrites_goes_fault (hF := by assumption)))
    | (apply Goes.snoc (State.unitWrites_goes_done (hF := by assumption))) | apply Goes.snoc State.putPalette_goes
    | apply Goes.snoc State.readPieces_goes | (apply Goes.snoc (State.readPieces_goes_done (hF := by assumption)))
    | apply Goes.ite | split | dsimp -zeta only [Acc.state, Head?.state, Prep.state] | fail_if_no_progress apply Goes.record
    | (fail_if_no_progress clear_value *) | intro hF

theorem State.unitTok_goes_lost {s : State} {part : Nat} {dpa : Nat} {r : UnitRun} {f : TokFields} {rt : State}
    (hF : State.unitTok s part dpa r f = .lost rt) : s.Goes rt := by
  unfold State.unitTok at hF
  revert hF
  with_reducible repeat' first
    | (rintro ⟨⟩) | exact Goes.refl _ | assumption | fail_if_no_progress extract_lets +onlyGivenNames x
    | apply Goes.snoc State.post_goes | apply Goes.ite | split
theorem State.unitTok_goes_fault {s : State} {part : Nat} {dpa : Nat} {r : UnitRun} {f : TokFields} {rc : Code}
    {rt : State} (hF : State.unitTok s part dpa r f = .fault rc rt) : s.Goes rt := by
  unfold State.unitTok at hF
  revert hF
  with_reducible repeat' first
    | (rintro ⟨⟩) | exact Goes.refl _ | assumption | fail_if_no_progress extract_lets +onlyGivenNames x
    | apply Goes.snoc State.post_goes | apply Goes.ite | split
theorem State.unitTok_goes_done {s : State} {part : Nat} {dpa : Nat} {r : UnitRun} {f : TokFields} {rr : UnitRun}
    {re : Events} {rt : State} (hF : State.unitTok s part dpa r f = .done rr re rt) : s.Goes rt := by
  unfold State.unitTok at hF
  revert hF
  with_reducible repeat' first
    | (rintro ⟨⟩) | exact Goes.refl _ | assumption | fail_if_no_progress extract_lets +onlyGivenNames x
    | apply Goes.snoc State.post_goes | apply Goes.ite | split

theorem State.unitCvt_goes_lost {s : State} {c : Nat} {ag : Agent} {t : FinTask} {unit : Nat} {r : UnitRun} {f : CvtFields}
    {rt : State} (hF : State.unitCvt s c ag t unit r f = .lost rt) : s.Goes rt := by
  unfold State.unitCvt at hF
  revert hF
  with_reducible repeat' first
    | (rintro ⟨⟩) | exact Goes.refl _ | assumption | fail_if_no_progress extract_lets +onlyGivenNames x
    | (apply Goes.snoc (State.unitArith_goes_lost (hF := by assumption)))
    | (apply Goes.snoc (State.unitArith_goes_fault (hF := by assumption)))
    | (apply Goes.snoc (State.unitArith_goes_done (hF := by assumption))) | apply Goes.snoc State.readRange_goes
    | (apply Goes.snoc (State.readRange_goes_done (hF := by assumption))) | apply Goes.ite | split
    | dsimp -zeta only [Acc.state, Head?.state, Prep.state] | fail_if_no_progress apply Goes.record
    | (fail_if_no_progress clear_value *) | intro hF
theorem State.unitCvt_goes_fault {s : State} {c : Nat} {ag : Agent} {t : FinTask} {unit : Nat} {r : UnitRun}
    {f : CvtFields} {rc : Code} {rt : State} (hF : State.unitCvt s c ag t unit r f = .fault rc rt) : s.Goes rt := by
  unfold State.unitCvt at hF
  revert hF
  with_reducible repeat' first
    | (rintro ⟨⟩) | exact Goes.refl _ | assumption | fail_if_no_progress extract_lets +onlyGivenNames x
    | (apply Goes.snoc (State.unitArith_goes_lost (hF := by assumption)))
    | (apply Goes.snoc (State.unitArith_goes_fault (hF := by assumption)))
    | (apply Goes.snoc (State.unitArith_goes_done (hF := by assumption))) | apply Goes.snoc State.readRange_goes
    | (apply Goes.snoc (State.readRange_goes_done (hF := by assumption))) | apply Goes.ite | split
    | dsimp -zeta only [Acc.state, Head?.state, Prep.state] | fail_if_no_progress apply Goes.record
    | (fail_if_no_progress clear_value *) | intro hF
theorem State.unitCvt_goes_done {s : State} {c : Nat} {ag : Agent} {t : FinTask} {unit : Nat} {r : UnitRun} {f : CvtFields}
    {rr : UnitRun} {re : Events} {rt : State} (hF : State.unitCvt s c ag t unit r f = .done rr re rt) : s.Goes rt := by
  unfold State.unitCvt at hF
  revert hF
  with_reducible repeat' first
    | (rintro ⟨⟩) | exact Goes.refl _ | assumption | fail_if_no_progress extract_lets +onlyGivenNames x
    | (apply Goes.snoc (State.unitArith_goes_lost (hF := by assumption)))
    | (apply Goes.snoc (State.unitArith_goes_fault (hF := by assumption)))
    | (apply Goes.snoc (State.unitArith_goes_done (hF := by assumption))) | apply Goes.snoc State.readRange_goes
    | (apply Goes.snoc (State.readRange_goes_done (hF := by assumption))) | apply Goes.ite | split
    | dsimp -zeta only [Acc.state, Head?.state, Prep.state] | fail_if_no_progress apply Goes.record
    | (fail_if_no_progress clear_value *) | intro hF

theorem State.unitExec_goes_lost {s : State} {c : Nat} {ag : Agent} {t : FinTask} {unit dpa : Nat} {r : UnitRun}
    {st : Stroke} {rt : State} (hF : State.unitExec s c ag t unit dpa r st = .lost rt) : s.Goes rt := by
  unfold State.unitExec at hF
  revert hF
  with_reducible repeat' first
    | (rintro ⟨⟩) | exact Goes.refl _ | assumption | fail_if_no_progress extract_lets +onlyGivenNames x
    | (apply Goes.snoc (State.unitCvt_goes_lost (hF := by assumption)))
    | (apply Goes.snoc (State.unitCvt_goes_fault (hF := by assumption)))
    | (apply Goes.snoc (State.unitCvt_goes_done (hF := by assumption)))
    | (apply Goes.snoc (State.unitTok_goes_lost (hF := by assumption)))
    | (apply Goes.snoc (State.unitTok_goes_fault (hF := by assumption)))
    | (apply Goes.snoc (State.unitTok_goes_done (hF := by assumption)))
    | (apply Goes.snoc (State.unitMov_goes_lost (hF := by assumption)))
    | (apply Goes.snoc (State.unitMov_goes_fault (hF := by assumption)))
    | (apply Goes.snoc (State.unitMov_goes_done (hF := by assumption)))
    | (apply Goes.snoc (State.unitArith_goes_lost (hF := by assumption))) | apply Goes.snoc (State.mov_goes ?_)
    | apply Goes.snoc (State.tok_goes ?_) | apply Goes.ite | split | dsimp -zeta only [Acc.state, Head?.state, Prep.state]
    | fail_if_no_progress apply Goes.record | (fail_if_no_progress clear_value *) | intro hF
theorem State.unitExec_goes_fault {s : State} {c : Nat} {ag : Agent} {t : FinTask} {unit dpa : Nat} {r : UnitRun}
    {st : Stroke} {rc : Code} {rt : State} (hF : State.unitExec s c ag t unit dpa r st = .fault rc rt) : s.Goes rt := by
  unfold State.unitExec at hF
  revert hF
  with_reducible repeat' first
    | (rintro ⟨⟩) | exact Goes.refl _ | assumption | fail_if_no_progress extract_lets +onlyGivenNames x
    | (apply Goes.snoc (State.unitCvt_goes_lost (hF := by assumption)))
    | (apply Goes.snoc (State.unitCvt_goes_fault (hF := by assumption)))
    | (apply Goes.snoc (State.unitCvt_goes_done (hF := by assumption)))
    | (apply Goes.snoc (State.unitTok_goes_lost (hF := by assumption)))
    | (apply Goes.snoc (State.unitTok_goes_fault (hF := by assumption)))
    | (apply Goes.snoc (State.unitTok_goes_done (hF := by assumption)))
    | (apply Goes.snoc (State.unitMov_goes_lost (hF := by assumption)))
    | (apply Goes.snoc (State.unitMov_goes_fault (hF := by assumption)))
    | (apply Goes.snoc (State.unitMov_goes_done (hF := by assumption)))
    | (apply Goes.snoc (State.unitArith_goes_lost (hF := by assumption)))
    | (apply Goes.snoc (State.unitArith_goes_fault (hF := by assumption))) | apply Goes.snoc (State.mov_goes ?_)
    | apply Goes.snoc (State.tok_goes ?_) | apply Goes.ite | split | dsimp -zeta only [Acc.state, Head?.state, Prep.state]
    | fail_if_no_progress apply Goes.record | (fail_if_no_progress clear_value *) | intro hF
theorem State.unitExec_goes_done {s : State} {c : Nat} {ag : Agent} {t : FinTask} {unit dpa : Nat} {r : UnitRun}
    {st : Stroke} {rr : UnitRun} {re : Events} {rt : State} (hF : State.unitExec s c ag t unit dpa r st = .done rr re rt)
    : s.Goes rt := by
  unfold State.unitExec at hF
  revert hF
  with_reducible repeat' first
    | (rintro ⟨⟩) | exact Goes.refl _ | assumption | fail_if_no_progress extract_lets +onlyGivenNames x
    | (apply Goes.snoc (State.unitCvt_goes_lost (hF := by assumption)))
    | (apply Goes.snoc (State.unitCvt_goes_fault (hF := by assumption)))
    | (apply Goes.snoc (State.unitCvt_goes_done (hF := by assumption)))
    | (apply Goes.snoc (State.unitTok_goes_lost (hF := by assumption)))
    | (apply Goes.snoc (State.unitTok_goes_fault (hF := by assumption)))
    | (apply Goes.snoc (State.unitTok_goes_done (hF := by assumption)))
    | (apply Goes.snoc (State.unitMov_goes_lost (hF := by assumption)))
    | (apply Goes.snoc (State.unitMov_goes_fault (hF := by assumption)))
    | (apply Goes.snoc (State.unitMov_goes_done (hF := by assumption)))
    | (apply Goes.snoc (State.unitArith_goes_lost (hF := by assumption)))
    | (apply Goes.snoc (State.unitArith_goes_fault (hF := by assumption)))
    | (apply Goes.snoc (State.unitArith_goes_done (hF := by assumption))) | apply Goes.snoc (State.mov_goes ?_)
    | apply Goes.snoc (State.tok_goes ?_) | apply Goes.ite | split | dsimp -zeta only [Acc.state, Head?.state, Prep.state]
    | fail_if_no_progress apply Goes.record | (fail_if_no_progress clear_value *) | intro hF

theorem State.unitFail_goes {s : State} {c : Nat} {t : FinTask} {code stroke : Code}
    : s.Goes (State.unitFail s c t code stroke) := by
  unfold State.unitFail
  with_reducible repeat' first
    | exact Goes.refl _ | assumption | fail_if_no_progress extract_lets +onlyGivenNames x | apply Goes.snoc State.putTask_goes

theorem State.logPalette_goes {s : State} {c unit : Nat} : s.Goes (State.logPalette s c unit) := by
  unfold State.logPalette
  with_reducible repeat' first
    | exact Goes.refl _ | assumption | fail_if_no_progress extract_lets +onlyGivenNames x | apply Goes.snoc State.eccLog_goes

theorem State.unitStroke_goes {s : State} {c q seq unit : Nat} {mine : BitVec 128 → Bool}
    : s.Goes (s.unitStroke c q seq unit mine) := by
  unfold State.unitStroke
  refine State.onTask_goes (fun t d => ?_)
  split
  · exact Goes.refl s
  · next r hr =>
    split
    · exact Goes.refl s
    · extract_lets +onlyGivenNames src
      extract_lets +onlyGivenNames ag
      extract_lets +onlyGivenNames gu
      extract_lets +onlyGivenNames fetchBad
      extract_lets +onlyGivenNames table
      have ht : ∀ e r1 u, table = some (e, r1, u) → s.Goes u := by
        intro e r1 u
        dsimp -zeta only [table]
        repeat' first
          | (with_reducible rintro ⟨⟩)
          | with_reducible exact Goes.refl _
          | with_reducible exact State.readRange_goes_done (hF := by with_reducible assumption)
          | split
      clear_value table
      split
      · exact Goes.refl s
      · exact Goes.trans (ht _ _ _ rfl) State.unitFail_goes
      · next r1 u =>
        have hu := ht _ _ _ rfl
        clear ht
        repeat' first
          | with_reducible exact Goes.refl _
          | with_reducible exact hu
          | fail_if_no_progress extract_lets +onlyGivenNames x
          | with_reducible apply Goes.trans (k := State.unitFail_goes)
          | with_reducible apply Goes.trans (k := State.logPalette_goes)
          | with_reducible apply Goes.trans (k := State.putTask_goes)
          | with_reducible apply Goes.trans (k := State.readRange_goes_done (hF := by with_reducible assumption))
          | with_reducible apply Goes.trans (k := State.unitExec_goes_lost (hF := by with_reducible assumption))
          | with_reducible apply Goes.trans (k := State.unitExec_goes_fault (hF := by with_reducible assumption))
          | with_reducible apply Goes.trans (k := State.unitExec_goes_done (hF := by with_reducible assumption))
          | split

theorem State.finStepSet_goes {s : State} {p : Nat} {v : Val} : s.Goes (State.finStepSet s p v) := by
  unfold State.finStepSet
  with_reducible repeat' first
    | exact Goes.refl _ | assumption | fail_if_no_progress extract_lets +onlyGivenNames x | apply Goes.snoc State.set1_goes
    | apply Goes.snoc State.wr_goes | apply Goes.ite

/-! ### Machine/Links.lean -/

theorem State.setEnd_goes {s : State} {k : Nat} {e : LinkEnd} : s.Goes (State.setEnd s k e) := by
  unfold State.setEnd
  with_reducible repeat' first
    | exact Goes.refl _ | assumption | fail_if_no_progress extract_lets +onlyGivenNames x | apply Goes.ite | split
    | dsimp -zeta only [Acc.state, Head?.state, Prep.state] | fail_if_no_progress apply Goes.record

/-! ### Machine/Resets.lean -/

theorem State.dropRegs_goes {s : State} {p : Nat → Nat → Bool} : s.Goes (State.dropRegs s p) := by
  unfold State.dropRegs
  with_reducible repeat' first
    | exact Goes.refl _ | assumption | fail_if_no_progress extract_lets +onlyGivenNames x | apply Goes.recRegs

theorem State.losePanels_goes {s : State} {i : Nat} : s.Goes (State.losePanels s i) := by
  unfold State.losePanels
  with_reducible repeat' first
    | exact Goes.refl _ | assumption
    | ((fail_if_no_progress extract_lets +onlyGivenNames x);
        refine Goes.cut (t := x) ?_ fun hx => ?_; (on_goal 1 => dsimp -zeta only [x]; clear x); on_goal 2 => clear_value x)
    | fail_if_no_progress extract_lets +onlyGivenNames x | apply Goes.snoc State.dropRegs_goes
    | apply Goes.snoc State.roDrop_goes | apply Goes.recErase | apply Goes.recWriteBytes | apply Goes.recRekey
    | apply Goes.recFilter

theorem State.loseGlaze_goes {s : State} {i : Nat} : s.Goes (State.loseGlaze s i) := by
  unfold State.loseGlaze
  with_reducible repeat' first
    | exact Goes.refl _ | assumption
    | ((fail_if_no_progress extract_lets +onlyGivenNames x);
        refine Goes.cut (t := x) ?_ fun hx => ?_; (on_goal 1 => dsimp -zeta only [x]; clear x); on_goal 2 => clear_value x)
    | fail_if_no_progress extract_lets +onlyGivenNames x | apply Goes.snoc State.tackRefresh_goes
    | apply Goes.snoc State.onGlz_goes

theorem State.loseFinish_goes {s : State} {i : Nat} : s.Goes (State.loseFinish s i) := by
  unfold State.loseFinish
  with_reducible repeat' first
    | exact Goes.refl _ | assumption | fail_if_no_progress extract_lets +onlyGivenNames x | apply Goes.ite | split
    | dsimp -zeta only [Acc.state, Head?.state, Prep.state] | fail_if_no_progress apply Goes.record

theorem State.loseSeq_goes {s : State} {i : Nat} : s.Goes (State.loseSeq s i) := by
  unfold State.loseSeq
  with_reducible repeat' first
    | exact Goes.refl _ | assumption
    | ((fail_if_no_progress extract_lets +onlyGivenNames x);
        refine Goes.cut (t := x) ?_ fun hx => ?_; (on_goal 1 => dsimp -zeta only [x]; clear x); on_goal 2 => clear_value x)
    | fail_if_no_progress extract_lets +onlyGivenNames x | apply Goes.snoc State.dropRegs_goes | apply Goes.ite | split
    | dsimp -zeta only [Acc.state, Head?.state, Prep.state] | fail_if_no_progress apply Goes.record

theorem State.loseFabric_goes {s : State} {i : Nat} : s.Goes (State.loseFabric s i) := by
  unfold State.loseFabric
  with_reducible repeat' first
    | exact Goes.refl _ | assumption | fail_if_no_progress extract_lets +onlyGivenNames x | apply Goes.ite | split
    | dsimp -zeta only [Acc.state, Head?.state, Prep.state] | fail_if_no_progress apply Goes.record

theorem State.loseStretcher_goes {s : State} {c : Nat} : s.Goes (State.loseStretcher s c) := by
  unfold State.loseStretcher
  with_reducible repeat' first
    | exact Goes.refl _ | assumption | fail_if_no_progress extract_lets +onlyGivenNames x | apply Goes.recErase
    | apply Goes.recWriteBytes | apply Goes.recRekey | apply Goes.recFilter

theorem State.loseTether_goes {s : State} {c : Nat} : s.Goes (State.loseTether s c) := by
  unfold State.loseTether
  with_reducible repeat' first
    | exact Goes.refl _ | assumption
    | ((fail_if_no_progress extract_lets +onlyGivenNames x);
        refine Goes.cut (t := x) ?_ fun hx => ?_; (on_goal 1 => dsimp -zeta only [x]; clear x); on_goal 2 => clear_value x)
    | fail_if_no_progress extract_lets +onlyGivenNames x | apply Goes.snoc State.dropRegs_goes | apply Goes.snoc State.clr_goes
    | (apply Goes.each; (on_goal 2 => intro x u)) | apply Goes.ite | split | intro x
    | dsimp -zeta only [Acc.state, Head?.state, Prep.state] | fail_if_no_progress apply Goes.record

theorem State.loseSpar_goes {s : State} {ps : List Nat} : s.Goes (State.loseSpar s ps) := by
  unfold State.loseSpar
  with_reducible repeat' first
    | exact Goes.refl _ | assumption
    | ((fail_if_no_progress extract_lets +onlyGivenNames x);
        refine Goes.cut (t := x) ?_ fun hx => ?_; (on_goal 1 => dsimp -zeta only [x]; clear x); on_goal 2 => clear_value x)
    | fail_if_no_progress extract_lets +onlyGivenNames x | apply Goes.snoc State.dropRegs_goes | apply Goes.ite | split
    | dsimp -zeta only [Acc.state, Head?.state, Prep.state] | fail_if_no_progress apply Goes.record

theorem State.loseEngines_goes {s : State} : s.Goes (State.loseEngines s) := by
  unfold State.loseEngines
  with_reducible repeat' first
    | exact Goes.refl _ | assumption
    | ((fail_if_no_progress extract_lets +onlyGivenNames x);
        refine Goes.cut (t := x) ?_ fun hx => ?_; (on_goal 1 => dsimp -zeta only [x]; clear x); on_goal 2 => clear_value x)
    | fail_if_no_progress extract_lets +onlyGivenNames x | apply Goes.snoc State.dropRegs_goes
    | apply Goes.snoc State.coatRelease_goes | (apply Goes.each; (on_goal 2 => intro x u)) | apply Goes.ite | split | intro x
    | dsimp -zeta only [Acc.state, Head?.state, Prep.state] | fail_if_no_progress apply Goes.record

theorem State.loseIsland_goes {s : State} {i : Nat} : s.Goes (State.loseIsland s i) := by
  unfold State.loseIsland
  with_reducible repeat' first
    | exact Goes.refl _ | assumption | fail_if_no_progress extract_lets +onlyGivenNames x
    | apply Goes.snoc State.loseEngines_goes | apply Goes.snoc State.loseSpar_goes | apply Goes.snoc State.loseTether_goes
    | apply Goes.snoc State.loseStretcher_goes | apply Goes.snoc State.loseFabric_goes | apply Goes.snoc State.loseSeq_goes
    | apply Goes.snoc State.loseFinish_goes | apply Goes.snoc State.loseGlaze_goes | apply Goes.snoc State.losePanels_goes
    | apply Goes.ite

theorem State.loseUnits_goes {s : State} {c : Nat} : s.Goes (State.loseUnits s c) := by
  unfold State.loseUnits
  with_reducible repeat' first
    | exact Goes.refl _ | assumption
    | ((fail_if_no_progress extract_lets +onlyGivenNames x);
        refine Goes.cut (t := x) ?_ fun hx => ?_; (on_goal 1 => dsimp -zeta only [x]; clear x); on_goal 2 => clear_value x)
    | fail_if_no_progress extract_lets +onlyGivenNames x | apply Goes.snoc State.dropRegs_goes | apply Goes.ite | split
    | dsimp -zeta only [Acc.state, Head?.state, Prep.state] | fail_if_no_progress apply Goes.record

theorem State.canvasReset_goes {s : State} {c : Nat} : s.Goes (State.canvasReset s c) := by
  unfold State.canvasReset
  with_reducible repeat' first
    | exact Goes.refl _ | assumption
    | ((fail_if_no_progress extract_lets +onlyGivenNames x);
        refine Goes.cut (t := x) ?_ fun hx => ?_; (on_goal 1 => dsimp -zeta only [x]; clear x); on_goal 2 => clear_value x)
    | fail_if_no_progress extract_lets +onlyGivenNames x | apply Goes.snoc State.loseUnits_goes
    | apply Goes.snoc State.loseIsland_goes | apply Goes.snoc State.dropRegs_goes | apply Goes.snoc State.setIsland_goes
    | apply Goes.snoc State.wrN_goes | (apply Goes.each; (on_goal 2 => intro x u)) | apply Goes.ite | split | intro x
    | dsimp -zeta only [Acc.state, Head?.state, Prep.state] | fail_if_no_progress apply Goes.record

/-! ### Machine/Tether.lean -/

theorem State.setTether_goes {s : State} {c : Nat} {t : Tether} : s.Goes (State.setTether s c t) := by
  unfold State.setTether
  with_reducible repeat' first
    | exact Goes.refl _ | assumption | fail_if_no_progress extract_lets +onlyGivenNames x | apply Goes.ite | split
    | dsimp -zeta only [Acc.state, Head?.state, Prep.state] | fail_if_no_progress apply Goes.record

theorem State.answerWaiting_goes {s : State} {c : Nat} {code : Code} : s.Goes (State.answerWaiting s c code) := by
  unfold State.answerWaiting
  with_reducible repeat' first
    | exact Goes.refl _ | assumption
    | ((fail_if_no_progress extract_lets +onlyGivenNames x);
        refine Goes.cut (t := x) ?_ fun hx => ?_; (on_goal 1 => dsimp -zeta only [x]; clear x); on_goal 2 => clear_value x)
    | fail_if_no_progress extract_lets +onlyGivenNames x | apply Goes.snoc State.respond_goes | apply Goes.snoc State.onGlz_goes
    | apply Goes.snoc State.wrN_goes | (apply Goes.each; (on_goal 2 => intro x u))

theorem State.answerPackets_goes {s : State} {c : Nat} {code : Code} : s.Goes (State.answerPackets s c code) := by
  unfold State.answerPackets
  with_reducible repeat' first
    | exact Goes.refl _ | assumption
    | ((fail_if_no_progress extract_lets +onlyGivenNames x);
        refine Goes.cut (t := x) ?_ fun hx => ?_; (on_goal 1 => dsimp -zeta only [x]; clear x); on_goal 2 => clear_value x)
    | fail_if_no_progress extract_lets +onlyGivenNames x | apply Goes.snoc State.send_goes | apply Goes.snoc State.bump_goes
    | apply Goes.snoc State.clr_goes | (apply Goes.each; (on_goal 2 => intro x u)) | apply Goes.ite | split | intro x
    | dsimp -zeta only [Acc.state, Head?.state, Prep.state] | fail_if_no_progress apply Goes.record

theorem State.markLost_goes {s : State} {c cause : Nat} : s.Goes (State.markLost s c cause) := by
  unfold State.markLost
  with_reducible repeat' first
    | exact Goes.refl _ | assumption
    | ((fail_if_no_progress extract_lets +onlyGivenNames x);
        refine Goes.cut (t := x) ?_ fun hx => ?_; (on_goal 1 => dsimp -zeta only [x]; clear x); on_goal 2 => clear_value x)
    | fail_if_no_progress extract_lets +onlyGivenNames x | apply Goes.snoc State.answerPackets_goes
    | apply Goes.snoc State.answerWaiting_goes | apply Goes.snoc State.coatCanvasLost_goes | apply Goes.snoc State.capacity_goes
    | apply Goes.snoc State.partFault_goes | apply Goes.snoc State.errorSummary_goes | apply Goes.snoc State.setIsland_goes
    | apply Goes.snoc State.clr_goes | apply Goes.snoc State.set1_goes | (apply Goes.each; (on_goal 2 => intro x u))
    | apply Goes.ite

theorem State.recovered_goes {s : State} {c : Nat} : s.Goes (State.recovered s c) := by
  unfold State.recovered
  with_reducible repeat' first
    | exact Goes.refl _ | assumption
    | ((fail_if_no_progress extract_lets +onlyGivenNames x);
        refine Goes.cut (t := x) ?_ fun hx => ?_; (on_goal 1 => dsimp -zeta only [x]; clear x); on_goal 2 => clear_value x)
    | fail_if_no_progress extract_lets +onlyGivenNames x | apply Goes.snoc State.loseUnits_goes
    | apply Goes.snoc State.loseIsland_goes | apply Goes.snoc State.loseStretcher_goes | apply Goes.snoc State.capacity_goes
    | apply Goes.snoc State.setIsland_goes | apply Goes.snoc State.clr_goes | apply Goes.snoc State.set1_goes
    | apply Goes.snoc State.wrN_goes | (apply Goes.each; (on_goal 2 => intro x u)) | apply Goes.ite | split | intro x
    | dsimp -zeta only [Acc.state, Head?.state, Prep.state] | fail_if_no_progress apply Goes.record

theorem State.setFailed_goes {s : State} {k m : Nat} : s.Goes (State.setFailed s k m) := by
  unfold State.setFailed
  with_reducible repeat' first
    | exact Goes.refl _ | assumption
    | ((fail_if_no_progress extract_lets +onlyGivenNames x);
        refine Goes.cut (t := x) ?_ fun hx => ?_; (on_goal 1 => dsimp -zeta only [x]; clear x); on_goal 2 => clear_value x)
    | fail_if_no_progress extract_lets +onlyGivenNames x | apply Goes.snoc State.wrN_goes | apply Goes.ite

theorem State.tetherRetrain_goes {s : State} {c : Nat} : s.Goes (State.tetherRetrain s c) := by
  unfold State.tetherRetrain
  with_reducible repeat' first
    | exact Goes.refl _ | assumption | fail_if_no_progress extract_lets +onlyGivenNames x | apply Goes.snoc State.setTether_goes
    | apply Goes.snoc State.wrN_goes | apply Goes.ite

theorem State.laneResult_goes {s : State} {c dir found : Nat} : s.Goes (State.laneResult s c dir found) := by
  unfold State.laneResult
  with_reducible repeat' first
    | exact Goes.refl _ | assumption
    | ((fail_if_no_progress extract_lets +onlyGivenNames x);
        refine Goes.cut (t := x) ?_ fun hx => ?_; (on_goal 1 => dsimp -zeta only [x]; clear x); on_goal 2 => clear_value x)
    | fail_if_no_progress extract_lets +onlyGivenNames x | apply Goes.snoc State.setFailed_goes
    | apply Goes.snoc State.journal_goes | apply Goes.snoc State.set1_goes | apply Goes.snoc State.wrN_goes
    | (apply Goes.each; (on_goal 2 => intro x u)) | apply Goes.ite

theorem State.tetherReplay_goes {s : State} {c dir : Nat} {skip count : Bool}
    : s.Goes (State.tetherReplay s c dir skip count) := by
  unfold State.tetherReplay
  with_reducible repeat' first
    | exact Goes.refl _ | assumption
    | ((fail_if_no_progress extract_lets +onlyGivenNames x);
        refine Goes.cut (t := x) ?_ fun hx => ?_; (on_goal 1 => dsimp -zeta only [x]; clear x); on_goal 2 => clear_value x)
    | fail_if_no_progress extract_lets +onlyGivenNames x | apply Goes.snoc State.setEnd_goes | apply Goes.snoc State.send_goes
    | apply Goes.snoc State.bump_goes | (apply Goes.each; (on_goal 2 => intro x u)) | (apply Goes.when; on_goal 2 => intro u)

theorem State.tetherTrained_goes {s : State} {c : Nat} : s.Goes (State.tetherTrained s c) := by
  unfold State.tetherTrained
  with_reducible repeat' first
    | exact Goes.refl _ | assumption
    | ((fail_if_no_progress extract_lets +onlyGivenNames x);
        refine Goes.cut (t := x) ?_ fun hx => ?_; (on_goal 1 => dsimp -zeta only [x]; clear x); on_goal 2 => clear_value x)
    | fail_if_no_progress extract_lets +onlyGivenNames x | apply Goes.snoc State.tetherReplay_goes
    | apply Goes.snoc State.setTether_goes | apply Goes.snoc State.setEnd_goes | apply Goes.snoc State.send_goes
    | apply Goes.snoc State.wrN_goes | (apply Goes.each; (on_goal 2 => intro x u))

theorem execTthRetrain_goes {canvas : Nat} {s : State} : ∃ t, execTthRetrain canvas s = .next t ∧ s.Goes t := by
  unfold execTthRetrain
  all_goals try refine ⟨_, rfl, ?_⟩
  with_reducible repeat' first
    | exact Goes.refl _ | assumption | fail_if_no_progress extract_lets +onlyGivenNames x
    | apply Goes.snoc State.tetherRetrain_goes | apply Goes.snoc State.set1_goes | apply Goes.ite

theorem execTthRecover_goes {canvas : Nat} {s : State} : ∃ t, execTthRecover canvas s = .next t ∧ s.Goes t := by
  unfold execTthRecover
  repeat' fail_if_no_progress extract_lets +onlyGivenNames x
  all_goals try refine ⟨_, rfl, ?_⟩
  with_reducible repeat' first
    | exact Goes.refl _ | assumption | fail_if_no_progress extract_lets +onlyGivenNames x | apply Goes.snoc State.setTether_goes
    | apply Goes.snoc State.set1_goes | apply Goes.snoc State.wrN_goes | apply Goes.ite

theorem State.tetherSend_goes {s : State} {c dir : Nat} {l : LinkLoad} {rb0 : List Byte} {rt : State}
    (hF : State.tetherSend s c dir l = some (rb0, rt)) : s.Goes rt := by
  unfold State.tetherSend at hF
  revert hF
  with_reducible repeat' first
    | (rintro ⟨⟩) | (intro hF; rw [Option.some.injEq, Prod.mk.injEq] at hF; obtain ⟨-, rfl⟩ := hF)
    | ((fail_if_no_progress extract_lets +onlyGivenNames x);
        refine Goes.cutP (s := s) (t := x) ?_ (fun hx => ?_); (on_goal 1 => (dsimp -zeta only [x]; clear x)); (on_goal 2 => clear_value x))
    | exact Goes.refl _ | assumption | fail_if_no_progress extract_lets +onlyGivenNames x | apply Goes.snoc State.setEnd_goes
    | apply Goes.snoc State.send_goes | apply Goes.snoc State.wrN_goes | (apply Goes.when; on_goal 2 => intro u)
    | apply Goes.ite | split

theorem State.tetherNak_goes {s : State} {c dir : Nat} : s.Goes (State.tetherNak s c dir) := by
  unfold State.tetherNak
  with_reducible repeat' first
    | exact Goes.refl _ | assumption | fail_if_no_progress extract_lets +onlyGivenNames x | apply Goes.snoc State.setEnd_goes
    | apply Goes.snoc State.send_goes | apply Goes.ite

theorem State.tetherTotals_goes {s : State} {c dir : Nat} {h : TetherHead} : s.Goes (State.tetherTotals s c dir h) := by
  unfold State.tetherTotals
  with_reducible repeat' first
    | exact Goes.refl _ | assumption | fail_if_no_progress extract_lets +onlyGivenNames x | apply Goes.snoc State.setEnd_goes
    | apply Goes.snoc State.wrN_goes | apply Goes.ite

theorem State.tetherDrain_goes {s : State} {k : Nat} : s.Goes (State.tetherDrain s k) := by
  unfold State.tetherDrain
  with_reducible repeat' first
    | exact Goes.refl _ | assumption | fail_if_no_progress extract_lets +onlyGivenNames x | apply Goes.snoc State.setEnd_goes

theorem State.tetherBeat_goes {s : State} {c dir : Nat} {h : TetherHead} : s.Goes (State.tetherBeat s c dir h) := by
  unfold State.tetherBeat
  with_reducible repeat' first
    | exact Goes.refl _ | assumption
    | ((fail_if_no_progress extract_lets +onlyGivenNames x);
        refine Goes.cut (t := x) ?_ fun hx => ?_; (on_goal 1 => dsimp -zeta only [x]; clear x); on_goal 2 => clear_value x)
    | fail_if_no_progress extract_lets +onlyGivenNames x | apply Goes.snoc State.markLost_goes
    | apply Goes.snoc State.setTether_goes | apply Goes.ite | split

theorem State.tetherReceive_goes {s : State} {c dir : Nat} {bs : List Byte} : s.Goes (State.tetherReceive s c dir bs) := by
  unfold State.tetherReceive
  with_reducible repeat' first
    | exact Goes.refl _ | assumption
    | ((fail_if_no_progress extract_lets +onlyGivenNames x);
        refine Goes.cut (t := x) ?_ fun hx => ?_; (on_goal 1 => dsimp -zeta only [x]; clear x); on_goal 2 => clear_value x)
    | fail_if_no_progress extract_lets +onlyGivenNames x | apply Goes.snoc State.tetherBeat_goes
    | apply Goes.snoc State.tetherDrain_goes | apply Goes.snoc State.tetherTotals_goes | apply Goes.snoc State.tetherNak_goes
    | apply Goes.snoc State.tetherReplay_goes | apply Goes.snoc State.tetherRetrain_goes | apply Goes.snoc State.setEnd_goes
    | apply Goes.snoc State.send_goes | apply Goes.snoc State.bump_goes | apply Goes.ite | split

theorem State.fabricErr_goes {s : State} {p : HubPacket} {code : Code} : s.Goes (State.fabricErr s p code) := by
  unfold State.fabricErr
  with_reducible repeat' first
    | exact Goes.refl _ | assumption | fail_if_no_progress extract_lets +onlyGivenNames x | apply Goes.snoc State.set1_goes
    | apply Goes.snoc State.wrN_goes | apply Goes.snoc State.wr_goes | apply Goes.ite

theorem State.hubAnswer_goes {s : State} {p : HubPacket} {code : Code} : s.Goes (State.hubAnswer s p code) := by
  unfold State.hubAnswer
  with_reducible repeat' first
    | exact Goes.refl _ | assumption | fail_if_no_progress extract_lets +onlyGivenNames x | apply Goes.snoc State.send_goes
    | (apply Goes.when; on_goal 2 => intro u)

/-! ### Machine/Spar.lean -/

theorem State.setSpar_goes {s : State} {p : Nat} {x : SparPort} : s.Goes (State.setSpar s p x) := by
  unfold State.setSpar
  with_reducible repeat' first
    | exact Goes.refl _ | assumption | fail_if_no_progress extract_lets +onlyGivenNames x | apply Goes.ite | split
    | dsimp -zeta only [Acc.state, Head?.state, Prep.state] | fail_if_no_progress apply Goes.record

theorem State.sparAnswer_goes {s : State} {vc : Nat} {k : SparPacket} {code : Code}
    : s.Goes (State.sparAnswer s vc k code) := by
  unfold State.sparAnswer
  with_reducible repeat' first
    | exact Goes.refl _ | assumption | fail_if_no_progress extract_lets +onlyGivenNames x | apply Goes.snoc State.send_goes
    | (apply Goes.when; on_goal 2 => intro u)

theorem State.sparRefuse_goes {s : State} {p vc : Nat} {k : SparPacket} : s.Goes (State.sparRefuse s p vc k) := by
  unfold State.sparRefuse
  with_reducible repeat' first
    | exact Goes.refl _ | assumption | fail_if_no_progress extract_lets +onlyGivenNames x
    | apply Goes.snoc State.sparAnswer_goes | apply Goes.snoc State.bump_goes | apply Goes.ite

theorem State.coatLinkDown_goes {s : State} {p : Nat} : s.Goes (State.coatLinkDown s p) := by
  unfold State.coatLinkDown
  with_reducible repeat' first
    | exact Goes.refl _ | assumption | fail_if_no_progress extract_lets +onlyGivenNames x | apply Goes.snoc State.coatAbort_goes
    | (apply Goes.each; (on_goal 2 => intro x u)) | apply Goes.ite

theorem State.collLinkDown_goes {s : State} {p : Nat} : s.Goes (State.collLinkDown s p) := by
  unfold State.collLinkDown
  with_reducible repeat' first
    | exact Goes.refl _ | assumption | fail_if_no_progress extract_lets +onlyGivenNames x | apply Goes.snoc State.collHalt_goes
    | (apply Goes.each; (on_goal 2 => intro x u)) | apply Goes.ite

theorem State.sparDown_goes {s : State} {p : Nat} {code : Code} : s.Goes (State.sparDown s p code) := by
  unfold State.sparDown
  with_reducible repeat' first
    | exact Goes.refl _ | assumption
    | ((fail_if_no_progress extract_lets +onlyGivenNames x);
        refine Goes.cut (t := x) ?_ fun hx => ?_; (on_goal 1 => dsimp -zeta only [x]; clear x); on_goal 2 => clear_value x)
    | fail_if_no_progress extract_lets +onlyGivenNames x | apply Goes.snoc State.collLinkDown_goes
    | apply Goes.snoc State.coatLinkDown_goes | apply Goes.snoc State.sparRefuse_goes | apply Goes.snoc State.setSpar_goes
    | apply Goes.snoc State.setEnd_goes | apply Goes.snoc State.journal_goes | apply Goes.snoc State.clr_goes
    | apply Goes.snoc State.set1_goes | apply Goes.snoc State.wrN_goes | (apply Goes.each; (on_goal 2 => intro x u))
    | apply Goes.ite | split | intro x | dsimp -zeta only [Acc.state, Head?.state, Prep.state]
    | fail_if_no_progress apply Goes.record

theorem State.sparCount_goes {s : State} {p : Nat} : s.Goes (State.sparCount s p) := by
  unfold State.sparCount
  with_reducible repeat' first
    | exact Goes.refl _ | assumption | fail_if_no_progress extract_lets +onlyGivenNames x | apply Goes.snoc State.wrN_goes

theorem State.sparEmit_goes {s : State} {p low : Nat} {payload : List Byte} : s.Goes (State.sparEmit s p low payload) := by
  unfold State.sparEmit
  with_reducible repeat' first
    | exact Goes.refl _ | assumption | fail_if_no_progress extract_lets +onlyGivenNames x | apply Goes.snoc State.sparCount_goes
    | apply Goes.snoc State.send_goes | apply Goes.ite | split

theorem State.sparSendHeld_goes {s : State} {p : Nat} {f : LinkFlit} : s.Goes (State.sparSendHeld s p f) := by
  unfold State.sparSendHeld
  with_reducible repeat' first
    | exact Goes.refl _ | assumption | fail_if_no_progress extract_lets +onlyGivenNames x | apply Goes.snoc State.sparEmit_goes

theorem State.sparReplay_goes {s : State} {p : Nat} {count : Bool} : s.Goes (State.sparReplay s p count) := by
  unfold State.sparReplay
  with_reducible repeat' first
    | exact Goes.refl _ | assumption
    | ((fail_if_no_progress extract_lets +onlyGivenNames x);
        refine Goes.cut (t := x) ?_ fun hx => ?_; (on_goal 1 => dsimp -zeta only [x]; clear x); on_goal 2 => clear_value x)
    | fail_if_no_progress extract_lets +onlyGivenNames x | apply Goes.snoc State.sparSendHeld_goes
    | apply Goes.snoc State.setEnd_goes | apply Goes.snoc State.bump_goes | (apply Goes.each; (on_goal 2 => intro x u))

theorem State.sparRetrain_goes {s : State} {p : Nat} : s.Goes (State.sparRetrain s p) := by
  unfold State.sparRetrain
  with_reducible repeat' first
    | exact Goes.refl _ | assumption | fail_if_no_progress extract_lets +onlyGivenNames x | apply Goes.snoc State.setSpar_goes
    | apply Goes.snoc State.wrN_goes | apply Goes.ite

theorem State.sparNak_goes {s : State} {p : Nat} : s.Goes (State.sparNak s p) := by
  unfold State.sparNak
  with_reducible repeat' first
    | exact Goes.refl _ | assumption | fail_if_no_progress extract_lets +onlyGivenNames x | apply Goes.snoc State.sparEmit_goes
    | apply Goes.snoc State.setEnd_goes | apply Goes.ite

theorem State.sparAuthFail_goes {s : State} {p : Nat} : s.Goes (State.sparAuthFail s p) := by
  unfold State.sparAuthFail
  with_reducible repeat' first
    | exact Goes.refl _ | assumption
    | ((fail_if_no_progress extract_lets +onlyGivenNames x);
        refine Goes.cut (t := x) ?_ fun hx => ?_; (on_goal 1 => dsimp -zeta only [x]; clear x); on_goal 2 => clear_value x)
    | fail_if_no_progress extract_lets +onlyGivenNames x | apply Goes.snoc State.sparDown_goes
    | apply Goes.snoc State.setSpar_goes | apply Goes.snoc State.journal_goes | apply Goes.snoc State.bump_goes
    | apply Goes.snoc State.set1_goes | apply Goes.ite

theorem State.sparDrain_goes {s : State} {p : Nat} : s.Goes (State.sparDrain s p) := by
  unfold State.sparDrain
  with_reducible repeat' first
    | exact Goes.refl _ | assumption | fail_if_no_progress extract_lets +onlyGivenNames x | apply Goes.snoc State.setEnd_goes

theorem State.sparRxSwitch_goes {s : State} {p slot : Nat} : s.Goes (State.sparRxSwitch s p slot) := by
  unfold State.sparRxSwitch
  with_reducible repeat' first
    | exact Goes.refl _ | assumption | fail_if_no_progress extract_lets +onlyGivenNames x | apply Goes.snoc State.setSpar_goes
    | apply Goes.snoc State.clr_goes | apply Goes.snoc State.wrN_goes | apply Goes.ite

theorem State.sparTake_goes {s : State} {p h : Nat} {payload : List Byte} : s.Goes (State.sparTake s p h payload) := by
  unfold State.sparTake
  with_reducible repeat' first
    | exact Goes.refl _ | assumption
    | ((fail_if_no_progress extract_lets +onlyGivenNames x);
        refine Goes.cut (t := x) ?_ fun hx => ?_; (on_goal 1 => dsimp -zeta only [x]; clear x); on_goal 2 => clear_value x)
    | fail_if_no_progress extract_lets +onlyGivenNames x | apply Goes.snoc State.sparDrain_goes
    | apply Goes.snoc State.sparNak_goes | apply Goes.snoc State.sparRetrain_goes | apply Goes.snoc State.sparReplay_goes
    | apply Goes.snoc State.setEnd_goes | apply Goes.snoc State.send_goes | apply Goes.snoc State.bump_goes
    | apply Goes.snoc State.wrN_goes | apply Goes.ite | split

theorem State.sparReceive_goes {s : State} {p : Nat} {flit : List Byte} {fec : FecResult}
    : s.Goes (State.sparReceive s p flit fec) := by
  unfold State.sparReceive
  with_reducible repeat' first
    | exact Goes.refl _ | assumption
    | ((fail_if_no_progress extract_lets +onlyGivenNames x);
        refine Goes.cut (t := x) ?_ fun hx => ?_; (on_goal 1 => dsimp -zeta only [x]; clear x); on_goal 2 => clear_value x)
    | fail_if_no_progress extract_lets +onlyGivenNames x | apply Goes.snoc State.sparTake_goes
    | apply Goes.snoc State.sparRxSwitch_goes | apply Goes.snoc State.sparAuthFail_goes | apply Goes.snoc State.sparNak_goes
    | apply Goes.snoc State.setSpar_goes | apply Goes.snoc State.bump_goes | apply Goes.snoc State.wrN_goes
    | (apply Goes.when; on_goal 2 => intro u) | apply Goes.ite | split | intro x
    | dsimp -zeta only [Acc.state, Head?.state, Prep.state] | fail_if_no_progress apply Goes.record
    | (fail_if_no_progress clear_value *)

theorem State.sparOffer_goes {s : State} {p slot : Nat} : s.Goes (State.sparOffer s p slot) := by
  unfold State.sparOffer
  with_reducible repeat' first
    | exact Goes.refl _ | assumption
    | ((fail_if_no_progress extract_lets +onlyGivenNames x);
        refine Goes.cut (t := (x : Val × State).2) ?_ (fun hx => ?_); (on_goal 1 => (dsimp -zeta only [x]; clear x)); (on_goal 2 => clear_value x))
    | fail_if_no_progress extract_lets +onlyGivenNames x | apply Goes.snoc State.setSpar_goes | apply Goes.snoc State.draw_goes
    | (apply Goes.snoc (State.draw_goes_eq (hF := by assumption))) | apply Goes.snoc State.send_goes

theorem State.sparInstall_goes {s : State} {p slot : Nat} {eph : Val} {peer : List Byte}
    : s.Goes (State.sparInstall s p slot eph peer) := by
  unfold State.sparInstall
  with_reducible repeat' first
    | exact Goes.refl _ | assumption
    | ((fail_if_no_progress extract_lets +onlyGivenNames x);
        refine Goes.cut (t := x) ?_ fun hx => ?_; (on_goal 1 => dsimp -zeta only [x]; clear x); on_goal 2 => clear_value x)
    | fail_if_no_progress extract_lets +onlyGivenNames x | apply Goes.snoc State.sparCount_goes
    | apply Goes.snoc State.setSpar_goes | apply Goes.snoc State.send_goes | apply Goes.snoc State.set1_goes
    | apply Goes.snoc State.wrN_goes | apply Goes.ite

theorem State.sparRekey_goes {s : State} {p : Nat} : s.Goes (State.sparRekey s p) := by
  unfold State.sparRekey
  with_reducible repeat' first
    | exact Goes.refl _ | assumption
    | ((fail_if_no_progress extract_lets +onlyGivenNames x);
        refine Goes.cut (t := x) ?_ fun hx => ?_; (on_goal 1 => dsimp -zeta only [x]; clear x); on_goal 2 => clear_value x)
    | fail_if_no_progress extract_lets +onlyGivenNames x | apply Goes.snoc State.sparOffer_goes
    | apply Goes.snoc State.set1_goes | apply Goes.ite

theorem execRekey_goes {port : Nat} {s : State} : ∃ t, execRekey port s = .next t ∧ s.Goes t := by
  unfold execRekey
  all_goals try refine ⟨_, rfl, ?_⟩
  with_reducible repeat' first
    | exact Goes.refl _ | assumption | fail_if_no_progress extract_lets +onlyGivenNames x | apply Goes.snoc State.sparRekey_goes
    | apply Goes.snoc State.set1_goes | apply Goes.ite

theorem State.sparLanes_goes {s : State} {p rx tx : Nat} : s.Goes (State.sparLanes s p rx tx) := by
  unfold State.sparLanes
  with_reducible repeat' first
    | exact Goes.refl _ | assumption
    | ((fail_if_no_progress extract_lets +onlyGivenNames x);
        refine Goes.cut (t := x) ?_ fun hx => ?_; (on_goal 1 => dsimp -zeta only [x]; clear x); on_goal 2 => clear_value x)
    | fail_if_no_progress extract_lets +onlyGivenNames x | apply Goes.snoc State.journal_goes | apply Goes.snoc State.set1_goes
    | apply Goes.snoc State.wrN_goes | (apply Goes.each; (on_goal 2 => intro x u)) | (apply Goes.when; on_goal 2 => intro u)

theorem State.sparStart_goes {s : State} {p : Nat} : s.Goes (State.sparStart s p) := by
  unfold State.sparStart
  with_reducible repeat' first
    | exact Goes.refl _ | assumption
    | ((fail_if_no_progress extract_lets +onlyGivenNames x);
        refine Goes.cut (t := x) ?_ fun hx => ?_; (on_goal 1 => dsimp -zeta only [x]; clear x); on_goal 2 => clear_value x)
    | fail_if_no_progress extract_lets +onlyGivenNames x | apply Goes.snoc State.setSpar_goes | apply Goes.snoc State.set1_goes
    | apply Goes.snoc State.wrN_goes | apply Goes.ite

theorem State.sparEnable_goes {s : State} {p : Nat} {on : Bool} : s.Goes (State.sparEnable s p on) := by
  unfold State.sparEnable
  with_reducible repeat' first
    | exact Goes.refl _ | assumption | fail_if_no_progress extract_lets +onlyGivenNames x | apply Goes.snoc State.sparStart_goes
    | apply Goes.snoc State.sparDown_goes | apply Goes.snoc State.clr_goes | (apply Goes.when; on_goal 2 => intro u)
    | apply Goes.ite

theorem execSparRetrain_goes {port : Nat} {s : State} : ∃ t, execSparRetrain port s = .next t ∧ s.Goes t := by
  unfold execSparRetrain
  all_goals try refine ⟨_, rfl, ?_⟩
  with_reducible repeat' first
    | exact Goes.refl _ | assumption | fail_if_no_progress extract_lets +onlyGivenNames x
    | apply Goes.snoc State.sparRetrain_goes | apply Goes.snoc State.set1_goes | apply Goes.ite

theorem State.sparData_goes {s : State} {p vc start : Nat} {payload : List Byte}
    : s.Goes (State.sparData s p vc start payload) := by
  unfold State.sparData
  with_reducible repeat' first
    | exact Goes.refl _ | assumption
    | ((fail_if_no_progress extract_lets +onlyGivenNames x);
        refine Goes.cut (t := x) ?_ fun hx => ?_; (on_goal 1 => dsimp -zeta only [x]; clear x); on_goal 2 => clear_value x)
    | fail_if_no_progress extract_lets +onlyGivenNames x | apply Goes.snoc State.sparSendHeld_goes
    | apply Goes.snoc State.setEnd_goes | apply Goes.snoc State.bump_goes | apply Goes.snoc State.wrN_goes

theorem State.sparPacket_goes {s : State} {p vc : Nat} {k : SparPacket} : s.Goes (State.sparPacket s p vc k) := by
  unfold State.sparPacket
  with_reducible repeat' first
    | exact Goes.refl _ | assumption | fail_if_no_progress extract_lets +onlyGivenNames x | apply Goes.snoc State.sparData_goes
    | (apply Goes.each; (on_goal 2 => intro x u))

theorem State.setHead_goes {s : State} {input vc : Nat} {h : Option SparHead} : s.Goes (State.setHead s input vc h) := by
  unfold State.setHead
  with_reducible repeat' first
    | exact Goes.refl _ | assumption | fail_if_no_progress extract_lets +onlyGivenNames x | apply Goes.ite | split
    | dsimp -zeta only [Acc.state, Head?.state, Prep.state] | fail_if_no_progress apply Goes.record

theorem State.tryLeave_goes {s : State} {input vc : Nat} {h : SparHead} : s.Goes (State.tryLeave s input vc h) := by
  unfold State.tryLeave
  with_reducible repeat' first
    | exact Goes.refl _ | assumption
    | ((fail_if_no_progress extract_lets +onlyGivenNames x);
        refine Goes.cut (t := x) ?_ fun hx => ?_; (on_goal 1 => dsimp -zeta only [x]; clear x); on_goal 2 => clear_value x)
    | fail_if_no_progress extract_lets +onlyGivenNames x | apply Goes.snoc State.setHead_goes
    | apply Goes.snoc State.sparPacket_goes | apply Goes.snoc State.bump_goes | (apply Goes.when; on_goal 2 => intro u)
    | apply Goes.ite

/-! ### Machine/Islands.lean -/

theorem State.onIsl_goes {s : State} {f : Islands → Islands} : s.Goes (State.onIsl s f) := by
  unfold State.onIsl
  with_reducible repeat' first
    | exact Goes.refl _ | assumption | fail_if_no_progress extract_lets +onlyGivenNames x | apply Goes.ite | split
    | dsimp -zeta only [Acc.state, Head?.state, Prep.state] | fail_if_no_progress apply Goes.record

theorem State.cmdRefused_goes {s : State} : s.Goes (State.cmdRefused s) := by
  unfold State.cmdRefused
  with_reducible repeat' first
    | exact Goes.refl _ | assumption | fail_if_no_progress extract_lets +onlyGivenNames x | apply Goes.snoc State.set1_goes

theorem State.sleepCmd_goes {s : State} {i : Nat} : s.Goes (State.sleepCmd s i) := by
  unfold State.sleepCmd
  with_reducible repeat' first
    | exact Goes.refl _ | assumption | fail_if_no_progress extract_lets +onlyGivenNames x
    | apply Goes.snoc State.cmdRefused_goes | apply Goes.snoc State.setIsland_goes | apply Goes.snoc State.clr_goes
    | apply Goes.snoc State.set1_goes | apply Goes.ite

theorem State.startWaking_goes {s : State} {i : Nat} : s.Goes (State.startWaking s i) := by
  unfold State.startWaking
  with_reducible repeat' first
    | exact Goes.refl _ | assumption
    | ((fail_if_no_progress extract_lets +onlyGivenNames x);
        refine Goes.cut (t := x) ?_ fun hx => ?_; (on_goal 1 => dsimp -zeta only [x]; clear x); on_goal 2 => clear_value x)
    | fail_if_no_progress extract_lets +onlyGivenNames x | apply Goes.snoc State.setTether_goes
    | apply Goes.snoc State.setIsland_goes | apply Goes.snoc State.clr_goes | apply Goes.snoc State.wrN_goes | apply Goes.ite

theorem State.zeroDue_goes {s : State} {c : Nat} : s.Goes (State.zeroDue s c) := by
  unfold State.zeroDue
  with_reducible repeat' first
    | exact Goes.refl _ | assumption | fail_if_no_progress extract_lets +onlyGivenNames x | apply Goes.snoc State.onIsl_goes

theorem State.wakeStretcher_goes {s : State} {c : Nat} : s.Goes (State.wakeStretcher s c) := by
  unfold State.wakeStretcher
  with_reducible repeat' first
    | exact Goes.refl _ | assumption | fail_if_no_progress extract_lets +onlyGivenNames x | apply Goes.snoc State.zeroDue_goes
    | apply Goes.snoc State.startWaking_goes | apply Goes.snoc State.set1_goes | apply Goes.ite

theorem State.wakeTether_goes {s : State} {c : Nat} : s.Goes (State.wakeTether s c) := by
  unfold State.wakeTether
  with_reducible repeat' first
    | exact Goes.refl _ | assumption
    | ((fail_if_no_progress extract_lets +onlyGivenNames x);
        refine Goes.cut (t := x) ?_ fun hx => ?_; (on_goal 1 => dsimp -zeta only [x]; clear x); on_goal 2 => clear_value x)
    | fail_if_no_progress extract_lets +onlyGivenNames x | apply Goes.snoc State.wakeStretcher_goes
    | apply Goes.snoc State.startWaking_goes | apply Goes.snoc State.set1_goes | apply Goes.ite

theorem State.wakeCmd_goes {s : State} {i : Nat} : s.Goes (State.wakeCmd s i) := by
  unfold State.wakeCmd
  with_reducible repeat' first
    | exact Goes.refl _ | assumption
    | ((fail_if_no_progress extract_lets +onlyGivenNames x);
        refine Goes.cut (t := x) ?_ fun hx => ?_; (on_goal 1 => dsimp -zeta only [x]; clear x); on_goal 2 => clear_value x)
    | fail_if_no_progress extract_lets +onlyGivenNames x | apply Goes.snoc State.wakeTether_goes
    | apply Goes.snoc State.wakeStretcher_goes | apply Goes.snoc State.startWaking_goes | apply Goes.snoc State.cmdRefused_goes
    | apply Goes.snoc State.onIsl_goes | apply Goes.snoc State.clr_goes | apply Goes.snoc State.set1_goes | apply Goes.ite

theorem State.glazeClose_goes {s : State} {i : Nat} : s.Goes (State.glazeClose s i) := by
  unfold State.glazeClose
  with_reducible repeat' first
    | exact Goes.refl _ | assumption
    | ((fail_if_no_progress extract_lets +onlyGivenNames x);
        refine Goes.cut (t := x) ?_ fun hx => ?_; (on_goal 1 => dsimp -zeta only [x]; clear x); on_goal 2 => clear_value x)
    | fail_if_no_progress extract_lets +onlyGivenNames x | apply Goes.snoc State.writeVictim_goes
    | apply Goes.snoc State.cleanLine_goes | apply Goes.snoc State.bump_goes | apply Goes.snoc State.set1_goes
    | (apply Goes.each; (on_goal 2 => intro x u)) | (apply Goes.when; on_goal 2 => intro u) | apply Goes.ite | split

theorem State.closeIsland_goes {s : State} {i : Nat} : s.Goes (State.closeIsland s i) := by
  unfold State.closeIsland
  with_reducible repeat' first
    | exact Goes.refl _ | assumption | fail_if_no_progress extract_lets +onlyGivenNames x
    | apply Goes.snoc State.glazeClose_goes | apply Goes.snoc State.sparDown_goes | apply Goes.snoc State.wrN_goes
    | (apply Goes.each; (on_goal 2 => intro x u)) | apply Goes.ite

theorem State.restorePanels_goes {s : State} {i : Nat} : s.Goes (State.restorePanels s i) := by
  unfold State.restorePanels
  with_reducible repeat' first
    | exact Goes.refl _ | assumption
    | ((fail_if_no_progress extract_lets +onlyGivenNames x);
        refine Goes.cut (t := x) ?_ fun hx => ?_; (on_goal 1 => dsimp -zeta only [x]; clear x); on_goal 2 => clear_value x)
    | fail_if_no_progress extract_lets +onlyGivenNames x | apply Goes.snoc State.set1_goes | apply Goes.snoc State.wrN_goes
    | (apply Goes.each; (on_goal 2 => intro x u))

theorem State.wakeGesso_goes {s : State} {c : Nat} : s.Goes (State.wakeGesso s c) := by
  unfold State.wakeGesso
  with_reducible repeat' first
    | exact Goes.refl _ | assumption | fail_if_no_progress extract_lets +onlyGivenNames x
    | apply Goes.snoc State.startWaking_goes | apply Goes.snoc State.clr_goes | apply Goes.snoc State.set1_goes
    | (apply Goes.each; (on_goal 2 => intro x u)) | apply Goes.ite

theorem State.awoken_goes {s : State} {i : Nat} : s.Goes (State.awoken s i) := by
  unfold State.awoken
  with_reducible repeat' first
    | exact Goes.refl _ | assumption | fail_if_no_progress extract_lets +onlyGivenNames x | apply Goes.snoc State.wakeGesso_goes
    | apply Goes.snoc State.restorePanels_goes | apply Goes.snoc State.startWaking_goes | apply Goes.ite

theorem State.zeroCanvas_goes {s : State} {c : Nat} : s.Goes (State.zeroCanvas s c) := by
  unfold State.zeroCanvas
  with_reducible repeat' first
    | exact Goes.refl _ | assumption
    | ((fail_if_no_progress extract_lets +onlyGivenNames x);
        refine Goes.cut (t := x) ?_ fun hx => ?_; (on_goal 1 => dsimp -zeta only [x]; clear x); on_goal 2 => clear_value x)
    | fail_if_no_progress extract_lets +onlyGivenNames x | apply Goes.snoc State.loseStretcher_goes
    | apply Goes.snoc State.bump_goes | apply Goes.ite | split | dsimp -zeta only [Acc.state, Head?.state, Prep.state]
    | fail_if_no_progress apply Goes.record

theorem State.gateAccept_goes {s : State} {i id : Nat} {part : Option Nat} {wash : Bool}
    : s.Goes (State.gateAccept s i id part wash) := by
  unfold State.gateAccept
  with_reducible repeat' first
    | exact Goes.refl _ | assumption | fail_if_no_progress extract_lets +onlyGivenNames x | apply Goes.snoc State.onIsl_goes
    | apply Goes.snoc State.send_goes

theorem State.mailDrop_goes {s : State} {m : Nat} {q : Option Nat} : s.Goes (State.mailDrop s m q) := by
  unfold State.mailDrop
  with_reducible repeat' first
    | exact Goes.refl _ | assumption | fail_if_no_progress extract_lets +onlyGivenNames x | apply Goes.snoc State.bump_goes
    | apply Goes.snoc State.clr_goes | (apply Goes.each; (on_goal 2 => intro x u))

theorem State.packetEnd_goes {s : State} {id : Nat} {p : Packet} {code : Code} : s.Goes (State.packetEnd s id p code) := by
  unfold State.packetEnd
  with_reducible repeat' first
    | exact Goes.refl _ | assumption
    | ((fail_if_no_progress extract_lets +onlyGivenNames x);
        refine Goes.cut (t := x) ?_ fun hx => ?_; (on_goal 1 => dsimp -zeta only [x]; clear x); on_goal 2 => clear_value x)
    | fail_if_no_progress extract_lets +onlyGivenNames x | apply Goes.snoc State.mailDrop_goes
    | apply Goes.snoc State.onIsl_goes | apply Goes.snoc State.send_goes | apply Goes.ite | split

/-! ### Machine/Collectives.lean -/

theorem State.putColl_goes {s : State} {c : Coll} : s.Goes (State.putColl s c) := by
  unfold State.putColl
  with_reducible repeat' first
    | exact Goes.refl _ | assumption | fail_if_no_progress extract_lets +onlyGivenNames x | apply Goes.snoc State.setColls_goes

theorem State.collFlush_goes {s : State} {c : Coll} : s.Goes (State.collFlush s c) := by
  unfold State.collFlush
  with_reducible repeat' first
    | exact Goes.refl _ | assumption | fail_if_no_progress extract_lets +onlyGivenNames x | apply Goes.snoc State.putColl_goes
    | apply Goes.snoc State.send_goes | apply Goes.snoc State.bump_goes | (apply Goes.each; (on_goal 2 => intro x u))

theorem State.collWrite_goes {s : State} {c : Coll} {off : Nat} {bs : List Byte} {rb0 : Code} {rt : State}
    (hF : s.collWrite c off bs = some (rb0, rt)) : s.Goes rt := by
  unfold State.collWrite at hF
  revert hF
  extract_lets +onlyGivenNames d
  extract_lets +onlyGivenNames fin
  have hfin : ∀ {a : Acc} {c : Code} {t : State}, fin a = some (c, t) → a.state = t := by
    intro a c t
    dsimp -zeta only [fin]
    split
    · rintro ⟨⟩; rfl
    · rintro ⟨⟩
  clear_value fin
  split
  · intro h; rw [← hfin h]; exact State.writeRange_goes
  · extract_lets whole rest
    split
    · rintro ⟨⟩
    · next code t e =>
      have ht : s.Goes t := by rw [← hfin e]; exact State.addRange_goes
      split
      · rintro ⟨⟩; exact ht
      · split
        · rintro ⟨⟩
        · next e old u hu =>
          have h : s.Goes u := Goes.trans ht (State.readRange_goes_done hu)
          split
          · rintro ⟨⟩; exact h
          · split
            · rintro ⟨⟩; exact h
            · intro k; rw [← hfin k]; exact Goes.trans h State.writeRange_goes

theorem State.collLand_goes {s : State} {c : Coll} {off : Nat} {bs : List Byte} {rt : State}
    (hF : State.collLand s c off bs = some rt) : s.Goes rt := by
  unfold State.collLand at hF
  revert hF
  with_reducible repeat' first
    | (rintro ⟨⟩) | exact Goes.refl _ | assumption | fail_if_no_progress extract_lets +onlyGivenNames x
    | (apply Goes.snoc (State.collWrite_goes (hF := by assumption))) | apply Goes.snoc State.collFlush_goes
    | apply Goes.snoc State.collHalt_goes | apply Goes.ite | split

theorem State.collResult_goes {s : State} {c : Coll} {off : Nat} {bs : List Byte} {rt : State}
    (hF : State.collResult s c off bs = some rt) : s.Goes rt := by
  unfold State.collResult at hF
  revert hF
  with_reducible repeat' first
    | (rintro ⟨⟩) | exact Goes.refl _ | assumption | fail_if_no_progress extract_lets +onlyGivenNames x
    | (apply Goes.snoc (State.collLand_goes (hF := by assumption))) | apply Goes.ite | split
    | dsimp -zeta only [Acc.state, Head?.state, Prep.state] | fail_if_no_progress apply Goes.record
    | (fail_if_no_progress clear_value *) | intro hF

theorem State.permuteOut_goes {s : State} {list : List Byte} {n : Nat} {rb0 : Code} {rb1 : List (Nat × CollMsg)} {rt : State}
    (hF : s.permuteOut list n = some (rb0, rb1, rt)) : s.Goes rt := by
  unfold State.permuteOut at hF
  refine Goes.foldlOpt (·.2.2) (fun i a a' e => ?_) (fun x => rfl) hF
  obtain ⟨code, ms, t⟩ := a
  revert e
  dsimp only
  split
  · rintro ⟨⟩
  · rintro ⟨⟩; exact State.readRange_goes_done (hF := by assumption)

theorem State.permuteLand_goes {s : State} {c : Coll} {own : Bool} {m : CollMsg} {rt : State}
    (hF : State.permuteLand s c own m = some rt) : s.Goes rt := by
  unfold State.permuteLand at hF
  revert hF
  with_reducible repeat' first
    | (rintro ⟨⟩) | exact Goes.refl _ | assumption | fail_if_no_progress extract_lets +onlyGivenNames x
    | apply Goes.snoc State.collFlush_goes | apply Goes.snoc State.collHalt_goes | apply Goes.snoc State.writeRange_goes
    | (apply Goes.snoc (State.writeRange_goes_done (hF := by assumption))) | apply Goes.ite | split

theorem State.sigMismatch_goes {s : State} {i tensor : Nat} : s.Goes (State.sigMismatch s i tensor) := by
  unfold State.sigMismatch
  with_reducible repeat' first
    | exact Goes.refl _ | assumption
    | ((fail_if_no_progress extract_lets +onlyGivenNames x);
        refine Goes.cut (t := x) ?_ fun hx => ?_; (on_goal 1 => dsimp -zeta only [x]; clear x); on_goal 2 => clear_value x)
    | fail_if_no_progress extract_lets +onlyGivenNames x | apply Goes.snoc State.set1_goes | apply Goes.snoc State.wrN_goes
    | apply Goes.ite

theorem State.sigCompare_goes {s : State} {c : Coll} {rt : State} (hF : s.sigCompare c = some rt) : s.Goes rt := by
  unfold State.sigCompare at hF
  revert hF
  extract_lets +onlyGivenNames d
  split
  · rintro ⟨⟩
  · next e own t ht =>
    have h : s.Goes t := State.readRange_goes_done ht
    split
    · rintro ⟨⟩; exact Goes.trans h State.collHalt_goes
    · extract_lets recs w
      intro hF
      obtain ⟨u, hu, rfl⟩ := Option.map_eq_some_iff.1 hF
      have k : s.Goes u := Goes.trans h (State.collLand_goes hu)
      split
      · exact Goes.trans k State.sigMismatch_goes
      · exact k

theorem State.treePart_goes {s : State} {c : Coll} {r : Nat} {m : CollMsg} {rt : State}
    (hF : State.treePart s c r m = some rt) : s.Goes rt := by
  unfold State.treePart at hF
  revert hF
  with_reducible repeat' first
    | (rintro ⟨⟩) | exact Goes.refl _ | assumption | fail_if_no_progress extract_lets +onlyGivenNames x
    | (apply Goes.snoc (State.collResult_goes (hF := by assumption))) | apply Goes.snoc State.putColl_goes
    | apply Goes.snoc State.collHalt_goes | apply Goes.snoc State.readRange_goes
    | (apply Goes.snoc (State.readRange_goes_done (hF := by assumption))) | apply Goes.ite | split
    | dsimp -zeta only [Acc.state, Head?.state, Prep.state] | fail_if_no_progress apply Goes.record
    | (fail_if_no_progress clear_value *) | intro hF

theorem State.partialLand_goes {s : State} {c : Coll} {m : CollMsg} {rt : State} (hF : State.partialLand s c m = some rt)
    : s.Goes rt := by
  unfold State.partialLand at hF
  revert hF
  with_reducible repeat' first
    | (rintro ⟨⟩) | exact Goes.refl _ | assumption | fail_if_no_progress extract_lets +onlyGivenNames x
    | (apply Goes.snoc (State.collResult_goes (hF := by assumption))) | apply Goes.snoc State.collFlush_goes
    | apply Goes.snoc State.collHalt_goes | apply Goes.snoc State.readRange_goes
    | (apply Goes.snoc (State.readRange_goes_done (hF := by assumption))) | apply Goes.ite | split
    | dsimp -zeta only [Acc.state, Head?.state, Prep.state] | fail_if_no_progress apply Goes.record
    | (fail_if_no_progress clear_value *) | intro hF

theorem State.collAct_goes {s : State} {c : Coll} {r : Nat} {m : CollMsg} {rt : State}
    (hF : State.collAct s c r m = some rt) : s.Goes rt := by
  unfold State.collAct at hF
  revert hF
  with_reducible repeat' first
    | (rintro ⟨⟩) | exact Goes.refl _ | assumption | fail_if_no_progress extract_lets +onlyGivenNames x
    | (apply Goes.snoc (State.partialLand_goes (hF := by assumption)))
    | (apply Goes.snoc (State.treePart_goes (hF := by assumption)))
    | (apply Goes.snoc (State.sigCompare_goes (hF := by assumption)))
    | (apply Goes.snoc (State.permuteLand_goes (hF := by assumption)))
    | (apply Goes.snoc (State.collLand_goes (hF := by assumption))) | apply Goes.snoc State.putColl_goes | apply Goes.ite
    | split | dsimp -zeta only [Acc.state, Head?.state, Prep.state] | fail_if_no_progress apply Goes.record
    | (fail_if_no_progress clear_value *) | intro hF

theorem State.collOpen_goes {s : State} {c : Coll} {crc : Nat} {own : List CollMsg} {src : List Byte}
    : s.Goes (s.collOpen c crc own src) := by
  have land : ∀ {t : State} {o : Option State}, (∀ u, o = some u → t.Goes u) → t.Goes (o.getD t) := by
    intro t o h
    cases o with
    | none => exact Goes.refl t
    | some u => exact h u rfl
  unfold State.collOpen
  extract_lets d early good c1 s1 s2 s3 s4 now s5
  have h1 : s.Goes s1 := Goes.record (Goes.refl s) ..
  have h3 : s.Goes s3 := Goes.each (Goes.trans (Goes.trans h1 State.setColls_goes) State.qBusy_goes) _ _ (fun r t => State.send_goes)
  clear_value s3 now
  split
  · exact Goes.trans h3 State.collHalt_goes
  · split
    · exact Goes.trans h3 State.collHalt_goes
    · have h5 : s.Goes s5 := by
        refine Goes.foldl (Goes.trans h3 State.collFlush_goes) _ _ (fun m t => ?_)
        split
        · exact land (fun u hu => State.permuteLand_goes hu)
        · exact Goes.refl t
      clear_value s5
      split
      · split
        · exact Goes.trans h5 (land (fun u hu => State.collLand_goes hu))
        · exact h5
      · exact h5

theorem State.collStart_goes {s : State} {queue op : Nat} : s.Goes (s.collStart queue op) := by
  unfold State.collStart
  extract_lets +onlyGivenNames q
  refine Goes.ite ?_ ?_
  · exact Goes.refl s
  · split
    · exact State.qNext_goes_idle (hF := by assumption)
    · exact State.qNext_goes_failed (hF := by assumption)
    · next b t ht =>
      have h : s.Goes t := State.qNext_goes_cmd ht
      extract_lets +onlyGivenNames d
      extract_lets +onlyGivenNames mine
      refine Goes.ite (Goes.refl s) (Goes.ite (Goes.refl s) ?_)
      extract_lets +onlyGivenNames part
      extract_lets +onlyGivenNames refuse
      have hr : ∀ {u : State} {code : Code}, s.Goes u → s.Goes (refuse u code) := fun k => Goes.trans k State.qRefuse_goes
      clear_value refuse
      extract_lets +onlyGivenNames win
      extract_lets +onlyGivenNames len
      have outs : ∀ {w : State} {list : List Byte} {e : Code} {ms : List (Nat × CollMsg)} {x : State}, s.Goes w →
          (if d.op = 6 then w.permuteOut list d.nlist else some (0, [], w)) = some (e, ms, x) → s.Goes x := by
        intro w list e ms x k
        split
        · exact fun k2 => Goes.trans k (State.permuteOut_goes k2)
        · rintro ⟨⟩; exact k
      clear_value win len
      repeat' first
        | with_reducible exact Goes.refl _
        | with_reducible exact h
        | with_reducible apply hr
        | with_reducible apply Goes.trans (k := State.collOpen_goes)
        | with_reducible apply Goes.trans (k := State.qTake_goes)
        | with_reducible apply Goes.trans (k := State.readRange_goes_done (hF := by with_reducible assumption))
        | with_reducible refine outs ?_ (by with_reducible assumption)
        | split
        | fail_if_no_progress extract_lets +onlyGivenNames x

end Sys2Proof.Machine
end

