-- ==== Sys2Proof/Laws/GoesDevice.lean ====
section
/-! SUPPORT. What the shared operations do to a state (State.Goes): power, security, the journal, bring-up, the sideband, the host and the register ports.
Each lemma covers every state, and an operation that answers a state beside a result or not at all has its lemma for every answer. -/

namespace Sys2Proof.Machine

/-! ### Machine/Power.lean -/

theorem State.onPower_goes {s : State} {f : Power → Power} : s.Goes (State.onPower s f) := by
  unfold State.onPower
  with_reducible repeat' first
    | exact Goes.refl _ | assumption | fail_if_no_progress extract_lets +onlyGivenNames x | apply Goes.ite | split
    | dsimp -zeta only [Acc.state, Head?.state, Prep.state] | fail_if_no_progress apply Goes.record

theorem State.onTherm_goes {s : State} {f : Thermal → Thermal} : s.Goes (State.onTherm s f) := by
  unfold State.onTherm
  with_reducible repeat' first
    | exact Goes.refl _ | assumption | fail_if_no_progress extract_lets +onlyGivenNames x | apply Goes.ite | split
    | dsimp -zeta only [Acc.state, Head?.state, Prep.state] | fail_if_no_progress apply Goes.record

theorem State.setPoint_goes {s : State} {i : Nat} : s.Goes (State.setPoint s i) := by
  unfold State.setPoint
  with_reducible repeat' first
    | exact Goes.refl _ | assumption | fail_if_no_progress extract_lets +onlyGivenNames x | apply Goes.snoc State.wrN_goes
    | apply Goes.ite

theorem State.tokenBooks_goes {s : State} : s.Goes (State.tokenBooks s) := by
  unfold State.tokenBooks
  with_reducible repeat' first
    | exact Goes.refl _ | assumption | fail_if_no_progress extract_lets +onlyGivenNames x | apply Goes.snoc State.wrN_goes

theorem State.sendRevoke_goes {s : State} {i w : Nat} : s.Goes (State.sendRevoke s i w) := by
  unfold State.sendRevoke
  with_reducible repeat' first
    | exact Goes.refl _ | assumption | fail_if_no_progress extract_lets +onlyGivenNames x
    | apply Goes.snoc State.tokenBooks_goes | apply Goes.snoc State.onPower_goes | apply Goes.ite

theorem State.sendGrant_goes {s : State} {i w : Nat} : s.Goes (State.sendGrant s i w) := by
  unfold State.sendGrant
  with_reducible repeat' first
    | exact Goes.refl _ | assumption | fail_if_no_progress extract_lets +onlyGivenNames x
    | apply Goes.snoc State.tokenBooks_goes | apply Goes.snoc State.onPower_goes | apply Goes.ite

theorem State.powerReasons_goes {s : State} {avg fast unmet : Bool} : s.Goes (State.powerReasons s avg fast unmet) := by
  unfold State.powerReasons
  with_reducible repeat' first
    | exact Goes.refl _ | assumption | fail_if_no_progress extract_lets +onlyGivenNames x | apply Goes.snoc State.onPower_goes
    | apply Goes.snoc State.reason_goes

theorem State.setStretch_goes {s : State} {i : Nat} : s.Goes (State.setStretch s i) := by
  unfold State.setStretch
  with_reducible repeat' first
    | exact Goes.refl _ | assumption
    | ((fail_if_no_progress extract_lets +onlyGivenNames x);
        refine Goes.cut (t := x) ?_ fun hx => ?_; (on_goal 1 => dsimp -zeta only [x]; clear x); on_goal 2 => clear_value x)
    | fail_if_no_progress extract_lets +onlyGivenNames x | apply Goes.snoc State.reason_goes | apply Goes.snoc State.flag_goes

theorem State.haulSettle_goes {s : State} : s.Goes (State.haulSettle s) := by
  unfold State.haulSettle
  with_reducible repeat' first
    | exact Goes.refl _ | assumption
    | ((fail_if_no_progress extract_lets +onlyGivenNames x);
        refine Goes.cut (t := x) ?_ fun hx => ?_; (on_goal 1 => dsimp -zeta only [x]; clear x); on_goal 2 => clear_value x)
    | fail_if_no_progress extract_lets +onlyGivenNames x | apply Goes.snoc State.tokenBooks_goes
    | apply Goes.snoc State.onPower_goes | apply Goes.snoc State.reason_goes | apply Goes.snoc State.flag_goes
    | apply Goes.snoc State.set1_goes | (apply Goes.each; (on_goal 2 => intro x u)) | (apply Goes.when; on_goal 2 => intro u)
    | apply Goes.ite

theorem State.haulPin_goes {s : State} {low : Bool} : s.Goes (State.haulPin s low) := by
  unfold State.haulPin
  with_reducible repeat' first
    | exact Goes.refl _ | assumption | fail_if_no_progress extract_lets +onlyGivenNames x
    | apply Goes.snoc State.haulSettle_goes | apply Goes.snoc State.onPower_goes | apply Goes.snoc State.flag_goes

theorem State.capWrite_goes {s : State} {fast : Bool} {w : Nat} : s.Goes (State.capWrite s fast w) := by
  unfold State.capWrite
  with_reducible repeat' first
    | exact Goes.refl _ | assumption
    | ((fail_if_no_progress extract_lets +onlyGivenNames x);
        refine Goes.cut (t := x) ?_ fun hx => ?_; (on_goal 1 => dsimp -zeta only [x]; clear x); on_goal 2 => clear_value x)
    | fail_if_no_progress extract_lets +onlyGivenNames x | apply Goes.snoc State.tokenBooks_goes
    | apply Goes.snoc State.onPower_goes | apply Goes.snoc State.wrN_goes | apply Goes.ite

theorem State.phasePo_goes {s : State} {i v : Nat} : s.Goes (State.phasePo s i v) := by
  unfold State.phasePo
  with_reducible repeat' first
    | exact Goes.refl _ | assumption | fail_if_no_progress extract_lets +onlyGivenNames x | apply Goes.snoc State.wrN_goes
    | apply Goes.ite

theorem State.sensorCheck_goes {s : State} {temps : List Int} : s.Goes (State.sensorCheck s temps) := by
  unfold State.sensorCheck
  with_reducible repeat' first
    | exact Goes.refl _ | assumption | fail_if_no_progress extract_lets +onlyGivenNames x | apply Goes.snoc State.onTherm_goes
    | apply Goes.snoc State.set1_goes | (apply Goes.each; (on_goal 2 => intro x u)) | apply Goes.ite

theorem State.revokeShare_goes {s : State} {is : List Nat} : s.Goes (State.revokeShare s is) := by
  unfold State.revokeShare
  with_reducible repeat' first
    | exact Goes.refl _ | assumption | fail_if_no_progress extract_lets +onlyGivenNames x
    | apply Goes.snoc State.sendRevoke_goes | (apply Goes.each; (on_goal 2 => intro x u))

theorem State.dieSample_goes {s : State} {vals : List Int} {d : Nat} : s.Goes (State.dieSample s vals d) := by
  unfold State.dieSample
  with_reducible repeat' first
    | exact Goes.refl _ | assumption
    | ((fail_if_no_progress extract_lets +onlyGivenNames x);
        refine Goes.cut (t := x) ?_ fun hx => ?_; (on_goal 1 => dsimp -zeta only [x]; clear x); on_goal 2 => clear_value x)
    | fail_if_no_progress extract_lets +onlyGivenNames x | apply Goes.snoc State.revokeShare_goes
    | apply Goes.snoc State.onTherm_goes | apply Goes.snoc State.onPower_goes | apply Goes.snoc State.set1_goes
    | (apply Goes.when; on_goal 2 => intro u) | apply Goes.ite

theorem State.thermalReasons_goes {s : State} {vals : List Int} : s.Goes (State.thermalReasons s vals) := by
  unfold State.thermalReasons
  with_reducible repeat' first
    | exact Goes.refl _ | assumption | fail_if_no_progress extract_lets +onlyGivenNames x | apply Goes.snoc State.reason_goes

theorem State.wearRecord_goes {s : State} {c : Nat} : s.Goes (State.wearRecord s c) := by
  unfold State.wearRecord
  with_reducible repeat' first
    | exact Goes.refl _ | assumption | fail_if_no_progress extract_lets +onlyGivenNames x | apply Goes.snoc State.journal_goes

theorem State.turnOff_goes {s : State} {i : Nat} : s.Goes (State.turnOff s i) := by
  unfold State.turnOff
  with_reducible repeat' first
    | exact Goes.refl _ | assumption | fail_if_no_progress extract_lets +onlyGivenNames x
    | apply Goes.snoc State.loseIsland_goes | apply Goes.snoc State.setIsland_goes | apply Goes.snoc State.clr_goes
    | apply Goes.ite

theorem State.trip_goes {s : State} {sensor : Nat} {rate : Bool} {temp r : Int} : s.Goes (State.trip s sensor rate temp r) := by
  unfold State.trip
  with_reducible repeat' first
    | exact Goes.refl _ | assumption
    | ((fail_if_no_progress extract_lets +onlyGivenNames x);
        refine Goes.cut (t := x) ?_ fun hx => ?_; (on_goal 1 => dsimp -zeta only [x]; clear x); on_goal 2 => clear_value x)
    | fail_if_no_progress extract_lets +onlyGivenNames x | apply Goes.snoc State.turnOff_goes
    | apply Goes.snoc State.wearRecord_goes | apply Goes.snoc State.onTherm_goes | apply Goes.snoc State.loseUnits_goes
    | apply Goes.snoc State.capacity_goes | apply Goes.snoc State.journal_goes | apply Goes.snoc State.wrN_goes
    | (apply Goes.each; (on_goal 2 => intro x u)) | apply Goes.ite

theorem State.showDies_goes {s : State} : s.Goes (State.showDies s) := by
  unfold State.showDies
  with_reducible repeat' first
    | exact Goes.refl _ | assumption | fail_if_no_progress extract_lets +onlyGivenNames x | apply Goes.snoc State.onTherm_goes
    | apply Goes.ite

theorem State.readmit_goes {s : State} {i : Nat} : s.Goes (State.readmit s i) := by
  unfold State.readmit
  with_reducible repeat' first
    | exact Goes.refl _ | assumption | fail_if_no_progress extract_lets +onlyGivenNames x | apply Goes.snoc State.onTherm_goes
    | apply Goes.snoc State.clr_goes

theorem execSuspectClear_goes {sensor : Nat} {marked : Bool} {s : State}
    : ∃ t, execSuspectClear sensor marked s = .next t ∧ s.Goes t := by
  unfold execSuspectClear
  all_goals try refine ⟨_, rfl, ?_⟩
  with_reducible repeat' first
    | exact Goes.refl _ | assumption | fail_if_no_progress extract_lets +onlyGivenNames x | apply Goes.snoc State.readmit_goes
    | apply Goes.snoc State.set1_goes | apply Goes.ite

theorem State.addEnergy_goes {s : State} {key : Nat} {f : RegField} {i nj : Nat} : s.Goes (State.addEnergy s key f i nj) := by
  unfold State.addEnergy
  with_reducible repeat' first
    | exact Goes.refl _ | assumption | fail_if_no_progress extract_lets +onlyGivenNames x | apply Goes.snoc State.onPower_goes
    | apply Goes.snoc State.bump_goes

theorem State.bookEnergy_goes {s : State} {o : EnergyOwner} {nj : Nat} : s.Goes (State.bookEnergy s o nj) := by
  unfold State.bookEnergy
  with_reducible repeat' first
    | exact Goes.refl _ | assumption
    | ((fail_if_no_progress extract_lets +onlyGivenNames x);
        refine Goes.cut (t := x) ?_ fun hx => ?_; (on_goal 1 => dsimp -zeta only [x]; clear x); on_goal 2 => clear_value x)
    | fail_if_no_progress extract_lets +onlyGivenNames x | apply Goes.snoc State.addEnergy_goes | apply Goes.ite | split

theorem State.wearPoint_goes {s : State} {c : Nat} {t : Int} : s.Goes (State.wearPoint s c t) := by
  unfold State.wearPoint
  with_reducible repeat' first
    | exact Goes.refl _ | assumption | fail_if_no_progress extract_lets +onlyGivenNames x | apply Goes.snoc State.onTherm_goes
    | apply Goes.ite | split

/-! ### Machine/Security.lean -/

theorem State.onSec_goes {s : State} {f : Security → Security} : s.Goes (State.onSec s f) := by
  unfold State.onSec
  with_reducible repeat' first
    | exact Goes.refl _ | assumption | fail_if_no_progress extract_lets +onlyGivenNames x | apply Goes.ite | split
    | dsimp -zeta only [Acc.state, Head?.state, Prep.state] | fail_if_no_progress apply Goes.record

theorem State.saltGlaze_goes {s : State} : s.Goes (State.saltGlaze s) := by
  unfold State.saltGlaze
  with_reducible repeat' first
    | exact Goes.refl _ | assumption | fail_if_no_progress extract_lets +onlyGivenNames x | apply Goes.snoc State.setLine_goes
    | apply Goes.snoc State.onGlz_goes | (apply Goes.each; (on_goal 2 => intro x u)) | apply Goes.ite | split

theorem State.changeSalt_goes {s : State} : s.Goes (State.changeSalt s) := by
  unfold State.changeSalt
  with_reducible repeat' first
    | exact Goes.refl _ | assumption
    | ((fail_if_no_progress extract_lets +onlyGivenNames x);
        refine Goes.cut (t := x) ?_ fun hx => ?_; (on_goal 1 => dsimp -zeta only [x]; clear x); on_goal 2 => clear_value x)
    | ((fail_if_no_progress extract_lets +onlyGivenNames x);
        refine Goes.cut (t := (x : Val × State).2) ?_ (fun hx => ?_); (on_goal 1 => (dsimp -zeta only [x]; clear x)); (on_goal 2 => clear_value x))
    | fail_if_no_progress extract_lets +onlyGivenNames x | apply Goes.snoc State.saltGlaze_goes
    | apply Goes.snoc State.onSec_goes | apply Goes.snoc State.roDrop_goes | apply Goes.snoc State.draw_goes
    | (apply Goes.snoc (State.draw_goes_eq (hF := by assumption))) | apply Goes.snoc State.bump_goes | apply Goes.recErase
    | apply Goes.recWriteBytes | apply Goes.recRekey | apply Goes.recFilter | apply Goes.ite | split
    | dsimp -zeta only [Acc.state, Head?.state, Prep.state] | fail_if_no_progress apply Goes.record

theorem State.clearSram_goes {s : State} : s.Goes (State.clearSram s) := by
  unfold State.clearSram
  with_reducible repeat' first
    | exact Goes.refl _ | assumption
    | ((fail_if_no_progress extract_lets +onlyGivenNames x);
        refine Goes.cut (t := x) ?_ fun hx => ?_; (on_goal 1 => dsimp -zeta only [x]; clear x); on_goal 2 => clear_value x)
    | fail_if_no_progress extract_lets +onlyGivenNames x | apply Goes.snoc State.clearFields_goes
    | apply Goes.snoc State.roDrop_goes | apply Goes.snoc State.dropLine_goes | apply Goes.snoc State.setVictim_goes
    | (apply Goes.each; (on_goal 2 => intro x u)) | apply Goes.ite | split | intro x
    | dsimp -zeta only [Acc.state, Head?.state, Prep.state] | fail_if_no_progress apply Goes.record

theorem State.zeroHidden_goes {s : State} : s.Goes (State.zeroHidden s) := by
  unfold State.zeroHidden
  with_reducible repeat' first
    | exact Goes.refl _ | assumption | fail_if_no_progress extract_lets +onlyGivenNames x | apply Goes.recRegs

theorem State.eraseKeys_goes {s : State} : s.Goes (State.eraseKeys s) := by
  unfold State.eraseKeys
  with_reducible repeat' first
    | exact Goes.refl _ | assumption | fail_if_no_progress extract_lets +onlyGivenNames x | apply Goes.snoc State.onSec_goes

theorem State.sparForget_goes {s : State} {p : Nat} {x : SparPort} : s.Goes (State.sparForget s p x) := by
  unfold State.sparForget
  with_reducible repeat' first
    | exact Goes.refl _ | assumption | fail_if_no_progress extract_lets +onlyGivenNames x | apply Goes.snoc State.setSpar_goes
    | apply Goes.snoc State.clr_goes | apply Goes.snoc State.wrN_goes

theorem State.sparRenew_goes {s : State} {boot : Bool} : s.Goes (State.sparRenew s boot) := by
  unfold State.sparRenew
  with_reducible repeat' first
    | exact Goes.refl _ | assumption | fail_if_no_progress extract_lets +onlyGivenNames x
    | apply Goes.snoc State.sparForget_goes | apply Goes.snoc State.sparOffer_goes | apply Goes.snoc State.wrN_goes
    | (apply Goes.each; (on_goal 2 => intro x u)) | apply Goes.ite

theorem State.refuse_goes {s : State} {code : Code} : s.Goes (State.refuse s code).st := by
  unfold State.refuse
  with_reducible repeat' first | exact Goes.refl _

theorem State.granted_goes {s : State} : s.Goes (State.granted s).st := by
  unfold State.granted
  with_reducible repeat' first | exact Goes.refl _

theorem State.mbxFinish_goes {s : State} {code : Code} {resp : List Byte} : s.Goes (State.mbxFinish s code resp) := by
  unfold State.mbxFinish
  with_reducible repeat' first
    | exact Goes.refl _ | assumption
    | ((fail_if_no_progress extract_lets +onlyGivenNames x);
        refine Goes.cut (t := x) ?_ fun hx => ?_; (on_goal 1 => dsimp -zeta only [x]; clear x); on_goal 2 => clear_value x)
    | fail_if_no_progress extract_lets +onlyGivenNames x | apply Goes.snoc State.onSec_goes | apply Goes.snoc State.clr_goes
    | apply Goes.snoc State.set1_goes | apply Goes.snoc State.wrN_goes | apply Goes.snoc State.wr_goes

theorem State.mbxStart_goes {s : State} {op : Nat} {bytes : List Byte} {go : List Byte → State → MbxAnswer}
    (hgo : ∀ (a0 : List Byte) (a1 : State), State.Goes a1 (go a0 a1).st) : s.Goes (State.mbxStart s op bytes go) := by
  unfold State.mbxStart
  with_reducible repeat' first
    | exact Goes.refl _ | assumption
    | ((fail_if_no_progress extract_lets +onlyGivenNames x);
        refine Goes.cut (t := (x : MbxAnswer).st) ?_ (fun hx => ?_); (on_goal 1 => (dsimp -zeta only [x]; clear x)); (on_goal 2 => clear_value x))
    | fail_if_no_progress extract_lets +onlyGivenNames x | apply Goes.snoc State.mbxFinish_goes
    | apply Goes.snoc State.refuse_goes | apply Goes.snoc State.onSec_goes | apply Goes.snoc State.set1_goes
    | apply Goes.snoc (hgo _ _) | apply Goes.ite | split

theorem State.mbxCmd_goes {s : State} {op : Nat} {req : MbxRequest} {flashOk : Bool} {go : List Byte → State → MbxAnswer}
    (hgo : ∀ (a0 : List Byte) (a1 : State), State.Goes a1 (go a0 a1).st) : s.Goes (State.mbxCmd s op req flashOk go) := by
  unfold State.mbxCmd
  with_reducible repeat' first
    | exact Goes.refl _ | assumption | fail_if_no_progress extract_lets +onlyGivenNames x
    | apply Goes.snoc (State.mbxStart_goes ?_) | apply Goes.snoc State.onSec_goes | apply Goes.snoc State.set1_goes
    | apply Goes.snoc (hgo _ _) | apply Goes.ite | split

theorem State.setSlotKey_goes {s : State} {n : Nat} {d : Option (BitVec 384)} : s.Goes (State.setSlotKey s n d) := by
  unfold State.setSlotKey
  with_reducible repeat' first
    | exact Goes.refl _ | assumption | fail_if_no_progress extract_lets +onlyGivenNames x | apply Goes.snoc State.onSec_goes
    | apply Goes.snoc State.measureKeys_goes

theorem State.enrollCmd_goes {b : List Byte} {s : State} : s.Goes (State.enrollCmd b s).st := by
  unfold State.enrollCmd
  with_reducible repeat' first
    | exact Goes.refl _ | assumption | fail_if_no_progress extract_lets +onlyGivenNames x
    | apply Goes.snoc State.setSlotKey_goes | apply Goes.snoc State.granted_goes | apply Goes.snoc State.refuse_goes
    | apply Goes.ite | split

theorem State.revokeCmd_goes {b : List Byte} {s : State} : s.Goes (State.revokeCmd b s).st := by
  unfold State.revokeCmd
  with_reducible repeat' first
    | exact Goes.refl _ | assumption | fail_if_no_progress extract_lets +onlyGivenNames x
    | apply Goes.snoc State.setSlotKey_goes | apply Goes.snoc State.granted_goes | apply Goes.snoc State.refuse_goes
    | apply Goes.ite | split

theorem State.saltCmd_goes {y0 : List Byte} {s : State} : s.Goes (State.saltCmd y0 s).st := by
  unfold State.saltCmd
  with_reducible repeat' first
    | exact Goes.refl _ | assumption | fail_if_no_progress extract_lets +onlyGivenNames x | apply Goes.snoc State.granted_goes
    | apply Goes.snoc State.refuse_goes | apply Goes.snoc State.changeSalt_goes | apply Goes.ite | split

theorem State.tamperCmd_goes {y0 : List Byte} {s : State} : s.Goes (State.tamperCmd y0 s).st := by
  unfold State.tamperCmd
  with_reducible repeat' first
    | exact Goes.refl _ | assumption
    | ((fail_if_no_progress extract_lets +onlyGivenNames x);
        refine Goes.cut (t := x) ?_ fun hx => ?_; (on_goal 1 => dsimp -zeta only [x]; clear x); on_goal 2 => clear_value x)
    | fail_if_no_progress extract_lets +onlyGivenNames x | apply Goes.snoc State.granted_goes
    | apply Goes.snoc State.refuse_goes | apply Goes.snoc State.onSec_goes | apply Goes.snoc State.journal_goes
    | apply Goes.snoc State.clr_goes | apply Goes.ite | split

theorem State.exitBegin_goes {s : State} {trigger : Nat} : s.Goes (State.exitBegin s trigger) := by
  unfold State.exitBegin
  with_reducible repeat' first
    | exact Goes.refl _ | assumption
    | ((fail_if_no_progress extract_lets +onlyGivenNames x);
        refine Goes.cut (t := x) ?_ fun hx => ?_; (on_goal 1 => dsimp -zeta only [x]; clear x); on_goal 2 => clear_value x)
    | fail_if_no_progress extract_lets +onlyGivenNames x | apply Goes.snoc State.onSec_goes
    | apply Goes.snoc State.partFault_goes | apply Goes.snoc State.set1_goes | (apply Goes.each; (on_goal 2 => intro x u))
    | apply Goes.ite

theorem State.forceCmd_goes {y0 : List Byte} {s : State} : s.Goes (State.forceCmd y0 s).st := by
  unfold State.forceCmd
  with_reducible repeat' first
    | exact Goes.refl _ | assumption | fail_if_no_progress extract_lets +onlyGivenNames x | apply Goes.snoc State.exitBegin_goes
    | apply Goes.snoc State.granted_goes | apply Goes.snoc State.refuse_goes | apply Goes.ite | split

theorem State.certCmd_goes {b : List Byte} {s : State} : s.Goes (State.certCmd b s).st := by
  unfold State.certCmd
  with_reducible repeat' first
    | exact Goes.refl _ | assumption | fail_if_no_progress extract_lets +onlyGivenNames x | apply Goes.snoc State.refuse_goes
    | apply Goes.ite | split

theorem State.spdm_goes {s : State} {request : Nat} {content : List Byte} : s.Goes (State.spdm s request content) := by
  unfold State.spdm
  with_reducible repeat' first
    | exact Goes.refl _ | assumption | fail_if_no_progress extract_lets +onlyGivenNames x | apply Goes.snoc State.request_goes
    | apply Goes.snoc State.send_goes

theorem State.spdmError_goes {s : State} {request : Nat} {code : Byte} : s.Goes (State.spdmError s request code) := by
  unfold State.spdmError
  with_reducible repeat' first
    | exact Goes.refl _ | assumption | fail_if_no_progress extract_lets +onlyGivenNames x | apply Goes.snoc State.spdm_goes
    | apply Goes.snoc State.request_goes | apply Goes.snoc State.send_goes

theorem State.spdmRun_goes {s : State} {go : State → State} (hgo : ∀ (a0 : State), State.Goes a0 (go a0))
    : s.Goes (State.spdmRun s go) := by
  unfold State.spdmRun
  with_reducible repeat' first
    | exact Goes.refl _ | assumption | fail_if_no_progress extract_lets +onlyGivenNames x | apply Goes.snoc (hgo _)
    | apply Goes.ite

theorem State.setSession_goes {s : State} {n : Nat} {x : Option Session} : s.Goes (State.setSession s n x) := by
  unfold State.setSession
  with_reducible repeat' first
    | exact Goes.refl _ | assumption | fail_if_no_progress extract_lets +onlyGivenNames x | apply Goes.snoc State.onSec_goes

theorem State.tenant_goes {s : State} {session : Nat} {go : State → State} (hgo : ∀ (a0 : State), State.Goes a0 (go a0))
    : s.Goes (State.tenant s session go) := by
  unfold State.tenant
  with_reducible repeat' first
    | exact Goes.refl _ | assumption | fail_if_no_progress extract_lets +onlyGivenNames x
    | apply Goes.snoc (State.spdmRun_goes ?_) | apply Goes.snoc State.spdmError_goes | apply Goes.snoc (hgo _) | apply Goes.ite
    | split | intro x

theorem State.zeroGesso_goes {s : State} : s.Goes (State.zeroGesso s) := by
  unfold State.zeroGesso
  with_reducible repeat' first
    | exact Goes.refl _ | assumption | fail_if_no_progress extract_lets +onlyGivenNames x
    | apply Goes.snoc State.zeroCanvas_goes | (apply Goes.each; (on_goal 2 => intro x u))

theorem State.exitErase_goes {s : State} : s.Goes (State.exitErase s) := by
  unfold State.exitErase
  with_reducible repeat' first
    | exact Goes.refl _ | assumption
    | ((fail_if_no_progress extract_lets +onlyGivenNames x);
        refine Goes.cut (t := x) ?_ fun hx => ?_; (on_goal 1 => dsimp -zeta only [x]; clear x); on_goal 2 => clear_value x)
    | fail_if_no_progress extract_lets +onlyGivenNames x | apply Goes.snoc State.sparRenew_goes
    | apply Goes.snoc State.eraseKeys_goes | apply Goes.snoc State.clearSram_goes | apply Goes.snoc State.changeSalt_goes
    | apply Goes.snoc State.onSec_goes | apply Goes.snoc State.wakeGesso_goes | (apply Goes.each; (on_goal 2 => intro x u))

theorem State.exitFinish_goes {s : State} {trigger : Nat} : s.Goes (State.exitFinish s trigger) := by
  unfold State.exitFinish
  with_reducible repeat' first
    | exact Goes.refl _ | assumption
    | ((fail_if_no_progress extract_lets +onlyGivenNames x);
        refine Goes.cut (t := x) ?_ fun hx => ?_; (on_goal 1 => dsimp -zeta only [x]; clear x); on_goal 2 => clear_value x)
    | fail_if_no_progress extract_lets +onlyGivenNames x | apply Goes.snoc State.zeroHidden_goes
    | apply Goes.snoc State.onSec_goes | apply Goes.snoc State.setLoader_goes | apply Goes.snoc State.sktState_goes
    | apply Goes.snoc State.applyPrimer_goes | apply Goes.snoc State.measureKeys_goes | apply Goes.snoc State.releaseBells_goes
    | apply Goes.snoc State.journal_goes | apply Goes.snoc State.clr_goes | apply Goes.snoc State.set1_goes

theorem State.tamperEntry_goes {s : State} {cause value : Nat} : s.Goes (State.tamperEntry s cause value) := by
  unfold State.tamperEntry
  with_reducible repeat' first
    | exact Goes.refl _ | assumption
    | ((fail_if_no_progress extract_lets +onlyGivenNames x);
        refine Goes.cut (t := x) ?_ fun hx => ?_; (on_goal 1 => dsimp -zeta only [x]; clear x); on_goal 2 => clear_value x)
    | fail_if_no_progress extract_lets +onlyGivenNames x | apply Goes.snoc State.onSec_goes | apply Goes.snoc State.set1_goes
    | apply Goes.snoc State.wrN_goes | (apply Goes.when; on_goal 2 => intro u)

/-! ### Machine/Journal.lean -/

theorem State.onJnl_goes {s : State} {f : Journal → Journal} : s.Goes (State.onJnl s f) := by
  unfold State.onJnl
  with_reducible repeat' first
    | exact Goes.refl _ | assumption | fail_if_no_progress extract_lets +onlyGivenNames x | apply Goes.ite | split
    | dsimp -zeta only [Acc.state, Head?.state, Prep.state] | fail_if_no_progress apply Goes.record

theorem State.onBoot_goes {s : State} {f : Boot → Boot} : s.Goes (State.onBoot s f) := by
  unfold State.onBoot
  with_reducible repeat' first
    | exact Goes.refl _ | assumption | fail_if_no_progress extract_lets +onlyGivenNames x | apply Goes.ite | split
    | dsimp -zeta only [Acc.state, Head?.state, Prep.state] | fail_if_no_progress apply Goes.record

theorem State.fillSlot_goes {s : State} {r : Option JRecord} : s.Goes (State.fillSlot s r) := by
  unfold State.fillSlot
  with_reducible repeat' first
    | exact Goes.refl _ | assumption
    | ((fail_if_no_progress extract_lets +onlyGivenNames x);
        refine Goes.cut (t := x) ?_ fun hx => ?_; (on_goal 1 => dsimp -zeta only [x]; clear x); on_goal 2 => clear_value x)
    | fail_if_no_progress extract_lets +onlyGivenNames x | apply Goes.snoc State.onJnl_goes | apply Goes.snoc State.set1_goes
    | apply Goes.snoc State.wrN_goes | apply Goes.ite

theorem State.queuePop_goes {s : State} : s.Goes (State.queuePop s) := by
  unfold State.queuePop
  with_reducible repeat' first
    | exact Goes.refl _ | assumption | fail_if_no_progress extract_lets +onlyGivenNames x | apply Goes.snoc State.onJnl_goes

theorem State.newImage_goes {s : State} {gen half : Nat} {rs : List JRecord} : s.Goes (State.newImage s gen half rs) := by
  unfold State.newImage
  with_reducible repeat' first
    | exact Goes.refl _ | assumption
    | ((fail_if_no_progress extract_lets +onlyGivenNames x);
        refine Goes.cut (t := x) ?_ fun hx => ?_; (on_goal 1 => dsimp -zeta only [x]; clear x); on_goal 2 => clear_value x)
    | fail_if_no_progress extract_lets +onlyGivenNames x | apply Goes.snoc State.onJnl_goes | apply Goes.snoc State.bump_goes
    | apply Goes.snoc State.clr_goes | apply Goes.snoc State.wrN_goes

theorem State.openImage_goes {s : State} : s.Goes (State.openImage s) := by
  unfold State.openImage
  with_reducible repeat' first
    | exact Goes.refl _ | assumption | fail_if_no_progress extract_lets +onlyGivenNames x | apply Goes.snoc State.newImage_goes
    | apply Goes.snoc State.set1_goes | apply Goes.snoc State.wrN_goes | apply Goes.ite | split

theorem execThermalRecordClear_goes {s : State} : ∃ t, execThermalRecordClear s = .next t ∧ s.Goes t := by
  unfold execThermalRecordClear
  repeat' first | ((fail_if_no_progress extract_lets +onlyGivenNames x); refine Goes.cutP (s := s) (t := x) ?_ (fun hx => ?_); (on_goal 1 => (dsimp -zeta only [x]; clear x)); (on_goal 2 => clear_value x)) | fail_if_no_progress extract_lets +onlyGivenNames x
  all_goals try refine ⟨_, rfl, ?_⟩
  with_reducible repeat' first
    | exact Goes.refl _ | assumption | fail_if_no_progress extract_lets +onlyGivenNames x | apply Goes.snoc State.journal_goes
    | apply Goes.snoc State.clr_goes | (apply Goes.each; (on_goal 2 => intro x u)) | apply Goes.ite

theorem State.jnlReadCmd_goes {b : List Byte} {s : State} : s.Goes (State.jnlReadCmd b s).st := by
  unfold State.jnlReadCmd
  with_reducible repeat' first
    | exact Goes.refl _ | assumption | fail_if_no_progress extract_lets +onlyGivenNames x | apply Goes.snoc State.refuse_goes
    | apply Goes.ite | split

theorem State.jnlAppendCmd_goes {b : List Byte} {s : State} : s.Goes (State.jnlAppendCmd b s).st := by
  unfold State.jnlAppendCmd
  with_reducible repeat' first
    | exact Goes.refl _ | assumption | fail_if_no_progress extract_lets +onlyGivenNames x | apply Goes.snoc State.granted_goes
    | apply Goes.snoc State.refuse_goes | apply Goes.snoc State.journal_goes | apply Goes.ite | split

theorem State.jnlCompactCmd_goes {y0 : List Byte} {s : State} : s.Goes (State.jnlCompactCmd y0 s).st := by
  unfold State.jnlCompactCmd
  with_reducible repeat' first
    | exact Goes.refl _ | assumption | fail_if_no_progress extract_lets +onlyGivenNames x | apply Goes.snoc State.onJnl_goes
    | apply Goes.snoc State.granted_goes | apply Goes.snoc State.set1_goes

theorem State.fwWriteCmd_goes {flashOk : Bool} {b : List Byte} {s : State} : s.Goes (State.fwWriteCmd flashOk b s).st := by
  unfold State.fwWriteCmd
  with_reducible repeat' first
    | exact Goes.refl _ | assumption
    | ((fail_if_no_progress extract_lets +onlyGivenNames x);
        refine Goes.cut (t := x) ?_ fun hx => ?_; (on_goal 1 => dsimp -zeta only [x]; clear x); on_goal 2 => clear_value x)
    | fail_if_no_progress extract_lets +onlyGivenNames x | apply Goes.snoc State.onBoot_goes
    | apply Goes.snoc State.granted_goes | apply Goes.snoc State.refuse_goes | apply Goes.ite | split

theorem State.fwActivateCmd_goes {flashOk : Bool} {y0 : List Byte} {s : State}
    : s.Goes (State.fwActivateCmd flashOk y0 s).st := by
  unfold State.fwActivateCmd
  with_reducible repeat' first
    | exact Goes.refl _ | assumption
    | ((fail_if_no_progress extract_lets +onlyGivenNames x);
        refine Goes.cut (t := x) ?_ fun hx => ?_; (on_goal 1 => dsimp -zeta only [x]; clear x); on_goal 2 => clear_value x)
    | fail_if_no_progress extract_lets +onlyGivenNames x | apply Goes.snoc State.onBoot_goes
    | apply Goes.snoc State.granted_goes | apply Goes.snoc State.refuse_goes | apply Goes.snoc State.journal_goes
    | apply Goes.snoc State.wrN_goes | apply Goes.ite | split

theorem State.fwCommitCmd_goes {y0 : List Byte} {s : State} : s.Goes (State.fwCommitCmd y0 s).st := by
  unfold State.fwCommitCmd
  with_reducible repeat' first
    | exact Goes.refl _ | assumption | fail_if_no_progress extract_lets +onlyGivenNames x | apply Goes.snoc State.onBoot_goes
    | apply Goes.snoc State.granted_goes | apply Goes.snoc State.refuse_goes | apply Goes.ite | split

theorem mbxGo_goes {flashOk : Bool} {op : Nat} {go : List Byte → State → MbxAnswer} (hF : mbxGo flashOk op = some go)
    {b : List Byte} {s : State} : s.Goes (go b s).st := by
  unfold mbxGo at hF
  revert hF
  split <;> rintro ⟨⟩
  · exact State.enrollCmd_goes
  · exact State.revokeCmd_goes
  · exact State.saltCmd_goes
  · exact State.tamperCmd_goes
  · exact State.forceCmd_goes
  · exact State.certCmd_goes
  · exact State.jnlReadCmd_goes
  · exact State.jnlAppendCmd_goes
  · exact State.jnlCompactCmd_goes
  · exact State.fwWriteCmd_goes
  · exact State.fwActivateCmd_goes
  · exact State.fwCommitCmd_goes

theorem mbxAny_goes {flashOk : Bool} {op : Nat} {b : List Byte} {s : State} : s.Goes (mbxAny flashOk op b s).st := by
  unfold mbxAny
  cases h : mbxGo flashOk op with
  | none => exact Goes.refl s
  | some go => exact mbxGo_goes h

/-! ### Machine/Boot.lean -/

theorem State.deviceReset_goes {s : State} {cause : Nat} {torn : Bool} : s.Goes (s.deviceReset cause torn) := by
  unfold State.deviceReset
  extract_lets z pend lost src1 sec src2 boot src3 src4 src5 t t1 t2
  have ht : s.Goes t := ⟨rfl, ⟨[], by simp [t]⟩, fun h => ⟨rfl, Tab.sorted_filter _ h.2⟩⟩
  clear_value t
  have h1 : s.Goes t1 := Goes.trans (Goes.trans (Goes.trans (Goes.trans ht State.setIsland_goes) State.flag_goes) State.flag_goes) State.flag_goes
  clear_value t1
  have h2 : s.Goes t2 := Goes.trans (Goes.trans (Goes.trans h1 State.flag_goes) State.flag_goes) State.wrN_goes
  exact Goes.trans (Goes.trans h2 State.wrN_goes) State.bump_goes

theorem State.hostReset_goes {s : State} {cause : Nat} : s.Goes (s.hostReset cause) := by
  unfold State.hostReset
  extract_lets z stopped regs src1 host src2 gso src3 t t1 t2
  have ht : s.Goes t := ⟨rfl, ⟨[], by simp [t]⟩, fun h => ⟨rfl, Tab.sorted_filter _ h.2⟩⟩
  clear_value t
  have h1 : s.Goes t1 := Goes.each ht _ _ (fun i u => Goes.trans (Goes.trans State.setIsland_goes State.clr_goes) State.clr_goes)
  clear_value t1
  have h2 : s.Goes t2 := Goes.trans (Goes.trans (Goes.trans h1 State.wrN_goes) State.wrN_goes) State.wrN_goes
  exact Goes.trans (Goes.trans (Goes.trans h2 State.flag_goes) State.setMeas_goes) State.capacity_goes

theorem State.askHostReset_goes {s : State} {cause trigger : Nat} : s.Goes (State.askHostReset s cause trigger) := by
  unfold State.askHostReset
  with_reducible repeat' first
    | exact Goes.refl _ | assumption | fail_if_no_progress extract_lets +onlyGivenNames x | apply Goes.snoc State.hostReset_goes
    | apply Goes.snoc State.onBoot_goes | apply Goes.snoc State.exitBegin_goes | apply Goes.ite

theorem State.powerOff_goes {s : State} {torn : Bool} : s.Goes (State.powerOff s torn) := by
  unfold State.powerOff
  with_reducible repeat' first
    | exact Goes.refl _ | assumption
    | ((fail_if_no_progress extract_lets +onlyGivenNames x);
        refine Goes.cut (t := x) ?_ fun hx => ?_; (on_goal 1 => dsimp -zeta only [x]; clear x); on_goal 2 => clear_value x)
    | fail_if_no_progress extract_lets +onlyGivenNames x | apply Goes.snoc State.onBoot_goes | apply Goes.snoc State.onJnl_goes
    | apply Goes.snoc State.setIsland_goes | (apply Goes.each; (on_goal 2 => intro x u)) | apply Goes.ite | split | intro x
    | dsimp -zeta only [Acc.state, Head?.state, Prep.state] | fail_if_no_progress apply Goes.record

theorem State.linkStart_goes {s : State} : s.Goes (State.linkStart s) := by
  unfold State.linkStart
  with_reducible repeat' first
    | exact Goes.refl _ | assumption | fail_if_no_progress extract_lets +onlyGivenNames x | apply Goes.snoc State.onBoot_goes
    | apply Goes.ite

theorem State.bootRecord_goes {s : State} {stage : Nat} : s.Goes (State.bootRecord s stage) := by
  unfold State.bootRecord
  with_reducible repeat' first
    | exact Goes.refl _ | assumption | fail_if_no_progress extract_lets +onlyGivenNames x | apply Goes.snoc State.journal_goes

theorem State.fwStart_goes {s : State} {slot : Nat} {i : FwImage} {failed : Option (Nat × Code)}
    : s.Goes (State.fwStart s slot i failed) := by
  unfold State.fwStart
  with_reducible repeat' first
    | exact Goes.refl _ | assumption
    | ((fail_if_no_progress extract_lets +onlyGivenNames x);
        refine Goes.cut (t := x) ?_ fun hx => ?_; (on_goal 1 => dsimp -zeta only [x]; clear x); on_goal 2 => clear_value x)
    | fail_if_no_progress extract_lets +onlyGivenNames x | apply Goes.snoc State.onBoot_goes
    | apply Goes.snoc State.changeSalt_goes | apply Goes.snoc State.onSec_goes | apply Goes.snoc State.measureKeys_goes
    | apply Goes.snoc State.setMeas_goes | apply Goes.snoc State.flag_goes | apply Goes.snoc State.set1_goes
    | apply Goes.snoc State.wrN_goes | apply Goes.ite

theorem State.restoreRetirement_goes {s : State} {r : JRecord} : s.Goes (State.restoreRetirement s r) := by
  unfold State.restoreRetirement
  with_reducible repeat' first
    | exact Goes.refl _ | assumption | fail_if_no_progress extract_lets +onlyGivenNames x | apply Goes.snoc State.rebank_goes
    | apply Goes.snoc State.onGso_goes | apply Goes.snoc State.wrN_goes | apply Goes.ite

theorem State.restoreWear_goes {s : State} {rs : List JRecord} {c : Nat} : s.Goes (State.restoreWear s rs c) := by
  unfold State.restoreWear
  with_reducible repeat' first
    | exact Goes.refl _ | assumption | fail_if_no_progress extract_lets +onlyGivenNames x | apply Goes.snoc State.onTherm_goes
    | apply Goes.snoc State.wrN_goes

theorem State.showTrips_goes {s : State} : s.Goes (State.showTrips s) := by
  unfold State.showTrips
  with_reducible repeat' first
    | exact Goes.refl _ | assumption | fail_if_no_progress extract_lets +onlyGivenNames x | apply Goes.snoc State.set1_goes
    | apply Goes.snoc State.wrN_goes | apply Goes.ite | split

theorem State.enterCanvases_goes {s : State} : s.Goes (State.enterCanvases s) := by
  unfold State.enterCanvases
  with_reducible repeat' first
    | exact Goes.refl _ | assumption | fail_if_no_progress extract_lets +onlyGivenNames x | apply Goes.snoc State.wrN_goes
    | apply Goes.ite

theorem State.notStarted_goes {s : State} {is : List Nat} : s.Goes (State.notStarted s is) := by
  unfold State.notStarted
  with_reducible repeat' first
    | exact Goes.refl _ | assumption | fail_if_no_progress extract_lets +onlyGivenNames x | apply Goes.snoc State.setIsland_goes
    | (apply Goes.each; (on_goal 2 => intro x u)) | apply Goes.ite

theorem State.tick_goes {s : State} : s.Goes (State.tick s) := by
  unfold State.tick
  with_reducible repeat' first
    | exact Goes.refl _ | assumption | fail_if_no_progress extract_lets +onlyGivenNames x
    | apply Goes.snoc State.enterCanvases_goes | apply Goes.snoc State.wr_goes

/-! ### Machine/Sideband.lean -/

theorem State.onSbd_goes {s : State} {f : Sideband → Sideband} : s.Goes (State.onSbd s f) := by
  unfold State.onSbd
  with_reducible repeat' first
    | exact Goes.refl _ | assumption | fail_if_no_progress extract_lets +onlyGivenNames x | apply Goes.ite | split
    | dsimp -zeta only [Acc.state, Head?.state, Prep.state] | fail_if_no_progress apply Goes.record

theorem State.stopDevice_goes {s : State} : s.Goes (State.stopDevice s) := by
  unfold State.stopDevice
  with_reducible repeat' first
    | exact Goes.refl _ | assumption
    | ((fail_if_no_progress extract_lets +onlyGivenNames x);
        refine Goes.cut (t := x) ?_ fun hx => ?_; (on_goal 1 => dsimp -zeta only [x]; clear x); on_goal 2 => clear_value x)
    | fail_if_no_progress extract_lets +onlyGivenNames x | apply Goes.snoc State.eraseKeys_goes
    | apply Goes.snoc State.turnOff_goes | apply Goes.snoc State.markLost_goes | apply Goes.snoc State.loseUnits_goes
    | apply Goes.snoc State.capacity_goes | apply Goes.snoc State.clr_goes | apply Goes.snoc State.set1_goes
    | apply Goes.snoc State.wrN_goes | (apply Goes.each; (on_goal 2 => intro x u)) | (apply Goes.when; on_goal 2 => intro u)

theorem State.agree_goes {s : State} {asserted : Bool} : s.Goes (State.agree s asserted) := by
  unfold State.agree
  with_reducible repeat' first
    | exact Goes.refl _ | assumption
    | ((fail_if_no_progress extract_lets +onlyGivenNames x);
        refine Goes.cut (t := x) ?_ fun hx => ?_; (on_goal 1 => dsimp -zeta only [x]; clear x); on_goal 2 => clear_value x)
    | fail_if_no_progress extract_lets +onlyGivenNames x | apply Goes.snoc State.onSbd_goes
    | apply Goes.snoc State.errorSummary_goes | apply Goes.snoc State.set1_goes | apply Goes.snoc State.wrN_goes
    | apply Goes.ite | split

theorem State.restart_goes {s : State} : s.Goes (State.restart s) := by
  unfold State.restart
  with_reducible repeat' first
    | exact Goes.refl _ | assumption | fail_if_no_progress extract_lets +onlyGivenNames x | apply Goes.snoc State.hostReset_goes
    | apply Goes.snoc State.set1_goes | apply Goes.ite

theorem State.discrepancyClear_goes {s : State} : s.Goes (State.discrepancyClear s) := by
  unfold State.discrepancyClear
  with_reducible repeat' first
    | exact Goes.refl _ | assumption | fail_if_no_progress extract_lets +onlyGivenNames x | apply Goes.snoc State.restart_goes
    | apply Goes.snoc State.clr_goes | apply Goes.snoc State.set1_goes | apply Goes.ite

theorem State.lampCheck_goes {s : State} {n : Nat} {low : Bool} : s.Goes (State.lampCheck s n low) := by
  unfold State.lampCheck
  with_reducible repeat' first
    | exact Goes.refl _ | assumption | fail_if_no_progress extract_lets +onlyGivenNames x | apply Goes.snoc State.set1_goes
    | apply Goes.snoc State.wrN_goes | (apply Goes.when; on_goal 2 => intro u)

theorem State.lampWrite_goes {s : State} {n : Nat} {v : Val} : s.Goes (State.lampWrite s n v) := by
  unfold State.lampWrite
  with_reducible repeat' first
    | exact Goes.refl _ | assumption | fail_if_no_progress extract_lets +onlyGivenNames x | apply Goes.snoc State.flag_goes
    | apply Goes.snoc State.wrN_goes

/-! ### Machine/Hosts.lean -/

theorem State.onHost_goes {s : State} {f : HostPort → HostPort} : s.Goes (State.onHost s f) := by
  unfold State.onHost
  with_reducible repeat' first
    | exact Goes.refl _ | assumption | fail_if_no_progress extract_lets +onlyGivenNames x | apply Goes.ite | split
    | dsimp -zeta only [Acc.state, Head?.state, Prep.state] | fail_if_no_progress apply Goes.record

theorem State.badAccess_goes {s : State} {source offset : Nat} : s.Goes (State.badAccess s source offset) := by
  unfold State.badAccess
  with_reducible repeat' first
    | exact Goes.refl _ | assumption | fail_if_no_progress extract_lets +onlyGivenNames x | apply Goes.snoc State.hostErr_goes
    | apply Goes.snoc State.set1_goes

theorem State.hwinEnd_goes {s : State} {id : Nat} {r : HostRead} {code : Code} {data : List Byte}
    : s.Goes (State.hwinEnd s id r code data) := by
  unfold State.hwinEnd
  with_reducible repeat' first
    | exact Goes.refl _ | assumption
    | ((fail_if_no_progress extract_lets +onlyGivenNames x);
        refine Goes.cut (t := x) ?_ fun hx => ?_; (on_goal 1 => dsimp -zeta only [x]; clear x); on_goal 2 => clear_value x)
    | fail_if_no_progress extract_lets +onlyGivenNames x | apply Goes.snoc State.onHost_goes
    | apply Goes.snoc State.hostErr_goes | apply Goes.snoc State.set1_goes | apply Goes.ite

theorem State.queCtl_goes {s : State} {q : Nat} {v : Val} : s.Goes (State.queCtl s q v) := by
  unfold State.queCtl
  with_reducible repeat' first
    | exact Goes.refl _ | assumption | fail_if_no_progress extract_lets +onlyGivenNames x | apply Goes.snoc State.flag_goes
    | apply Goes.snoc State.wrN_goes

theorem State.sendMsix_goes {s : State} : s.Goes (State.sendMsix s) := by
  unfold State.sendMsix
  with_reducible repeat' first
    | exact Goes.refl _ | assumption | fail_if_no_progress extract_lets +onlyGivenNames x | apply Goes.snoc State.onHost_goes
    | apply Goes.snoc State.send_goes | apply Goes.snoc State.clr_goes | apply Goes.snoc State.set1_goes | apply Goes.ite

theorem State.eoi_goes {s : State} : s.Goes (State.eoi s) := by
  unfold State.eoi
  with_reducible repeat' first
    | exact Goes.refl _ | assumption | fail_if_no_progress extract_lets +onlyGivenNames x | apply Goes.snoc State.onHost_goes
    | apply Goes.snoc State.clr_goes

/-! ### Machine/Ports.lean -/

theorem State.after_goes {s : State} {r : Res} (h : ∃ t, r = .next t ∧ s.Goes t) : s.Goes (s.after r) := by
  obtain ⟨t, rfl, k⟩ := h
  exact k

theorem State.classWrite_goes {s : State} {d : RegDef} {f : RegField} {i : Nat} {value mask : Val} {locked : Bool}
    {hw : Option Val} : s.Goes (State.classWrite s d f i value mask locked hw) := by
  unfold State.classWrite
  with_reducible repeat' first
    | exact Goes.refl _ | assumption
    | ((fail_if_no_progress extract_lets +onlyGivenNames x);
        refine Goes.cut (t := x) ?_ fun hx => ?_; (on_goal 1 => dsimp -zeta only [x]; clear x); on_goal 2 => clear_value x)
    | fail_if_no_progress extract_lets +onlyGivenNames x | apply Goes.snoc State.setIsland_goes
    | apply Goes.snoc State.set1_goes | apply Goes.snoc State.wr_goes | apply Goes.ite | split

theorem State.mailboxCommand_goes {s : State} {v : Val} : s.Goes (State.mailboxCommand s v) := by
  unfold State.mailboxCommand
  with_reducible repeat' first
    | exact Goes.refl _ | assumption
    | ((fail_if_no_progress extract_lets +onlyGivenNames x);
        refine Goes.cut (t := (x : Val × State).2) ?_ (fun hx => ?_); (on_goal 1 => (dsimp -zeta only [x]; clear x)); (on_goal 2 => clear_value x))
    | fail_if_no_progress extract_lets +onlyGivenNames x | with_reducible exact mbxAny_goes
    | apply Goes.snoc (State.mbxCmd_goes ?_) | apply Goes.snoc State.draw_goes
    | (apply Goes.snoc (State.draw_goes_eq (hF := by assumption))) | apply Goes.ite | split | intro x

theorem State.commandWrite_goes {s : State} {d : RegDef} {i : Nat} {v : Val} : s.Goes (State.commandWrite s d i v) := by
  unfold State.commandWrite
  with_reducible repeat' first
    | exact Goes.refl _ | assumption | fail_if_no_progress extract_lets +onlyGivenNames x
    | apply Goes.snoc State.mailboxCommand_goes | apply Goes.snoc State.after_goes | apply Goes.snoc State.eoi_goes
    | exact State.after_goes execLoad_goes | apply Goes.snoc State.woPush_goes | apply Goes.snoc State.post_goes
    | (apply Goes.when; on_goal 2 => intro u) | apply Goes.ite | split

theorem State.updateLost_goes {s : State} {d : RegDef} {i : Nat} {hw : Option Val} : s.Goes (State.updateLost s d i hw) := by
  unfold State.updateLost
  with_reducible repeat' first
    | exact Goes.refl _ | assumption | fail_if_no_progress extract_lets +onlyGivenNames x | apply Goes.snoc State.set1_goes
    | apply Goes.ite | split

theorem State.stepWrite_goes {s : State} {d : RegDef} {i : Nat} {v : Val} {hw : Option Val}
    : s.Goes (State.stepWrite s d i v hw) := by
  unfold State.stepWrite
  with_reducible repeat' first
    | exact Goes.refl _ | assumption | fail_if_no_progress extract_lets +onlyGivenNames x
    | apply Goes.snoc State.updateLost_goes | apply Goes.snoc State.finStepSet_goes | apply Goes.snoc State.wr_goes
    | apply Goes.ite | split

theorem State.fieldEffect_goes {s : State} {d : RegDef} {f : RegField} {i : Nat} {value mask : Val} {hw : Option Val}
    : s.Goes (State.fieldEffect s d f i value mask hw) := by
  unfold State.fieldEffect
  with_reducible repeat' first
    | exact Goes.refl _ | assumption | fail_if_no_progress extract_lets +onlyGivenNames x | apply Goes.snoc State.stepWrite_goes
    | apply Goes.snoc State.updateLost_goes | apply Goes.snoc State.after_goes | apply Goes.snoc State.discrepancyClear_goes
    | exact State.after_goes execThermalRecordClear_goes | exact State.after_goes execSuspectClear_goes
    | apply Goes.snoc State.phasePo_goes | apply Goes.snoc State.capWrite_goes | apply Goes.snoc State.haulSettle_goes
    | apply Goes.snoc State.onPower_goes | exact State.after_goes execSparRetrain_goes | apply Goes.snoc State.sparEnable_goes
    | exact State.after_goes execRekey_goes | exact State.after_goes execTthRecover_goes
    | exact State.after_goes execTthRetrain_goes | exact State.after_goes execBankRetireRequest_goes
    | exact State.after_goes execDmaEnable_goes | exact State.after_goes execDmaStop_goes
    | exact State.after_goes execDmaResumeSkip_goes | exact State.after_goes execDmaResumeRetry_goes
    | exact State.after_goes execSeqDisable_goes | exact State.after_goes execSeqEnable_goes
    | exact State.after_goes execPanelDrain_goes | apply Goes.snoc State.threadStop_goes
    | apply Goes.snoc State.threadStart_goes | apply Goes.snoc State.qEnable_goes | apply Goes.snoc State.qResume_goes
    | apply Goes.snoc State.qSetTail_goes | apply Goes.snoc State.wr_goes | (apply Goes.when; on_goal 2 => intro u)
    | apply Goes.ite | split

theorem State.effectWrite_goes {s : State} {d : RegDef} {f : RegField} {i : Nat} {value mask : Val} {hw : Option Val}
    : s.Goes (State.effectWrite s d f i value mask hw) := by
  unfold State.effectWrite
  with_reducible repeat' first
    | exact Goes.refl _ | assumption
    | ((fail_if_no_progress extract_lets +onlyGivenNames x);
        refine Goes.cut (t := x) ?_ fun hx => ?_; (on_goal 1 => dsimp -zeta only [x]; clear x); on_goal 2 => clear_value x)
    | fail_if_no_progress extract_lets +onlyGivenNames x | apply Goes.snoc State.fieldEffect_goes
    | apply Goes.snoc State.classWrite_goes | apply Goes.ite

theorem State.regWrite_goes {s : State} {d : RegDef} {i : Nat} {value mask : Val} {hw : List HwUpdate}
    : s.Goes (State.regWrite s d i value mask hw) := by
  unfold State.regWrite
  with_reducible repeat' first
    | exact Goes.refl _ | assumption
    | ((fail_if_no_progress extract_lets +onlyGivenNames x);
        refine Goes.cut (t := x) ?_ fun hx => ?_; (on_goal 1 => dsimp -zeta only [x]; clear x); on_goal 2 => clear_value x)
    | fail_if_no_progress extract_lets +onlyGivenNames x | apply Goes.snoc State.effectWrite_goes
    | apply Goes.snoc State.commandWrite_goes | apply Goes.snoc State.classWrite_goes | apply Goes.snoc State.after_goes
    | apply Goes.snoc State.lampWrite_goes | exact State.after_goes execPartFaultClear_goes
    | apply Goes.snoc State.tackRangeCommit_goes | (apply Goes.each; (on_goal 2 => intro x u)) | apply Goes.ite

theorem State.unreached_goes {s : State} {port : Port} {addr : Nat} : s.Goes (State.unreached s port addr) := by
  unfold State.unreached
  with_reducible repeat' first
    | exact Goes.refl _ | assumption | fail_if_no_progress extract_lets +onlyGivenNames x | apply Goes.snoc State.hostErr_goes
    | apply Goes.snoc State.set1_goes | apply Goes.ite

theorem State.setShadow_goes {s : State} {k : Nat} {v : Option Word32} : s.Goes (State.setShadow s k v) := by
  unfold State.setShadow
  with_reducible repeat' first
    | exact Goes.refl _ | assumption | fail_if_no_progress extract_lets +onlyGivenNames x | apply Goes.ite | split
    | dsimp -zeta only [Acc.state, Head?.state, Prep.state] | fail_if_no_progress apply Goes.record

theorem State.setStaging_goes {s : State} {k : Nat} {v : Word32} : s.Goes (State.setStaging s k v) := by
  unfold State.setStaging
  with_reducible repeat' first
    | exact Goes.refl _ | assumption | fail_if_no_progress extract_lets +onlyGivenNames x | apply Goes.ite | split
    | dsimp -zeta only [Acc.state, Head?.state, Prep.state] | fail_if_no_progress apply Goes.record

theorem State.read32_goes {s : State} {port : Port} {addr : Nat} : s.Goes (State.read32 s port addr).2 := by
  unfold State.read32
  with_reducible repeat' first
    | exact Goes.refl _ | assumption | fail_if_no_progress extract_lets +onlyGivenNames x | apply Goes.snoc State.setShadow_goes
    | apply Goes.snoc State.unreached_goes | apply Goes.ite | split
theorem State.read32_goes_eq {s : State} {port : Port} {addr : Nat} {rb0 : Word32} {rt : State}
    (hF : State.read32 s port addr = (rb0, rt)) : s.Goes rt := by
  unfold State.read32 at hF
  revert hF
  with_reducible repeat' first
    | (rintro ⟨⟩) | exact Goes.refl _ | assumption | fail_if_no_progress extract_lets +onlyGivenNames x
    | apply Goes.snoc State.setShadow_goes | apply Goes.snoc State.unreached_goes | apply Goes.ite | split

theorem State.bufferWrite_goes {s : State} {o : Nat} {w : Word32} : s.Goes (State.bufferWrite s o w) := by
  unfold State.bufferWrite
  with_reducible repeat' first
    | exact Goes.refl _ | assumption | fail_if_no_progress extract_lets +onlyGivenNames x | apply Goes.snoc State.onSec_goes
    | apply Goes.snoc State.set1_goes | apply Goes.ite

theorem State.portWrite_goes {s : State} {port : Port} {h : RegHit} {value mask : Val} {hw : List HwUpdate}
    : s.Goes (State.portWrite s port h value mask hw) := by
  unfold State.portWrite
  with_reducible repeat' first
    | exact Goes.refl _ | assumption | fail_if_no_progress extract_lets +onlyGivenNames x | apply Goes.snoc State.regWrite_goes
    | apply Goes.snoc State.set1_goes | (apply Goes.when; on_goal 2 => intro u) | apply Goes.ite

theorem State.write32_goes {s : State} {port : Port} {addr : Nat} {w : Word32} {hw : List HwUpdate}
    : s.Goes (State.write32 s port addr w hw) := by
  unfold State.write32
  with_reducible repeat' first
    | exact Goes.refl _ | assumption | fail_if_no_progress extract_lets +onlyGivenNames x | apply Goes.snoc State.portWrite_goes
    | apply Goes.snoc State.bufferWrite_goes | apply Goes.snoc State.setStaging_goes | apply Goes.snoc State.unreached_goes
    | apply Goes.ite | split

theorem State.portRead32_goes {s : State} {port : Port} {addr : Nat} : s.Goes (State.portRead32 s port addr) := by
  unfold State.portRead32
  with_reducible repeat' first
    | exact Goes.refl _ | assumption | fail_if_no_progress extract_lets +onlyGivenNames x | apply Goes.snoc State.read32_goes
    | (apply Goes.snoc (State.read32_goes_eq (hF := by assumption))) | apply Goes.snoc State.badAccess_goes
    | apply Goes.snoc State.send_goes | (apply Goes.when; on_goal 2 => intro u) | apply Goes.ite

theorem State.portWrite32_goes {s : State} {port : Port} {addr : Nat} {w : Word32} {hw : List HwUpdate}
    : s.Goes (State.portWrite32 s port addr w hw) := by
  unfold State.portWrite32
  with_reducible repeat' first
    | exact Goes.refl _ | assumption | fail_if_no_progress extract_lets +onlyGivenNames x | apply Goes.snoc State.write32_goes
    | apply Goes.snoc State.badAccess_goes | (apply Goes.when; on_goal 2 => intro u) | apply Goes.ite

theorem State.access64_goes {s : State} {port : Port} {addr : Nat} {write : Option (BitVec 64)} {hw : List HwUpdate}
    : s.Goes (State.access64 s port addr write hw) := by
  unfold State.access64
  with_reducible repeat' first
    | exact Goes.refl _ | assumption | fail_if_no_progress extract_lets +onlyGivenNames x | apply Goes.snoc State.write32_goes
    | apply Goes.snoc State.portWrite_goes | apply Goes.snoc State.read32_goes
    | (apply Goes.snoc (State.read32_goes_eq (hF := by assumption))) | apply Goes.snoc State.unreached_goes
    | apply Goes.snoc State.send_goes | apply Goes.ite | split

theorem State.coatRegWrite_goes {s : State} {addr : Nat} {wide : Bool} {value mask : Val}
    : s.Goes (State.coatRegWrite s addr wide value mask) := by
  unfold State.coatRegWrite
  with_reducible repeat' first
    | exact Goes.refl _ | assumption | fail_if_no_progress extract_lets +onlyGivenNames x | apply Goes.snoc State.regWrite_goes
    | apply Goes.ite | split

/-! ### Machine/CoatApply.lean -/

theorem State.showPatch_goes {s : State} {k : Sketch} {r : List Byte} : s.Goes (State.showPatch s k r) := by
  unfold State.showPatch
  with_reducible repeat' first
    | exact Goes.refl _ | assumption
    | ((fail_if_no_progress extract_lets +onlyGivenNames x);
        refine Goes.cut (t := x) ?_ fun hx => ?_; (on_goal 1 => dsimp -zeta only [x]; clear x); on_goal 2 => clear_value x)
    | fail_if_no_progress extract_lets +onlyGivenNames x | apply Goes.snoc State.flag_goes | apply Goes.snoc State.wrN_goes
    | apply Goes.ite | split | dsimp -zeta only [Acc.state, Head?.state, Prep.state] | fail_if_no_progress apply Goes.record

theorem State.applyPatch_goes {s : State} {r : List Byte} : s.Goes (State.applyPatch s r) := by
  unfold State.applyPatch
  with_reducible repeat' first
    | exact Goes.refl _ | assumption
    | ((fail_if_no_progress extract_lets +onlyGivenNames x);
        refine Goes.cut (t := x) ?_ fun hx => ?_; (on_goal 1 => dsimp -zeta only [x]; clear x); on_goal 2 => clear_value x)
    | fail_if_no_progress extract_lets +onlyGivenNames x | apply Goes.snoc State.showPatch_goes
    | apply Goes.snoc State.setMeas_goes | apply Goes.snoc State.bump_goes | apply Goes.snoc State.set1_goes | apply Goes.ite
    | split | dsimp -zeta only [Acc.state, Head?.state, Prep.state] | fail_if_no_progress apply Goes.record

theorem State.applyMem_goes {s : State} {d : Dpa} {v m : Val} : s.Goes (State.applyMem s d v m) := by
  unfold State.applyMem
  with_reducible repeat' first
    | exact Goes.refl _ | assumption | fail_if_no_progress extract_lets +onlyGivenNames x | apply Goes.snoc State.ringBells_goes
    | apply Goes.snoc State.putLine_goes | apply Goes.snoc State.eccLog_goes | apply Goes.ite | split

theorem State.applyAction_goes {s : State} {a : CoatAction} : s.Goes (State.applyAction s a) := by
  unfold State.applyAction
  with_reducible repeat' first
    | exact Goes.refl _ | assumption | fail_if_no_progress extract_lets +onlyGivenNames x | apply Goes.snoc State.applyMem_goes
    | apply Goes.snoc State.applyPatch_goes | apply Goes.snoc State.coatRegWrite_goes | apply Goes.snoc State.regWrite_goes
    | apply Goes.snoc State.wr_goes | apply Goes.ite | split

theorem State.applyPosts_goes {s : State} {ps : List (Nat × List Byte)} {rt : State} (hF : s.applyPosts ps = some rt)
    : s.Goes rt := by
  unfold State.applyPosts at hF
  exact Goes.foldlOpt id (fun p a a' e => State.postWrite_goes e) (fun x => rfl) hF

theorem State.coatApplied_goes {s : State} {id : Nat} {c : Coat} {code : Code} : s.Goes (State.coatApplied s id c code) := by
  unfold State.coatApplied
  with_reducible repeat' first
    | exact Goes.refl _ | assumption | fail_if_no_progress extract_lets +onlyGivenNames x | apply Goes.snoc State.coatClose_goes
    | apply Goes.snoc State.coatFinish_goes | apply Goes.snoc State.setCoat_goes | apply Goes.snoc State.send_goes
    | apply Goes.ite | split

end Sys2Proof.Machine
end

