-- ==== Sys2Proof/Laws/State.lean ====
section
/-! SUPPORT. The laws of State's basic updates: what a register field reads after a write, and what each update leaves
alone, one lemma per update and field. -/

namespace Sys2Proof.Machine

/-! ### Register fields -/

/-- Two register fields of different place have different keys, whatever the indices. -/
theorem RegField.key_ne {f g : RegField} (i j : Nat) (h : f.reg * 64 + f.lo ≠ g.reg * 64 + g.lo) : f.key i ≠ g.key j := by
  unfold RegField.key; omega

/-- The same field at two indices below 2^32. -/
theorem RegField.key_index_ne (f : RegField) {i j : Nat} (hi : i < 4294967296) (hj : j < 4294967296) (h : i ≠ j) :
    f.key i ≠ f.key j := by
  unfold RegField.key; omega

@[simp] theorem State.rd_wr_self (s : State) (f : RegField) (i : Nat) (v : Val) : (s.wr f i v).rd f i = f.fit v := by
  simp [State.rd, State.wr]

theorem State.rd_wr_ne (s : State) {f g : RegField} {i j : Nat} (v : Val) (h : g.key j ≠ f.key i) :
    (s.wr f i v).rd g j = s.rd g j := by
  unfold State.rd State.wr
  exact Tab.get_set_ne _ _ _ _ h

theorem State.wrN_eq (s : State) (f : RegField) (i n : Nat) : s.wrN f i n = s.wr f i (BitVec.ofNat 64 n) := rfl
theorem State.set1_eq (s : State) (f : RegField) (i : Nat) : s.set1 f i = s.wr f i 1 := rfl
theorem State.clr_eq (s : State) (f : RegField) (i : Nat) : s.clr f i = s.wr f i 0 := rfl
theorem State.flag_eq (s : State) (f : RegField) (i : Nat) (b : Bool) : s.flag f i b = s.wr f i (if b then 1 else 0) := rfl
theorem State.bump_eq (s : State) (f : RegField) (i n : Nat) : s.bump f i n = s.wr f i (s.rd f i + BitVec.ofNat 64 n) := rfl

/-- A field's value after a write of a number to it. -/
theorem State.rdN_wrN_self (s : State) (f : RegField) (i n : Nat) (h : f.width ≤ 64) : (s.wrN f i n).rdN f i = n % 2 ^ f.width := by
  simp only [State.rdN, State.wrN_eq, State.rd_wr_self, RegField.fit, BitVec.toNat_setWidth, BitVec.toNat_ofNat]
  rw [Nat.mod_mod_of_dvd _ (Nat.pow_dvd_pow 2 h)]
  exact Nat.mod_eq_of_lt (Nat.lt_of_lt_of_le (Nat.mod_lt _ (Nat.two_pow_pos _)) (Nat.pow_le_pow_right (by decide) h))

/-- A one-bit field that was set reads 1. -/
theorem State.on_set1_self (s : State) (f : RegField) (i : Nat) (h : 0 < f.width) : (s.set1 f i).on f i = true := by
  simp only [State.on, State.set1_eq, State.rd_wr_self, RegField.fit]
  have : BitVec.setWidth 64 (BitVec.setWidth f.width (1 : Val)) = 1 := by
    apply BitVec.eq_of_toNat_eq
    have h2 : 2 ≤ 2 ^ f.width := Nat.le_trans (by decide : 2 ≤ 2 ^ 1) (Nat.pow_le_pow_right (by decide) h)
    simp [Nat.mod_eq_of_lt (Nat.lt_of_lt_of_le (by decide : 1 < 2) h2)]
  rw [beq_iff_eq]; exact this

/-- A one-bit field that was cleared reads 0. -/
theorem State.on_clr_self (s : State) (f : RegField) (i : Nat) : (s.clr f i).on f i = false := by
  simp [State.on, State.clr_eq, RegField.fit]

/-! ### Loops and conditions -/

@[simp] theorem State.each_nil {α : Type} (s : State) (f : α → State → State) : s.each [] f = s := rfl
@[simp] theorem State.each_cons {α : Type} (s : State) (x : α) (xs : List α) (f : α → State → State) :
    s.each (x :: xs) f = (f x s).each xs f := rfl
@[simp] theorem State.when_true (s : State) (f : State → State) : s.when true f = f s := rfl
@[simp] theorem State.when_false (s : State) (f : State → State) : s.when false f = s := rfl

/-- What every turn of a loop keeps, the loop keeps. -/
theorem State.each_keeps {α : Type} (P : State → Prop) (xs : List α) (f : α → State → State)
    (h : ∀ x t, P t → P (f x t)) : ∀ s, P s → P (s.each xs f) := by
  induction xs with
  | nil => exact fun s hs => hs
  | cons x xs ih => exact fun s hs => ih (f x s) (h x s hs)

/-- What a conditional step keeps in both cases. -/
theorem State.when_keeps (P : State → Prop) (c : Bool) (f : State → State) (h : ∀ t, P t → P (f t)) :
    ∀ s, P s → P (s.when c f) := by
  intro s hs; cases c
  · exact hs
  · exact h s hs

/-- A projection that no turn of a loop changes. -/
theorem State.each_same {α β : Type} (π : State → β) (xs : List α) (f : α → State → State)
    (h : ∀ x t, π (f x t) = π t) : ∀ s, π (s.each xs f) = π s := by
  induction xs with
  | nil => exact fun s => rfl
  | cons x xs ih => exact fun s => (ih (f x s)).trans (h x s)

/-- A projection that a conditional step does not change. -/
theorem State.when_same {β : Type} (π : State → β) (c : Bool) (f : State → State) (h : ∀ t, π (f t) = π t) (s : State) :
    π (s.when c f) = π s := by
  cases c
  · rfl
  · exact h s

/-! ### What each update leaves alone -/

@[simp] theorem State.wr_mem (s : State) (f : RegField) (i : Nat) (v : Val) : (s.wr f i v).mem = s.mem := rfl
@[simp] theorem State.wr_ports (s : State) (f : RegField) (i : Nat) (v : Val) : (s.wr f i v).ports = s.ports := rfl
@[simp] theorem State.wr_isl (s : State) (f : RegField) (i : Nat) (v : Val) : (s.wr f i v).isl = s.isl := rfl
@[simp] theorem State.wr_pnl (s : State) (f : RegField) (i : Nat) (v : Val) : (s.wr f i v).pnl = s.pnl := rfl
@[simp] theorem State.wr_str (s : State) (f : RegField) (i : Nat) (v : Val) : (s.wr f i v).str = s.str := rfl
@[simp] theorem State.wr_seq (s : State) (f : RegField) (i : Nat) (v : Val) : (s.wr f i v).seq = s.seq := rfl
@[simp] theorem State.wr_glz (s : State) (f : RegField) (i : Nat) (v : Val) : (s.wr f i v).glz = s.glz := rfl
@[simp] theorem State.wr_gso (s : State) (f : RegField) (i : Nat) (v : Val) : (s.wr f i v).gso = s.gso := rfl
@[simp] theorem State.wr_rows (s : State) (f : RegField) (i : Nat) (v : Val) : (s.wr f i v).rows = s.rows := rfl
@[simp] theorem State.wr_rings (s : State) (f : RegField) (i : Nat) (v : Val) : (s.wr f i v).rings = s.rings := rfl
@[simp] theorem State.wr_fin (s : State) (f : RegField) (i : Nat) (v : Val) : (s.wr f i v).fin = s.fin := rfl
@[simp] theorem State.wr_coats (s : State) (f : RegField) (i : Nat) (v : Val) : (s.wr f i v).coats = s.coats := rfl
@[simp] theorem State.wr_dma (s : State) (f : RegField) (i : Nat) (v : Val) : (s.wr f i v).dma = s.dma := rfl
@[simp] theorem State.wr_links (s : State) (f : RegField) (i : Nat) (v : Val) : (s.wr f i v).links = s.links := rfl
@[simp] theorem State.wr_colls (s : State) (f : RegField) (i : Nat) (v : Val) : (s.wr f i v).colls = s.colls := rfl
@[simp] theorem State.wr_early (s : State) (f : RegField) (i : Nat) (v : Val) : (s.wr f i v).early = s.early := rfl
@[simp] theorem State.wr_power (s : State) (f : RegField) (i : Nat) (v : Val) : (s.wr f i v).power = s.power := rfl
@[simp] theorem State.wr_therm (s : State) (f : RegField) (i : Nat) (v : Val) : (s.wr f i v).therm = s.therm := rfl
@[simp] theorem State.wr_sec (s : State) (f : RegField) (i : Nat) (v : Val) : (s.wr f i v).sec = s.sec := rfl
@[simp] theorem State.wr_host (s : State) (f : RegField) (i : Nat) (v : Val) : (s.wr f i v).host = s.host := rfl
@[simp] theorem State.wr_jnl (s : State) (f : RegField) (i : Nat) (v : Val) : (s.wr f i v).jnl = s.jnl := rfl
@[simp] theorem State.wr_boot (s : State) (f : RegField) (i : Nat) (v : Val) : (s.wr f i v).boot = s.boot := rfl
@[simp] theorem State.wr_always (s : State) (f : RegField) (i : Nat) (v : Val) : (s.wr f i v).always = s.always := rfl
@[simp] theorem State.wr_sbd (s : State) (f : RegField) (i : Nat) (v : Val) : (s.wr f i v).sbd = s.sbd := rfl
@[simp] theorem State.wr_sent (s : State) (f : RegField) (i : Nat) (v : Val) : (s.wr f i v).sent = s.sent := rfl
@[simp] theorem State.wr_free (s : State) (f : RegField) (i : Nat) (v : Val) : (s.wr f i v).free = s.free := rfl
@[simp] theorem State.wr_pending (s : State) (f : RegField) (i : Nat) (v : Val) : (s.wr f i v).pending = s.pending := rfl

@[simp] theorem State.wrN_mem (s : State) (f : RegField) (i n : Nat) : (s.wrN f i n).mem = s.mem := rfl
@[simp] theorem State.wrN_ports (s : State) (f : RegField) (i n : Nat) : (s.wrN f i n).ports = s.ports := rfl
@[simp] theorem State.wrN_isl (s : State) (f : RegField) (i n : Nat) : (s.wrN f i n).isl = s.isl := rfl
@[simp] theorem State.wrN_pnl (s : State) (f : RegField) (i n : Nat) : (s.wrN f i n).pnl = s.pnl := rfl
@[simp] theorem State.wrN_str (s : State) (f : RegField) (i n : Nat) : (s.wrN f i n).str = s.str := rfl
@[simp] theorem State.wrN_seq (s : State) (f : RegField) (i n : Nat) : (s.wrN f i n).seq = s.seq := rfl
@[simp] theorem State.wrN_glz (s : State) (f : RegField) (i n : Nat) : (s.wrN f i n).glz = s.glz := rfl
@[simp] theorem State.wrN_gso (s : State) (f : RegField) (i n : Nat) : (s.wrN f i n).gso = s.gso := rfl
@[simp] theorem State.wrN_rows (s : State) (f : RegField) (i n : Nat) : (s.wrN f i n).rows = s.rows := rfl
@[simp] theorem State.wrN_rings (s : State) (f : RegField) (i n : Nat) : (s.wrN f i n).rings = s.rings := rfl
@[simp] theorem State.wrN_fin (s : State) (f : RegField) (i n : Nat) : (s.wrN f i n).fin = s.fin := rfl
@[simp] theorem State.wrN_coats (s : State) (f : RegField) (i n : Nat) : (s.wrN f i n).coats = s.coats := rfl
@[simp] theorem State.wrN_dma (s : State) (f : RegField) (i n : Nat) : (s.wrN f i n).dma = s.dma := rfl
@[simp] theorem State.wrN_links (s : State) (f : RegField) (i n : Nat) : (s.wrN f i n).links = s.links := rfl
@[simp] theorem State.wrN_colls (s : State) (f : RegField) (i n : Nat) : (s.wrN f i n).colls = s.colls := rfl
@[simp] theorem State.wrN_early (s : State) (f : RegField) (i n : Nat) : (s.wrN f i n).early = s.early := rfl
@[simp] theorem State.wrN_power (s : State) (f : RegField) (i n : Nat) : (s.wrN f i n).power = s.power := rfl
@[simp] theorem State.wrN_therm (s : State) (f : RegField) (i n : Nat) : (s.wrN f i n).therm = s.therm := rfl
@[simp] theorem State.wrN_sec (s : State) (f : RegField) (i n : Nat) : (s.wrN f i n).sec = s.sec := rfl
@[simp] theorem State.wrN_host (s : State) (f : RegField) (i n : Nat) : (s.wrN f i n).host = s.host := rfl
@[simp] theorem State.wrN_jnl (s : State) (f : RegField) (i n : Nat) : (s.wrN f i n).jnl = s.jnl := rfl
@[simp] theorem State.wrN_boot (s : State) (f : RegField) (i n : Nat) : (s.wrN f i n).boot = s.boot := rfl
@[simp] theorem State.wrN_always (s : State) (f : RegField) (i n : Nat) : (s.wrN f i n).always = s.always := rfl
@[simp] theorem State.wrN_sbd (s : State) (f : RegField) (i n : Nat) : (s.wrN f i n).sbd = s.sbd := rfl
@[simp] theorem State.wrN_sent (s : State) (f : RegField) (i n : Nat) : (s.wrN f i n).sent = s.sent := rfl
@[simp] theorem State.wrN_free (s : State) (f : RegField) (i n : Nat) : (s.wrN f i n).free = s.free := rfl
@[simp] theorem State.wrN_pending (s : State) (f : RegField) (i n : Nat) : (s.wrN f i n).pending = s.pending := rfl

@[simp] theorem State.set1_mem (s : State) (f : RegField) (i : Nat) : (s.set1 f i).mem = s.mem := rfl
@[simp] theorem State.set1_ports (s : State) (f : RegField) (i : Nat) : (s.set1 f i).ports = s.ports := rfl
@[simp] theorem State.set1_isl (s : State) (f : RegField) (i : Nat) : (s.set1 f i).isl = s.isl := rfl
@[simp] theorem State.set1_pnl (s : State) (f : RegField) (i : Nat) : (s.set1 f i).pnl = s.pnl := rfl
@[simp] theorem State.set1_str (s : State) (f : RegField) (i : Nat) : (s.set1 f i).str = s.str := rfl
@[simp] theorem State.set1_seq (s : State) (f : RegField) (i : Nat) : (s.set1 f i).seq = s.seq := rfl
@[simp] theorem State.set1_glz (s : State) (f : RegField) (i : Nat) : (s.set1 f i).glz = s.glz := rfl
@[simp] theorem State.set1_gso (s : State) (f : RegField) (i : Nat) : (s.set1 f i).gso = s.gso := rfl
@[simp] theorem State.set1_rows (s : State) (f : RegField) (i : Nat) : (s.set1 f i).rows = s.rows := rfl
@[simp] theorem State.set1_rings (s : State) (f : RegField) (i : Nat) : (s.set1 f i).rings = s.rings := rfl
@[simp] theorem State.set1_fin (s : State) (f : RegField) (i : Nat) : (s.set1 f i).fin = s.fin := rfl
@[simp] theorem State.set1_coats (s : State) (f : RegField) (i : Nat) : (s.set1 f i).coats = s.coats := rfl
@[simp] theorem State.set1_dma (s : State) (f : RegField) (i : Nat) : (s.set1 f i).dma = s.dma := rfl
@[simp] theorem State.set1_links (s : State) (f : RegField) (i : Nat) : (s.set1 f i).links = s.links := rfl
@[simp] theorem State.set1_colls (s : State) (f : RegField) (i : Nat) : (s.set1 f i).colls = s.colls := rfl
@[simp] theorem State.set1_early (s : State) (f : RegField) (i : Nat) : (s.set1 f i).early = s.early := rfl
@[simp] theorem State.set1_power (s : State) (f : RegField) (i : Nat) : (s.set1 f i).power = s.power := rfl
@[simp] theorem State.set1_therm (s : State) (f : RegField) (i : Nat) : (s.set1 f i).therm = s.therm := rfl
@[simp] theorem State.set1_sec (s : State) (f : RegField) (i : Nat) : (s.set1 f i).sec = s.sec := rfl
@[simp] theorem State.set1_host (s : State) (f : RegField) (i : Nat) : (s.set1 f i).host = s.host := rfl
@[simp] theorem State.set1_jnl (s : State) (f : RegField) (i : Nat) : (s.set1 f i).jnl = s.jnl := rfl
@[simp] theorem State.set1_boot (s : State) (f : RegField) (i : Nat) : (s.set1 f i).boot = s.boot := rfl
@[simp] theorem State.set1_always (s : State) (f : RegField) (i : Nat) : (s.set1 f i).always = s.always := rfl
@[simp] theorem State.set1_sbd (s : State) (f : RegField) (i : Nat) : (s.set1 f i).sbd = s.sbd := rfl
@[simp] theorem State.set1_sent (s : State) (f : RegField) (i : Nat) : (s.set1 f i).sent = s.sent := rfl
@[simp] theorem State.set1_free (s : State) (f : RegField) (i : Nat) : (s.set1 f i).free = s.free := rfl
@[simp] theorem State.set1_pending (s : State) (f : RegField) (i : Nat) : (s.set1 f i).pending = s.pending := rfl

@[simp] theorem State.clr_mem (s : State) (f : RegField) (i : Nat) : (s.clr f i).mem = s.mem := rfl
@[simp] theorem State.clr_ports (s : State) (f : RegField) (i : Nat) : (s.clr f i).ports = s.ports := rfl
@[simp] theorem State.clr_isl (s : State) (f : RegField) (i : Nat) : (s.clr f i).isl = s.isl := rfl
@[simp] theorem State.clr_pnl (s : State) (f : RegField) (i : Nat) : (s.clr f i).pnl = s.pnl := rfl
@[simp] theorem State.clr_str (s : State) (f : RegField) (i : Nat) : (s.clr f i).str = s.str := rfl
@[simp] theorem State.clr_seq (s : State) (f : RegField) (i : Nat) : (s.clr f i).seq = s.seq := rfl
@[simp] theorem State.clr_glz (s : State) (f : RegField) (i : Nat) : (s.clr f i).glz = s.glz := rfl
@[simp] theorem State.clr_gso (s : State) (f : RegField) (i : Nat) : (s.clr f i).gso = s.gso := rfl
@[simp] theorem State.clr_rows (s : State) (f : RegField) (i : Nat) : (s.clr f i).rows = s.rows := rfl
@[simp] theorem State.clr_rings (s : State) (f : RegField) (i : Nat) : (s.clr f i).rings = s.rings := rfl
@[simp] theorem State.clr_fin (s : State) (f : RegField) (i : Nat) : (s.clr f i).fin = s.fin := rfl
@[simp] theorem State.clr_coats (s : State) (f : RegField) (i : Nat) : (s.clr f i).coats = s.coats := rfl
@[simp] theorem State.clr_dma (s : State) (f : RegField) (i : Nat) : (s.clr f i).dma = s.dma := rfl
@[simp] theorem State.clr_links (s : State) (f : RegField) (i : Nat) : (s.clr f i).links = s.links := rfl
@[simp] theorem State.clr_colls (s : State) (f : RegField) (i : Nat) : (s.clr f i).colls = s.colls := rfl
@[simp] theorem State.clr_early (s : State) (f : RegField) (i : Nat) : (s.clr f i).early = s.early := rfl
@[simp] theorem State.clr_power (s : State) (f : RegField) (i : Nat) : (s.clr f i).power = s.power := rfl
@[simp] theorem State.clr_therm (s : State) (f : RegField) (i : Nat) : (s.clr f i).therm = s.therm := rfl
@[simp] theorem State.clr_sec (s : State) (f : RegField) (i : Nat) : (s.clr f i).sec = s.sec := rfl
@[simp] theorem State.clr_host (s : State) (f : RegField) (i : Nat) : (s.clr f i).host = s.host := rfl
@[simp] theorem State.clr_jnl (s : State) (f : RegField) (i : Nat) : (s.clr f i).jnl = s.jnl := rfl
@[simp] theorem State.clr_boot (s : State) (f : RegField) (i : Nat) : (s.clr f i).boot = s.boot := rfl
@[simp] theorem State.clr_always (s : State) (f : RegField) (i : Nat) : (s.clr f i).always = s.always := rfl
@[simp] theorem State.clr_sbd (s : State) (f : RegField) (i : Nat) : (s.clr f i).sbd = s.sbd := rfl
@[simp] theorem State.clr_sent (s : State) (f : RegField) (i : Nat) : (s.clr f i).sent = s.sent := rfl
@[simp] theorem State.clr_free (s : State) (f : RegField) (i : Nat) : (s.clr f i).free = s.free := rfl
@[simp] theorem State.clr_pending (s : State) (f : RegField) (i : Nat) : (s.clr f i).pending = s.pending := rfl

@[simp] theorem State.flag_mem (s : State) (f : RegField) (i : Nat) (b : Bool) : (s.flag f i b).mem = s.mem := rfl
@[simp] theorem State.flag_ports (s : State) (f : RegField) (i : Nat) (b : Bool) : (s.flag f i b).ports = s.ports := rfl
@[simp] theorem State.flag_isl (s : State) (f : RegField) (i : Nat) (b : Bool) : (s.flag f i b).isl = s.isl := rfl
@[simp] theorem State.flag_pnl (s : State) (f : RegField) (i : Nat) (b : Bool) : (s.flag f i b).pnl = s.pnl := rfl
@[simp] theorem State.flag_str (s : State) (f : RegField) (i : Nat) (b : Bool) : (s.flag f i b).str = s.str := rfl
@[simp] theorem State.flag_seq (s : State) (f : RegField) (i : Nat) (b : Bool) : (s.flag f i b).seq = s.seq := rfl
@[simp] theorem State.flag_glz (s : State) (f : RegField) (i : Nat) (b : Bool) : (s.flag f i b).glz = s.glz := rfl
@[simp] theorem State.flag_gso (s : State) (f : RegField) (i : Nat) (b : Bool) : (s.flag f i b).gso = s.gso := rfl
@[simp] theorem State.flag_rows (s : State) (f : RegField) (i : Nat) (b : Bool) : (s.flag f i b).rows = s.rows := rfl
@[simp] theorem State.flag_rings (s : State) (f : RegField) (i : Nat) (b : Bool) : (s.flag f i b).rings = s.rings := rfl
@[simp] theorem State.flag_fin (s : State) (f : RegField) (i : Nat) (b : Bool) : (s.flag f i b).fin = s.fin := rfl
@[simp] theorem State.flag_coats (s : State) (f : RegField) (i : Nat) (b : Bool) : (s.flag f i b).coats = s.coats := rfl
@[simp] theorem State.flag_dma (s : State) (f : RegField) (i : Nat) (b : Bool) : (s.flag f i b).dma = s.dma := rfl
@[simp] theorem State.flag_links (s : State) (f : RegField) (i : Nat) (b : Bool) : (s.flag f i b).links = s.links := rfl
@[simp] theorem State.flag_colls (s : State) (f : RegField) (i : Nat) (b : Bool) : (s.flag f i b).colls = s.colls := rfl
@[simp] theorem State.flag_early (s : State) (f : RegField) (i : Nat) (b : Bool) : (s.flag f i b).early = s.early := rfl
@[simp] theorem State.flag_power (s : State) (f : RegField) (i : Nat) (b : Bool) : (s.flag f i b).power = s.power := rfl
@[simp] theorem State.flag_therm (s : State) (f : RegField) (i : Nat) (b : Bool) : (s.flag f i b).therm = s.therm := rfl
@[simp] theorem State.flag_sec (s : State) (f : RegField) (i : Nat) (b : Bool) : (s.flag f i b).sec = s.sec := rfl
@[simp] theorem State.flag_host (s : State) (f : RegField) (i : Nat) (b : Bool) : (s.flag f i b).host = s.host := rfl
@[simp] theorem State.flag_jnl (s : State) (f : RegField) (i : Nat) (b : Bool) : (s.flag f i b).jnl = s.jnl := rfl
@[simp] theorem State.flag_boot (s : State) (f : RegField) (i : Nat) (b : Bool) : (s.flag f i b).boot = s.boot := rfl
@[simp] theorem State.flag_always (s : State) (f : RegField) (i : Nat) (b : Bool) : (s.flag f i b).always = s.always := rfl
@[simp] theorem State.flag_sbd (s : State) (f : RegField) (i : Nat) (b : Bool) : (s.flag f i b).sbd = s.sbd := rfl
@[simp] theorem State.flag_sent (s : State) (f : RegField) (i : Nat) (b : Bool) : (s.flag f i b).sent = s.sent := rfl
@[simp] theorem State.flag_free (s : State) (f : RegField) (i : Nat) (b : Bool) : (s.flag f i b).free = s.free := rfl
@[simp] theorem State.flag_pending (s : State) (f : RegField) (i : Nat) (b : Bool) : (s.flag f i b).pending = s.pending := rfl

@[simp] theorem State.bump_mem (s : State) (f : RegField) (i n : Nat) : (s.bump f i n).mem = s.mem := rfl
@[simp] theorem State.bump_ports (s : State) (f : RegField) (i n : Nat) : (s.bump f i n).ports = s.ports := rfl
@[simp] theorem State.bump_isl (s : State) (f : RegField) (i n : Nat) : (s.bump f i n).isl = s.isl := rfl
@[simp] theorem State.bump_pnl (s : State) (f : RegField) (i n : Nat) : (s.bump f i n).pnl = s.pnl := rfl
@[simp] theorem State.bump_str (s : State) (f : RegField) (i n : Nat) : (s.bump f i n).str = s.str := rfl
@[simp] theorem State.bump_seq (s : State) (f : RegField) (i n : Nat) : (s.bump f i n).seq = s.seq := rfl
@[simp] theorem State.bump_glz (s : State) (f : RegField) (i n : Nat) : (s.bump f i n).glz = s.glz := rfl
@[simp] theorem State.bump_gso (s : State) (f : RegField) (i n : Nat) : (s.bump f i n).gso = s.gso := rfl
@[simp] theorem State.bump_rows (s : State) (f : RegField) (i n : Nat) : (s.bump f i n).rows = s.rows := rfl
@[simp] theorem State.bump_rings (s : State) (f : RegField) (i n : Nat) : (s.bump f i n).rings = s.rings := rfl
@[simp] theorem State.bump_fin (s : State) (f : RegField) (i n : Nat) : (s.bump f i n).fin = s.fin := rfl
@[simp] theorem State.bump_coats (s : State) (f : RegField) (i n : Nat) : (s.bump f i n).coats = s.coats := rfl
@[simp] theorem State.bump_dma (s : State) (f : RegField) (i n : Nat) : (s.bump f i n).dma = s.dma := rfl
@[simp] theorem State.bump_links (s : State) (f : RegField) (i n : Nat) : (s.bump f i n).links = s.links := rfl
@[simp] theorem State.bump_colls (s : State) (f : RegField) (i n : Nat) : (s.bump f i n).colls = s.colls := rfl
@[simp] theorem State.bump_early (s : State) (f : RegField) (i n : Nat) : (s.bump f i n).early = s.early := rfl
@[simp] theorem State.bump_power (s : State) (f : RegField) (i n : Nat) : (s.bump f i n).power = s.power := rfl
@[simp] theorem State.bump_therm (s : State) (f : RegField) (i n : Nat) : (s.bump f i n).therm = s.therm := rfl
@[simp] theorem State.bump_sec (s : State) (f : RegField) (i n : Nat) : (s.bump f i n).sec = s.sec := rfl
@[simp] theorem State.bump_host (s : State) (f : RegField) (i n : Nat) : (s.bump f i n).host = s.host := rfl
@[simp] theorem State.bump_jnl (s : State) (f : RegField) (i n : Nat) : (s.bump f i n).jnl = s.jnl := rfl
@[simp] theorem State.bump_boot (s : State) (f : RegField) (i n : Nat) : (s.bump f i n).boot = s.boot := rfl
@[simp] theorem State.bump_always (s : State) (f : RegField) (i n : Nat) : (s.bump f i n).always = s.always := rfl
@[simp] theorem State.bump_sbd (s : State) (f : RegField) (i n : Nat) : (s.bump f i n).sbd = s.sbd := rfl
@[simp] theorem State.bump_sent (s : State) (f : RegField) (i n : Nat) : (s.bump f i n).sent = s.sent := rfl
@[simp] theorem State.bump_free (s : State) (f : RegField) (i n : Nat) : (s.bump f i n).free = s.free := rfl
@[simp] theorem State.bump_pending (s : State) (f : RegField) (i n : Nat) : (s.bump f i n).pending = s.pending := rfl

@[simp] theorem State.send_regs (s : State) (m : Msg) : (s.send m).regs = s.regs := rfl
@[simp] theorem State.send_mem (s : State) (m : Msg) : (s.send m).mem = s.mem := rfl
@[simp] theorem State.send_ports (s : State) (m : Msg) : (s.send m).ports = s.ports := rfl
@[simp] theorem State.send_isl (s : State) (m : Msg) : (s.send m).isl = s.isl := rfl
@[simp] theorem State.send_pnl (s : State) (m : Msg) : (s.send m).pnl = s.pnl := rfl
@[simp] theorem State.send_str (s : State) (m : Msg) : (s.send m).str = s.str := rfl
@[simp] theorem State.send_seq (s : State) (m : Msg) : (s.send m).seq = s.seq := rfl
@[simp] theorem State.send_glz (s : State) (m : Msg) : (s.send m).glz = s.glz := rfl
@[simp] theorem State.send_gso (s : State) (m : Msg) : (s.send m).gso = s.gso := rfl
@[simp] theorem State.send_rows (s : State) (m : Msg) : (s.send m).rows = s.rows := rfl
@[simp] theorem State.send_rings (s : State) (m : Msg) : (s.send m).rings = s.rings := rfl
@[simp] theorem State.send_fin (s : State) (m : Msg) : (s.send m).fin = s.fin := rfl
@[simp] theorem State.send_coats (s : State) (m : Msg) : (s.send m).coats = s.coats := rfl
@[simp] theorem State.send_dma (s : State) (m : Msg) : (s.send m).dma = s.dma := rfl
@[simp] theorem State.send_links (s : State) (m : Msg) : (s.send m).links = s.links := rfl
@[simp] theorem State.send_colls (s : State) (m : Msg) : (s.send m).colls = s.colls := rfl
@[simp] theorem State.send_early (s : State) (m : Msg) : (s.send m).early = s.early := rfl
@[simp] theorem State.send_power (s : State) (m : Msg) : (s.send m).power = s.power := rfl
@[simp] theorem State.send_therm (s : State) (m : Msg) : (s.send m).therm = s.therm := rfl
@[simp] theorem State.send_sec (s : State) (m : Msg) : (s.send m).sec = s.sec := rfl
@[simp] theorem State.send_host (s : State) (m : Msg) : (s.send m).host = s.host := rfl
@[simp] theorem State.send_jnl (s : State) (m : Msg) : (s.send m).jnl = s.jnl := rfl
@[simp] theorem State.send_boot (s : State) (m : Msg) : (s.send m).boot = s.boot := rfl
@[simp] theorem State.send_always (s : State) (m : Msg) : (s.send m).always = s.always := rfl
@[simp] theorem State.send_sbd (s : State) (m : Msg) : (s.send m).sbd = s.sbd := rfl
@[simp] theorem State.send_free (s : State) (m : Msg) : (s.send m).free = s.free := rfl
@[simp] theorem State.send_pending (s : State) (m : Msg) : (s.send m).pending = s.pending := rfl
@[simp] theorem State.send_rd (s : State) (m : Msg) (g : RegField) (j : Nat) : (s.send m).rd g j = s.rd g j := rfl

@[simp] theorem State.setPth_regs (s : State) (q : Nat) (x : PanelThread) : (s.setPth q x).regs = s.regs := rfl
@[simp] theorem State.setPth_mem (s : State) (q : Nat) (x : PanelThread) : (s.setPth q x).mem = s.mem := rfl
@[simp] theorem State.setPth_ports (s : State) (q : Nat) (x : PanelThread) : (s.setPth q x).ports = s.ports := rfl
@[simp] theorem State.setPth_isl (s : State) (q : Nat) (x : PanelThread) : (s.setPth q x).isl = s.isl := rfl
@[simp] theorem State.setPth_str (s : State) (q : Nat) (x : PanelThread) : (s.setPth q x).str = s.str := rfl
@[simp] theorem State.setPth_seq (s : State) (q : Nat) (x : PanelThread) : (s.setPth q x).seq = s.seq := rfl
@[simp] theorem State.setPth_glz (s : State) (q : Nat) (x : PanelThread) : (s.setPth q x).glz = s.glz := rfl
@[simp] theorem State.setPth_gso (s : State) (q : Nat) (x : PanelThread) : (s.setPth q x).gso = s.gso := rfl
@[simp] theorem State.setPth_rows (s : State) (q : Nat) (x : PanelThread) : (s.setPth q x).rows = s.rows := rfl
@[simp] theorem State.setPth_rings (s : State) (q : Nat) (x : PanelThread) : (s.setPth q x).rings = s.rings := rfl
@[simp] theorem State.setPth_fin (s : State) (q : Nat) (x : PanelThread) : (s.setPth q x).fin = s.fin := rfl
@[simp] theorem State.setPth_coats (s : State) (q : Nat) (x : PanelThread) : (s.setPth q x).coats = s.coats := rfl
@[simp] theorem State.setPth_dma (s : State) (q : Nat) (x : PanelThread) : (s.setPth q x).dma = s.dma := rfl
@[simp] theorem State.setPth_links (s : State) (q : Nat) (x : PanelThread) : (s.setPth q x).links = s.links := rfl
@[simp] theorem State.setPth_colls (s : State) (q : Nat) (x : PanelThread) : (s.setPth q x).colls = s.colls := rfl
@[simp] theorem State.setPth_early (s : State) (q : Nat) (x : PanelThread) : (s.setPth q x).early = s.early := rfl
@[simp] theorem State.setPth_power (s : State) (q : Nat) (x : PanelThread) : (s.setPth q x).power = s.power := rfl
@[simp] theorem State.setPth_therm (s : State) (q : Nat) (x : PanelThread) : (s.setPth q x).therm = s.therm := rfl
@[simp] theorem State.setPth_sec (s : State) (q : Nat) (x : PanelThread) : (s.setPth q x).sec = s.sec := rfl
@[simp] theorem State.setPth_host (s : State) (q : Nat) (x : PanelThread) : (s.setPth q x).host = s.host := rfl
@[simp] theorem State.setPth_jnl (s : State) (q : Nat) (x : PanelThread) : (s.setPth q x).jnl = s.jnl := rfl
@[simp] theorem State.setPth_boot (s : State) (q : Nat) (x : PanelThread) : (s.setPth q x).boot = s.boot := rfl
@[simp] theorem State.setPth_always (s : State) (q : Nat) (x : PanelThread) : (s.setPth q x).always = s.always := rfl
@[simp] theorem State.setPth_sbd (s : State) (q : Nat) (x : PanelThread) : (s.setPth q x).sbd = s.sbd := rfl
@[simp] theorem State.setPth_sent (s : State) (q : Nat) (x : PanelThread) : (s.setPth q x).sent = s.sent := rfl
@[simp] theorem State.setPth_free (s : State) (q : Nat) (x : PanelThread) : (s.setPth q x).free = s.free := rfl
@[simp] theorem State.setPth_pending (s : State) (q : Nat) (x : PanelThread) : (s.setPth q x).pending = s.pending := rfl
@[simp] theorem State.setPth_rd (s : State) (q : Nat) (x : PanelThread) (g : RegField) (j : Nat) : (s.setPth q x).rd g j = s.rd g j := rfl

@[simp] theorem State.setFlight_regs (s : State) (n : Nat) (x : Option Flight) : (s.setFlight n x).regs = s.regs := rfl
@[simp] theorem State.setFlight_mem (s : State) (n : Nat) (x : Option Flight) : (s.setFlight n x).mem = s.mem := rfl
@[simp] theorem State.setFlight_ports (s : State) (n : Nat) (x : Option Flight) : (s.setFlight n x).ports = s.ports := rfl
@[simp] theorem State.setFlight_isl (s : State) (n : Nat) (x : Option Flight) : (s.setFlight n x).isl = s.isl := rfl
@[simp] theorem State.setFlight_str (s : State) (n : Nat) (x : Option Flight) : (s.setFlight n x).str = s.str := rfl
@[simp] theorem State.setFlight_seq (s : State) (n : Nat) (x : Option Flight) : (s.setFlight n x).seq = s.seq := rfl
@[simp] theorem State.setFlight_glz (s : State) (n : Nat) (x : Option Flight) : (s.setFlight n x).glz = s.glz := rfl
@[simp] theorem State.setFlight_gso (s : State) (n : Nat) (x : Option Flight) : (s.setFlight n x).gso = s.gso := rfl
@[simp] theorem State.setFlight_rows (s : State) (n : Nat) (x : Option Flight) : (s.setFlight n x).rows = s.rows := rfl
@[simp] theorem State.setFlight_rings (s : State) (n : Nat) (x : Option Flight) : (s.setFlight n x).rings = s.rings := rfl
@[simp] theorem State.setFlight_fin (s : State) (n : Nat) (x : Option Flight) : (s.setFlight n x).fin = s.fin := rfl
@[simp] theorem State.setFlight_coats (s : State) (n : Nat) (x : Option Flight) : (s.setFlight n x).coats = s.coats := rfl
@[simp] theorem State.setFlight_dma (s : State) (n : Nat) (x : Option Flight) : (s.setFlight n x).dma = s.dma := rfl
@[simp] theorem State.setFlight_links (s : State) (n : Nat) (x : Option Flight) : (s.setFlight n x).links = s.links := rfl
@[simp] theorem State.setFlight_colls (s : State) (n : Nat) (x : Option Flight) : (s.setFlight n x).colls = s.colls := rfl
@[simp] theorem State.setFlight_early (s : State) (n : Nat) (x : Option Flight) : (s.setFlight n x).early = s.early := rfl
@[simp] theorem State.setFlight_power (s : State) (n : Nat) (x : Option Flight) : (s.setFlight n x).power = s.power := rfl
@[simp] theorem State.setFlight_therm (s : State) (n : Nat) (x : Option Flight) : (s.setFlight n x).therm = s.therm := rfl
@[simp] theorem State.setFlight_sec (s : State) (n : Nat) (x : Option Flight) : (s.setFlight n x).sec = s.sec := rfl
@[simp] theorem State.setFlight_host (s : State) (n : Nat) (x : Option Flight) : (s.setFlight n x).host = s.host := rfl
@[simp] theorem State.setFlight_jnl (s : State) (n : Nat) (x : Option Flight) : (s.setFlight n x).jnl = s.jnl := rfl
@[simp] theorem State.setFlight_boot (s : State) (n : Nat) (x : Option Flight) : (s.setFlight n x).boot = s.boot := rfl
@[simp] theorem State.setFlight_always (s : State) (n : Nat) (x : Option Flight) : (s.setFlight n x).always = s.always := rfl
@[simp] theorem State.setFlight_sbd (s : State) (n : Nat) (x : Option Flight) : (s.setFlight n x).sbd = s.sbd := rfl
@[simp] theorem State.setFlight_sent (s : State) (n : Nat) (x : Option Flight) : (s.setFlight n x).sent = s.sent := rfl
@[simp] theorem State.setFlight_free (s : State) (n : Nat) (x : Option Flight) : (s.setFlight n x).free = s.free := rfl
@[simp] theorem State.setFlight_pending (s : State) (n : Nat) (x : Option Flight) : (s.setFlight n x).pending = s.pending := rfl
@[simp] theorem State.setFlight_rd (s : State) (n : Nat) (x : Option Flight) (g : RegField) (j : Nat) : (s.setFlight n x).rd g j = s.rd g j := rfl

@[simp] theorem State.setSth_regs (s : State) (k : Nat) (x : SeqState) : (s.setSth k x).regs = s.regs := rfl
@[simp] theorem State.setSth_mem (s : State) (k : Nat) (x : SeqState) : (s.setSth k x).mem = s.mem := rfl
@[simp] theorem State.setSth_ports (s : State) (k : Nat) (x : SeqState) : (s.setSth k x).ports = s.ports := rfl
@[simp] theorem State.setSth_isl (s : State) (k : Nat) (x : SeqState) : (s.setSth k x).isl = s.isl := rfl
@[simp] theorem State.setSth_pnl (s : State) (k : Nat) (x : SeqState) : (s.setSth k x).pnl = s.pnl := rfl
@[simp] theorem State.setSth_str (s : State) (k : Nat) (x : SeqState) : (s.setSth k x).str = s.str := rfl
@[simp] theorem State.setSth_glz (s : State) (k : Nat) (x : SeqState) : (s.setSth k x).glz = s.glz := rfl
@[simp] theorem State.setSth_gso (s : State) (k : Nat) (x : SeqState) : (s.setSth k x).gso = s.gso := rfl
@[simp] theorem State.setSth_rows (s : State) (k : Nat) (x : SeqState) : (s.setSth k x).rows = s.rows := rfl
@[simp] theorem State.setSth_rings (s : State) (k : Nat) (x : SeqState) : (s.setSth k x).rings = s.rings := rfl
@[simp] theorem State.setSth_fin (s : State) (k : Nat) (x : SeqState) : (s.setSth k x).fin = s.fin := rfl
@[simp] theorem State.setSth_coats (s : State) (k : Nat) (x : SeqState) : (s.setSth k x).coats = s.coats := rfl
@[simp] theorem State.setSth_dma (s : State) (k : Nat) (x : SeqState) : (s.setSth k x).dma = s.dma := rfl
@[simp] theorem State.setSth_links (s : State) (k : Nat) (x : SeqState) : (s.setSth k x).links = s.links := rfl
@[simp] theorem State.setSth_colls (s : State) (k : Nat) (x : SeqState) : (s.setSth k x).colls = s.colls := rfl
@[simp] theorem State.setSth_early (s : State) (k : Nat) (x : SeqState) : (s.setSth k x).early = s.early := rfl
@[simp] theorem State.setSth_power (s : State) (k : Nat) (x : SeqState) : (s.setSth k x).power = s.power := rfl
@[simp] theorem State.setSth_therm (s : State) (k : Nat) (x : SeqState) : (s.setSth k x).therm = s.therm := rfl
@[simp] theorem State.setSth_sec (s : State) (k : Nat) (x : SeqState) : (s.setSth k x).sec = s.sec := rfl
@[simp] theorem State.setSth_host (s : State) (k : Nat) (x : SeqState) : (s.setSth k x).host = s.host := rfl
@[simp] theorem State.setSth_jnl (s : State) (k : Nat) (x : SeqState) : (s.setSth k x).jnl = s.jnl := rfl
@[simp] theorem State.setSth_boot (s : State) (k : Nat) (x : SeqState) : (s.setSth k x).boot = s.boot := rfl
@[simp] theorem State.setSth_always (s : State) (k : Nat) (x : SeqState) : (s.setSth k x).always = s.always := rfl
@[simp] theorem State.setSth_sbd (s : State) (k : Nat) (x : SeqState) : (s.setSth k x).sbd = s.sbd := rfl
@[simp] theorem State.setSth_sent (s : State) (k : Nat) (x : SeqState) : (s.setSth k x).sent = s.sent := rfl
@[simp] theorem State.setSth_free (s : State) (k : Nat) (x : SeqState) : (s.setSth k x).free = s.free := rfl
@[simp] theorem State.setSth_pending (s : State) (k : Nat) (x : SeqState) : (s.setSth k x).pending = s.pending := rfl
@[simp] theorem State.setSth_rd (s : State) (k : Nat) (x : SeqState) (g : RegField) (j : Nat) : (s.setSth k x).rd g j = s.rd g j := rfl

@[simp] theorem State.setStream_regs (s : State) (k : Nat) (x : StreamState) : (s.setStream k x).regs = s.regs := rfl
@[simp] theorem State.setStream_mem (s : State) (k : Nat) (x : StreamState) : (s.setStream k x).mem = s.mem := rfl
@[simp] theorem State.setStream_ports (s : State) (k : Nat) (x : StreamState) : (s.setStream k x).ports = s.ports := rfl
@[simp] theorem State.setStream_isl (s : State) (k : Nat) (x : StreamState) : (s.setStream k x).isl = s.isl := rfl
@[simp] theorem State.setStream_pnl (s : State) (k : Nat) (x : StreamState) : (s.setStream k x).pnl = s.pnl := rfl
@[simp] theorem State.setStream_seq (s : State) (k : Nat) (x : StreamState) : (s.setStream k x).seq = s.seq := rfl
@[simp] theorem State.setStream_glz (s : State) (k : Nat) (x : StreamState) : (s.setStream k x).glz = s.glz := rfl
@[simp] theorem State.setStream_gso (s : State) (k : Nat) (x : StreamState) : (s.setStream k x).gso = s.gso := rfl
@[simp] theorem State.setStream_rows (s : State) (k : Nat) (x : StreamState) : (s.setStream k x).rows = s.rows := rfl
@[simp] theorem State.setStream_rings (s : State) (k : Nat) (x : StreamState) : (s.setStream k x).rings = s.rings := rfl
@[simp] theorem State.setStream_fin (s : State) (k : Nat) (x : StreamState) : (s.setStream k x).fin = s.fin := rfl
@[simp] theorem State.setStream_coats (s : State) (k : Nat) (x : StreamState) : (s.setStream k x).coats = s.coats := rfl
@[simp] theorem State.setStream_dma (s : State) (k : Nat) (x : StreamState) : (s.setStream k x).dma = s.dma := rfl
@[simp] theorem State.setStream_links (s : State) (k : Nat) (x : StreamState) : (s.setStream k x).links = s.links := rfl
@[simp] theorem State.setStream_colls (s : State) (k : Nat) (x : StreamState) : (s.setStream k x).colls = s.colls := rfl
@[simp] theorem State.setStream_early (s : State) (k : Nat) (x : StreamState) : (s.setStream k x).early = s.early := rfl
@[simp] theorem State.setStream_power (s : State) (k : Nat) (x : StreamState) : (s.setStream k x).power = s.power := rfl
@[simp] theorem State.setStream_therm (s : State) (k : Nat) (x : StreamState) : (s.setStream k x).therm = s.therm := rfl
@[simp] theorem State.setStream_sec (s : State) (k : Nat) (x : StreamState) : (s.setStream k x).sec = s.sec := rfl
@[simp] theorem State.setStream_host (s : State) (k : Nat) (x : StreamState) : (s.setStream k x).host = s.host := rfl
@[simp] theorem State.setStream_jnl (s : State) (k : Nat) (x : StreamState) : (s.setStream k x).jnl = s.jnl := rfl
@[simp] theorem State.setStream_boot (s : State) (k : Nat) (x : StreamState) : (s.setStream k x).boot = s.boot := rfl
@[simp] theorem State.setStream_always (s : State) (k : Nat) (x : StreamState) : (s.setStream k x).always = s.always := rfl
@[simp] theorem State.setStream_sbd (s : State) (k : Nat) (x : StreamState) : (s.setStream k x).sbd = s.sbd := rfl
@[simp] theorem State.setStream_sent (s : State) (k : Nat) (x : StreamState) : (s.setStream k x).sent = s.sent := rfl
@[simp] theorem State.setStream_free (s : State) (k : Nat) (x : StreamState) : (s.setStream k x).free = s.free := rfl
@[simp] theorem State.setStream_pending (s : State) (k : Nat) (x : StreamState) : (s.setStream k x).pending = s.pending := rfl
@[simp] theorem State.setStream_rd (s : State) (k : Nat) (x : StreamState) (g : RegField) (j : Nat) : (s.setStream k x).rd g j = s.rd g j := rfl

@[simp] theorem State.pth_setPth_self (s : State) (q : Nat) (x : PanelThread) : (s.setPth q x).pth q = x := by
  simp [State.pth, State.setPth]
theorem State.pth_setPth_ne (s : State) {q r : Nat} (x : PanelThread) (h : r ≠ q) : (s.setPth q x).pth r = s.pth r :=
  Tab.get_set_ne _ _ _ _ h
@[simp] theorem State.sth_setSth_self (s : State) (k : Nat) (x : SeqState) : (s.setSth k x).sth k = x := by
  simp [State.sth, State.setSth]
theorem State.sth_setSth_ne (s : State) {k j : Nat} (x : SeqState) (h : j ≠ k) : (s.setSth k x).sth j = s.sth j :=
  Tab.get_set_ne _ _ _ _ h
@[simp] theorem State.stream_setStream_self (s : State) (k : Nat) (x : StreamState) : (s.setStream k x).stream k = x := by
  simp [State.stream, State.setStream]
theorem State.stream_setStream_ne (s : State) {k j : Nat} (x : StreamState) (h : j ≠ k) : (s.setStream k x).stream j = s.stream j :=
  Tab.get_set_ne _ _ _ _ h

end Sys2Proof.Machine
end

