-- ==== Sys2Proof/Tests/Slice0.lean ====
section
/-! SUPPORT. Small tests of the model. A theorem witness_<name> shows concrete states and operands that meet the hypotheses of the
obligation of that name, clause by clause; a theorem test_<what> is one small run against a value the spec states. -/

set_option Elab.async false

namespace Sys2Proof.Tests
open Sys2Proof.Machine Sys2Proof.Claim

/-- A state after reset with register fields at values. -/
def st (l : List (RegField × Nat × Nat)) : State := l.foldl (fun s x => s.wrN x.1 x.2.1 x.2.2) State.reset

/-- A state after reset with one island ACTIVE. -/
def on (i : Nat) : State := st [(GLB_ISL_STATE.STATE, i, 0)]

/-! ### Chapters 00 and 01 -/

theorem witness_PortRegisters_reads :
    GLB_INT_CTL.EOI.cls = .wo ∧ (GLB_INT_ENABLE.ENABLE.cls ≠ .wo ∧ State.reset.derived GLB_INT_ENABLE.ENABLE 0 = none ∧ State.reset.conf = false) ∧
    (st [(SEC_STATUS.CONF, 0, 1)]).hostBarred .plain = true ∧ State.reset.hostBarred .host = false ∧ 0x105 % 4 ≠ 0 ∧
    regAt 0x1000000 = none ∧ inBuffer 0x1000000 = false ∧
    (regAt 0x2000000).any (fun h => !State.reset.reaches h.reg h.index) ∧
    (regAt 0x104).any (fun h => decide (PortReaches (on 138) .host 0x104 h) && !h.high && !h.reg.wide) ∧
    (regAt 0x18).any (fun h => decide (PortReaches (on 138) .host 0x18 h) && !h.high && h.reg.wide) ∧
    (regAt 0x1C).any (fun h => decide (PortReaches (on 138) .host 0x1C h) && h.high) := by decide +kernel

theorem witness_PortRegisters_writes :
    (regAt 0x104).any (fun h => decide (PortReaches (on 138) .host 0x104 h ∧ PlainReg h.reg) && !h.high && !h.reg.wide) ∧
    (regAt 0x4000).any (fun h => decide (PortReaches (on 138) .host 0x4000 h ∧ PlainReg h.reg) && !h.high && h.reg.wide) ∧
    (let s := st [(SEC_STATUS.CONF, 0, 1)]
     let t := { s with sec := { s.sec with ide := true } }
     (regAt 0x200000).any (fun h => decide (PortReaches t .host 0x200000 h) && !h.high && t.conf && t.closedToHost h.reg h.index)) ∧
    (regAt 0x2000008).any (fun h => h.reg.wide && !State.reset.reaches h.reg h.index) := by decide +kernel

/-- A state after reset with one island ASLEEP. -/
def asleep (i : Nat) : State := st [(GLB_ISL_STATE.STATE, i, 2)]

/-- A canvas whose tether is ACTIVE, with other fields. -/
def up (l : List (RegField × Nat × Nat)) : State := st ((GLB_ISL_STATE.STATE, 33, 0) :: l)

/-- A canvas of which every island is ACTIVE, and whose gesso is to be rezeroed. -/
def toZero : State :=
  let s := st ((List.range 34).map (fun i => (GLB_ISL_STATE.STATE, i, 0)))
  { s with isl := { s.isl with zeroing := [(0, true)], chain := [(0, some ⟨true⟩)] } }

theorem witness_Islands_commands :
    (st [(GLB_ISL_STATE.STATE, 3, islFused)]).island 3 = islFused ∧ (on 138).sleepBarred 138 = true ∧
    (let s := on 3; s.woQueue GLB_ISL_CMD.ISLAND 0 = [] ∧ s.sleepBarred 3 = false ∧ s.island 3 = islActive ∧ s.on GLB_ISL_STATE.PENDING_ENABLE 3 = false) ∧
    (let s := st [(GLB_ISL_STATE.STATE, 3, islClosing), (GLB_ISL_STATE.PENDING_ENABLE, 3, 1)]
     s.sleepBarred 3 = false ∧ s.on GLB_ISL_STATE.PENDING_ENABLE 3 = true ∧ s.drained 3 = true) ∧
    (let s := st [(GLB_ISL_STATE.STATE, 3, islWaking)]; s.sleepBarred 3 = false ∧ s.island 3 = islWaking ∧ s.stopBars 3 = false) ∧
    (st [(SBD_STATUS.STOPPED, 0, 1)]).stopBars 3 = true ∧
    (st [(GLB_ISL_STATE.STATE, 3, islWaking), (GLB_ISL_STATE.PENDING_DISABLE, 3, 1)]).on GLB_ISL_STATE.PENDING_DISABLE 3 = true ∧
    (asleep 139).island 139 = islAsleep ∧ (asleep 139).stopBars 139 = false ∧ (asleep 3).island 3 = islAsleep ∧
    (up []).island (tetherIsland 0) = islActive ∧ Tab.get (up []).isl.chain 0 none = none ∧
    State.reset.island (tetherIsland 0) ≠ islActive := by decide +kernel

theorem witness_Islands_chain :
    (Tab.get toZero.isl.chain 0 none).isSome = true ∧ toZero.island (tetherIsland 0) = islActive ∧ Tab.get toZero.isl.zeroing 0 false = true ∧
    toZero.island (stretcherIsland 0) = islActive ∧ (∀ l < 26, 22 ≤ l → toZero.island (islandOf 0 l) = islActive) ∧
    (let s := st [(GLB_ISL_STATE.STATE, 33, 0), (GLB_ISL_STATE.STATE, 5, 2), (GLB_ISL_STATE.PENDING_ENABLE, 5, 1)]
     let t := { s with isl := { s.isl with chain := [(0, some ⟨false⟩)] } }
     (Tab.get t.isl.chain 0 none).isSome = true ∧ Tab.get t.isl.zeroing 0 false = false ∧
     t.on GLB_ISL_STATE.PENDING_ENABLE (islandOf 0 5) = true ∧ t.island (islandOf 0 5) = islAsleep) := by decide +kernel

/-- A state in which packet 7 waits to be sent again, at a device time. -/
def retrying (now : Nat) (isl : Nat) (n : Nat) : State :=
  let s := st [(GLB_TIME.NS, 0, now), (GLB_ISL_STATE.STATE, 3, isl)]
  { s with isl := { s.isl with packets := [(7, some ⟨3, 0, none, false, 0, n, none⟩)] } }

theorem witness_Islands_gates :
    ((on 3).island 3 = islActive ∧ Tab.get (on 3).isl.packets 7 none = none) ∧ (st [(GLB_ISL_STATE.STATE, 3, islLost)]).island 3 = islLost ∧
    (Tab.get (retrying 0 2 0).isl.packets 7 none = some ⟨3, 0, none, false, 0, 0, none⟩ ∧ (retrying 0 2 0).now < retryDue 0 0) ∧
    (retryDue 0 0 ≤ (retrying 100000000 0 0).now ∧ (retrying 100000000 0 0).island 3 = islActive) ∧
    (retryDue 0 9 ≤ (retrying 100000000 2 9).now ∧ (retrying 100000000 2 9).island 3 = islAsleep) ∧
    (retryDue 0 3 ≤ (retrying 100000000 2 3).now) ∧
    ((up []).rd GLB_CAPACITY.CANVAS_AVAIL 0 = 0) := by decide +kernel

/-! ### Chapters 03 and 04 -/

/-- A stroke from its fields, each with its lowest bit. -/
def word (l : List (Nat × Nat)) : BitVec 128 := BitVec.ofNat 128 (l.foldl (fun a x => a + x.2 * 2 ^ x.1) 0)

/-- A stroke in flight on thread 0 of panel 0, whose unit has started it. -/
def flightOf (w : BitVec 128) : Flight := ⟨0, 0, 0, w, false, 0, none, 0, some 0, false, false, none, 0, 0⟩

/-- A state in which a stroke is in flight as number 1. -/
def inFlight (s : State) (f : Flight) : State := { s with pnl := { s.pnl with flights := [(1, some f)], next := 2 } }

/-- Bytes in the well of panel 0. -/
def wellHas (s : State) (o : Nat) (bs : List Byte) : State := { s with mem := memWriteBytes s.mem (wellDpa 0 o) bs }

/-- Regions 1 to 4 of panel 0: 256 bytes each, READY but for region 3, which is FREE, over a well in which the bytes that the strokes
below read hold 0. -/
def panel0 : State :=
  { st ([1, 2, 3, 4].flatMap (fun h => [(CNV_PNL_REGION.BASE, h, h), (CNV_PNL_REGION.LEN, h, 1),
      (CNV_PNL_REGION.TOKEN, h, if h = 3 then 0 else 2)]) ++ [(GLB_ISL_STATE.STATE, 0, 0)]) with
    mem := ([256, 320, 384, 448, 512].flatMap (fun o => (List.range 8).map (fun i => (wellDpa 0 o + i, 0)))) ++
      ([768, 896, 1024, 1152, 1280, 1408].flatMap (fun o => (List.range 16).map (fun i => (wellDpa 0 o + i, 0)))) }

/-- Whether a started stroke does its work with a result, every word of which is readable. -/
def works (cls op : Nat) (work : Work) (s : State) : Bool :=
  match s.flight 1 with
  | none => false
  | some f => match decodeStroke false f.word with
    | .error _ => false
    | .ok d => match work f s d with
      | .error _ => false
      | .ok r => f.cls == cls && strokeOp f.word == op && !f.done && f.start.isSome && !r.runs.isEmpty &&
          (reach s f.panel r.runs).all (fun e => wellWordOk s.mem e.1)

/-- Whether a started stroke faults in its work. -/
def faults (cls : Nat) (work : Work) (s : State) : Bool :=
  match s.flight 1 with
  | none => false
  | some f => match decodeStroke false f.word with
    | .error _ => false
    | .ok d => (match work f s d with | .error _ => true | .ok _ => false) && f.cls == cls && !f.done && f.start.isSome

theorem words_sound {s : State} {p : Nat} {runs : List BitRun} (h : (reach s p runs).all (fun e => wellWordOk s.mem e.1) = true) :
    WordsSound s p runs := by
  intro a e ha
  refine .inl ?_
  have mem : ∀ (m : Tab (Nat × Nat)), Tab.find m a = some e → (a, e) ∈ m := by
    intro m
    induction m with
    | nil => exact fun h => nomatch h
    | cons x m ih =>
      obtain ⟨k, v⟩ := x
      simp only [Tab.find]
      split
      · rintro ⟨⟩; subst_vars; simp
      · intro hm; exact List.mem_cons_of_mem _ (ih hm)
  exact List.all_eq_true.mp h _ (mem _ ha)

/-- VEC strokes on regions 1 and 2 (and 4) into region 3: two FP32 elements. -/
def vecStroke (op : Nat) : BitVec 128 := word [(124, 1), (120, op), (106, 1), (96, 2), (86, 4), (76, 3), (51, 1), (39, 1)]

/-- An MMA stroke of BF16 operands, 4 by 4 by 4, of region 1 with itself into region 3 in FP32, region 4 added to it. -/
def mmaStroke (op : Nat) : BitVec 128 := word [(120, op), (116, 1), (112, 1), (98, 1), (88, 1), (78, 4), (68, 3)]

/-- A RED stroke of one row of two FP32 elements, from region 1 with state in region 2 into region 3, region 4 beside it. -/
def redStroke (op : Nat) : BitVec 128 := word [(124, 2), (120, op), (102, 1), (92, 2), (82, 3), (72, 4), (43, 1)]

/-- A CVT of one row of two elements from FP32 to BF16. -/
def cvtStroke : BitVec 128 := word [(124, 3), (112, 1), (102, 1), (82, 3), (34, 1)]

/-- The special functions get NaN operands here: their other results are the device's own. -/
theorem witness_ArithmeticStrokes :
    (List.range 2).all (fun op => works 0 op mmaWork (inFlight panel0 (flightOf (mmaStroke op)))) ∧
    (List.range 14).all (fun op => works 1 op vecWork (inFlight (wellHas panel0 256 (List.replicate 8 0xFF)) (flightOf (vecStroke op)))) ∧
    (List.range 4).all (fun op => works 2 op redWork (inFlight panel0 (flightOf (redStroke op)))) ∧
    works 2 4 redWork (inFlight (wellHas panel0 256 (List.replicate 8 0xFF)) (flightOf (redStroke 4))) = true ∧
    works 3 0 cvtWork (inFlight panel0 (flightOf cvtStroke)) = true := by decide +kernel

/-- The same strokes with an operand that has never been written. -/
theorem witness_ArithmeticStrokes_faults :
    (List.range 2).all (fun op => faults 0 mmaWork (inFlight (panel0.wrN CNV_PNL_REGION.BASE 1 0x1000) (flightOf (mmaStroke op)))) ∧
    (List.range 14).all (fun op => faults 1 vecWork (inFlight (panel0.wrN CNV_PNL_REGION.BASE 1 0x1000) (flightOf (vecStroke op)))) ∧
    (List.range 5).all (fun op => faults 2 redWork (inFlight (panel0.wrN CNV_PNL_REGION.BASE 1 0x1000) (flightOf (redStroke op)))) ∧
    faults 3 cvtWork (inFlight (panel0.wrN CNV_PNL_REGION.BASE 1 0x1000) (flightOf cvtStroke)) = true := by decide +kernel

/-- A TOK stroke on region 1, loop counter 1 and address base 1, with an immediate. -/
def tokStroke (op imm : Nat) : BitVec 128 := word [(124, 5), (120, op), (110, 1), (108, 1), (105, 1), (0, imm)]

/-- Whether a TOK stroke is ready to take its effect. -/
def tokReady (op imm : Nat) : Bool :=
  let s := inFlight panel0 (flightOf (tokStroke op imm))
  match s.flight 1 with
  | none => false
  | some f => match decodeStroke false f.word with
    | .ok (.tok x) => x.op == op && !(s.pth f.thr).stopping && !(s.pth f.thr).halted && decide (x.lc < (s.pth f.thr).lc.length)
    | _ => false

theorem witness_TokenStrokes :
    (List.range 13).all (fun op => tokReady op 64) ∧
    (let s := inFlight (st [(GLB_ISL_STATE.STATE, 33, 0)]) (flightOf (tokStroke 11 5))
     s.island (tetherIsland 0) = islActive ∧ (s.box 0).words.length < 16) := by decide +kernel

/-- The stroke at address 0: VEC ADD of FP32 regions 1 and 2 into region 3, at the head of thread 0 of panel 0, which runs. -/
def ready0 : State :=
  let s := ((panel0.wrN CNV_PNL_THR_CTL.STATE 0 1).set1 CNV_PNL_THR_CTL.ENABLE 0).set1 CNV_PNL_CTL.ISSUE_EN 0
  let t := (s.set1 GLB_QUAD_PART.ASSIGNED 0).wrN GLB_QUAD_PART.PARTITION 0 5
  let part : Partition := ⟨0, 0, 0, 0, 1, [⟨0, 0xFFFF, true, true, true, true, true⟩]⟩
  { t with str := { t.str with sketch := { t.str.sketch with primer := false, parts := [(5, some part)] } },
           glz := { t.glz with ro := [(roKey 0 0 0, some (leBytes 512 (vecStroke 0).toNat))] } }

/-- The same with the stroke at the head. -/
def headed : State := ready0.setPth 0 { ready0.pth 0 with head := some ⟨0, vecStroke 0, none⟩ }

theorem witness_PanelCycle :
    (ready0.panelUp 0 = true ∧ ready0.thrRuns 0 = true ∧ (ready0.pth 0).head = none ∧ ready0.tokPending 0 = false ∧ ready0.panelPart 0 = some 5 ∧
      ready0.windowOk 5 .x 0 16 = true ∧ (Tab.get ready0.glz.ro (roKey 0 0 0) none).isSome = true ∧
      ready0.decodeFault 0 0 (BitVec.ofNat 128 (leField (leBytes 512 (vecStroke 0).toNat) 0 16)) = none) ∧
    (ready0.cycleBegin 0 []).issuePick 0 = none ∧
    (headed.tokPending 0 = false ∧ (headed.cycleBegin 0 []).issuePick 0 = some 0 ∧
      (match (headed.cycleBegin 0 []).fireCheck 0 0 1 with | .ok _ => true | .error _ => false) = true) ∧
    (let s := inFlight panel0 { flightOf (vecStroke 0) with start := none }
     ((s.unitFlights 0 .vector).find? (fun g => g.2.start.isNone)).isSome = true ∧
     (s.unitFlights 0 .vector).all (fun g => g.2.start.isNone || g.2.released) = true) ∧
    panel0.on CNV_PNL_THR_CTL.ENABLE 0 = false ∧ (ready0.on CNV_PNL_THR_CTL.ENABLE 0 = true ∧ ready0.panelFlights 0 = []) := by decide +kernel

theorem witness_StrokeEnds :
    let s := inFlight panel0 { flightOf (vecStroke 0) with done := true, events := 3 }
    (s.flight 1).any (fun f => f.done && decide (f.fault = none) && !f.released && decide (f.panel < 1024) &&
      (match decodeStroke false f.word with | .ok d => d.uses.all (fun u => decide (u.handle < 1024)) | .error _ => false)) = true := by
  decide +kernel

/-- A MOV stroke: one row of 256 bytes, region 1 to region 3, stream 7, address base 0, at a byte offset. -/
def movStroke (op offset : Nat) : BitVec 128 := word [(124, 4), (120, op), (110, 1), (100, 3), (64, offset), (52, 7)]

/-- Whether an access of several pieces ends without an error. -/
def endsWell : Acc → Bool
  | .done c bs _ => decide (c = 0) && !bs.isEmpty
  | .wait _ => false

/-- A state with a stroke in flight and every island of canvas 0 ACTIVE. -/
def moving (w : BitVec 128) : State :=
  inFlight { (List.range 34).foldl (fun s i => s.wrN GLB_ISL_STATE.STATE i 0) panel0 with
    mem := (List.range 256).map (fun i => (wellDpa 0 256 + i, 7)) } (flightOf w)

/-- The fields of a MOV stroke. -/
def movOf (w : BitVec 128) : MovFields := match decodeStroke false w with | .ok (.mov x) => x | _ => ⟨0, 0, 0, false, 0, 0, 0, 0, 0, 0, 0⟩

theorem witness_DataStrokes_moves :
    (∀ op < 7, (match decodeStroke false (movStroke op 0) with | .ok (.mov x) => decide (x.op = op) | _ => false) = true) ∧
    ((moving (movStroke 0 0)).wellRead (panel0.regionDpa 0 1 0) 256).isSome = true ∧
    (let s := moving (movStroke 3 0)
     endsWell (s.loadPieces 1 (flightOf (movStroke 3 0)) (movPieces (movOf (movStroke 3 0)) 0x8000000100 256)) = true) ∧
    (let s := moving (movStroke 4 0)
     ((s.writePieces (s.flightAgent 1 (flightOf (movStroke 4 0))) 0 1 .write (movPieces (movOf (movStroke 4 0)) 0x8000000100 256))).isSome = true) := by
  decide +kernel

/-- A GATHER-class stroke: one index in region 1, one row of 8 bytes, region 3. -/
def gatherStroke (op : Nat) : BitVec 128 := word [(124, 6), (120, op), (110, 1), (100, 3), (67, 1), (47, 2)]

/-- The address base of thread 0 of panel 0 at region 4 of its own well, and windows that allow everything. -/
def allowed (s : State) : State :=
  let t := (s.set1 GLB_QUAD_PART.ASSIGNED 0).wrN GLB_QUAD_PART.PARTITION 0 5
  let part : Partition := ⟨0, 0, 0, 0, 1, [⟨0, 0xFFFFFFFFFF, true, true, true, true, true⟩]⟩
  let u : State := { t with str := { t.str with sketch := { t.str.sketch with primer := false, parts := [(5, some part)] } } }
  u.setPth 0 { u.pth 0 with ab := List.replicate 8 0x8000000400 }

/-- A GATHER stroke ready, its index 1 readable in region 1. -/
def gathering (op : Nat) : State :=
  let s := allowed (moving (gatherStroke op))
  { s with mem := ([1, 0, 0, 0, 0, 0, 0, 0].zipIdx.map (fun b => (wellDpa 0 256 + b.2, b.1))) ++
      (List.range 8).map (fun i => (wellDpa 0 768 + i, 3)) ++ (List.range 16).map (fun i => (wellDpa 0 1024 + i, 9)) }

/-- The fields of a GATHER stroke. -/
def gatherOf (w : BitVec 128) : GatherFields := match decodeStroke false w with | .ok (.gather x) => x | _ => ⟨0, 0, 0, false, false, 0, 0, 0, 0⟩

theorem witness_DataStrokes_gathers :
    (let s := gathering 0
     let f := flightOf (gatherStroke 0)
     (gatherOf f.word).op = 0 ∧ s.flight 1 = some f ∧ (s.gatherPieces f (gatherOf f.word) .r).2 = 0 ∧
     endsWell (s.readPieces (s.flightAgent 1 f) .read (s.gatherPieces f (gatherOf f.word) .r).1) = true ∧
     (let t := { s with str := { s.str with sketch := { s.str.sketch with parts := [(5, some ⟨0, 0, 0, 0, 1, []⟩)] } } }
      (t.gatherPieces f (gatherOf f.word) .r).2 ≠ 0)) ∧
    (let s := gathering 1
     let f := flightOf (gatherStroke 1)
     (gatherOf f.word).op = 1 ∧ (s.gatherPieces f (gatherOf f.word) .w).2 = 0 ∧
     (s.writePieces (s.flightAgent 1 f) 0 3 .write (s.gatherPieces f (gatherOf f.word) .w).1).isSome = true) ∧
    (let s := gathering 2
     let f := flightOf (gatherStroke 2)
     (gatherOf f.word).op = 2 ∧ (s.gatherPieces f (gatherOf f.word) .a).2 = 0 ∧
     (s.writePieces (s.flightAgent 1 f) 0 3 .addFp32 (s.gatherPieces f (gatherOf f.word) .a).1).isSome = true) := by decide +kernel

/-- A stream 7 of canvas 0 that is open, with what is in it. -/
def streaming (w : BitVec 128) (x : StreamState) : State :=
  let s := (moving w).wrN CNV_STM_STREAM.STATE 7 1
  { s with str := { s.str with streams := [(7, x)] } }

theorem witness_StreamUnits :
    (let s := streaming (movStroke 1 0) StreamState.empty
     s.rdN CNV_STM_STREAM.STATE 7 = 1 ∧ s.recvKey 0 7 = 7 ∧ (s.wellRead (s.regionDpa 0 1 0) 256).isSome = true) ∧
    (let s := streaming (movStroke 2 0) ⟨[5], [], 0, 1⟩
     (s.recvs 0 7).head? = some (1, flightOf (movStroke 2 0)) ∧ s.rdN CNV_STM_STREAM.STATE 7 = 1) ∧
    (let s := streaming (movStroke 0 0) ⟨[], [6], 0, 0⟩
     (s.stream 7).flying = [6] ∧ s.rdN CNV_STM_STREAM.STATE 7 = 1 ∧ s.recvs 0 7 = []) ∧
    (let s := streaming (movStroke 0 0) ⟨[], [], 1, 1⟩
     (s.stream 7).returns > 0 ∧ s.rdN CNV_STM_STREAM.STATE (s.sendKey 7) = 1) := by decide +kernel

/-- A train of one leaf (entry 3 of canvas 0), whose thread 0 runs on panel 0, with stream 7 from that panel to itself. -/
def trained (enabled : Bool) : State :=
  let s := st [(GLB_ISL_STATE.STATE, 0, 0), (GLB_ISL_STATE.STATE, 33, 0), (CNV_PNL_THR_CTL.ENABLE, 0, if enabled then 1 else 0),
    (CNV_PNL_THR_CTL.STATE, 0, if enabled then 1 else 0), (CNV_STM_STREAM.LAND, 7, 40), (GLB_QUAD_PART.ASSIGNED, 0, 1), (GLB_QUAD_PART.PARTITION, 0, 5)]
  { s with str := { s.str with sketch := { s.str.sketch with
      trains := [(3, some ⟨false, false, 2, true, none, 0, 1, [], []⟩)], starts := [(0, some ⟨0, 0, 0x1000, 0x2000⟩)],
      streams := [(7, some ⟨3, false, 0, 0, 40, 0, 0, 7⟩)] } } }

theorem witness_TrainCommands :
    (let s := trained false
     (s.train 3).isNone = false ∧ (∀ q ∈ s.trainThreads 3, s.rdN CNV_PNL_THR_CTL.STATE q = 0) ∧ s.trainThreads 3 ≠ [] ∧
     (∀ p ∈ s.trainParts 3, s.faulted p (s.trainWash 3) = false) ∧ s.woQueue CNV_STM_TRN_CMD.OP 0 = [] ∧ s.launching 0 = none ∧
     s.trainWash 3 = false ∧ 0 ∈ (s.trainThreads 3).map (· / 8)) ∧
    (let s := trained true
     (∃ q ∈ s.trainThreads 3, s.rdN CNV_PNL_THR_CTL.STATE q ≠ 0) ∧ (∀ q ∈ s.trainThreads 3, q < 8192 ∧ s.on CNV_PNL_THR_CTL.ENABLE q = true) ∧
     s.pnl.flights = []) ∧
    (State.reset.train 3).isNone = true ∧
    (let s := trained false
     let t := { s with str := { s.str with launch := [(0, some ⟨3⟩)] } }
     t.launching 0 = some ⟨3⟩ ∧ t.leaves 3 ≠ [] ∧ (∀ x ∈ t.leaves 3, ∀ r ∈ t.leafStarts x, t.panelUp r.panel = true ∧ r.thread < 8 ∧
       t.on CNV_PNL_THR_CTL.ENABLE r.thr = false) ∧ ((t.leaves 3).flatMap (fun x => (t.leafStarts x).map (·.thr))).Nodup ∧
     (t.leaves 3).flatMap t.leafStarts ≠ []) ∧
    (let s := (trained false).wrN CNV_STM_TRN_STATUS.STATE 3 4
     let t := s.set1 GLB_PART_FAULT.PRIMARY 5
     (t.train 3).any (fun x => x.linked && decide (x.parent = none)) = true ∧ t.rdN CNV_STM_TRN_STATUS.STATE 3 = 4 ∧
     ∃ p ∈ t.trainParts 3, t.faulted p false = true) := by decide +kernel

/-! ### Chapters 05 and 06 -/

/-- A state whose loader is in a phase. -/
def loading (p : LoadPhase) : State := { State.reset with str := { State.reset.str with loader := ⟨p, 0, 64, 0x0503⟩ } }

theorem witness_SketchLoader :
    (loading .verify).loadBusy = true ∧
    ((st [(GLB_BOOT_STATUS.STAGE, 0, 5)]).loadBusy = false ∧ (State.reset.set1 JNL_THERMAL_RECORD.PRESENT 0).on JNL_THERMAL_RECORD.PRESENT 0 = true) ∧
    (State.reset.openTrips = [] ∧ State.reset.stagingOk 0 0 = false) ∧
    (loading .verify).str.loader.phase = .verify ∧ (loading .apply).str.loader.phase = .apply ∧ (loading .primer).str.loader.phase = .primer := by
  decide +kernel

/-- Thread 2 of core 1 of canvas 0. -/
def thr : SeqThread := ⟨0, 1, 2⟩

/-- That thread RUNNING at PC 0x1000 for partition 5, whose window allows everything, g1 to g4 written and the line of the gesso that g1
points into present in the glaze. -/
def seqRuns (l : List (RegField × Nat × Nat)) (x : SeqState) : State :=
  let s := st ((List.range 34).map (fun i => (GLB_ISL_STATE.STATE, i, 0)) ++ [(CNV_SEQ_THR_CTL.STATE, 34, 2), (CNV_SEQ_THR_CTL.ENABLE, 34, 1),
    (CNV_SEQ_THR_CTL.PARTITION, 34, 5), (CNV_SEQ_THR_PC.PC, 34, 0x400)] ++ l)
  let part : Partition := ⟨0, 0, 0, 0, 1, [⟨0, 0xFFFFFFFFFF, true, true, true, true, true⟩]⟩
  { s with str := { s.str with sketch := { s.str.sketch with primer := false, parts := [(5, some part)] } },
           seq := { s.seq with threads := [(34, x)], cores := [(1, ⟨[], [(0x20, List.replicate 256 0xA5)], 0⟩)] },
           glz := { s.glz with lines := [(lineKey 0 5, some ⟨0, 0xFF, 0, false, false⟩)] } }

/-- The general registers of that thread: g1 an address in line 0x20 of the data cache, g2 a negative number, g3 and g4 small. -/
def gs : SeqState := { SeqState.idle with g := [(1, 0x2000), (2, 0xFFFFFFFFFFFFFFF0), (3, 3), (4, 0x2900)], fresh := 0x1E }

/-- The same without anything else. -/
def running : State := seqRuns [] gs

theorem witness_SequencerControlFlow :
    CanIssue running thr [1, 2, 3] ∧ CanIssue running thr [] ∧
    (((running.sth 34).get 3).toNat < ((running.sth 34).get 1).toNat ∧ (running.sth 34).get 3 = (running.sth 34).get 3 ∧
      ((running.sth 34).get 2).toInt < ((running.sth 34).get 3).toInt ∧ ((running.sth 34).get 3).toNat ≤ ((running.sth 34).get 2).toNat) ∧
    (((running.sth 34).get 1 + (4 : BitVec 14).signExtend 64).toNat < 2 ^ 40 ∧ ((running.sth 34).get 1 + (4 : BitVec 14).signExtend 64).toNat % 4 = 0) := by
  unfold CanIssue; decide +kernel

theorem witness_SequencerMemory :
    (∀ n ∈ [1, 2, 4, 8], GoodAddr running thr ((running.sth 34).get 1) n .r ∧ GoodAddr running thr ((running.sth 34).get 1) n .w) ∧
    (Tab.find (running.core (coreKey 34)).dcache (0x2000 / 256)).isSome = true ∧
    ((running.line (keyOf 0x2900)).isSome = true ∧ Tab.find (running.core (coreKey 34)).dcache (0x2900 / 256) = none ∧
      GoodAddr running thr ((running.sth 34).get 4) 8 .r) ∧
    (((running.sth 34).get 1).toNat < 0xC000000000 ∧ (running.core (coreKey 34)).stores.length < 16) ∧
    (match targetOf 0x8000000000 with | .gesso _ _ => false | _ => true) = true := by
  unfold GoodAddr; decide +kernel

/-- That thread with mailbox 3, which g3 names, holding words and awaited by threads. -/
def boxed (ws : List Word32) (ths : List SeqThread) : State :=
  { running with seq := { running.seq with boxes := [(3, ⟨ws.map (fun w => (w, none)), ths⟩)] } }

theorem witness_SequencerOrdering :
    (CanIssue running thr [3, 2] ∧ Drained running thr ∧ running.seqPart 34 < 256) ∧
    (running.island (tetherIsland 0) = islActive ∧ (running.box 3).waiters = [] ∧ (running.box 3).words = []) ∧
    ((boxed [9] []).box 3).words = [(9, none)] ∧ (running.box 3).words.length < 16 ∧ (running.sth 34).wait = none ∧
    seqIllegal 0xFFFFFFFF = true := by
  unfold CanIssue Drained; decide +kernel

/-- The panel thread 24 of panel 3, IDLE and of the same partition, that g3's 24 names. -/
def going : State :=
  seqRuns [(GLB_QUAD_PART.ASSIGNED, 0, 1), (GLB_QUAD_PART.PARTITION, 0, 5)] { gs with g := [(1, 0x2000), (3, 24)] }

theorem witness_SequencerCommands :
    (Drained running thr ∧ CanIssue running thr [1] ∧ running.island (tetherIsland 2) ≠ islActive ∧
      (let s := seqRuns [(GLB_ISL_STATE.STATE, 101, 0)] gs
       s.island (tetherIsland 2) = islActive ∧ ((s.sth 34).get 1).toNat / 4096 % 4 = 2 ∧ (s.woQueue CNV_STM_TRN_CMD.OP 2).length < 32 ∧
       (let t := { s with ports := { s.ports with queue := [(woKey CNV_STM_TRN_CMD.OP 2, List.replicate 32 1)] } }
        (t.woQueue CNV_STM_TRN_CMD.OP 2).length = 32))) ∧
    (running.dmaPost 0 5 0x2000).1.isSome = true ∧
    (24 / 8 / 256 = thr.canvas ∧ going.panelUp 3 = true ∧ going.rdN CNV_PNL_THR_CTL.STATE 24 = 0 ∧
      going.on CNV_PNL_THR_CTL.ENABLE 24 = false ∧ going.panelPart 3 = some (going.seqPart 34)) ∧
    (running.panelPart 0 ≠ some (running.seqPart 34)) := by
  unfold CanIssue Drained; decide +kernel

theorem witness_SequencerScheduling :
    (let s := seqRuns [(CNV_SEQ_THR_CTL.STATE, 34, 1)] gs
     (∀ t < 32, s.rdN CNV_SEQ_THR_CTL.STATE ((0 * 16 + 1) * 32 + t) ≠ 2) ∧ s.longestReady 1 = some 34 ∧ s.island (seqIsland 1) = islActive) ∧
    (let s := seqRuns [(CNV_SEQ_THR_CTL.STATE, 34, 3)] { gs with wait := some (.amo 3 0x2900 .add 8 1 0) }
     s.rdN CNV_SEQ_THR_CTL.STATE 34 = 3 ∧ endsWell (s.access1 (s.seqAgent 34) 0x2900 8 (.atomic .add 1 0)) = true ∧ (s.sth 34).stop = 0) ∧
    (let s := seqRuns [(CNV_SEQ_THR_CTL.STATE, 34, 3)] { gs with wait := some (.load 3 0x2900 8 false true) }
     endsWell (s.readRange (s.seqAgent 34) 0x2900 8) = true) ∧
    (let s := seqRuns [(CNV_SEQ_THR_CTL.STATE, 34, 3)] { gs with wait := some (.fence true false) }
     (s.sth 34).wait = some (.fence true false) ∧ s.seqStores 34 = false) ∧
    (let s := seqRuns [(CNV_SEQ_THR_CTL.STATE, 34, 0)] gs; s.rdN CNV_SEQ_THR_CTL.STATE 34 = 0) ∧
    (running.rdN CNV_SEQ_THR_CTL.STATE 34 ≠ 0 ∧ (running.sth 34).wait = none) ∧
    (16 ≤ ((boxed (List.replicate 16 1) []).box 3).words.length) ∧
    (let s := boxed [9] [thr]
     let t := s.setSth 34 { gs with wait := some (.mailbox 3 3) }
     (t.box 3).waiters = [thr] ∧ (t.box 3).words = [(9, none)] ∧ (t.sth 34).wait = some (.mailbox 3 3)) := by decide +kernel

/-! ### Chapters 07 and 08 -/

/-- A request of panel 0 to memory. -/
def reqOf (d n : Nat) : MemReq := ⟨.panel 0, 9, d, n, none, false, 0⟩

/-- A canvas with every island ACTIVE, nothing pending, and line 5 of its gesso in the glaze, all sectors VALID; the prefetcher is off. -/
def sliced : State := running.clr CNV_GLZ_PF_CTL.ENABLE 0

theorem at_slice4 : AtSlice sliced (reqOf 0x2900 4) := ⟨⟨0, 0x2900, by decide +kernel⟩, by decide +kernel⟩
theorem at_slice8 : AtSlice sliced (reqOf 0x2900 8) := ⟨⟨0, 0x2900, by decide +kernel⟩, by decide +kernel⟩
theorem at_slice256 : AtSlice sliced (reqOf 0x2900 256) := ⟨⟨0, 0x2900, by decide +kernel⟩, by decide +kernel⟩
theorem at_slice2048 : AtSlice sliced (reqOf 0x2800 2048) := ⟨⟨0, 0x2800, by decide +kernel⟩, by decide +kernel⟩
theorem at_slice_absent : AtSlice sliced (reqOf 0x3000 256) := ⟨⟨0, 0x3000, by decide +kernel⟩, by decide +kernel⟩

theorem witness_SliceCommands :
    (∀ x ∈ [(0x2900, 4), (0x2900, 8), (0x2900, 256), (0x2800, 2048)], sliced.line (keyOf x.1) = some ⟨0, 0xFF, 0, false, false⟩ ∧ secMask x.1 x.2 &&& ~~~(0xFF : BitVec 8) = 0) ∧
    (sliced.line (keyOf 0x3000) = none ∧ sliced.slotBar (keyOf 0x3000) none false = .free ∧
      (sliced.getWay (keyOf 0x3000) 0).isSome = true ∧ sliced.on CNV_GLZ_PF_CTL.ENABLE 0 = false) ∧
    (match addEx96Sector (List.replicate 256 0) (List.replicate 256 0) with | .ok _ => true | .error _ => false) = true ∧
    (match addEx96Sector (List.replicate 256 0) (List.replicate 256 0xFF) with | .ok _ => false | .error _ => true) = true := by
  decide +kernel

/-- Line 6 of canvas 0 waits for its fill with one read, at a device time. -/
def filling (now : Nat) : State :=
  let s := sliced.wrN GLB_TIME.NS 0 now
  { s with isl := { s.isl with gessoLost := [] },
           glz := { s.glz with lines := [(lineKey 0 6, some ⟨1, 0, 0, false, false⟩)], slots := [(lineKey 0 6, some ⟨[⟨reqOf 0x3000 256, .read⟩], false, none, false⟩)] } }

theorem witness_Fills :
    (keyOf 0x3000 = lineKey 0 6 ∧ reqInLine (reqOf 0x3000 256) = true ∧ targetOf 0x3000 = .gesso 0 (0x3000 % 0x1000000000) ∧
      (filling 0).slot (lineKey 0 6) = some ⟨[⟨reqOf 0x3000 256, .read⟩], false, none, false⟩ ∧
      (filling 0).line (lineKey 0 6) = some ⟨1, 0, 0, false, false⟩ ∧ (filling 0).refreshing (lineKey 0 6) = false ∧
      (filling 0).refusal (gessoIsland 0 6) = none ∧ ∀ i < 64, (filling 0).cwUnreadable (lineKey 0 6) i = false) ∧
    (let s := { sliced with glz := { sliced.glz with waiting := [⟨reqOf 0x2900 8, .read⟩] } }
     (match s.arrive ⟨reqOf 0x2900 8, .read⟩ with | .off _ => false | _ => true) = true ∧ reqCanvas (reqOf 0x2900 8) = 0) ∧
    (∀ b < 32, (filling ((filling 0).refreshPeriod 0 / 32 * b)).now % (filling 0).refreshPeriod 0 = (filling 0).refreshPeriod 0 / 32 * b) := by
  decide +kernel

/-- Line 5 of canvas 0 in the victim buffer, with its second sector DIRTY, of a row that holds data. -/
def leaving : State :=
  { sliced with glz := { sliced.glz with lines := [], victims := [(lineKey 0 5, some ⟨2, 0, 0⟩)], data := [(0x2900, 7)] },
                gso := { sliced.gso with rows := [(lineKey 0 5, ⟨false, 5⟩)] } }

/-- A flush of every line of canvas 0 in progress. -/
def flushing : State := { sliced with glz := { sliced.glz with flush := [(0, some ⟨0, 0, true⟩)] } }

theorem witness_WriteBacksAndFlushes :
    (leaving.victim (lineKey 0 5) = some ⟨2, 0, 0⟩ ∧ leaving.refusal (gessoIsland 0 5) = none ∧ leaving.refreshing (lineKey 0 5) = false ∧
      (leaving.rowMeta (lineKey 0 5)).zt = false) ∧
    (leaving.wrN GLB_ISL_STATE.STATE 23 2).refusal (gessoIsland 0 5) = some 0x0701 ∧
    (sliced.on CNV_GLZ_STATUS.FLUSH_BUSY 0 = false ∧ sliced.woQueue CNV_GLZ_FLUSH_CMD.OP 0 = []) ∧
    (Tab.get flushing.glz.flush 0 none = some ⟨0, 0, true⟩ ∧ (⟨0, 0, true⟩ : Flush).covers 0 (lineKey 0 5) = true ∧
      (⟨0, 0, true⟩ : Flush).covers 0 (lineKey 1 5) = false) := by decide +kernel

theorem witness_Flushes_open : (∀ l, flushing.refusal (gessoIsland 0 l) = none) ∧ ∀ k, flushing.refreshing k = false := by
  constructor
  · intro l
    have h : ∀ m < 4, flushing.refusal (22 + m) = none := by decide +kernel
    have := h (layerOf l) (Nat.mod_lt _ (by decide))
    simpa [gessoIsland, islandOf] using this
  · intro k
    rfl

theorem witness_CachesAndTacks :
    (sliced.on CNV_GLZ_STATUS.INV_BUSY 0 = false ∧ sliced.woQueue CNV_GLZ_RO_INV.GO 0 = []) ∧
    (sliced.set1 CNV_GLZ_STATUS.INV_BUSY 0).on CNV_GLZ_STATUS.INV_BUSY 0 = true ∧
    endsWell (sliced.readRange (roAgent 3 0) (0x2900 / 512 * 512) 512) = true ∧
    (let s := st [(CNV_GLZ_TACK_RANGE.ENABLE, 1, 1), (CNV_GLZ_TACK_RANGE.BASE_LINE, 1, 9), (CNV_GLZ_TACK_RANGE.LINES, 1, 2)]
     let v : Val := BitVec.ofNat 64 (2 ^ 63 + 2 * 2 ^ 25 + 10)
     v.getLsbD 63 = true ∧ s.on CNV_GLZ_TACK_RANGE.ENABLE 1 = true ∧ 9 < v.toNat % 2 ^ 25 + v.toNat / 2 ^ 25 % 2 ^ 25 ∧ v.toNat % 2 ^ 25 < 9 + 2) := by
  decide +kernel

theorem witness_Queues :
    (QReach sliced .host (rowQ 0 3) ∧ sliced.qHalted (rowQ 0 3) = false ∧ sliced.rdN (rowQ 0 3).kind.fields.state 3 < 2) ∧
    (TailAllowed sliced (rowQ 0 3) 2 ∧ ¬ TailAllowed sliced (rowQ 0 3) 0x20000) ∧
    (let s := (sliced.wrN CNV_ROW_Q_STATUS.STATE 3 2).setRing (rowQ 0 3) ⟨1, [], [0], false, false⟩
     s.qHalted (rowQ 0 3) = true ∧ (s.ring (rowQ 0 3)).overrun = false ∧ (s.ring (rowQ 0 3)).failed = [s.rdN CNV_ROW_Q_HEAD.HEAD 3] ∧
     (s.ring (rowQ 0 3)).done = []) ∧
    (let s := (sliced.wrN CNV_ROW_Q_STATUS.STATE 3 2).setRing (rowQ 0 3) ⟨0, [], [], true, false⟩
     s.qHalted (rowQ 0 3) = true ∧ (s.ring (rowQ 0 3)).overrun = true ∧ (s.ring (rowQ 0 3)).failed = []) := by
  unfold QReach TailAllowed; decide +kernel


/-- Row queue 5 of canvas 0, enabled, with one command in its ring at the start of line 5: its first byte is given, its destination is line 100
of the gesso, and its operands are as given. -/
def commanded (op : Byte) (ab : List Byte) : State :=
  let s := ((sliced.wrN CNV_ROW_Q_BASE.BASE 5 5).wrN CNV_ROW_Q_TAIL.TAIL 5 1).set1 CNV_ROW_Q_CTL.ENABLE 5
  { s with glz := { s.glz with data := (0x2800, op) :: (putBytes [] 0x2808 (leBytes 5 (100 * 2048) ++ [1, 0, 0] ++ ab)) } }

/-- Operand A: line 1124, of the same bank as line 100. -/
def rowOperand : List Byte := leBytes 5 (1124 * 2048) ++ [1, 0, 0]

/-- What the queue reads next, with what its check says. -/
def rowChecked (op : Byte) (ab : List Byte) : Option (Bool × Option (Code × Dpa) × Bool) :=
  match (commanded op ab).qNext (rowQ 0 5) with
  | .cmd bs u => some ((rowOpOf (leField bs 0 1)).isSome, (rowOpOf (leField bs 0 1)).bind (fun o => u.rowCheck 0 5 (rowFields (u.ring (rowQ 0 5)).read bs) o bs),
      u.qMayStart (rowQ 0 5) ((bs.getD 1 0).getLsbD 0) (u.rowCmds 0 5).length 7)
  | _ => none

/-- A row command of one line running on queue 5 of canvas 0, before its operation is dispatched or after it. -/
def rowRuns (op : Nat) (flying : List Nat) (held : Bool) : State :=
  let k : RowCmd := ⟨0, op, false, false, 0, 1, 100 * 2048, 1, 1124 * 2048, 1, 2148 * 2048, 1, 0x11, if held then 1 else 0, flying, none⟩
  let s := sliced.set1 CNV_ROW_Q_CTL.ENABLE 5
  { s with rows := ⟨[(5, [k])]⟩, isl := { s.isl with gessoLost := [] },
           glz := { s.glz with held := if held then [(100, some []), (1124, some []), (2148, some [])] else [] } }

/-- Whether a check allowed the command. -/
def startable (x : Option (Bool × Option (Code × Dpa) × Bool)) : Bool := match x with | some (true, none, true) => true | _ => false

theorem witness_GessoRows :
    [rowChecked 1 rowOperand, rowChecked 2 [], rowChecked 3 [], rowChecked 9 rowOperand,
      rowChecked 10 (rowOperand ++ leBytes 5 (2148 * 2048) ++ [1, 0])].all startable = true := by decide +kernel

theorem witness_GessoRows_refusals :
    ((rowChecked 4 []).any (fun x => x.2.1.isSome) = true ∧ (rowChecked 11 []).any (fun x => !x.1) = true) ∧
    ((rowRuns 10 [] false).rowCmds 0 5).length = 1 := by decide +kernel

theorem witness_GessoRows_operations :
    (let s := rowRuns 10 [] false
     (s.rowCmds 0 5).all (fun k => decide (rowOpOf k.op = some .select ∧ k.next < k.lines ∧ s.qOn (rowQ 0 5) = true ∧
         s.bankLoad 0 (rowLine k.dst k.dstStep k.next).toNat < 64 ∧ k.keys .select 0 k.next = [1124, 2148, 100]) &&
       (k.operands .select 0).all (fun x => decide (0 ≤ x.1 ∧ x.1 < 2 ^ 25)) &&
       (k.keys .select 0 k.next).all (fun x => decide (s.lineHeld x = false ∧ s.slot x = none ∧ s.victim x = none ∧ s.line x = none))) = true) ∧
    (let s := rowRuns 10 [0] true
     (s.rowCmds 0 5).all (fun k => decide (0 ∈ k.flying ∧ s.refusal (gessoIsland 0 100) = none) &&
       (k.keys .select 0 0).all (fun x => decide (s.refreshing x = false ∧ Tab.get s.glz.held x none = some [] ∧ s.line x = none) &&
         (List.range 64).all (fun w => !s.cwUnreadable x w))) = true) := by decide +kernel

/-! ### Chapter 09 -/

/-- A run of n bytes in which fields stand: offset, length and value of each. -/
def layout (n : Nat) (fs : List (Nat × Nat × Nat)) : List Byte := leBytes n (fs.foldl (fun a f => a + f.2.2 % 2 ^ (8 * f.2.1) * 2 ^ (8 * f.1)) 0)

/-- A task descriptor on line 5 of canvas 0: W, M1, M2, G, HP, SCRATCH, REC and DATA in its sectors, one row and one column, one unit, no
working copy, the next version 128 bytes above the current one, and version A for a record. -/
def taskOf (recipe : Nat) : List Byte :=
  layout 128 [(0, 1, recipe), (5, 1, 0xFF), (6, 1, 1), (8, 4, 1), (12, 4, 1), (16, 8, 0x2800), (24, 8, 0x80), (32, 8, 0x2900), (40, 8, 0x2A00),
    (48, 8, 0x2B00), (72, 8, 0x2C00), (80, 8, 0x2D00), (88, 4, 1), (96, 8, if recipe < 7 then 0 else 0x2E00), (104, 8, if recipe < 7 then 0 else 0x2F00), (113, 1, if recipe < 7 then 0 else 1)]

/-- A task of a recipe running on queue 5 of canvas 0, with bytes in line 5. -/
def tasking (recipe : Nat) (bytes : Tab Byte) : State :=
  let k : FinTask := ⟨5, 0, taskOf recipe, 5, [0], 0, 0, [], false, 0, 0, 0⟩
  { sliced with fin := { sliced.fin with tasks := [(0, [k])] }, glz := { sliced.glz with data := bytes } }

/-- Whether a built-in recipe runs: its operands read well, and its writes end. -/
def recipeRuns (recipe : Nat) (bytes : Tab Byte) : Bool :=
  let s := tasking recipe bytes
  match s.finTask 0 5 0 with
  | none => false
  | some k =>
    let d := TaskDesc.ofBytes k.desc
    match s.finReads (k.agent 0 d) (d.recipeReads k.step) with
    | some (bs, none, u) =>
      match gradElems d.gfmt d.n (bs.getD 1 []) with
      | .error _ => false
      | .ok gs =>
        let hp := wordsOf (bs.getD 2 [])
        let iters := if recipe = 3 then (if hp.getD 8 0 = 0 then 5 else hp.getD 8 0) else (if hp.getD 7 0 = 0 then 12 else hp.getD 7 0)
        let r := d.compute bs gs iters (d.stepReq % hp.getD 6 0 == 0) (u.jobSeed (some k.part) false)
        d.recipe == recipe && !k.done && decide (recipe = 3 → hp.getD 8 0 < 2 ^ 31) &&
          decide (recipe = 4 → hp.getD 7 0 < 2 ^ 31 ∧ 0 < hp.getD 6 0 ∧ hp.getD 6 0 < 2 ^ 31) &&
          decide (r.1.w.length = 1)
    | _ => false

theorem witness_FinishRecipeSteps :
    recipeRuns 1 [] ∧ recipeRuns 2 [] ∧ recipeRuns 3 [(0x2C20, 1)] ∧ recipeRuns 4 [(0x2C18, 1), (0x2C1C, 1)] ∧
    ((tasking 1 []).finWrites ⟨.finish 0, 0x80005, some 5, false⟩ [(0x2880, [0, 0, 0, 0]), (0x2980, [0, 0, 0, 0]), (0x2A80, [0, 0, 0, 0])]).isSome = true ∧
    ((tasking 3 []).finWrites ⟨.finish 0, 0x80005, some 5, false⟩ [(0x2D00, List.replicate 16 0)]).isSome = true ∧
    (let d := TaskDesc.ofBytes (taskOf 6)
     d.recipe = 6 ∧ ((tasking 6 []).finWrites ⟨.finish 0, 0x80005, some 5, false⟩ [((d.g : Int), clearBytes d.gfmt 0 (sectorUp d.gBytes))]).isSome = true) := by
  decide +kernel

/-- A record's bytes in the sector at an address: a 2-element FP32 shard at place 0. -/
def recordAt (a : Nat) (tensor sig : Nat) : Tab Byte :=
  let bs := layout 256 [(6, 1, 0), (7, 1, 1), (8, 4, tensor), (32, 8, 2), (96, 8, 0), (160, 8, 2), (224, 16, sig)]
  putBytes [] a bs

/-- The record and the data of a shard in line 5 (the received record follows 256 bytes above the template, and its data lie in the
line that follows), with a signature. -/
def recorded (recipe : Nat) (tensor sig : Nat) : State :=
  let s := tasking recipe (putBytes (recordAt 0x2E00 0 0) 0x2F00 (layout 256 [(7, 1, 1), (8, 4, tensor), (32, 8, 2), (160, 8, 2), (224, 16, sig)]))
  { s with glz := { s.glz with lines := [(lineKey 0 5, some ⟨0, 0xFF, 0, false, false⟩), (lineKey 0 6, some ⟨0, 0xFF, 0, false, false⟩)] } }

/-- The template and the received record of an adoption, and the signature of the received data under a key of zeros. -/
def adoption (tensor sig : Nat) : Option (Bool × Bool) :=
  let s := recorded 9 tensor sig
  let d := TaskDesc.ofBytes (taskOf 9)
  match s.finReads ⟨.finish 0, 0x80005, some 5, false⟩ [((d.recAt : Int), 256, 1), (d.hp, 256, 1), (d.data, 256, 1)] with
  | some (hd, none, u) =>
    let tpl := Shard.ofBytes (hd.getD 0 [])
    let got := Shard.ofBytes (hd.getD 2 [])
    match u.finReads ⟨.finish 0, 0x80005, some 5, false⟩ [((d.data : Int) + 256, got.bytes, 1)] with
    | some (bs, none, v) =>
      let vals := elemsAt (fmtOf tpl.dtype) (bs.getD 0 []) (List.range (boxCount got.extent))
      let w := v.adoptWrite ⟨.finish 0, 0x80005, some 5, false⟩ (adoptBits d ((d.w : Int) + d.shardShift 0) tpl got vals)
      some (recordAgrees tpl got, decide ((got.sign (hd.getD 1 []) vals).toNat = leField (hd.getD 2 []) 224 16) && w.isSome)
    | _ => none
  | _ => none

theorem witness_ShardRecords :
    (∀ r ∈ [7, 8, 9], (TaskDesc.ofBytes (taskOf r)).recipe = r) ∧
    (let s := recorded 7 0 0
     let d := TaskDesc.ofBytes (taskOf 7)
     match s.finReads ⟨.finish 0, 0x80005, some 5, false⟩ [((d.recAt : Int), 256, 1), (d.hp, 256, 1)] with
     | some (hd, none, u) =>
       (match u.finReads ⟨.finish 0, 0x80005, some 5, false⟩ [((d.w : Int) + d.shardShift 0, (Shard.ofBytes (hd.getD 0 [])).bytes, 1)] with
        | some (bs, none, v) => (v.finWrites ⟨.finish 0, 0x80005, some 5, false⟩ (signWrites d 0 (hd.getD 0 []) (hd.getD 1 []) (bs.getD 0 []))).isSome
        | _ => false)
     | _ => false) = true ∧
    adoption 1 0 = some (false, true) ∧ adoption 0 0 = some (true, true) ∧ adoption 0 5 = some (true, false) := by decide +kernel

/-- A user task of finish queue 5 of canvas 0 on unit 0, its next stroke in line 5, its regions 1 (READY) and 3 (FREE) over zeros. -/
def userTask (w : BitVec 128) : State :=
  let r : UnitRun := ⟨0, 0x2800, List.replicate 8 0, List.replicate 4 0, 0, 0, [(1, some ⟨1, 1, 2⟩), (3, some ⟨3, 1, 0⟩)], false⟩
  let k : FinTask := ⟨5, 0, taskOf 5, 5, [0], 0, 0, [r], false, 0, 0, 0⟩
  { sliced with fin := { sliced.fin with tasks := [(0, [k])], palette := (List.range 8).map (fun i => (palKey 0 1 0 + i, some 0)) ++
                                                                  (List.range 8).map (fun i => (palKey 0 3 0 + i, some 0)) },
                glz := { sliced.glz with data := putBytes [] 0x2800 (leBytes 16 w.toNat) } }

/-- Whether that stroke fires and is done. -/
def userFires (w : BitVec 128) : Bool :=
  let s := userTask w
  match s.finTask 0 5 0 with
  | none => false
  | some k => match k.runs.find? (fun y => y.unit == 0) with
    | none => false
    | some r =>
      let ag : Agent := { k.agent 0 (TaskDesc.ofBytes k.desc) with src := .finish 0 }
      match s.readRange ag r.pc 16 with
      | .done c bs u => match decodeStroke true (BitVec.ofNat 128 (leField bs 0 16)) with
        | .ok d => decide (c = 0) && !r.halted && !r.regions.isEmpty && s.windowOk 5 .x r.pc 16 && decide (u.unitDecode ag.part r w = none) &&
            r.fires (mergeUses d.uses) && (match u.unitExec 0 ag k 0 r.pc { r with pc := r.pc + 16 } d with | .done _ _ _ => true | _ => false)
        | .error _ => false
      | .wait _ => false

/-- Finish queue 5 of canvas 0, enabled, with one task in its ring at the start of line 5. -/
def finRing (recipe : Nat) : State :=
  let s := ((sliced.wrN CNV_FIN_Q_BASE.BASE 5 5).wrN CNV_FIN_Q_TAIL.TAIL 5 1).set1 CNV_FIN_Q_CTL.ENABLE 5
  { s with glz := { s.glz with data := putBytes [] 0x2800 (layout 128 [(0, 1, recipe), (5, 1, 0xFF), (6, 1, 1), (8, 4, 1), (12, 4, 1), (48, 8, 0x3000)]) } }

/-- What the check says of the task that the dispatch picks: refused, or the units that it needs and those that are idle. -/
def finChecked (recipe : Nat) : Option (Option (Nat × Nat)) :=
  let s := finRing recipe
  match s.finPick 0 (s.finOrder 0) with
  | (t, some (q, b)) => match t.finCheck 0 q b with
    | .refuse _ _ => some none
    | .ok u => some (some (min (TaskDesc.ofBytes b).units (u.finActive 0).length, (u.finIdle 0).length))
    | .wait => none
  | _ => none

theorem witness_FinishTasks :
    sliced.canvasUp 0 = true ∧ finChecked 10 = some none ∧ finChecked 6 = some (some (1, 16)) ∧
    userFires (tokStroke 12 0) ∧ userFires (word [(124, 1), (120, 14), (106, 1), (76, 3), (39, 0)]) ∧
    userFires (word [(124, 1), (120, 15), (106, 1), (76, 3), (72, 1)]) ∧
    (let s := tasking 6 []
     (s.finTask 0 5 0).isSome = true ∧ s.rdN CNV_FIN_Q_HEAD.HEAD 5 = 0 ∧ (s.ring (finQ 0 5)).done = []) ∧
    (sliced.hostBarred .host = false ∧ sliced.on SEC_STATUS.CONF 0 = false ∧ sliced.rdN CNV_FIN_Q_STATUS.STATE 5 = 0 ∧ sliced.openCoats = []) ∧
    (sliced.wrN CNV_FIN_Q_STATUS.STATE 5 1).rdN CNV_FIN_Q_STATUS.STATE 5 ≠ 0 := by decide +kernel

/-! ### Chapter 10 -/

/-- A local coat of queue 3 with no action, accepted at time 0 and preparing. -/
def coat0 : Coat :=
  ⟨7, 3, 0, 0, false, false, false, false, 3, 0, [], [], .preparing, [], none, 0, 0, some 0, none, none, none, none, [], [], [], [], [], []⟩

/-- A device with one open coat, of id 5, at a time. -/
def coated (c : Coat) (now : Nat) : State :=
  { (sliced.wrN GLB_TIME.NS 0 now).wrN GLB_ISL_STATE.STATE 141 0 with coats := ⟨[(5, some c)], []⟩ }

/-- The descriptor of a coat: flags, timestamp, list of actions and their number. -/
def coatDesc (flags ts list n : Nat) : List Byte := layout 64 [(0, 2, 6), (4, 1, flags), (8, 8, ts), (16, 8, list), (24, 4, n), (40, 2, if flags = 8 then 9 else 0)]

/-- Coat queue 5, enabled, with one descriptor at the start of line 5, and a VERSION_FLIP of its own partition in line 5's second sector. -/
def coatRing (b : List Byte) : State :=
  let s := ((sliced.wrN COAT_Q_BASE.BASE 5 5).wrN COAT_Q_TAIL.TAIL 5 1).set1 COAT_Q_CTL.ENABLE 5
  let part : Partition := ⟨0, 0, 0, 3, 1, [⟨0, 0xFFFFFFFFFF, true, true, true, true, true⟩]⟩
  { s with glz := { s.glz with data := putBytes (putBytes [] 0x2800 b) 0x2900 (layout 48 [(0, 1, 4), (8, 8, 5)]) },
           str := { s.str with sketch := { s.str.sketch with parts := [(5, some part)] } } }

/-- What the queue reads, how the descriptor stands with R326 and R327, and whether the actions are read and allowed. -/
def coatChecked (s : State) : Option (Bool × Bool × Bool × Bool) :=
  match s.qNext (coatQ 5) with
  | .cmd b u => some (u.qMayStart (coatQ 5) ((leField b 4 1).testBit 0) (u.openCoats.countP (fun e => e.2.queue == 5)) 15,
      u.coatDescOk 5 b, (u.coat (leField b 0 2)).isNone && u.openCoats.all (fun e => decide (e.2.ts ≠ BitVec.ofNat 64 (leField b 8 8))),
      (match u.readRange (coatAgent 0x70005) (leField b 16 8) (48 * leField b 24 4) with
        | .done c bytes v => decide (c = 0) && decide ((pieces 48 bytes).length = 1) &&
            (let acts := (pieces 48 bytes).filterMap v.parseAction; decide (acts.length = leField b 24 4) && acts.all (fun a => v.actionAllowed 5 a.2))
        | .wait _ => false))
  | _ => none

theorem witness_CoatStart :
    sliced.str.loader.phase = .idle ∧
    coatChecked (coatRing (coatDesc 0 9 0x2900 1)) = some (true, true, true, true) ∧
    coatChecked (coatRing (coatDesc 8 9 0x2900 1)) = some (true, true, true, true) ∧
    (coatChecked (coatRing (coatDesc 16 9 0x2900 1))).any (fun x => x.1 && !x.2.1) = true ∧
    (coatChecked { coatRing (coatDesc 0 9 0x2900 1) with coats := ⟨[(6, some coat0)], []⟩ }).any (fun x => x.1 && x.2.1 && !x.2.2.1) = true ∧
    (coatChecked { coatRing (coatDesc 0 7 0x2900 1) with coats := ⟨[(5, some coat0)], []⟩ }).any (fun x => x.1 && x.2.1 && !x.2.2.1) = true := by
  decide +kernel

/-- A participant's part of a device-wide coat whose coordinator is device 9. -/
def part0 (stage : CoatStage) : Coat := { coat0 with wide := true, coord := 9, stage := stage }

/-- A lock key of word 0x300. -/
def key0 : LockKey := ⟨2, 6, 0, 0⟩

theorem witness_CoatPrepare :
    (let s := coated coat0 0
     s.coat 5 = some coat0 ∧ (coat0.actions.filterMap (fun a => a.2.key)).dedup = [] ∧ s.coatOnLost coat0 = false ∧ s.patchCheck coat0 = true ∧
       (∀ st < 256, s.slotsTaken st + coat0.actions.countP (fun a => a.1 == st) ≤ 2048)) ∧
    ((coated (part0 .staged) 0).coatOf 7 = some (5, part0 .staged)) ∧
    ((coated coat0 0).coatOf 8 = none ∧ (coated coat0 0).coats.held = []) ∧
    (let c := { coat0 with wanted := [key0] }
     let s := coated c 0
     s.lockHolder key0 = none ∧ (s.openCoats.all (fun e => !(e.2.wanted.contains key0 && e.2.ts.ult c.ts))) = true) ∧
    (coat0.stage = .preparing ∧ coat0.wanted = [] ∧ coat0.wide = false ∧ coat0.isCoord = false) ∧
    ((part0 .preparing).stage = .preparing ∧ (part0 .preparing).wanted = [] ∧ (part0 .preparing).wide = true ∧ (part0 .preparing).isCoord = false) ∧
    (let c := { coat0 with actions := [(0, .versionFlip 5)] }
     (match (coated c 0).prepareAction 5 c 0 (.versionFlip 5) with | .ready t => decide (t = coated c 0) | _ => false) = true) := by decide +kernel

/-- A coordinator's coat with participants 9 and 10. -/
def coord0 : Coat := { coat0 with wide := true, isCoord := true, devices := [9, 10], stage := .prepared, votes := [0, 10] }

/-- That coat after a decision: what it decided, whether it applied, and the ACKs it waits for. -/
def closing (d : Code) (acks : List Nat) : Coat :=
  { coord0 with decided := some d, learnt := if d = 0 then some 5 else none, ended := some 6, code := d, acks := acks }

theorem witness_CoatCoordinator :
    (let s := coated coord0 0
     s.coatOf 7 = some (5, coord0) ∧ s.coat 5 = some coord0 ∧ coord0.decided = none ∧ 9 ∈ coord0.devices ∧ s.coord = 0 ∧
       (∀ x ∈ coord0.devices ++ [s.coord], x ∈ coord0.votes ++ [9]) ∧ (∃ x ∈ coord0.devices ++ [s.coord], x ∉ coord0.votes) ∧ coord0.lines = []) ∧
    (let s := coated (closing 0 [9]) 20000000
     CoatIs s 7 5 (closing 0 [9]) ∧ (closing 0 [9]).decided.isSome = true ∧ (closing 0 [9]).ended.isSome = true ∧ (∀ x ∈ (closing 0 [9]).acks, x = 9) ∧
       (closing 0 [9]).acks ≠ [] ∧ (closing 0 [9]).decidedAt + 10000000 ≤ s.now) ∧
    (∃ x ∈ (closing 0 [9, 10]).acks, x ≠ 9) ∧ (closing 0x0408 [9]).decided = some 0x0408 := by
  unfold CoatIs; decide +kernel

/-- A participant that has voted YES at time 0. -/
def voted (stage : CoatStage) (q : Option (Nat × Nat)) : Coat := { part0 stage with votedAt := some 0, queried := q }

theorem witness_CoatParticipant :
    (let c := voted .prepared none
     let s := coated c 10000000
     CoatIs s 7 5 c ∧ c.awaits c.coord = true ∧ c.lines = [] ∧ c.stage ≠ .inDoubt ∧ c.queried = none ∧ c.votedAt.getD 0 + 10000000 ≤ s.now) ∧
    (let c := voted .prepared (some (10000000, 10000000))
     CoatIs (coated c 11000000) 7 5 c ∧ CoatIs (coated c 20000000) 7 5 c ∧ 10000000 + 1000000 ≤ (coated c 11000000).now ∧
       (coated c 11000000).now < 10000000 + 10000000 ∧ 10000000 + 10000000 ≤ (coated c 20000000).now) ∧
    (CoatIs (coated coat0 10000000) 7 5 coat0 ∧ coat0.expired (coated coat0 10000000).now = true ∧ coat0.unvoted = true) ∧
    (let c := voted .inDoubt none
     let s := coated c 0
     CoatIs s 7 5 c ∧ s.island 141 = islActive ∧ s.woQueue COAT_CMD.OP 0 = [] ∧ c.unvoted = false ∧ c.stage = .inDoubt ∧ c.isCoord = false) := by
  unfold CoatIs; decide +kernel

theorem witness_CoatApply :
    (let c := { coat0 with actions := [(0, .versionFlip 5), (0, .versionFlip 5)], decided := some 0, learnt := some 0, stage := .committed }
     let s := coated c 2000
     s.coat 5 = some c ∧ c.learnt = some 0 ∧ c.ended = none ∧ 0 + 2000 ≤ s.now ∧ (coated c 1999).now < 2000 ∧ c.wide = false ∧
       (∀ a ∈ c.actions, a.2 = .versionFlip 5) ∧ (∀ a ∈ c.actions, s.actionLost a = false) ∧ s.rdN CNV_FIN_STEP.STEP 5 < 2 ^ 32) ∧
    (0x2908 % 8 = 0 ∧ (sliced.line (keyOf 0x2908)).isSome = true ∧ sliced.wordBad (0x2908 / 8) = false ∧ sliced.str.loader.phase = .idle ∧
      sliced.rung 0x2908 8 = []) := by decide +kernel

/-! ### Chapter 11 -/

/-- A descriptor of class 0: operation, format, flags byte, source, destination, bytes of a row, rows, the pitches, and the signalled region. -/
def dmaBytes (op fmt flags src dst rowBytes rows pitch : Nat) : List Byte :=
  layout 64 [(0, 1, op), (1, 1, flags), (3, 1, fmt), (6, 2, 3), (16, 8, src), (24, 8, dst), (32, 4, rowBytes), (36, 4, rows), (40, 8, pitch), (48, 8, pitch)]

/-- DMA channel 3, enabled, the device's own, with one descriptor at the start of line 5; every island of the hub ACTIVE. -/
def dmaRing (b : List Byte) : State :=
  let s := (((List.range 10).foldl (fun s i => s.wrN GLB_ISL_STATE.STATE (134 + i) 0) sliced).wrN DMA_CH_BASE.BASE 3 5).wrN DMA_CH_TAIL.TAIL 3 1
  let t := (s.set1 DMA_CH_CTL.ENABLE 3).wrN DMA_CH_RETRY.RETRY 3 2
  { t with glz := { t.glz with data := putBytes [] 0x2800 b } }

/-- What channel 3 reads next: its operation, and the code of its check. -/
def dmaChecked (b : List Byte) : Option (Nat × Code × Bool) :=
  match (dmaRing b).qNext (dmaQ 3) with
  | .cmd bs u => some ((dmaDesc bs).op, u.dmaCheck 3 bs, u.dmaRuns 3 == [])
  | _ => none

/-- A started descriptor of channel 3, as number 0 of its ring. -/
def dmaRun0 (b : List Byte) (next : Nat) (flying : List DmaBurst) (back : Option Nat) : DmaRun := ⟨0, b, next, flying, back, 0, none⟩

/-- Channel 3 with a started descriptor, at a time. -/
def dmaRuns (r : DmaRun) (now : Nat) : State :=
  let s := (dmaRing r.desc).setRing (dmaQ 3) ⟨1, [], [], false, true⟩
  ((s.wrN GLB_TIME.NS 0 now).setRuns 3 [r])

/-- A COPY of one sector of line 5 onto another, and an ADD. -/
def copy0 : List Byte := dmaBytes 0 0 0 0x2900 0x2A00 256 1 0
def add0 : List Byte := dmaBytes 1 0 0 0x2900 0x2A00 256 1 0
/-- The burst that moves the whole of either. -/
def burst0 : DmaBurst := ⟨0, 256, 2, 0, 0, false⟩

theorem witness_DmaDescriptors :
    dmaChecked copy0 = some (0, 0, true) ∧ dmaChecked add0 = some (1, 0, true) ∧ dmaChecked (dmaBytes 2 1 0 0x2800 0x3000 2048 1 0) = some (2, 0, true) ∧
    dmaChecked (dmaBytes 9 0 0 0x2900 0x2A00 256 1 0) = some (9, 0x0302, true) ∧ dmaChecked (dmaBytes 0 0 0 0x2904 0x2A00 256 1 0) = some (0, 0x0301, true) ∧
    (dmaRing copy0).on DMA_CH_CTL.STOP 3 = false ∧ (dmaDesc copy0).fence = false := by decide +kernel

theorem witness_BurstOrder : (copy0.length = 64 ∧ (dmaDesc copy0).op ≠ 2 ∧ 0 < (dmaDesc copy0).rowBytes ∧ (dmaDesc copy0).rows ≤ 1 ∧ 0 < (dmaDesc copy0).total) ∧
    (let d := dmaDesc (dmaBytes 0 0 0 0x2900 0x8000000100 512 3 1024)
     d.op ≠ 2 ∧ 0 < d.rowBytes ∧ d.rowBytes ≤ d.dstPitch ∧ 1535 < d.total) := by decide +kernel

theorem witness_DmaBursts :
    (let r := dmaRun0 copy0 0 [] none
     let s := dmaRuns r 0
     s.dmaGrant 0 = some 3 ∧ s.dmaNext 3 = some (r, 0) ∧ (dmaDesc r.desc).srcRemote = false ∧ (dmaDesc r.desc).dstRemote = false ∧
       inHost (dmaDesc r.desc).src = false ∧ s.dmaRuns 3 = [r]) ∧
    (let r := dmaRun0 copy0 256 [burst0] none
     let s := dmaRuns r 1000000
     let d := dmaDesc r.desc
     LocalBurst s 3 r burst0 ∧ s.dmaRuns 3 = [r] ∧ r.back = none ∧ burst0.sent + 1000000 ≤ s.now ∧ r.flying = [burst0] ∧ d.op ≠ 1 ∧
       burst0.retries < s.rdN DMA_CH_RETRY.RETRY 3 ∧
       (match s.burstRead (s.dmaAgent 3 0 0) d (d.burstAt 0) with
        | .done c bs u => decide (c = 0) && (match u.burstWrite (s.dmaAgent 3 0 0) d (d.burstAt 0) bs with
            | some (e, v) => decide (e = 0) && decide (v.dmaRuns 3 = [r]) && decide (d.total ≤ r.next) | none => false)
        | .wait _ => false) = true) ∧
    (let r := dmaRun0 add0 256 [burst0] none
     LocalBurst (dmaRuns r 1000000) 3 r burst0 ∧ (dmaDesc r.desc).op = 1) := by
  unfold LocalBurst; decide +kernel

/-- A signalling COPY whose read-back is outstanding. -/
def signals : State := dmaRuns (dmaRun0 (dmaBytes 0 0 8 0x2900 0x2A00 256 1 0) 256 [] (some 0)) 5

/-- The failed descriptor of channel 3 kept for RESUME. -/
def halted3 : State :=
  let s := ((dmaRing copy0).setRing (dmaQ 3) ⟨1, [], [0], false, false⟩).wrN DMA_CH_STATUS.STATE 3 2
  { s with dma := { s.dma with broken := [(3, some (dmaRun0 copy0 0 [] none))] } }

/-- A read of partition 5 by another device. -/
def reqFar (d : Nat) : MemReq := ⟨.host, 9, d, 256, some 5, false, 0⟩

theorem witness_DmaCompletion :
    (let r := dmaRun0 (dmaBytes 0 0 8 0x2900 0x2A00 256 1 0) 256 [] (some 0)
     let d := dmaDesc r.desc
     signals.dmaRun 3 0 = some r ∧ d.dstRemote = false ∧ inHost d.dst = false ∧
       endsWell (signals.readRange (signals.dmaAgent 3 0 256) d.backPiece.1 d.backPiece.2) = true ∧ d.total = 256 ∧
       signals.rdN DMA_CH_HEAD.HEAD 3 = 0 ∧ (signals.ring (dmaQ 3)).done = [] ∧ signals.on DMA_CH_CTL.STOP 3 = false ∧ d.signal = true ∧
       (let u := signals.wrN CNV_PNL_REGION.LEN 3 1
        u.rdN CNV_PNL_REGION.TOKEN (regIx d.panel d.handle) = 0 ∧ u.rdN CNV_PNL_REGION.LEN (regIx d.panel d.handle) ≠ 0 ∧
          u.on CNV_PNL_REGION.JOB (regIx d.panel d.handle) = false ∧ u.qPart (dmaQ 3) = none) ∧
       signals.rdN CNV_PNL_REGION.LEN (regIx d.panel d.handle) = 0) := by decide +kernel

theorem witness_DmaCompletion_registers :
    (reqInLine (reqFar 0x2900) = true ∧ (reqFar 0x2900).part = some 5 ∧ sliced.windowOk 5 .r 0x2900 256 = true ∧ sliced.windowOk 6 .r 0x2900 256 = false) ∧
    (QReach halted3 .host (dmaQ 3) ∧ halted3.qHalted (dmaQ 3) = true ∧ Tab.get halted3.dma.broken 3 none = some (dmaRun0 copy0 0 [] none) ∧
      (halted3.ring (dmaQ 3)).failed = [0] ∧ halted3.dmaRuns 3 = [] ∧ (halted3.ring (dmaQ 3)).overrun = false ∧ (halted3.ring (dmaQ 3)).done = [] ∧
      halted3.rdN DMA_CH_HEAD.HEAD 3 = 0) ∧
    (QReach (dmaRing copy0) .host (dmaQ 3) ∧ (dmaRing copy0).dmaRuns 3 = [] ∧ (dmaRing copy0).qHalted (dmaQ 3) = false ∧
      (dmaRing copy0).on SEC_STATUS.CONF 0 = false ∧ (dmaRing copy0).dmaReserved 3 = 0) ∧
    (QReach signals .host (dmaQ 3) ∧ signals.dmaRuns 3 ≠ []) ∧
    (let s : State := { dmaRing copy0 with coats := ⟨[(5, some { coat0 with actions := [(0, .dmaLaunch 3 0)], descs := [(0, copy0)] })], []⟩ }
     QReach s .host (dmaQ 3) ∧ s.dmaReserved 3 ≠ 0) := by
  unfold QReach; decide +kernel

/-! ### Chapter 12 -/

/-- A tether that is UP on canvas 1, every island ACTIVE, at a time. -/
def tethered (now : Nat) : State := ((sliced.wrN TTH_STATUS.LINK 1 2).wrN GLB_ISL_STATE.STATE 67 0).wrN GLB_TIME.NS 0 now

/-- A load of 116 bytes on a VC. -/
def load0 : LinkLoad := ⟨1, 0, 0, List.replicate 116 5⟩

/-- A flit of a type with its acknowledgement and its low bits. -/
def tthFlit (type seq ack low : Nat) : List Byte := (⟨seq, ack, type, 0, 0, 0, 31, low⟩ : TetherHead).flit []

/-- One held flit. -/
def heldOne (n : Nat) : LinkFlit := ⟨0, 1, 0, List.replicate 116 5, n⟩

/-- That tether with one end's own state changed. -/
def ended (k : Nat) (e : LinkEnd) (now : Nat) : State := (tethered now).setEnd k e

theorem witness_TetherFlits :
    (let s := tethered 0
     s.rdN TTH_STATUS.LINK 1 = 2 ∧ load0.vc < 3 ∧ load0.start < 32 ∧ load0.payload.length = 116 ∧ (s.linkEnd 2).held.length < 256 ∧
       0 < s.rdN TTH_CREDIT.AVAIL (tetherVc 2 1) ∧ s.rdN TTH_CREDIT.AVAIL (tetherVc 2 1) ≤ 512 ∧ (s.linkEnd 3).aligned = true ∧
       (s.linkEnd 3).expect = (s.linkEnd 2).next ∧ (s.linkEnd 2).next < 4096 ∧ (s.linkEnd 2).freed = [] ∧ (s.tether 1).epoch < 256) ∧
    ((tethered 0).wrN TTH_CREDIT.AVAIL (tetherVc 2 1) 0).rdN TTH_CREDIT.AVAIL (tetherVc 2 1) = 0 ∧
    ((tthFlit 1 0 0 0).drop 8).length ≠ 128 ∧
    ((ended 3 { LinkEnd.idle with aligned := false } 0).linkEnd 3).aligned = false ∧ ((ended 3 { LinkEnd.idle with naking := true } 0).linkEnd 3).naking = true := by
  decide +kernel

theorem witness_TetherFlits_check (type seq ack low : Nat) (ht : type < 4) (hs : seq < 4096) (ha : ack < 4096) (hl : low < 2 ^ 18) :
    flitGood (tthFlit type seq ack low) = true ∧ (tthFlit type seq ack low).length = 128 :=
  ⟨TetherHead.flit_good _ _ ⟨hs, ha, by simp only; omega, by simp only; omega, by simp only; omega, by simp only; omega, by simp only; omega, hl⟩ ht (by simp), by simp [tthFlit]⟩

theorem witness_TetherFlits_good :
    ((TetherHead.read (tthFlit 0 4095 4095 0)).type = 0 ∧ (TetherHead.read (tthFlit 0 4095 4095 0)).seq = 4095 ∧ ((tethered 0).linkEnd 3).expect = 0) ∧
    ((TetherHead.read (tthFlit 1 0 0 0)).type = 1 ∧ (TetherHead.read (tthFlit 2 0 4095 0)).type = 2 ∧ (TetherHead.read (tthFlit 3 0 0 1024)).type = 3) ∧
    (heldAfter [heldOne 7] 4095 = [heldOne 7] ∧ heldAfter [heldOne 7] 0 = [] ∧ (heldOne 7).resent < 8) ∧
    ((TetherHead.read (tthFlit 3 0 0 1024)).low / 1024 % 256 = 1 ∧ ((tethered 0).tether 1).seenEpoch = none ∧
      (((tethered 0).setTether 1 { Tether.idle with seenEpoch := some 2 }).tether 1).seenEpoch = some 2) := by decide +kernel

theorem witness_TetherFlits_timers :
    (let s := ended 2 { LinkEnd.idle with held := [heldOne 7] } 200
     (s.linkEnd 2).held ≠ [] ∧ (s.linkEnd 2).ackAt + 200 ≤ s.now ∧ s.rdN TTH_STATUS.LINK 1 = 2 ∧
       (ended 2 { LinkEnd.idle with held := [heldOne 7] } 199).now < (s.linkEnd 2).ackAt + 200) ∧
    ((ended 2 { LinkEnd.idle with held := [heldOne 8] } 200).linkEnd 2).held = [heldOne 8] ∧
    (let s := (tethered 1000000).wrN TTH_CREDIT.AVAIL (tetherVc 2 1) 511
     s.rdN TTH_CREDIT.AVAIL (tetherVc 2 1) < 512 ∧ (s.linkEnd 2).lastData = [] ∧ (s.linkEnd 3).lastData = [] ∧ 0 + 1000000 ≤ s.now) := by decide +kernel

/-- A packet at the hub: operation, flags and destination. -/
def packetTo (op flags dst : Nat) : HubPacket := ⟨0, op, flags, 0, 0x4080, dst, 1, 0x1000000100⟩

theorem witness_TetherLoss :
    ((tethered 2000000).rdN TTH_STATUS.LINK 1 = 2 ∧ (tethered 2000000).island (tetherIsland 1) ≠ islAsleep ∧ (tethered 2000000).on TTH_STATUS.LOST 1 = false ∧
      ((tethered 2000000).tether 1).hubBeat + (tethered 2000000).hbLimit 1 ≤ (tethered 2000000).now ∧
      (tethered 0).now < ((tethered 0).tether 1).hubBeat + (tethered 0).hbLimit 1) ∧
    ((tethered 0).set1 TTH_STATUS.LOST 1).on TTH_STATUS.LOST 1 = true ∧
    (let s := ((tethered 20000).wrN TTH_STATUS.LINK 1 1)
     let r := s.set1 TTH_CTL.RECOVER 1
     s.rdN TTH_STATUS.LINK 1 = 1 ∧ (s.tether 1).start + 20000 ≤ s.now ∧ s.on TTH_CTL.RECOVER 1 = false ∧ r.on TTH_CTL.RECOVER 1 = true ∧
       (∀ k < 8, s.failedLanes k < 2 ^ 68) ∧ onesBelow 68 (s.failedLanes 2 ||| 7) = 3 ∧ onesBelow 68 (s.failedLanes 2 ||| (2 ^ 53 - 1)) = 53) ∧
    ((tethered 2000000).rdN TTH_STATUS.LINK 1 ≠ 4 ∧ ((tethered 2000000).tether 1).canvBeat + (tethered 2000000).hbLimit 1 ≤ (tethered 2000000).now ∧
      ((tethered 0).wrN CNV_SEQ_THR_CTL.STATE 512 1).rdN CNV_SEQ_THR_CTL.STATE 512 = 1) := by decide +kernel

theorem witness_TetherLoss_packets :
    endpointExists 0x1110 = true ∧ endpointExists 0x2130 = false ∧
    (hubLocation (packetTo 1 0 0x1110) = 1 ∧ hubLocation (packetTo 7 0 0x1110) = 1 ∧ (tethered 0).on TTH_STATUS.LOST 1 = false ∧
      ((tethered 0).set1 TTH_STATUS.LOST 1).on TTH_STATUS.LOST 1 = true) ∧
    ((tethered 0).on HUB_FABRIC_ERR.VALID 0 = false ∧ ((tethered 0).set1 HUB_FABRIC_ERR.VALID 0).on HUB_FABRIC_ERR.VALID 0 = true) ∧
    ((packetTo 1 0 0x1110).flags.testBit 0 = false ∧ 0 < (packetTo 1 0 0x1110).op ∧ (packetTo 1 0 0x1110).op ≤ 14) := by decide +kernel

/-! ### Chapter 13 -/

/-- A mural of 4 by 8 by 32 by 64 devices without cuts, this device at a coordinate. -/
def mural (c : Nat) : State :=
  st [(SPR_DIM.X_SIZE, 0, 3), (SPR_DIM.Y_SIZE, 0, 7), (SPR_DIM.Z_SIZE, 0, 31), (SPR_DIM.W_SIZE, 0, 63), (SPR_COORD.COORD, 0, c)]

/-- The worked route of chapter 13: from 0x1069 to 0x13DF in 10 hops, two along X, three along Y and five along Z. -/
theorem test_spar_route :
    deviceAfter (mural 0x1069) 0x13DF 2 0x1069 = 0x106B ∧ deviceAfter (mural 0x1069) 0x13DF 5 0x1069 = 0x107F ∧
    deviceAfter (mural 0x1069) 0x13DF 9 0x1069 ≠ 0x13DF ∧ deviceAfter (mural 0x1069) 0x13DF 10 0x1069 = 0x13DF := by decide +kernel

theorem witness_SparRoutes :
    (∀ a < 4, (mural 0).axisSize a ≤ (if a = 0 then 4 else if a = 1 then 8 else if a = 2 then 32 else 64) ∧ (mural 0).axisCut a = none) ∧
    (mural 0).reachable 0x1069 = true ∧ (mural 0).reachable 0x13DF = true ∧
    (let s := ((mural 0).set1 SPR_RING_CUT.X_EN 0).wrN SPR_RING_CUT.X_POS 0 3
     s.axisCut 0 = some 3 ∧ s.axisSize 0 = 4 ∧ (placedAt s 3).routePort 0 = some 1 ∧ (placedAt s 0).routePort 1 = some 0) := by decide +kernel

/-- Port 2 (+Y) of device 0 of that mural at a LINK and a time, its keys installed. -/
def sparAt (link now : Nat) (x : SparPort) : State :=
  let s := ((mural 0).wrN SPR_STATUS.LINK 2 link).wrN GLB_TIME.NS 0 now
  { s.wrN GLB_ISL_STATE.STATE 139 0 with links := { s.links with spar := [(2, x)] } }

/-- A port with keys in slot 0. -/
def keyed : SparPort := { SparPort.idle with txKey := [(0, some 1)], rxKey := [(0, some 2)] }

/-- A packet of no data to a coordinate. -/
def sparTo (dst hops : Nat) : SparPacket := ⟨1, 0, 0, 0, dst, 0x4000, 0x4001, 5, 5, 0, 0x100, hops, []⟩

theorem witness_SparPackets :
    (let s := sparAt 3 0 keyed
     s.sparHead 0 0 = none ∧ s.sparHead 8 0 = none ∧ s.reachable 4 = true ∧ s.routePort 4 = some 2 ∧ s.routePort 0 = none ∧ s.sparLink 2 ≠ 0 ∧
       s.mayLeave 0 0 ⟨2, s.routeVc 0 0 2, s.now, 0, sparTo 4 0⟩ = true ∧ s.rdN SPR_CREDIT.AVAIL (2 * 8 + s.routeVc 0 0 2) ≤ 512 ∧
       (s.wrN SPR_CREDIT.AVAIL (2 * 8 + s.routeVc 0 0 2) 0).mayLeave 0 0 ⟨2, s.routeVc 0 0 2, s.now, 0, sparTo 4 0⟩ = false) ∧
    (sparAt 0 0 SparPort.idle).sparLink 2 = 0 ∧ (st []).reachable 4 = false ∧ (127 ≤ (sparTo 4 127).hops ∧ (sparTo 4 126).hops < 127) ∧
    (let h : SparHead := ⟨2, 0, 0, 0, sparTo 4 0⟩
     ((sparAt 3 64 keyed).setHead 0 0 (some h)).sparHead 0 0 = some h ∧ h.since + 64 * (h.ticks + 1) ≤ (sparAt 3 64 keyed).now ∧
       (sparAt 3 63 keyed).now < h.since + 64 * (h.ticks + 1)) := by decide +kernel

/-- A flit of 256 bytes whose header is given. -/
def sparFlit (h : Nat) : List Byte := leBytes 8 h ++ List.replicate 248 0

theorem witness_SparFlits :
    (sparAt 3 0 keyed).sparLink 2 = 3 ∧ (⟨1, 1, true⟩ : FecResult).hit = true ∧ (⟨0, 0, false⟩ : FecResult).hit = false ∧ (sparFlit 0).length = 256 ∧
    (leField (sparFlit 0) 0 8 / 2 ^ 49 % 2 = (sparAt 3 0 keyed).rdN SPR_KEY.RX_KEY 2 ∧ Tab.get ((sparAt 3 0 keyed).spar 2).rxKey 0 none = some 2) ∧
    (leField (sparFlit 0) 0 8 / 2 ^ 22 % 8 = 0 ∧ leField (sparFlit 0) 0 8 / 2 ^ 37 % 4096 = ((sparAt 3 0 keyed).linkEnd 18).expect ∧
      leField (sparFlit (2 ^ 22)) 0 8 / 2 ^ 22 % 8 = 1) ∧
    (let s := (sparAt 3 400 keyed).setEnd 18 { LinkEnd.idle with held := [heldOne 7] }
     (s.linkEnd 18).held ≠ [] ∧ (s.linkEnd 18).ackAt + 400 ≤ s.now ∧ (heldOne 7).resent < 8 ∧ s.rdN SPR_KEY.TX_KEY 2 = 0 ∧
       Tab.get (s.spar 2).txKey 0 none = some 1) ∧
    ((sparAt 3 1999 keyed).now < ((sparAt 3 1999 keyed).spar 2).lastRx + 2000 ∧ ((sparAt 3 2000 keyed).spar 2).lastRx + 2000 ≤ (sparAt 3 2000 keyed).now) ∧
    (let s := (sparAt 3 1000000 keyed).wrN SPR_CREDIT.AVAIL 16 511
     s.rdN SPR_CREDIT.AVAIL (2 * 8 + 0) < 512 ∧ Tab.get (s.linkEnd 18).lastData 0 0 + 1000000 ≤ s.now) := by decide +kernel

theorem witness_SparLife :
    ((sparAt 0 0 SparPort.idle).island (sparIsland 2) = islActive ∧ (sparAt 0 0 SparPort.idle).sparLink 2 = 0) ∧
    (let s := sparAt 1 20000 SparPort.idle
     s.sparLink 2 = 1 ∧ (s.spar 2).start + 20000 ≤ s.now ∧ s.rdN SPR_LANE_FAIL.RX 2 < 65536 ∧ s.rdN SPR_LANE_FAIL.TX 2 < 65536 ∧ (s.spar 2).retrain = false ∧
       onesBelow 16 (s.rdN SPR_LANE_FAIL.RX 2 ||| 0xFF) = 8 ∧ onesBelow 16 (s.rdN SPR_LANE_FAIL.RX 2 ||| 0x1FF) = 9) ∧
    (((sparAt 1 20000 { keyed with retrain := true, trained := some 0 }).spar 2).retrain = true ∧
      ((sparAt 1 20000 { keyed with retrain := true, trained := some 0 }).spar 2).trained.isSome = true) ∧
    (let s := ((sparAt 2 0 keyed).wrN SPR_PEER.COORD 2 4).wrN SPR_PEER.PORT 2 3
     s.sparLink 2 = 2 ∧ (Tab.get (s.spar 2).txKey (s.rdN SPR_KEY.TX_KEY 2) none).isSome = true ∧ s.wiringGood 2 s.dims = true ∧ s.wiringGood 2 0 = false ∧
       (Tab.get (s.spar 2).rxKey (s.rdN SPR_KEY.RX_KEY 2) none).isSome = true) ∧
    ((sparAt 2 0 keyed).now < ((sparAt 2 0 keyed).spar 2).bootAt + 1000000000 ∧
      ((sparAt 2 1000000000 keyed).spar 2).bootAt + 1000000000 ≤ (sparAt 2 1000000000 keyed).now) ∧
    (let s := (sparAt 3 0 keyed).wrN SPR_KEY_FLITS.VALUE 2 (2 ^ 40)
     2 ^ 39 ≤ s.rdN SPR_KEY_FLITS.VALUE 2 ∧ 2 ^ 40 - 2 ^ 24 ≤ s.rdN SPR_KEY_FLITS.VALUE 2 ∧ 2 ^ 40 ≤ s.rdN SPR_KEY_FLITS.VALUE 2) ∧
    (((sparAt 3 0 keyed).set1 SPR_KEY.NEXT_TX 2).on SPR_KEY.NEXT_TX 2 = true ∧ 1 ≠ ((sparAt 3 0 keyed).set1 SPR_KEY.NEXT_TX 2).rdN SPR_KEY.TX_KEY 2) := by
  decide +kernel

theorem boot_checked (h : List Byte) (hl : h.length = 244) :
    leField (h ++ leBytes 4 (crc32 h).toNat ++ List.replicate 8 0) 244 4 =
        (crc32 ((h ++ leBytes 4 (crc32 h).toNat ++ List.replicate 8 0).take 244)).toNat ∧
      leField (h ++ leBytes 4 (crc32 h).toNat ++ List.replicate 8 0) 248 8 = 0 := by
  constructor
  · have := leField_append_right h (leBytes 4 (crc32 h).toNat ++ List.replicate 8 0) 0 4
    rw [hl, Nat.add_zero] at this
    rw [List.append_assoc, this, leField_append_left (by simp), leField_leBytes, List.take_left' hl, Nat.mod_eq_of_lt (BitVec.isLt _)]
  · have := leField_append_right (h ++ leBytes 4 (crc32 h).toNat) (List.replicate 8 0) 0 8
    rw [List.length_append, hl, leBytes_length, Nat.add_zero] at this
    rw [this]; decide

/-- A BOOT flit with its check, over a payload of zeros. -/
theorem witness_SparLife_boot : ∃ h : List Byte, h.length = 244 ∧ leField h 0 8 / 2 ^ 22 % 8 = 4 :=
  ⟨leBytes 8 (2 ^ 24) ++ List.replicate 236 0, by rw [List.length_append, leBytes_length, List.length_replicate],
    by rw [leField_append_left (by rw [leBytes_length]), leField_leBytes]; decide⟩

/-! ### Chapter 14 -/

/-- A descriptor of a collective of two members, this one of rank 0: operation, flags, DTYPE and COUNT; SRC and DST in line 5. -/
def colDesc (op flags dtype count : Nat) : List Byte :=
  layout 64 [(0, 1, op), (1, 1, flags), (2, 1, dtype), (6, 2, 9), (8, 1, 2), (12, 4, 7), (16, 8, 0x2900), (24, 8, 0x2A00), (32, 8, 0x2B00), (40, 8, count)]

/-- Collective queue 5, enabled, with one descriptor at the start of line 5, the member table in its second sector, and port 2 to the other
member UP. -/
def colRing (b : List Byte) : State :=
  let s := ((((sliced.wrN COL_Q_BASE.BASE 5 5).wrN COL_Q_TAIL.TAIL 5 1).set1 COL_Q_CTL.ENABLE 5).wrN GLB_ISL_STATE.STATE 141 0).wrN SPR_DIM.Y_SIZE 0 1
  let t := s.wrN SPR_STATUS.LINK 2 3
  { t with glz := { t.glz with data := putBytes (putBytes [] 0x2800 b) 0x2900 (layout 8 [(2, 1, 5), (4, 2, 4), (6, 1, 5)]) } }

/-- What the queue reads: whether the descriptor is well formed, the code of the checks, and whether all else is as an open collective needs. -/
def colChecked (b : List Byte) : Option (Bool × Bool × Option (Code × Bool)) :=
  match (colRing b).qNext (colQ 5) with
  | .cmd bs t =>
    let d := collDesc bs
    some (decide (t.colls.length < 32) && t.qMayStart (colQ 5) ((leField bs 1 1).testBit 0) (t.colls.filter (fun c => c.queue == 5)).length 7, d.ok bs 5,
      match t.readRange collAgent d.table (4 * d.n) with
      | .done 0 table u => match u.readRange collAgent d.list 0 with
        | .done 0 list v => some (v.collCheck 5 5 bs table list, rangeLocal d.table (4 * d.n) && rangeLocal d.list 0 && t.windowOk 5 .r d.table (4 * d.n) &&
            (match v.readRange collAgent d.src d.srcLen with | .done e _ _ => decide (e = 0) | .wait _ => false) && v.early.isEmpty && (v.coll (leField bs 6 2) (leField bs 12 4)).isNone &&
            (membersOf d.n table).all (fun m => decide (m.1 = v.coord) || (v.reachable m.1 && (match v.routePort m.1 with | some p => decide (v.sparLink p ≠ 0) | none => true))))
        | _ => none
      | _ => none)
  | _ => none

theorem witness_CollectiveStart :
    (∀ op ∈ [1, 2], colChecked (colDesc op 0 0 64) = some (true, true, some (0, true))) ∧
    (∀ op ∈ [3, 4, 5, 7], colChecked (colDesc op 0 0xFF (if op = 7 then 1 else 256)) = some (true, true, some (0, true))) ∧
    (colChecked (colDesc 9 0 0 64)).any (fun x => x.1 && !x.2.1) = true ∧ (colChecked (colDesc 2 0 3 64)).any (fun x => x.1 && !x.2.1) = true ∧
    (sliced.str.loader.phase = .idle ∧ (colRing []).island 141 = islActive) := by decide +kernel

/-- A PERMUTE with an empty send list starts as well, and one whose SRC is not on a sector is refused by the checks. -/
theorem witness_CollectiveStart_checks :
    colChecked (colDesc 6 0 0xFF 0) = some (true, true, some (0, true)) ∧
    ((collDesc (colDesc 6 0 0xFF 0)).nlist = 0 ∧ (State.reset.permuteOut [] 0) = some (0, [], State.reset)) ∧
    (colChecked ((colDesc 2 0 0 64).set 24 1)).any (fun x => x.1 && x.2.1 && x.2.2.any (fun y => decide (y.1 = 0x0301))) = true := by decide +kernel

/-- An open collective of queue 5, of rank 0. -/
def coll0 (desc : List Byte) (grants : List Nat) (out : List (Nat × CollMsg)) (units : Nat) : Coll :=
  ⟨5, 0, desc, [(0, 5), (4, 5)], grants, out, [], 0, units, 0⟩

/-- A device with that open collective, at a time. -/
def open0 (c : Coll) (now : Nat) : State := { (colRing []).wrN GLB_TIME.NS 0 now with colls := [c] }

/-- A partial of eight bytes of block b from the other member. -/
def msg0 (kind b : Nat) : CollMsg := ⟨kind, b, 0, List.replicate 8 0⟩

/-- The open reductions: a REDUCE_SCATTER by the ring with two blocks, and an ALL_REDUCE in containers. -/
def scatter0 : Coll := coll0 (colDesc 2 8 0 128) [1] [] 0

theorem witness_CollectiveMembers :
    (let c := coll0 (colDesc 4 0 0xFF 256) [] [(1, msg0 3 0)] 0
     let s := open0 c 0
     s.coll 9 7 = some c ∧ c.group = 9 ∧ c.num = 7 ∧ (∀ x ∈ s.colls, x = c) ∧ c.grants.contains 1 = false ∧ c.out ≠ [] ∧
       (collDesc c.desc).expects 1 (msg0 3 0) = false ∧ (collDesc c.desc).grant 1 ≠ (collDesc c.desc).grant 2) ∧
    ((sliced.rdN COL_TIMEOUT.MS 0 = 0 ∨ sliced.now < 0 + sliced.rdN COL_TIMEOUT.MS 0 * 1000000) ∧
      (let s := (open0 scatter0 1000000).wrN COL_TIMEOUT.MS 0 1
       s.rdN COL_TIMEOUT.MS 0 ≠ 0 ∧ scatter0.last + s.rdN COL_TIMEOUT.MS 0 * 1000000 ≤ s.now)) ∧
    (let d := collDesc scatter0.desc
     let s := open0 scatter0 0
     s.coll 9 7 = some scatter0 ∧ d.op = 2 ∧ d.addl = false ∧ d.expects 1 (msg0 1 0) = true ∧ (msg0 1 0).block = d.rank ∧
       (match s.readRange collAgent (d.src + d.blockAt 0 + 0) 8 with
        | .done c own t => decide (c = 0) && (match collCombine d.dtype (msg0 1 0).data own with
            | .ok v => (match t.writeRange collAgent (d.dst + 0) v with | .done e bs _ => decide (e = 0) && bs.isEmpty | .wait _ => false) | .error _ => false)
        | .wait _ => false) = true) ∧
    (let c := coll0 (colDesc 5 0 0xFF 256) [] [] 0
     let d := collDesc c.desc
     (d.op = 5 ∧ d.addl = false ∧ d.expects 1 (msg0 3 0) = true) ∧
       (match (open0 c 0).writeRange collAgent (d.dst + 0) (msg0 3 0).data with | .done e bs _ => decide (e = 0) && bs.isEmpty | .wait _ => false) = true) ∧
    (let c := coll0 (colDesc 4 0 0xFF 256) [] [] 0
     let s := open0 c 0
     c.out = [] ∧ c.units = (collDesc c.desc).toWrite ∧ c.passed = (collDesc c.desc).toPass ∧ s.rdN COL_Q_HEAD.HEAD 5 = 0 ∧ (s.ring (colQ 5)).done = []) := by
  decide +kernel

/-- A member of rank 0 of three that passes a partial of block 1 on, in ascending rank. -/
theorem witness_CollectiveMembers_travel :
    let c : Coll := ⟨5, 0, (colDesc 2 8 0 256).set 8 3, [(0, 5), (4, 5), (4, 6)], [1], [], [], 0, 0, 0⟩
    let d := collDesc c.desc
    d.n = 3 ∧ d.expects 2 (msg0 1 1) = true ∧ (msg0 1 1).block ≠ d.rank ∧ c.grants.contains ((d.rank + 1) % d.n) = true ∧
      (match (open0 c 0).readRange collAgent (d.src + d.blockAt 1 + 0) 8 with
       | .done e own t => decide (e = 0) && decide (t.colls = [c]) && (match collCombine d.dtype (msg0 1 1).data own with | .ok _ => true | .error _ => false)
       | .wait _ => false) = true := by decide +kernel

theorem witness_CollectiveBlocks :
    (let d := collDesc (colDesc 2 8 0 128)
     2 ≤ d.n ∧ d.n ≤ 64 ∧ 0 < d.extent) ∧
    (let recs : List (List Byte) := [List.replicate 256 0, List.replicate 256 1]
     recs.length = 2 ∧ ∀ x ∈ recs, x.length = 256 * 1) := by decide +kernel

/-! ### Chapter 15 -/

/-- The power manager's island ACTIVE, every sensor trusted, with thermal and power state of one's own. -/
def hub142 (th : Thermal) (p : Power) (now : Nat) : State :=
  { (on 142).wrN GLB_TIME.NS 0 now with therm := th, power := p }

theorem hub142_trusted (th : Thermal) (p : Power) (i : Nat) : (hub142 th p 0).trusted i = true := by
  have h : (hub142 th p 0).regs = [(GLB_ISL_STATE.STATE.key 136, 0), (GLB_ISL_STATE.STATE.key 142, 0)] := by
    simp only [hub142]; decide +kernel
  unfold State.trusted State.on State.rd
  rw [h]
  have e1 : THM_SENSOR.SUSPECT.reg = 1576960 := rfl
  have e2 : THM_SENSOR.SUSPECT.lo = 31 := rfl
  have hk : ∀ j ∈ [136, 142], GLB_ISL_STATE.STATE.key j ≠ THM_SENSOR.SUSPECT.key i := by
    intro j hj e
    have e3 : ∀ j ∈ [136, 142], GLB_ISL_STATE.STATE.key j < 2 ^ 54 := by decide
    have := e3 j hj
    rw [e] at this
    simp only [RegField.key, e1, e2] at this
    omega
  have h1 := hk 136 (by decide)
  have h2 := hk 142 (by decide)
  have g : Tab.get [(GLB_ISL_STATE.STATE.key 136, (0 : Val)), (GLB_ISL_STATE.STATE.key 142, 0)] (THM_SENSOR.SUSPECT.key i) THM_SENSOR.SUSPECT.reset = 0 := by
    unfold Tab.get Tab.find Tab.find Tab.find
    rw [if_neg (by first | exact h1 | exact h1.symm), if_neg (by first | exact h2 | exact h2.symm)]
    rfl
  rw [g]
  rfl

/-- Where every sensor is trusted, a sensor's value is its own. -/
theorem sensorValue_trusted (s : State) (h : ∀ i, s.trusted i = true) (x : Int) (i : Nat) (hi : i < 496) :
    s.sensorValue (List.replicate 496 x) i = (x, false) := by
  have hg : (List.replicate 496 x).getD i 0 = x := by
    rw [List.getD_eq_getElem?_getD, List.getElem?_replicate, if_pos hi]; rfl
  have hf : ∀ l : List Nat, l.filter s.trusted = l := fun l => List.filter_eq_self.2 (fun a _ => h a)
  unfold State.sensorValue
  simp only [hf, h i, hg, if_true]
  rw [if_neg (by omega)]

/-- Ten samples of 0 °C, and a sensor that has risen fast for 39 samples. -/
def rising39 : Thermal := { State.reset.therm with history := List.replicate 10 (List.replicate 496 0), rising := [(0, 39)] }

theorem witness_ThermalControl :
    ((hub142 rising39 State.reset.power 0).island 142 = islActive ∧ rising39.tripPin = false ∧ rising39.sampleAt = none ∧ rising39.soaring = [] ∧
      24 < (1520 : Int) - (rising39.history.getD 9 []).getD 0 0 ∧ 39 ≤ Tab.get rising39.rising 0 0) ∧
    (∀ i, i < 496 → (hub142 rising39 State.reset.power 0).sensorValue (List.replicate 496 1520) i = (1520, false)) ∧
    ((dieLimits (dieKind (dieOf 0))).1 ≤ 1520 ∧ (dieLimits (dieKind (dieOf 80))).2.1 ≤ 1520 ∧ (dieLimits 1).2.2 > 1520 ∧ (dieLimits 0).2.2 > 1520 ∧
      (dieLimits 0).2.2 = 1840 ∧ (dieLimits 1).2.2 = 1680) :=
  ⟨by decide +kernel, fun i hi => sensorValue_trusted _ (hub142_trusted _ _) _ i hi, by decide⟩

/-- The trip's record written, and what a sensor of a die with too few trusted sensors shows. -/
theorem witness_ThermalControl_rest :
    (let s := { hub142 { State.reset.therm with tripPin := true } State.reset.power 0 with jnl := { State.reset.jnl with queue := [], waiting := [] } }
     s.therm.tripPin = true ∧ s.island 136 = islActive ∧ s.jnl.queue = [] ∧ s.jnl.waiting = []) ∧
    ((hub142 State.reset.therm State.reset.power 1000000).island 142 = islActive ∧
      (hub142 State.reset.therm State.reset.power 1000000).power.energyAt + 1000000 ≤ (hub142 State.reset.therm State.reset.power 1000000).now ∧
      (hub142 State.reset.therm State.reset.power 1000000).conf = false ∧
      ((hub142 State.reset.therm { State.reset.power with hiddenMs := 98 } 1000000).set1 SEC_STATUS.CONF 0).conf = true) ∧
    (10 ≤ rising39.history.length ∧ (hub142 rising39 State.reset.power 0).island 142 = islActive) := by decide +kernel

/-- A grant and a revocation of five watts for island 0 on their way, or at the island. -/
def flying0 (grant arrived : Bool) : State :=
  let s := hub142 State.reset.therm { State.reset.power with size := 10, flights := [⟨0, grant, 5, arrived⟩] } 0
  (((s.wrN PWR_ISL.TOKENS 0 5).wrN PWR_TOKENS.HELD 0 (if grant then (if arrived then 0 else 5) else (if arrived then 5 else 0))).wrN PWR_TOKENS.INFLIGHT 0 5).wrN
    PWR_TOKENS.POOL 0 (if grant then (if arrived then 5 else 0) else (if arrived then 0 else 5))

theorem witness_PowerManager_tokens :
    (∀ g ∈ [true, false], ∀ a ∈ [true, false], Claim.Balanced (flying0 g a) ∧ (flying0 g a).rdN PWR_ISL.TOKENS 0 + 5 < 2048) ∧
    (takeMsg (fun x => x.island == 0 && x.grant && !x.arrived) (flying0 true false).power.flights).isSome = true ∧
    (takeMsg (fun x => x.island == 0 && !x.grant && !x.arrived) (flying0 false false).power.flights).isSome = true ∧
    (takeMsg (fun x => x.island == 0 && x.arrived) (flying0 false true).power.flights).isSome = true := by
  unfold Claim.Balanced heldSum; decide +kernel

theorem witness_PowerManager :
    (let s := hub142 State.reset.therm State.reset.power 10000
     s.island 142 = islActive ∧ s.power.interval = none ∧ s.power.ramp = false ∧ s.power.size < 8192 ∧ hasPoint 0 = true ∧
       Tab.get s.power.droop 0 false = false ∧ s.str.sketch.primer = true) ∧
    Tab.get (hub142 State.reset.therm { State.reset.power with droop := [(0, true)] } 0).power.droop 0 false = true ∧
    ({ State.reset with str := { State.reset.str with sketch := { State.reset.str.sketch with primer := false } } } : State).str.sketch.primer = false ∧
    (((State.reset.wrN PWR_CAP.CAP_W 0 2000).capW < State.reset.capW) ∧ State.reset.capW < (State.reset.wrN PWR_CAP.CAP_W 0 4000).capW) ∧
    (((State.reset.wrN PWR_CAP_FAST.FAST_W 0 3700).fastW < State.reset.fastW) ∧ State.reset.fastW < (State.reset.wrN PWR_CAP_FAST.FAST_W 0 4600).fastW) := by
  decide +kernel

/-! ### Chapter 16 -/

/-- The RTP in READY with nothing under way, its security state changed. -/
def rtp (f : Security → Security) : State := (st [(GLB_BOOT_STATUS.STAGE, 0, 5)]).onSec f

/-- A request of n bytes whose first byte is given. -/
def mbxReq (n first : Nat) : MbxRequest := .smbus (leBytes n first)

theorem witness_MailboxCommands :
    ((rtp id).rtpUp = true ∧ ((rtp id).set1 SEC_MBX_STATUS.BUSY 0).rtpUp = true ∧ ((rtp id).set1 SEC_MBX_STATUS.BUSY 0).on SEC_MBX_STATUS.BUSY 0 = true ∧
      (rtp id).on SEC_MBX_STATUS.BUSY 0 = false) ∧
    (((rtp id).set1 SEC_STATUS.EXITING 0).on SEC_STATUS.EXITING 0 = true ∧ (rtp (fun x => { x with entering := some (0, ⟨1, 2, []⟩) })).sec.entering.isSome = true ∧
      ((rtp id).set1 JNL_STATUS.COMPACTING 0).on JNL_STATUS.COMPACTING 0 = true) ∧
    ((rtp id).conf = false ∧ ((rtp id).set1 SEC_STATUS.CONF 0).conf = true ∧ (rtp id).quiesced = true ∧
      ((rtp id).wrN DMA_CH_STATUS.STATE 3 1).quiesced = false) ∧
    ((rtp id).jnl.queue.length < 256 ∧ (rtp id).jnl.waiting = []) ∧ RefusedInConf 0x18 ∧ (mbxGo true 0x07).isNone = true ∧
    ((rtp (fun x => { x with run := some ⟨0, [5]⟩ })).sec.run = some ⟨0, [5]⟩ ∧ (rtp (fun x => { x with run := some ⟨0, [5]⟩ })).sec.waiting = []) := by
  unfold RefusedInConf; decide +kernel

theorem witness_MailboxCommands_requests :
    (∀ n first, Accepting (rtp id) (mbxReq n first) ((leBytes n first).take 4096)) ∧
    (64 ≤ ((leBytes 64 3).take 4096).length ∧ byteAt ((leBytes 64 3).take 4096) 0 ≤ 3 ∧ 3 < byteAt ((leBytes 64 4).take 4096) 0 ∧
      ((leBytes 8 3).take 4096).length < 64 ∧ 40 ≤ ((leBytes 64 3).take 4096).length ∧ byteAt ((leBytes 64 2).take 4096) 0 ≤ 2) ∧
    (let b := (leBytes 65 (2 ^ 32)).take 4096
     1 ≤ leField b 4 4 ∧ leField b 4 4 ≤ 4032 ∧ 64 + leField b 4 4 ≤ b.length ∧ leField b 0 4 + leField b 4 4 ≤ slotSize) ∧
    leField ((leBytes 65 0).take 4096) 4 4 = 0 := by
  refine ⟨fun n first => ?_, by decide +kernel⟩
  unfold Accepting mbxReq
  exact ⟨by decide +kernel, by decide +kernel, by decide +kernel, by decide +kernel, by decide +kernel, by decide +kernel, rfl⟩

theorem witness_Attestation :
    (rtp id).spdmUp = true ∧ (∃ n, n < 4 ∧ (rtp id).session n = none) ∧
    (let s := rtp (fun x => { x with sessions := (List.range 4).map (fun n => (n, some ⟨decide (n = 1), 3⟩)) })
     s.spdmUp = true ∧ (∀ n, n < 4 → (s.session n).isSome = true) ∧ s.session 0 = some ⟨false, 3⟩ ∧ s.session 1 = some ⟨true, 3⟩) := by decide +kernel

/-- The RTP with a secure session 1. -/
def tenantIn (f : Security → Security) : State := (rtp f).onSec (fun x => { x with sessions := [(1, some ⟨true, 0⟩)] })

theorem witness_ConfidentialMode :
    ((tenantIn id).spdmUp = true ∧ (tenantIn id).secure 1 = true ∧ (tenantIn id).on SEC_STATUS.EXITING 0 = false ∧ (tenantIn id).sec.entering = none ∧
      (tenantIn id).conf = false ∧ ((tenantIn id).set1 SEC_STATUS.CONF 0).conf = true ∧ (tenantIn id).on SEC_STATUS.TAMPER_LATCH 0 = false ∧
      ((tenantIn id).set1 SEC_STATUS.TAMPER_LATCH 0).on SEC_STATUS.TAMPER_LATCH 0 = true ∧ (tenantIn id).quiesced = true ∧
      ((tenantIn id).wrN DMA_CH_STATUS.STATE 3 1).quiesced = false ∧ confReq [] = none ∧ (confReq (leBytes 65 (1 + 2 ^ 256))).isSome = true) ∧
    ((tenantIn id).sec.tdisp = .unlocked ∧ (tenantIn (fun x => { x with tdisp := .locked })).sec.tdisp = .locked ∧
      (tenantIn (fun x => { x with tdisp := .run })).sec.tdisp = .run) ∧
    (let s := (rtp (fun x => { x with entering := some (1, ⟨1, 2, [3]⟩) }))
     let t := (List.range 136).foldl (fun s i => s.wrN GLB_ISL_STATE.STATE i 0) s
     t.sec.entering = some (1, ⟨1, 2, [3]⟩) ∧ t.canZero = true ∧ t.stage = 5 ∧ t.sec.slots.length = 8) ∧
    ((rtp (fun x => { x with exiting := .drain })).sec.exiting = .drain ∧ (rtp (fun x => { x with exiting := .drain })).allDrained = true) ∧
    (let s := (List.range 136).foldl (fun s i => s.wrN GLB_ISL_STATE.STATE i 0) (rtp (fun x => { x with exiting := .zero }))
     s.sec.exiting = .zero ∧ s.canZero = true ∧ s.boot.resetDue = none ∧ s.sec.slots.length = 8) ∧
    (let s : State := { State.reset with boot := { State.reset.boot with powered := false } }
     s.boot.powered = false ∧ Tab.get s.sec.episodes 2 false = false ∧ s.rdN SEC_TAMPER_HEAD.NEXT 0 < 32 ∧
       Tab.get (s.onSec (fun x => { x with episodes := [(2, true)] })).sec.episodes 2 false = true) := by decide +kernel


/-! ### Chapter 17 -/

/-- A canvas with a gesso row's retirement under way: group 0, bank 3, page 7. -/
def retiring0 : State := { sliced with gso := { sliced.gso with retiring := [(0, some (0, 3, 7))] } }

/-- That canvas with line 5 held, so that the scrubber has lines to skip. -/
def scrub0 : State := sliced.set1 CNV_ECC_CTL.SCRUB_EN 0

theorem witness_ScrubAndRetire :
    ((sliced.clr CNV_ECC_CTL.SCRUB_EN 0).on CNV_ECC_CTL.SCRUB_EN 0 = false ∧ scrub0.on CNV_ECC_CTL.SCRUB_EN 0 = true) ∧
    (let s := { scrub0 with gso := { scrub0.gso with scrubAt := [(0, 0x1800000)] } }
     s.scrubNext 0 s.scrubFuel (Tab.get s.gso.scrubAt 0 0) = none) ∧
    (scrub0.scrubNext 0 scrub0.scrubFuel (Tab.get scrub0.gso.scrubAt 0 0) = some 0 ∧ scrub0.refreshing (lineKey 0 0) = false ∧
      Tab.get scrub0.gso.badMeta (lineKey 0 0) false = false) ∧
    ((scrub0.rowMeta (lineKey 0 0)).zt = false ∨ (scrub0.rowMeta (lineKey 0 0)).zt = true) ∧
    ((sliced.clr CNV_ECC_CTL.GLZ_SCRUB_EN 0).on CNV_ECC_CTL.GLZ_SCRUB_EN 0 = false ∧ (sliced.set1 CNV_ECC_CTL.GLZ_SCRUB_EN 0).on CNV_ECC_CTL.GLZ_SCRUB_EN 0 = true) := by
  decide +kernel

theorem witness_ScrubAndRetire_pages :
    (sliced.canvasUp 0 = true ∧ sliced.woQueue CNV_ECC_RETIRE.OP 0 = [] ∧ sliced.on CNV_ECC_STATUS.RETIRE_BUSY 0 = false ∧
      (sliced.set1 CNV_ECC_STATUS.RETIRE_BUSY 0).on CNV_ECC_STATUS.RETIRE_BUSY 0 = true) ∧
    (sliced.retireCheck 0 0 3 767 = 0 ∧ sliced.retireCheck 0 0 3 768 = 0x0119) ∧
    (Tab.get retiring0.gso.retiring 0 none = some (0, 3, 7) ∧ retiring0.sparesUsed 0 0 3 < 2 ∧
      (∀ l ∈ retiring0.pageLines 0 0 3 7, retiring0.lineHeld (lineKey 0 l) = false) ∧ retiring0.island (gessoIsland 0 0) = islActive) ∧
    ((let new := sliced.rdN CNV_ECC_BANK_RETIRE.PENDING 0 ||| 0xFF
      24 ≤ ((banksOf (sliced.rdN CNV_GSO_BANKS.WORKING 0)).filter (fun b => !new.testBit b)).length) ∧
     (let new := sliced.rdN CNV_ECC_BANK_RETIRE.PENDING 0 ||| 0x1FF
      ((banksOf (sliced.rdN CNV_GSO_BANKS.WORKING 0)).filter (fun b => !new.testBit b)).length < 24)) := by
  decide +kernel

/-- A RECV on stream 7 of canvas 0 whose sender has gone quiet. -/
def streamed0 : State :=
  (streaming (movStroke 2 0) StreamState.empty).wrN GLB_QUAD_PART.ASSIGNED 0 1

theorem witness_FaultClearAndStalls :
    ((State.reset.classBusy 5 false = false ∧ running.classBusy 5 false = true) ∧
      (State.reset.on GLB_STALL.VALID 0 = false ∧ (State.reset.set1 GLB_STALL.VALID 0).on GLB_STALL.VALID 0 = true)) ∧
    (streamed0.rdN CNV_STM_STREAM.STATE 7 = 1 ∧ streamed0.recvs 0 7 ≠ [] ∧ streamed0.panelPart (streamed0.rdN CNV_STM_STREAM.RECEIVER 7) = some 0) ∧
    (State.reset.rdN CNV_STM_STREAM.STATE 7 ≠ 1 ∧ ((State.reset.wrN CNV_STM_STREAM.STATE 7 1).sendWaits 0 7 = false ∧ (State.reset.wrN CNV_STM_STREAM.STATE 7 1).recvs 0 7 = [])) := by
  decide +kernel

theorem witness_FaultClearAndStalls_links :
    (let s := (tethered 10000000).wrN TTH_CREDIT.AVAIL (tetherVc 2 1) 0
     s.tetherUp 1 = true ∧ s.rdN (linkCredit false 2 1).1 (linkCredit false 2 1).2 = 0 ∧ Tab.get (s.linkEnd 2).lastCredit 1 0 + 10000000 ≤ s.now ∧
       Tab.get (s.linkEnd 2).stalled 1 none = none) ∧
    (let s := (sparAt 3 20000000 keyed).wrN SPR_CREDIT.AVAIL 17 0
     let again := s.setEnd 18 { LinkEnd.idle with stalled := [(1, some 10000000)] }
     let late := s.setEnd 18 { LinkEnd.idle with stalled := [(1, some 9999999)] }
     s.sparLive 2 = true ∧ s.rdN (linkCredit true 2 1).1 (linkCredit true 2 1).2 = 0 ∧ Tab.get (s.linkEnd 18).lastCredit 1 0 + 10000000 ≤ s.now ∧
       Tab.get (again.linkEnd 18).stalled 1 none = some 10000000 ∧ again.now ≤ 10000000 + 10000000 ∧
       Tab.get (late.linkEnd 18).stalled 1 none = some 9999999 ∧ 9999999 + 10000000 < late.now) := by decide +kernel

theorem witness_FaultClearAndStalls_coats :
    (let s := coated coat0 10000000
     s.coat 5 = some coat0 ∧ coat0.unvoted = true ∧ coat0.start + 10000000 ≤ s.now ∧ coat0.wide = false ∧ (coated coat0 9999999).now < coat0.start + 10000000) ∧
    (let c := { coat0 with wide := true, isCoord := true }
     (coated c 10000000).coat 5 = some c ∧ c.unvoted = true ∧ c.wide = true ∧ c.isCoord = true) ∧
    ({ coat0 with votedAt := some 1 }.unvoted = false ∧ { coat0 with stage := .inDoubt }.stage = .inDoubt ∧ coat0.stage ≠ .inDoubt) := by decide +kernel

theorem witness_FaultClearAndStalls_islands :
    (let s := { State.reset.wrN GLB_ISL_STATE.STATE 35 islClosing with isl := { State.reset.isl with work := [(35, [⟨1, none, false⟩, ⟨2, some 64, true⟩])] } }
     s.island 35 = islClosing ∧
       (Tab.get s.isl.work 35 []).filter (fun w => [3].contains w.id) = [] ∧ (Tab.get s.isl.work 35 []).filter (fun w => [1].contains w.id) = [⟨1, none, false⟩] ∧
       (Tab.get s.isl.work 35 []).filter (fun w => [1, 2].contains w.id) ≠ []) ∧
    (let f : FillSlot := ⟨[⟨reqOf 0x2900 4, .read⟩, ⟨reqOf 0x2900 4, .prefetch⟩], false, none, false⟩
     ((State.reset.setSlot 6 (some f)).slot (lineKey 0 6)) = some f ∧ (⟨reqOf 0x2900 4, .read⟩ : MemJob).act ≠ .prefetch) := by decide +kernel

/-! ### Chapter 18 -/

/-- A device that is READY, with its hub and line 5 of canvas 0's gesso in the glaze. -/
def readied : State := sliced.wrN GLB_BOOT_STATUS.STAGE 0 5

theorem witness_HostPort_bars :
    ((st [(SEC_STATUS.CONF, 0, 1)]).conf = true ∧ (st [(SEC_STATUS.CONF, 0, 1)]).hostBarred .plain = true ∧
      readied.conf = false ∧ readied.hostBarred .host = false) ∧
    (sectorsOf 0xC00000000 4 = [(0xC00000000, 4)] ∧ readied.bar2Backed 0xC00000000 = none ∧ sectorsOf 0x2900 4 = [(0x2900, 4)] ∧
      readied.bar2Backed 0x2900 = some 0x2900) ∧
    (match readied.readRange ⟨.host, 1, none, false⟩ 0x2900 4 with | .done c _ _ => c == 0 | _ => false) = true ∧
    (match readied.writeRange ⟨.host, 0, none, false⟩ 0x2900 [1, 2, 3, 4] with | .done c _ _ => c == 0 | _ => false) = true := by
  decide +kernel

/-- A host-window read of eight bytes, sent at time 0. -/
def hread : HostRead := ⟨.host, 1, 0x4000000000, 8, 0⟩

/-- That read outstanding at a time. -/
def hreading (now : Nat) : State :=
  { State.reset.wrN GLB_TIME.NS 0 now with host := { State.reset.host with reads := [(3, some hread)] } }

theorem witness_HostPort_window :
    Tab.get (hreading 0).host.reads 3 none = some hread ∧ (hreading 0).hostBarred .host = false ∧ (List.replicate 8 (0 : Byte)).length = hread.len ∧
    (hreading 999999).now < hread.sent + 1000000 ∧ hread.sent + 1000000 ≤ (hreading 1000000).now := by decide +kernel

/-- Client queue 5, its tail word in line 5 and its mailbox 3, with a doorbell whose tail word is due. -/
def belled (dpa8 pending : Nat) : State :=
  let s := ((readied.wrN QUE_TAILPTR.TAIL_DPA 5 dpa8).wrN QUE_CTL.MBX 5 3).wrN QUE_CTL.PENDING 5 pending
  { s with host := { s.host with tails := [(5, [0x25])] } }

theorem witness_HostPort_bells :
    (readied.bellsHeld = false ∧ (loading .verify).bellsHeld = true ∧ readied.on QUE_CTL.ENABLE 5 = false ∧
      (readied.wrN QUE_CTL.ENABLE 5 1).on QUE_CTL.ENABLE 5 = true ∧ readied.on QUE_STATUS.DB_DISABLED 0 = false ∧ readied.on QUE_STATUS.TAILWR_ERR 0 = false) ∧
    Tab.get (belled 0x520 0).host.tails 5 [] = [0x25] ∧
    (match targetOf (8 * (belled 0x520 0).rdN QUE_TAILPTR.TAIL_DPA 5) with | .gesso _ _ => true | _ => false) = true ∧
    (match targetOf (8 * (belled 0x800000000 0).rdN QUE_TAILPTR.TAIL_DPA 5) with | .gesso _ _ => false | _ => true) = true := by decide +kernel

/-- That state with the doorbell taken off the queue. -/
def belled0 (pending : Nat) : State := { belled 0x520 pending with host := { (belled 0x520 pending).host with tails := [] } }

theorem witness_HostPort_tails :
    (match (belled0 0).writeRange ⟨.host, 0x40005, none, false⟩ 0x2900 (leBytes 8 0x25) with
      | .done c _ t => c == 0 && !t.on QUE_CTL.PENDING 5 && decide (t.island (tetherIsland (t.rdN QUE_CTL.MBX 5 % 4096 / 1024)) = islActive) &&
          decide ((t.box (t.rdN QUE_CTL.MBX 5 % 4096)).words.length < 16)
      | _ => false) = true ∧
    (match (belled0 1).writeRange ⟨.host, 0x40005, none, false⟩ 0x2900 (leBytes 8 0x25) with
      | .done c _ t => c == 0 && t.on QUE_CTL.PENDING 5
      | _ => false) = true := by decide +kernel

/-- The worked doorbell of chapter 18: queue 0x025 with tail 0x00005 wakes with the word 0x00005025. -/
theorem test_wake_word : wakeWord 5 0x25 = 0x00005025 := by decide +kernel

/-- A device whose power bit 10 is enabled and forced, its message to be sent to an address, at a time. -/
def interrupting (now : Nat) (f : HostPort → HostPort) : State :=
  let s := st [(GLB_INT_CTL.MASTER, 0, 1), (GLB_INT_ENABLE.ENABLE, 0, 0x400), (GLB_INT_FORCE.FORCE, 0, 0x400), (GLB_MSIX_CTRL.MASK, 0, 0),
    (GLB_MSIX_ADDR_LO.ADDR, 0, 5), (GLB_INT_CTL.HOLDOFF_US, 0, 2), (GLB_TIME.NS, 0, now)]
  { s with host := f { s.host with msix := true, msixMask := false } }

theorem condition_host (s : State) (h : HostPort) : ({ s with host := h } : State).intCondition = s.intCondition := rfl

theorem witness_HostPort_condition : (interrupting 0 id).intCondition = true ∧ (interrupting 2000 id).intCondition = true ∧ State.reset.intCondition = false := by
  decide +kernel

theorem witness_HostPort_interrupt :
    (let s := interrupting 0 id
     s.host.condition = false ∧ s.on GLB_INT_CTL.OUTSTANDING 0 = false ∧ s.on GLB_MSIX_PBA.PENDING 0 = false ∧
       s.holdoffOver = true ∧ s.host.msix = true ∧ s.host.msixMask = false ∧ s.on GLB_MSIX_CTRL.MASK 0 = false) ∧
    (interrupting 1999 (fun h => { h with lastMsg := some 0 })).holdoffOver = false ∧
    ((State.reset.set1 GLB_INT_CTL.OUTSTANDING 0).on GLB_INT_CTL.OUTSTANDING 0 = true ∧ State.reset.host.lastEoi = none) := by decide +kernel

theorem witness_HostPort_eoi :
    (let s := interrupting 2000 (fun h => { h with lastEoi := some 0 })
     s.host.lastEoi = some 0 ∧ s.holdoffOver = true ∧ 0 + 2000 ≤ s.now) ∧
    (interrupting 1999 (fun h => { h with lastEoi := some 0 })).now < 0 + 2000 ∧
    (interrupting 2000 (fun h => { h with lastEoi := some 0, lastMsg := some 1 })).holdoffOver = false ∧
    (let s := (interrupting 2000 (fun h => { h with lastEoi := some 0 })).wrN GLB_INT_CTL.MASTER 0 0
     s.intCondition = false ∧ 0 + 2000 ≤ s.now) ∧
    (State.reset.set1 GLB_MSIX_CTRL.MASK 0).on GLB_MSIX_CTRL.MASK 0 = true ∧
    (State.reset.wrN CNV_PNL_STATUS.FAULT 3 1).rd CNV_PNL_STATUS.FAULT (256 * 0 + 3) ≠ 0 := by decide +kernel

/-! ### Chapter 19 -/

/-- A device at a stage of bring-up, powered, the islands of the RTP and the hub ACTIVE. -/
def booting (stage : Nat) : State :=
  let s := st [(GLB_BOOT_STATUS.STAGE, 0, stage), (GLB_ISL_STATE.STATE, 136, 0), (GLB_ISL_STATE.STATE, 137, 0), (GLB_ISL_STATE.STATE, 138, 0),
    (GLB_ISL_STATE.STATE, 142, 0), (GLB_ISL_STATE.STATE, 143, 0)]
  { s with boot := { s.boot with powered := true, perstN := true } }

/-- That device without power. -/
def unpowered : State := { booting 0 with boot := { (booting 0).boot with powered := false, perstN := false } }

theorem witness_ResetDomains :
    (Tab.sorted unpowered.regs = true ∧ unpowered.boot.powered = false ∧ unpowered.boot.perstN = false) ∧
    (Tab.sorted (booting 5).regs = true ∧ (booting 5).boot.powered = true ∧ (booting 5).boot.perstN = true ∧ 2 ≤ (booting 5).stage ∧
      (booting 5).rtpUp = true ∧ (booting 5).conf = false ∧ (booting 5).on SEC_STATUS.EXITING 0 = false ∧
      (booting 5).on GLB_BOOT_STATUS.SCRUB_PENDING 0 = false ∧ (booting 5).woQueue GLB_RESET.OP 0 = [] ∧ (booting 5).boot.resetDue = none) ∧
    (let s := (booting 5).set1 SEC_STATUS.CONF 0
     Tab.sorted s.regs = true ∧ s.rtpUp = true ∧ s.conf = true ∧ s.on SEC_STATUS.EXITING 0 = false) ∧
    ((booting 5).island (islandOf 0 33) ≠ islFused ∧ (match targetOf 0x2900 with | .gesso 0 _ => true | _ => false) = true) := by decide +kernel

theorem witness_BringUp_first :
    ((booting 0).stage = 0 ∧ (booting 0).boot.powered = true ∧ (booting 0).island 136 = islActive ∧ (booting 0).boot.perstN = true) ∧
    ((booting 1).stage ≠ 0 ∧ unpowered.boot.powered = false ∧ ((booting 0).wrN GLB_ISL_STATE.STATE 136 3).island 136 ≠ islActive) ∧
    ((booting 1).stage = 1 ∧ (∀ i ∈ [137, 138, 142, 143], (booting 1).island i = islActive)) ∧ (booting 0).stage ≠ 1 := by decide +kernel

/-- A THERMAL_TRIP record with a SEQ. -/
def trip (seq : Nat) : JRecord := ⟨0x10, 4, seq, 0, 1, List.replicate 40 1⟩

/-- A sketchbook with a HEADER, a trip and other slots. -/
def book (rs : List (Option JRecord)) (q : List JEntry) : State :=
  let s := booting 5
  { s with jnl := { s.jnl with slots := some ((booting 5).header 3) :: rs, queue := q } }

theorem witness_BringUp_trip :
    (book [some (trip 9)] []).openImage.openTrips = [trip 9] ∧ (book [] []).openImage.openTrips = [] ∧ ((booting 5).header 3).type = 1 := by decide +kernel

/-- Every island at a state, at a stage. -/
def islands (stage state : Nat) : State := st ((GLB_BOOT_STATUS.STAGE, 0, stage) :: (List.range 144).map (fun i => (GLB_ISL_STATE.STATE, i, state)))

theorem witness_BringUp_canvases :
    (islands 3 0).stage = 3 ∧ (∀ i < 144, (islands 3 0).island i ≠ islWaking) ∧
    ((islands 3 0).wrN GLB_ISL_STATE.STATE 7 3).island 7 = islWaking := by decide +kernel

theorem witness_BringUp_scrub :
    (let s := ((((((((islands 4 0).wrN TTH_STATUS.WIDTH_UP 1 3).wrN TTH_STATUS.WIDTH_DN 1 3).wrN TTH_STATUS.WIDTH_UP 0 3).wrN
      TTH_STATUS.WIDTH_DN 0 3).wrN TTH_STATUS.WIDTH_UP 2 3).wrN TTH_STATUS.WIDTH_DN 2 3).wrN TTH_STATUS.WIDTH_UP 3 3).wrN TTH_STATUS.WIDTH_DN 3 3
     s.stage = 4 ∧ s.listed CNV_ECC_BANK_RETIRE.PENDING = [] ∧ s.candidates = [0, 1, 2, 3] ∧
       (∀ c ∈ s.candidates, ∀ l < 26, 22 ≤ l → s.island (islandOf c l) ≠ islWaking)) := by decide +kernel

theorem witness_SketchbookWrites :
    ((book [] [⟨trip 9, 0, none⟩]).jnlUp = true ∧ (book [] [⟨trip 9, 0, none⟩]).jnl.queue = [⟨trip 9, 0, none⟩] ∧ stateType (trip 9).type = true) ∧
    ((book [] [⟨{ trip 9 with type := 0x50 }, 2, none⟩]).jnl.queue = [⟨{ trip 9 with type := 0x50 }, 2, none⟩] ∧ stateType 0x50 = false) ∧
    (let s := (book [] [⟨trip 9, 3, some 100⟩]).wrN GLB_TIME.NS 0 100
     s.jnlUp = true ∧ s.jnl.queue = [⟨trip 9, 3, some 100⟩] ∧ 100 ≤ s.now ∧ (s.wrN GLB_TIME.NS 0 99).now < 100) ∧
    ((book [] []).jnl.compact = none ∧
     (let s := { book [some (trip 9), some (trip 10)] [] with jnl := { (book [some (trip 9), some (trip 10)] []).jnl with compact := some 2 } }
      s.jnl.compact = some 2 ∧ s.rtpUp = true ∧ s.rdN JNL_FILL.HALF 0 ≤ 1 ∧ some (trip 10) ∈ s.jnl.slots.drop 2 ∧ some (trip 9) ∈ s.jnl.slots.take 2 ∧
        (trip 9).isState ((s.jnl.slots.take 2).filterMap id) = true)) ∧
    (let s := (book [some (trip 9)] []).set1 JNL_THERMAL_RECORD.PRESENT 0
     s.rtpUp = true ∧ s.on JNL_THERMAL_RECORD.PRESENT 0 = true ∧ s.openTrips = [trip 9] ∧ (booting 5).on JNL_THERMAL_RECORD.PRESENT 0 = false) := by
  decide +kernel

theorem witness_SketchbookWrites_compaction : ∃ l : List (Option JRecord), 98304 ≤ l.length + 1 ∧ l.length < 131072 :=
  ⟨List.replicate 98303 none, by rw [List.length_replicate], by rw [List.length_replicate]; decide⟩

/-! ### Chapter 20 and the whole device -/

/-- A powered device with chosen sideband state, at a time. -/
def side (a b : Bool) (x : Sideband → Sideband) (now : Nat) : State :=
  let s := ((booting 5).flag SBD_STATUS.PWDIS_A 0 a).flag SBD_STATUS.PWDIS_B 0 b
  { s.wrN GLB_TIME.NS 0 now with sbd := x s.sbd }

theorem witness_SidebandInputs_channels :
    ((side false false id 0).watched = true ∧ (side true false id 0).on (pwdisBit false) 0 = true ∧ (side true false id 0).on (pwdisBit true) 0 = false ∧
      ((booting 5).set1 SEC_STATUS.CONF 0).conf = true) ∧
    (let s := side true false (fun x => { x with apart := some (5, true) }) 9999004
     s.watched = true ∧ s.on (pwdisBit true) 0 = false ∧ s.on (pwdisBit false) 0 = true ∧ s.sbd.apart = some (5, true) ∧ (s.now - 5) / 1000 = 9998 ∧
       (side true false id 10000005).now - 5 = 10000000) ∧
    (let s := side true true id 0
     s.on (pwdisBit false) 0 = true ∧ s.on (pwdisBit true) 0 = true) ∧
    (let s := side true false (fun x => { x with apart := some (5, false) }) 0
     s.on (pwdisBit false) 0 = true ∧ s.on (pwdisBit true) 0 = false ∧ s.sbd.apart = some (5, false)) := by decide +kernel

theorem witness_SidebandInputs_restart :
    (let s := side true false (fun x => { x with apart := some (5, true), latched := false }) 10000005
     s.watched = true ∧ s.sbd.apart = some (5, true) ∧ s.sbd.latched = false ∧ 5 + 10000000 ≤ s.now ∧ (side true false id 10000004).now < 5 + 10000000) ∧
    (let s := (side false false (fun x => { x with clear := some 5 }) 100000005).set1 SBD_STATUS.STOPPED 0
     s.watched = true ∧ s.bothClear = true ∧ s.on SBD_STATUS.STOPPED 0 = true ∧ s.on SBD_STATUS.RESTART_OK 0 = false ∧ s.on SBD_STATUS.DISCREPANCY 0 = false ∧
       (s.set1 SBD_STATUS.DISCREPANCY 0).on SBD_STATUS.DISCREPANCY 0 = true) ∧
    (side false false (fun x => { x with clear := some 5 }) 100000004).bothClear = false := by decide +kernel

theorem witness_SidebandInputs_lamps :
    (let s := (booting 5).wrN LMP_CTL.DUTY 1 11
     s.lampsUp = true ∧ 11 ≤ s.rdN LMP_CTL.DUTY 1) ∧
    (let s := ((booting 5).wrN LMP_CTL.DUTY 1 10).wrN GLB_TIME.NS 0 4000000000
     s.lampsUp = true ∧ s.rdN LMP_CTL.DUTY 1 ≤ 10 ∧ s.on LMP_CTL.QUIET 1 = false ∧ Tab.get s.sbd.flashAt 1 0 + 4000000000 ≤ s.now ∧
       (s.set1 LMP_CTL.QUIET 1).on LMP_CTL.QUIET 1 = true ∧ (s.wrN GLB_TIME.NS 0 3999999999).now < Tab.get s.sbd.flashAt 1 0 + 4000000000) ∧
    (let s := { booting 5 with sec := { (booting 5).sec with jtagOpen := true } }
     s.boot.powered = true ∧ s.sec.jtagOpen = true ∧ s.conf = false ∧ unpowered.boot.powered = false) := by decide +kernel

theorem witness_StepRunsFront :
    ({ State.reset with pending := [.eoi, .flr] } : State).pending = .eoi :: [.flr] ∧ State.reset.pending = [] := by decide +kernel

/-- A register write in front of an empty device is carried out by a step, in a tidy state. -/
def writing : State := (on 138).withCommand (.registerWrite .host 0x104 5 [])

theorem witness_StepKeepsTidy : writing.Tidy ∧ (match step writing with | .next t => t.rdN GLB_INT_ENABLE.ENABLE 0 == 5 | _ => false) = true :=
  ⟨⟨by decide +kernel, by decide +kernel⟩, by decide +kernel⟩

/-- Terms in the order of the tests: 3, −5 · 2^−2, NaN and an infinity. -/
def terms : List Machine.Num := [.fin false 3 0, .fin true 5 (-2), .nan, .inf true]

theorem witness_ExactSums :
    terms.Perm [.nan, .fin true 5 (-2), .fin false 3 0, .inf true] ∧
    (-(2 ^ 79) ≤ gridSum 0xFF terms ∧ gridSum 0xFF terms < 2 ^ 79) ∧
    (Num.nan ∈ terms ∧ Num.inf true ∈ terms) ∧ (Exact.zero 3).g = (Exact.zero 3).g ∧
    (terms.zip terms).Perm ((terms.zip terms).drop 1 ++ (terms.zip terms).take 1) := by decide +kernel

/-! ### Well-formed commands: for each check an operand just outside its range, and one at its end -/

/-- Commands with one operand outside its range are ill-formed. -/
theorem test_ill_formed_0 :
    (Instr.registerWrite .host 67108864 0 []).wf = false ∧
    (Instr.sleep 144).wf = false ∧
    (Instr.wakeChainEnd 4).wf = false ∧
    (Instr.gatePacket 0 0 8 none false).wf = false ∧
    (Instr.strokeFetchDone 1024 0 false).wf = false ∧
    (Instr.strokeFetchDone 0 8 false).wf = false ∧
    (Instr.finVecSqrt 0 65 0 0).wf = false ∧
    (Instr.finVecSqrt 0 0 0 16).wf = false ∧
    (Instr.launch 0 4096).wf = false ∧
    (Instr.aluAdd ⟨4, 0, 0⟩ 0 0 0).wf = false ∧
    (Instr.aluAdd ⟨0, 16, 0⟩ 0 0 0).wf = false ∧
    (Instr.aluAdd ⟨0, 0, 32⟩ 0 0 0).wf = false := by decide +kernel

/-- Commands with one operand outside its range are ill-formed. -/
theorem test_ill_formed_1 :
    (Instr.aluAdd ⟨0, 0, 0⟩ 64 0 0).wf = false ∧
    (Instr.threadSwitch 0 16).wf = false ∧
    (Instr.mailboxPost 4096 0).wf = false ∧
    (Instr.fillDelivery 0 33554432 []).wf = false ∧
    (Instr.sliceRead ⟨.host, 0, 1099511627776, 1, none, false, 0⟩ []).wf = false ∧
    (Instr.sliceRead ⟨.host, 0, 0, 0, none, false, 0⟩ []).wf = false ∧
    (Instr.roFillDone 0 3 0).wf = false ∧
    (Instr.tackRangeWrite 0 64 0).wf = false ∧
    (Instr.gessoRefresh 0 1024).wf = false ∧
    (Instr.finStepWrite .host 256 0).wf = false ∧
    (Instr.coatStart 257).wf = false ∧
    (Instr.prepare 65536 0).wf = false := by decide +kernel

/-- Commands with one operand outside its range are ill-formed. -/
theorem test_ill_formed_2 :
    (Instr.lockGrant 1024).wf = false ∧
    (Instr.dmaCopy 320).wf = false ∧
    (Instr.burstIssue 5).wf = false ∧
    (Instr.tetherData 0 2 none none).wf = false ∧
    (Instr.sparData 8 (List.replicate 256 0) ⟨0, 0, false⟩).wf = false ∧
    (Instr.sparData 0 (List.replicate 255 0) ⟨0, 0, false⟩).wf = false ∧
    (Instr.sparTrainingDone 0 65536 0).wf = false ∧
    (Instr.transitForward 9 0 ⟨1, 0, 0, 0, 0, 0, 0, 0, 0, 0, 0, 0, []⟩).wf = false ∧
    (Instr.phasePoWrite 8 0).wf = false ∧
    (Instr.phasePoWrite 0 8).wf = false ∧
    (Instr.sensorSample (List.replicate 495 0)).wf = false ∧
    (Instr.suspectClear 496 false).wf = false := by decide +kernel

/-- Commands with one operand outside its range are ill-formed. -/
theorem test_ill_formed_3 :
    (Instr.glazeScrubOp 0 0 8 [] false).wf = false ∧
    (Instr.retirePage 0 4 0 0 0).wf = false ∧
    (Instr.retirePage 0 0 8 0 0).wf = false ∧
    (Instr.retirePage 0 0 0 32 0).wf = false ∧
    (Instr.retirePage 0 0 0 0 1024).wf = false ∧
    (Instr.bankRetireRequest 0 32 0).wf = false ∧
    (Instr.doorbellTailWritten 4096).wf = false ∧
    (Instr.lampCheck 2 false).wf = false ∧
    (Instr.secBadCmd 256 (.host 0)).wf = false := by decide +kernel

/-- The same commands with that operand at the end of its range are well-formed. -/
theorem test_well_formed_0 :
    (Instr.registerWrite .host 67108863 0 []).wf = true ∧
    (Instr.sleep 143).wf = true ∧
    (Instr.wakeChainEnd 3).wf = true ∧
    (Instr.gatePacket 0 0 7 none false).wf = true ∧
    (Instr.strokeFetchDone 1023 0 false).wf = true ∧
    (Instr.strokeFetchDone 0 7 false).wf = true ∧
    (Instr.finVecSqrt 0 64 0 0).wf = true ∧
    (Instr.finVecSqrt 0 0 0 15).wf = true ∧
    (Instr.launch 0 4095).wf = true ∧
    (Instr.aluAdd ⟨3, 15, 31⟩ 0 0 0).wf = true ∧
    (Instr.aluAdd ⟨0, 0, 0⟩ 63 0 0).wf = true ∧
    (Instr.threadSwitch 0 15).wf = true := by decide +kernel

/-- The same commands with that operand at the end of its range are well-formed. -/
theorem test_well_formed_1 :
    (Instr.mailboxPost 4095 0).wf = true ∧
    (Instr.fillDelivery 0 33554431 []).wf = true ∧
    (Instr.sliceRead ⟨.host, 0, 1099511627775, 1, none, false, 0⟩ []).wf = true ∧
    (Instr.roFillDone 0 2 0).wf = true ∧
    (Instr.tackRangeWrite 0 63 0).wf = true ∧
    (Instr.gessoRefresh 0 1023).wf = true ∧
    (Instr.finStepWrite .host 255 0).wf = true ∧
    (Instr.coatStart 256).wf = true ∧
    (Instr.prepare 65535 0).wf = true ∧
    (Instr.lockGrant 1023).wf = true ∧
    (Instr.dmaCopy 319).wf = true ∧
    (Instr.burstIssue 4).wf = true := by decide +kernel

/-- The same commands with that operand at the end of its range are well-formed. -/
theorem test_well_formed_2 :
    (Instr.tetherData 0 1 none none).wf = true ∧
    (Instr.sparData 7 (List.replicate 256 0) ⟨0, 0, false⟩).wf = true ∧
    (Instr.sparData 0 (List.replicate 256 0) ⟨0, 0, false⟩).wf = true ∧
    (Instr.sparTrainingDone 0 65535 0).wf = true ∧
    (Instr.transitForward 8 0 ⟨1, 0, 0, 0, 0, 0, 0, 0, 0, 0, 0, 0, []⟩).wf = true ∧
    (Instr.phasePoWrite 7 0).wf = true ∧
    (Instr.phasePoWrite 0 7).wf = true ∧
    (Instr.sensorSample (List.replicate 496 0)).wf = true ∧
    (Instr.suspectClear 495 false).wf = true ∧
    (Instr.glazeScrubOp 0 0 7 [] false).wf = true ∧
    (Instr.retirePage 0 3 0 0 0).wf = true ∧
    (Instr.retirePage 0 0 7 0 0).wf = true := by decide +kernel

/-- The same commands with that operand at the end of its range are well-formed. -/
theorem test_well_formed_3 :
    (Instr.retirePage 0 0 0 31 0).wf = true ∧
    (Instr.retirePage 0 0 0 0 1023).wf = true ∧
    (Instr.bankRetireRequest 0 31 0).wf = true ∧
    (Instr.doorbellTailWritten 4095).wf = true ∧
    (Instr.lampCheck 1 false).wf = true ∧
    (Instr.secBadCmd 255 (.host 0)).wf = true := by decide +kernel

/-! ### Worked values of the spec -/

/-- The worked conversions of chapter 02 (the table after R68). -/
theorem test_conversions :
    (convert .bf16 .rne true false (fp32Val 0x3F808000)).1 = 0x3F80 ∧ (convert .bf16 .rne true false (fp32Val 0x3F818000)).1 = 0x3F82 ∧
    (convert .e4m3 .rne true false (fp32Val 0x3E99999A)).1 = 0x2A ∧
    convert .e4m3 .rne false false (fp32Val 0x43FA0000) = (0x7F, ⟨1, 1, 0, 0⟩) ∧
    convert .e4m3 .rne true false (fp32Val 0x43FA0000) = (0x7E, ⟨1, 0, 0, 0⟩) ∧
    convert .int8 .rne true false (fp32Val 0xC348B333) = (0x80, ⟨1, 0, 0, 0⟩) := by decide +kernel

/-- The worked MXFP4 block of the same table: scale 0x7F, element 0x6. -/
theorem test_mx_block : (convertMx .mxE2m1 [.rne] [fp32Val 0x40A00000]).1 = 0x7F ∧ (convertMx .mxE2m1 [.rne] [fp32Val 0x40A00000]).2.1 = [6] := by
  decide +kernel

/-- The check words of Philox4x32-10 for a zero key and counter (chapter 02). -/
theorem test_philox : philoxRounds 10 (0, 0) (0, 0, 0, 0) = (0x6627E8D5, 0xE169C58D, 0xBC57AC4C, 0x9B00DBD8) := by decide +kernel

/-- The stochastic conversion of 0.3 to E4M3 (chapter 02). -/
theorem test_stochastic : (convert .e4m3 (.sr (srWord 0 0 0 0)) true false (fp32Val 0x3E99999A)).1 = 0x29 := by decide +kernel

/-- The containers of the worked proof of chapter 02: 448 · 448 and 2^−9 · 2^−9 on the grid 2^−18. -/
def proofTerms : List (Machine.Num × Machine.Num) :=
  [(elemVal .e4m3 0x7E, elemVal .e4m3 0x7E), (elemVal .e4m3 1, elemVal .e4m3 1), (elemVal .e4m3 0xFE, elemVal .e4m3 0x7E), (elemVal .e4m3 1, elemVal .e4m3 1)]

theorem test_container_split :
    (dotExact (Exact.zero 0xEE) (proofTerms.take 2)).1.pack = 0x00EE00000000000C40000001 := by decide +kernel

theorem test_container_sum :
    (dotExact (Exact.zero 0xEE) (proofTerms.drop 2)).1.v = 0xFFFFFFFFFFF3C0000001 ∧
    (Exact.combine (dotExact (Exact.zero 0xEE) (proofTerms.take 2)).1 (dotExact (Exact.zero 0xEE) (proofTerms.drop 2)).1).v = 2 ∧
    (convert .bf16 .rne false false (dotExact (Exact.zero 0xEE) proofTerms).1.value).1 = 0x3700 := by decide +kernel

/-- The ASCII string 123456789. -/
def digits : List Byte := [0x31, 0x32, 0x33, 0x34, 0x35, 0x36, 0x37, 0x38, 0x39]

/-- The check values of the CRC-64 of R169 and the CRC-32 of R371. -/
theorem test_crc : crc64 digits = 0x995DC9BBDF1939FA ∧ crc32 digits = 0xE3069283 := by decide +kernel

/-- The worked funnel of chapter 11: 1,000 bytes at 0x10000000F3 in 12 accesses. -/
theorem test_funnel :
    funnel 0x10000000F3 1000 = [(0x10000000F3, 1), (0x10000000F4, 4), (0x10000000F8, 8), (0x1000000100, 256), (0x1000000200, 256),
      (0x1000000300, 256), (0x1000000400, 128), (0x1000000480, 64), (0x10000004C0, 16), (0x10000004D0, 8), (0x10000004D8, 2), (0x10000004DA, 1)] := by
  decide +kernel

/-- The worked lands of chapter 20: SPR4_RX11_N and SPR1_TX2_P. -/
theorem test_lands : landSignal 28 8 = .lane (.spar 4) false 11 false ∧ landSignal 2 72 = .lane (.spar 1) true 2 true := by decide +kernel

theorem witness_SignatureAdditive : [(0, 5), (1, 7)].Perm [(1, 7), (0, 5)] ∧ signature 3 1 [(0, 5), (1, 7)] ≠ 0 := by decide +kernel

end Sys2Proof.Tests
end

section
/-! PROOFS of the statements on number formats (chapter 02): exact-K sums. Adding one term to an accumulator is combining it
with the container of that term alone (R79, R84), so a sum is a product in the monoid of containers on one grid; order and
split then follow from that monoid's laws, and the value and the flags from those of a single term. -/

open Sys2Proof.Machine

namespace Sys2Proof.Machine

/-! ### Containers on one grid are a commutative monoid (R84) -/

theorem Exact.combine_assoc (a b c : Exact) : (a.combine b).combine c = a.combine (b.combine c) := by
  simp [Exact.combine, BitVec.add_assoc, Bool.or_assoc]

theorem Exact.combine_comm {a b : Exact} (h : a.g = b.g) : a.combine b = b.combine a := by
  simp [Exact.combine, h, BitVec.add_comm, Bool.or_comm]

@[simp] theorem Exact.combine_zero (a : Exact) (g : BitVec 8) : a.combine (Exact.zero g) = a := by
  simp [Exact.combine, Exact.zero]

@[simp] theorem Exact.zero_g (g : BitVec 8) : (Exact.zero g).g = g := rfl
@[simp] theorem Exact.combine_v (a b : Exact) : (a.combine b).v = a.v + b.v := rfl
@[simp] theorem Exact.combine_nan (a b : Exact) : (a.combine b).nan = (a.nan || b.nan) := rfl
@[simp] theorem Exact.combine_pinf (a b : Exact) : (a.combine b).pinf = (a.pinf || b.pinf) := rfl
@[simp] theorem Exact.combine_ninf (a b : Exact) : (a.combine b).ninf = (a.ninf || b.ninf) := rfl
@[simp] theorem Exact.combine_inexact (a b : Exact) : (a.combine b).inexact = (a.inexact || b.inexact) := rfl

/-! ### One term (R79, R81, R82) -/

@[simp] theorem Exact.addTerm_g (x : Exact) (t : Num) : (x.addTerm t).g = x.g := by
  match t with
  | .nan | .inf true | .inf false | .fin _ _ _ => rfl

/-- Adding a term is combining with the container of that term alone. -/
theorem Exact.addTerm_eq_combine (x : Exact) (t : Num) : x.addTerm t = x.combine ((Exact.zero x.g).addTerm t) := by
  rw [Exact.zero]
  match t with
  | .nan | .inf true | .inf false | .fin true _ _ | .fin false _ _ =>
    simp [Exact.addTerm, Exact.combine, BitVec.sub_eq_add_neg]

theorem Exact.addTerm_right_comm (x : Exact) (t u : Num) : (x.addTerm t).addTerm u = (x.addTerm u).addTerm t := by
  have swap : ((zero x.g).addTerm t).combine ((zero x.g).addTerm u) = ((zero x.g).addTerm u).combine ((zero x.g).addTerm t) :=
    combine_comm (by simp)
  rw [(x.addTerm t).addTerm_eq_combine, (x.addTerm u).addTerm_eq_combine, addTerm_g, addTerm_g, x.addTerm_eq_combine t,
    x.addTerm_eq_combine u, combine_assoc, combine_assoc, swap]

theorem roundAt_rne_zero (e u : Int) : roundAt .rne 0 e u = 0 := by
  simp [roundAt, roundUp]

/-- A zero is placed on any grid, so the accumulator's special case for it is the rounding itself. -/
theorem Exact.zero_addTerm_v (g : BitVec 8) (t : Num) :
    ((Exact.zero g).addTerm t).v = BitVec.ofInt 80 (Claim.gridUnits g t) := by
  have zeroCase (m : Nat) (e : Int) :
      (if m = 0 then 0 else roundAt .rne m e g.toInt) = roundAt .rne m e g.toInt := by
    split
    · next h => rw [h, roundAt_rne_zero]
    · rfl
  match t with
  | .nan | .inf true | .inf false => rfl
  | .fin true m e =>
    simp [Exact.addTerm, Exact.zero, Claim.gridUnits, zeroCase, BitVec.ofInt_neg]
  | .fin false m e => simp [Exact.addTerm, Exact.zero, Claim.gridUnits, zeroCase]

theorem Exact.zero_addTerm_nan (g : BitVec 8) (t : Num) : ((Exact.zero g).addTerm t).nan = true ↔ t = .nan := by
  match t with
  | .nan | .inf true | .inf false | .fin _ _ _ => simp [Exact.addTerm, Exact.zero]

theorem Exact.zero_addTerm_pinf (g : BitVec 8) (t : Num) : ((Exact.zero g).addTerm t).pinf = true ↔ t = .inf false := by
  match t with
  | .nan | .inf true | .inf false | .fin _ _ _ => simp [Exact.addTerm, Exact.zero]

theorem Exact.zero_addTerm_ninf (g : BitVec 8) (t : Num) : ((Exact.zero g).addTerm t).ninf = true ↔ t = .inf true := by
  match t with
  | .nan | .inf true | .inf false | .fin _ _ _ => simp [Exact.addTerm, Exact.zero]

theorem Exact.zero_addTerm_inexact (g : BitVec 8) (t : Num) :
    ((Exact.zero g).addTerm t).inexact = true ↔ Claim.offGrid g t := by
  match t with
  | .nan | .inf true | .inf false => simp [Exact.addTerm, Exact.zero, Claim.offGrid]
  | .fin n m e =>
    have nonzero (h : m % 2 ^ (g.toInt - e).toNat ≠ 0) : m ≠ 0 := by rintro rfl; simp at h
    have flag : ((Exact.zero g).addTerm (.fin n m e)).inexact =
        (false || !(decide (m = 0) || decide (e ≥ g.toInt) || decide (m % 2 ^ (g.toInt - e).toNat = 0))) := rfl
    simpa [flag, Claim.offGrid, and_assoc] using fun _ => nonzero

end Sys2Proof.Machine

namespace Sys2Proof.Claim

/-! ### Sums of terms -/

@[simp] theorem sumTerms_nil (x : Exact) : sumTerms x [] = x := rfl

theorem sumTerms_cons (x : Exact) (t : Machine.Num) (ts : List Machine.Num) : sumTerms x (t :: ts) = sumTerms (x.addTerm t) ts := rfl

theorem sumTerms_append (x : Exact) (ts us : List Machine.Num) : sumTerms x (ts ++ us) = sumTerms (sumTerms x ts) us :=
  List.foldl_append

@[simp] theorem sumTerms_g (x : Exact) (ts : List Machine.Num) : (sumTerms x ts).g = x.g := by
  induction ts generalizing x with
  | nil => rfl
  | cons t ts ih => rw [sumTerms_cons, ih, Exact.addTerm_g]

/-- Summing onto an accumulator is combining it with the sum from zero. -/
theorem sumTerms_eq_combine (x : Exact) (ts : List Machine.Num) : sumTerms x ts = x.combine (sumTerms (Exact.zero x.g) ts) := by
  induction ts generalizing x with
  | nil => simp
  | cons t ts ih =>
    rw [sumTerms_cons, sumTerms_cons, ih, ih ((Exact.zero x.g).addTerm t), Exact.addTerm_g, Exact.addTerm_g, Exact.zero_g,
      x.addTerm_eq_combine, Exact.combine_assoc]

/-- The sum from zero splits off its first term as a container. -/
theorem sumTerms_zero_cons (g : BitVec 8) (t : Machine.Num) (ts : List Machine.Num) :
    sumTerms (Exact.zero g) (t :: ts) = ((Exact.zero g).addTerm t).combine (sumTerms (Exact.zero g) ts) := by
  rw [sumTerms_cons, sumTerms_eq_combine, Exact.addTerm_g, Exact.zero_g]

theorem sumTerms_zero_append (g : BitVec 8) (ts us : List Machine.Num) :
    sumTerms (Exact.zero g) (ts ++ us) = (sumTerms (Exact.zero g) ts).combine (sumTerms (Exact.zero g) us) := by
  rw [sumTerms_append, sumTerms_eq_combine, sumTerms_g, Exact.zero_g]

theorem sumTerms_perm (x : Exact) {ts us : List Machine.Num} (h : ts.Perm us) : sumTerms x ts = sumTerms x us :=
  h.foldl_eq' (fun t _ u _ y => y.addTerm_right_comm t u) x

theorem sumTerms_zero_v (g : BitVec 8) (ts : List Machine.Num) :
    (sumTerms (Exact.zero g) ts).v = BitVec.ofInt 80 (gridSum g ts) := by
  induction ts with
  | nil => rfl
  | cons t ts ih =>
    rw [sumTerms_zero_cons, Exact.combine_v, Exact.zero_addTerm_v, ih, ← BitVec.ofInt_add, gridSum, gridSum, List.map_cons,
      List.sum_cons]

theorem sumTerms_zero_toInt {g : BitVec 8} {ts : List Machine.Num} (hlo : -(2 ^ 79) ≤ gridSum g ts) (hhi : gridSum g ts < 2 ^ 79) :
    (sumTerms (Exact.zero g) ts).v.toInt = gridSum g ts := by
  rw [sumTerms_zero_v, BitVec.toInt_ofInt]
  exact Int.bmod_eq_of_le (by omega) (by omega)

/-- A flag that combining ORs and that a single term raises just when P holds of it is raised by a sum just when P holds of
some term. -/
theorem sumTerms_zero_flag {flag : Exact → Bool} {g : BitVec 8} {P : Machine.Num → Prop}
    (zero : flag (Exact.zero g) = false) (combine : ∀ a b, flag (a.combine b) = (flag a || flag b))
    (term : ∀ t, flag ((Exact.zero g).addTerm t) = true ↔ P t) (ts : List Machine.Num) :
    flag (sumTerms (Exact.zero g) ts) = true ↔ ∃ t ∈ ts, P t := by
  induction ts with
  | nil => simp [zero]
  | cons t ts ih => rw [sumTerms_zero_cons, combine, Bool.or_eq_true, term, ih, List.exists_mem_cons_iff]

theorem sumTerms_zero_nan (g : BitVec 8) (ts : List Machine.Num) : (sumTerms (Exact.zero g) ts).nan = true ↔ Num.nan ∈ ts := by
  simpa using sumTerms_zero_flag rfl Exact.combine_nan (Exact.zero_addTerm_nan g) ts

theorem sumTerms_zero_pinf (g : BitVec 8) (ts : List Machine.Num) :
    (sumTerms (Exact.zero g) ts).pinf = true ↔ Num.inf false ∈ ts := by
  simpa using sumTerms_zero_flag rfl Exact.combine_pinf (Exact.zero_addTerm_pinf g) ts

theorem sumTerms_zero_ninf (g : BitVec 8) (ts : List Machine.Num) :
    (sumTerms (Exact.zero g) ts).ninf = true ↔ Num.inf true ∈ ts := by
  simpa using sumTerms_zero_flag rfl Exact.combine_ninf (Exact.zero_addTerm_ninf g) ts

theorem sumTerms_zero_inexact (g : BitVec 8) (ts : List Machine.Num) :
    (sumTerms (Exact.zero g) ts).inexact = true ↔ ∃ t ∈ ts, offGrid g t :=
  sumTerms_zero_flag rfl Exact.combine_inexact (Exact.zero_addTerm_inexact g) ts

/-! ### The MMA's element products (R79) -/

theorem eventsAdd_right_comm (a b c : Events) : Events.add (Events.add a b) c = Events.add (Events.add a c) b := by
  simp [Events.add, Nat.add_right_comm]

theorem dotExact_fst (x : Exact) (ps : List (Machine.Num × Machine.Num)) :
    (dotExact x ps).1 = sumTerms x (ps.map (fun p => p.1.mul p.2)) := by
  induction ps using List.reverseRecOn with
  | nil => rfl
  | append_singleton ps p ih =>
    rw [List.map_append, sumTerms_append, ← ih, dotExact, List.foldl_append]; rfl

theorem dotExact_perm (x : Exact) {ps qs : List (Machine.Num × Machine.Num)} (h : ps.Perm qs) : dotExact x ps = dotExact x qs :=
  h.foldl_eq' (fun _ _ _ _ _ => congrArg₂ Prod.mk (Exact.addTerm_right_comm _ _ _) (eventsAdd_right_comm _ _ _)) (x, Events.none)

end Sys2Proof.Claim

open Sys2Proof.Claim in
/-- Settles O60: containers on one grid are a commutative monoid, and a sum combines the containers of its terms. -/
theorem exactSums : Obligations.ExactSums := by
  unfold Obligations.ExactSums
  refine ⟨fun g ts => ⟨?_, ?_, ?_, ?_, ?_, ?_, ?_⟩, ?_, ?_, ?_, ?_, ?_, ?_⟩
  · exact sumTerms_g (Exact.zero g) ts
  · exact sumTerms_zero_v g ts
  · exact sumTerms_zero_toInt
  · exact sumTerms_zero_nan g ts
  · exact sumTerms_zero_pinf g ts
  · exact sumTerms_zero_ninf g ts
  · exact sumTerms_zero_inexact g ts
  · exact fun x _ _ => sumTerms_perm x
  · exact sumTerms_zero_append
  · exact Exact.combine_assoc
  · exact fun _ _ => Exact.combine_comm
  · exact dotExact_fst
  · exact fun x _ _ => dotExact_perm x
end

section
/-! PROOFS of the statements on the sequencers' memory instructions (chapter 06). An instruction that may issue is its body, run
on the state whose core has counted the issue cycle (seqExec_of_canIssue). A thread can tell that state from the one before
neither by its registers nor by its core's stores and data cache, so what the body does holds of the instruction. -/

open Sys2Proof.Machine Sys2Proof.Claim

namespace Sys2Proof.Machine

/-! ### A core's content, a thread's registers -/

theorem State.core_setCore (s : State) (c c' : Nat) (x : SeqCore) :
    (s.setCore c x).core c' = if c' = c then x else s.core c' := Tab.get_set ..

/-- A general register after a write; a write of g0 is ignored. -/
theorem SeqState.get_put (t : SeqState) (rd r : Nat) (v : Val) :
    (t.put rd v).get r = if r % 64 = rd % 64 ∧ r % 64 ≠ 0 then v else t.get r := by
  by_cases hd : rd % 64 = 0
  · have h : ¬(r % 64 = rd % 64 ∧ r % 64 ≠ 0) := by omega
    rw [SeqState.put, if_pos hd, if_neg h]
  · by_cases hr : r % 64 = 0
    · simp [SeqState.get, hr]
    · simp [SeqState.put, SeqState.get, hd, hr, Tab.get_set]

/-- A register is readable once written, and as before otherwise. -/
theorem SeqState.readable_put (t : SeqState) (rd r : Nat) (v : Val) :
    (t.put rd v).readable r = (t.readable r || decide (r % 64 = rd % 64)) := by
  by_cases hd : rd % 64 = 0
  · simp +contextual [SeqState.put, SeqState.readable, hd]
  · have lt : r % 64 < 64 := Nat.mod_lt _ (by decide)
    have bit : ((1 <<< (rd % 64) : Nat) : BitVec 64).getLsbD (r % 64) = decide (r % 64 = rd % 64) := by
      rw [BitVec.natCast_eq_ofNat, BitVec.getLsbD_ofNat, Nat.one_shiftLeft, Nat.testBit_two_pow]
      simp [lt, eq_comm]
    rw [SeqState.put, if_neg hd, SeqState.readable, SeqState.readable, BitVec.getLsbD_or, bit, Bool.or_assoc]

theorem SeqState.put_eq (t : SeqState) (rd : Nat) (v : Val) :
    t.put rd v = { t with g := (t.put rd v).g, fresh := (t.put rd v).fresh } := by
  unfold SeqState.put; split <;> rfl

/-! ### An instruction done, a thread waiting -/

@[simp] theorem State.seqDone_sth (s : State) (k j : Nat) : (s.seqDone k).sth j = s.sth j := rfl
@[simp] theorem State.seqDone_core (s : State) (k c : Nat) : (s.seqDone k).core c = s.core c := rfl
@[simp] theorem State.seqWait_core (s : State) (k c : Nat) (w : SeqWait) : (s.seqWait k w).core c = s.core c := rfl

theorem State.seqDone_rd_of_ne (s : State) (k : Nat) {f : RegField} {i : Nat} (hpc : f.key i ≠ CNV_SEQ_THR_PC.PC.key k)
    (hcount : f.key i ≠ CNV_SEQ_INSTR.COUNT.key (k / 512)) : (s.seqDone k).rd f i = s.rd f i := by
  rw [State.seqDone, State.bump_eq, State.rd_wr_ne _ _ hcount, State.rd_wr_ne _ _ hpc]

theorem State.seqDone_seqPc (s : State) (k : Nat) : (s.seqDone k).seqPc k = (s.seqPc k + 4) % 2 ^ 40 := by
  have next : (s.seqDone k).rd CNV_SEQ_THR_PC.PC k = CNV_SEQ_THR_PC.PC.fit (s.rd CNV_SEQ_THR_PC.PC k + 1) := by
    rw [State.seqDone, State.bump_eq, State.rd_wr_ne _ _ (RegField.key_ne _ _ (by decide)), State.rd_wr_self]
  have cut (v : Val) : (CNV_SEQ_THR_PC.PC.fit v).toNat = v.toNat % 2 ^ 38 := by
    rw [RegField.fit, BitVec.toNat_setWidth, BitVec.toNat_setWidth]
    exact Nat.mod_eq_of_lt (Nat.lt_trans (Nat.mod_lt _ (by decide)) (by decide))
  have dpa (v : Val) : 4 * ((v + 1).toNat % 2 ^ 38) = (4 * v.toNat + 4) % 2 ^ 40 := by bv_omega
  rw [State.seqPc, State.rdN, next, cut]
  exact dpa _

theorem State.seqDone_count (s : State) (k : Nat) :
    (s.seqDone k).rd CNV_SEQ_INSTR.COUNT (k / 512) = s.rd CNV_SEQ_INSTR.COUNT (k / 512) + 1 := by
  rw [State.seqDone, State.bump_eq, State.rd_wr_self, State.rd_wr_ne _ _ (RegField.key_ne _ _ (by decide))]
  exact BitVec.setWidth_eq _

/-! ### The issue of an instruction -/

/-- A state whose core has counted an issue cycle of a thread (R202). -/
def State.issued (s : State) (k : Nat) : State :=
  s.setCore (coreKey k) { s.core (coreKey k) with issued := if s.otherReady k then (s.core (coreKey k)).issued + 1 else 0 }

theorem seqExec_of_canIssue {s : State} {th : SeqThread} {srcs : List Nat} (h : CanIssue s th srcs)
    (body : Nat → State → State) : s.seqExec th srcs body = body (seqKey th) (s.issued (seqKey th)) := by
  obtain ⟨issues, fetch, readable⟩ := h
  have all : srcs.all (s.sth (seqKey th)).readable = true := List.all_eq_true.2 readable
  simp [State.seqExec, State.issued, issues, fetch, all]

@[simp] theorem State.issued_sth (s : State) (k j : Nat) : (s.issued k).sth j = s.sth j := rfl
@[simp] theorem State.issued_seqPc (s : State) (k j : Nat) : (s.issued k).seqPc j = s.seqPc j := rfl
@[simp] theorem State.issued_seqAddr (s : State) (k j : Nat) (a : Val) (n : Nat) (p : Perm) :
    (s.issued k).seqAddr j a n p = s.seqAddr j a n p := rfl

@[simp] theorem State.issued_stores (s : State) (k c : Nat) : ((s.issued k).core c).stores = (s.core c).stores := by
  rw [State.issued, State.core_setCore]; split <;> simp [*]

@[simp] theorem State.issued_dcache (s : State) (k c : Nat) : ((s.issued k).core c).dcache = (s.core c).dcache := by
  rw [State.issued, State.core_setCore]; split <;> simp [*]

@[simp] theorem State.issued_dcacheHit (s : State) (k j d n : Nat) (cached noncached : Bool) :
    (s.issued k).dcacheHit j d n cached noncached = s.dcacheHit j d n cached noncached := by simp [State.dcacheHit]

/-- The checks of a memory instruction's address all pass. -/
theorem seqAddr_of_goodAddr {s : State} {th : SeqThread} {a : Val} {n : Nat} {p : Perm} (h : GoodAddr s th a n p) :
    s.seqAddr (seqKey th) a n p = .ok a.toNat := by
  obtain ⟨width, aligned, window⟩ := h
  rw [State.seqAddr, if_neg (Nat.not_le.2 width), if_neg (not_not.2 aligned), window]
  rfl

/-! ### The glaze on its own -/

/-- The sequencers, their threads' PCs and memory as before. -/
def State.KeepsThreads (s t : State) : Prop := t.seq = s.seq ∧ t.mem = s.mem ∧ ∀ k, t.seqPc k = s.seqPc k

theorem State.KeepsThreads.refl (s : State) : s.KeepsThreads s := ⟨rfl, rfl, fun _ => rfl⟩

theorem State.KeepsThreads.trans {s t u : State} (h : s.KeepsThreads t) (h' : t.KeepsThreads u) : s.KeepsThreads u := by
  obtain ⟨seq, mem, pc⟩ := h
  obtain ⟨seq', mem', pc'⟩ := h'
  exact ⟨seq'.trans seq, mem'.trans mem, fun k => (pc' k).trans (pc k)⟩

theorem State.onGlz_keepsThreads (s : State) (f : Glaze → Glaze) : s.KeepsThreads (s.onGlz f) := ⟨rfl, rfl, fun _ => rfl⟩

theorem State.wr_keepsThreads (s : State) {f : RegField} (i : Nat) (v : Val)
    (h : CNV_SEQ_THR_PC.PC.reg * 64 + CNV_SEQ_THR_PC.PC.lo ≠ f.reg * 64 + f.lo) : s.KeepsThreads (s.wr f i v) :=
  ⟨rfl, rfl, fun k => by rw [State.seqPc, State.rdN, State.rd_wr_ne _ _ (RegField.key_ne k i h)]; rfl⟩

theorem State.setSlot_keepsThreads (s : State) (k : Nat) (f : Option FillSlot) : s.KeepsThreads (s.setSlot k f) :=
  (s.onGlz_keepsThreads _).trans (State.wr_keepsThreads _ _ _ (by decide))

theorem State.setVictim_keepsThreads (s : State) (k : Nat) (v : Option Victim) : s.KeepsThreads (s.setVictim k v) :=
  (s.onGlz_keepsThreads _).trans (State.wr_keepsThreads _ _ _ (by decide))

theorem State.unusedPrefetch_keepsThreads (s : State) (k : Nat) (l : GlazeLine) : s.KeepsThreads (s.unusedPrefetch k l) := by
  unfold State.unusedPrefetch State.when
  split
  · exact State.wr_keepsThreads _ _ _ (by decide)
  · exact State.KeepsThreads.refl s

theorem State.evict_keepsThreads (s : State) (k : Nat) (l : GlazeLine) : s.KeepsThreads (s.evict k l) := by
  have gone : s.KeepsThreads ((s.unusedPrefetch k l).setLine k none) :=
    (s.unusedPrefetch_keepsThreads k l).trans (State.onGlz_keepsThreads _ _)
  unfold State.evict
  split
  · exact gone.trans (State.onGlz_keepsThreads _ _)
  · exact (gone.trans (State.onGlz_keepsThreads _ _)).trans (State.setVictim_keepsThreads _ _ _)

/-- A way is free already, or an eviction frees it. -/
theorem State.getWay_keepsThreads {s t : State} {k choice w : Nat} (h : s.getWay k choice = some (w, t)) : s.KeepsThreads t := by
  unfold State.getWay at h
  dsimp only at h
  split at h
  · cases h; exact State.KeepsThreads.refl s
  · split at h
    · cases h
    · split at h
      · cases h
      · cases h; exact State.evict_keepsThreads ..

theorem State.prefetchLine_keepsThreads (s : State) (k : Nat) (r : MemReq) : s.KeepsThreads (s.prefetchLine k r) := by
  unfold State.prefetchLine
  extract_lets c held
  split
  · exact State.KeepsThreads.refl s
  · split
    · exact State.KeepsThreads.refl s
    · next way =>
      exact (((State.getWay_keepsThreads way).trans (State.onGlz_keepsThreads _ _)).trans
        (State.setSlot_keepsThreads _ _ _)).trans (State.wr_keepsThreads _ _ _ (by decide))

end Sys2Proof.Machine

namespace Sys2Proof.Claim

/-! ### What a body does, the instruction does -/

theorem RegsSame.of_regs {u s t : State} {ks : List Nat} (hregs : u.regs = s.regs) (h : RegsSame u t ks) : RegsSame s t ks :=
  fun f i hf => (h f i hf).trans (by rw [State.rd, State.rd, hregs])

theorem Advances.of_regs {u s t : State} {th : SeqThread} (hregs : u.regs = s.regs) (h : Advances th u t) :
    Advances th s t := by
  have rd (f : RegField) (i : Nat) : u.rd f i = s.rd f i := by rw [State.rd, State.rd, hregs]
  obtain ⟨pc, count, same⟩ := h
  exact ⟨by rw [pc, State.seqPc, State.seqPc, State.rdN, State.rdN, rd], by rw [count, rd], same.of_regs hregs⟩

/-- The thread that an instruction names counts among its canvas's. -/
theorem seqKey_div_of_canIssue {s : State} {th : SeqThread} {srcs : List Nat} (h : CanIssue s th srcs) :
    seqKey th / 512 = th.canvas := by
  obtain ⟨issues, -, -⟩ := h
  simp only [State.seqIssues, Bool.and_eq_true, decide_eq_true_eq] at issues
  obtain ⟨⟨⟨⟨-, core⟩, thread⟩, -⟩, -⟩ := issues
  rw [seqKey]; omega

/-- An instruction that is done advances its thread. -/
theorem advances_seqDone {th : SeqThread} (hcanvas : seqKey th / 512 = th.canvas) (u : State) :
    Advances th u (u.seqDone (seqKey th)) := by
  refine ⟨u.seqDone_seqPc _, hcanvas ▸ u.seqDone_count _, fun f i hf => ?_⟩
  obtain ⟨hpc, hcount⟩ : f.key i ≠ CNV_SEQ_THR_PC.PC.key (seqKey th) ∧ f.key i ≠ CNV_SEQ_INSTR.COUNT.key th.canvas := by
    simpa using hf
  exact u.seqDone_rd_of_ne _ hpc (hcanvas ▸ hcount)

/-- The same of an instruction whose body changes no register before. -/
theorem advances_of_canIssue {s u : State} {th : SeqThread} {srcs : List Nat} (h : CanIssue s th srcs) (hregs : u.regs = s.regs) :
    Advances th s (u.seqDone (seqKey th)) := (advances_seqDone (seqKey_div_of_canIssue h) u).of_regs hregs

theorem regWritten_put {s t : State} {th : SeqThread} {rd : Nat} {v : Val}
    (h : t.sth (seqKey th) = (s.sth (seqKey th)).put rd v) : RegWritten th rd v s t := by
  refine ⟨fun r => ?_, fun r => ?_, ?_⟩ <;> rw [h]
  · exact SeqState.get_put ..
  · exact SeqState.readable_put ..
  · exact SeqState.put_eq ..

theorem waits_seqWait {s u : State} {th : SeqThread} (hregs : u.regs = s.regs) (hsth : u.sth (seqKey th) = s.sth (seqKey th))
    (w : SeqWait) : Waits th w s (u.seqWait (seqKey th) w) := by
  have code : w.code < 16 := by cases w <;> simp [SeqWait.code]
  refine ⟨?_, ?_, ?_, ?_⟩
  · rw [← hsth]; exact State.sth_setSth_self ..
  · rw [State.seqWait, State.rdN, State.wrN_eq, State.rd_wr_ne _ _ (RegField.key_ne _ _ (by decide))]
    exact State.rdN_wrN_self _ _ _ _ (by decide)
  · rw [State.seqWait, State.rdN_wrN_self _ _ _ _ (by decide)]
    exact Nat.mod_eq_of_lt code
  · refine RegsSame.of_regs hregs fun f i hf => ?_
    obtain ⟨hstate, hwait⟩ : f.key i ≠ CNV_SEQ_THR_CTL.STATE.key (seqKey th) ∧ f.key i ≠ CNV_SEQ_THR_CTL.WAIT.key (seqKey th) := by
      simpa using hf
    rw [State.seqWait, State.wrN_eq, State.rd_wr_ne _ _ hwait, State.wrN_eq, State.rd_wr_ne _ _ hstate, State.setSth_rd]

/-- An access that drops its line from the core's data cache and waits: the shape of a miss and of an atomic (R211). -/
theorem dropLine_seqWait (s : State) (th : SeqThread) (d : Dpa) (w : SeqWait) :
    let u := s.issued (seqKey th)
    let c := coreKey (seqKey th)
    let t := (u.setCore c ((u.core c).dropLine d)).seqWait (seqKey th) w
    Waits th w s t ∧ LineDropped th d s t ∧ WaitFrame th s t := by
  refine ⟨waits_seqWait rfl rfl w, ⟨fun c => ?_, fun c x => ?_⟩, rfl, fun j hj => State.sth_setSth_ne _ _ hj⟩
  · rw [State.seqWait_core, State.core_setCore]
    split <;> simp [SeqCore.dropLine, *]
  · rw [State.seqWait_core, State.core_setCore]
    by_cases hc : c = coreKey (seqKey th)
    · by_cases hx : x = d / 256
      · simp [SeqCore.dropLine, hc, hx]
      · simp [SeqCore.dropLine, hc, hx, Tab.find_del_ne]
    · simp [hc]

/-! ### Loads (R201, R207, R210, R211) -/

theorem loadHits_of_seqLoad {i : Instr} {th : SeqThread} {rd ra : Nat} {imm : BitVec 14} {n : Nat} {isSigned : Bool}
    (hi : ∀ s, exec i s = .next (s.seqLoad th rd ra imm n isSigned false true)) :
    LoadHits i th rd ra imm n (fun b => loadValue b isSigned) := by
  intro s line issue a good held
  let k := seqKey th
  let u := s.issued k
  have hit : s.dcacheHit k a.toNat n true false = some (hitBytes s th a.toNat n line) := by
    simp [State.dcacheHit, k, held, hitBytes]
  have run : s.seqLoad th rd ra imm n isSigned false true =
      (u.setSth k ((s.sth k).put rd (loadValue (hitBytes s th a.toNat n line) isSigned))).seqDone k := by
    rw [State.seqLoad, seqExec_of_canIssue issue]
    simp only [State.issued_seqAddr, State.issued_sth, State.issued_dcacheHit]
    rw [show sext14 imm = imm.signExtend 64 from rfl, seqAddr_of_goodAddr good]
    simp only [hit, a, k, u]
  refine ⟨_, (hi s).trans (congrArg _ run), regWritten_put (State.sth_setSth_self ..), advances_of_canIssue issue rfl, rfl,
    fun j hj => State.sth_setSth_ne _ _ hj, fun c => ⟨State.issued_stores .., State.issued_dcache ..⟩⟩

/-- A load goes past the data cache where it is an LDNC or finds no line there, whatever its hint. -/
theorem dcacheHit_eq_none {s : State} {k d n : Nat} {cached noncached : Bool}
    (h : noncached = true ∨ Tab.find (s.core (coreKey k)).dcache (d / 256) = none) :
    s.dcacheHit k d n cached noncached = none := by
  rcases h with h | h <;> simp [State.dcacheHit, h]

theorem loadWaits_of_seqLoad {i : Instr} {th : SeqThread} {rd ra : Nat} {imm : BitVec 14} {n : Nat}
    {isSigned noncached cached : Bool} (hi : ∀ s, exec i s = .next (s.seqLoad th rd ra imm n isSigned noncached cached)) :
    LoadWaits i th rd ra imm n isSigned noncached := by
  intro s issue a good present past
  let k := seqKey th
  let u := s.issued k
  let v := u.setCore (coreKey k) ((u.core (coreKey k)).dropLine a.toNat)
  have miss : s.dcacheHit k a.toNat n cached noncached = none := dcacheHit_eq_none past
  have held : (v.line (keyOf a.toNat)).isNone = false := by
    rw [Option.isNone_eq_false_iff]; exact present
  have run : s.seqLoad th rd ra imm n isSigned noncached cached = v.seqWait k (.load rd a.toNat n isSigned noncached) := by
    rw [State.seqLoad, seqExec_of_canIssue issue]
    simp only [State.issued_seqAddr, State.issued_sth, State.issued_dcacheHit]
    rw [show sext14 imm = imm.signExtend 64 from rfl, seqAddr_of_goodAddr good]
    simp only [a, k, u, v] at miss held ⊢
    simp only [miss, held, Bool.and_false, Bool.false_and, Bool.false_eq_true, if_false]
    split <;> rfl
  exact ⟨_, (hi s).trans (congrArg _ run), dropLine_seqWait s th a.toNat _⟩

theorem sequencerLoads : SequencerLoads := by
  intro th rd ra i
  refine ⟨?_, ?_, ?_, ?_, ?_, fun cached => ⟨?_, ?_, ?_, ?_, ?_⟩, ?_⟩
  · exact loadHits_of_seqLoad (isSigned := false) fun _ => rfl
  · exact loadHits_of_seqLoad (isSigned := false) fun _ => rfl
  · exact loadHits_of_seqLoad (isSigned := false) fun _ => rfl
  · exact loadHits_of_seqLoad (isSigned := false) fun _ => rfl
  · exact loadHits_of_seqLoad (isSigned := true) fun _ => rfl
  · exact loadWaits_of_seqLoad (cached := cached) fun _ => rfl
  · exact loadWaits_of_seqLoad (cached := cached) fun _ => rfl
  · exact loadWaits_of_seqLoad (cached := cached) fun _ => rfl
  · exact loadWaits_of_seqLoad (cached := cached) fun _ => rfl
  · exact loadWaits_of_seqLoad (cached := cached) fun _ => rfl
  · exact loadWaits_of_seqLoad (cached := false) fun _ => rfl

end Sys2Proof.Claim

/-! ### Stores (R201, R207, R210, R211) -/

namespace Sys2Proof.Machine

/-- A core after a store: the entry behind the others, and the core's copy of its line with the bytes in it. -/
def SeqCore.post (c : SeqCore) (e : StoreEntry) : SeqCore :=
  let x := e.dpa / 256
  { c with stores := c.stores ++ [e]
           dcache := match Tab.find c.dcache x with
             | some l => Tab.put c.dcache x (forward [e] (x * 256) l)
             | none => c.dcache }

theorem SeqCore.find_post (c : SeqCore) (e : StoreEntry) (x : Nat) : Tab.find (c.post e).dcache x =
    (Tab.find c.dcache x).map (fun l => if x = e.dpa / 256 then forward [e] (x * 256) l else l) := by
  by_cases hx : x = e.dpa / 256
  · subst hx
    cases held : Tab.find c.dcache (e.dpa / 256) <;> simp [SeqCore.post, held]
  · cases held : Tab.find c.dcache (e.dpa / 256) <;> simp [SeqCore.post, held, hx, Tab.find_put_ne]

/-- Below the host window no address is the host's (R224). -/
theorem targetOf_ne_host {d : Nat} (h : d < 0xC000000000) (o : Nat) : targetOf d ≠ .host o := by
  unfold targetOf
  have : ¬(0xC000000000 ≤ d ∧ d < 0x10000000000) := by omega
  rw [if_neg this]
  repeat' split
  all_goals simp

end Sys2Proof.Machine

namespace Sys2Proof.Claim

theorem stores_of_seqStore {i : Instr} {th : SeqThread} {rs ra : Nat} {imm : BitVec 14} {n : Nat}
    (hi : ∀ s, exec i s = .next (s.seqStore th rs ra imm n)) : Stores i th rs ra imm n := by
  intro s issue k c a e good device room
  let u := s.issued k
  have run : s.seqStore th rs ra imm n = (u.setCore c ((u.core c).post e)).seqDone k := by
    rw [State.seqStore, seqExec_of_canIssue issue]
    simp only [State.issued_seqAddr, State.issued_sth]
    rw [show sext14 imm = imm.signExtend 64 from rfl, seqAddr_of_goodAddr good]
    dsimp only
    split
    · next o host => exact absurd host (targetOf_ne_host device o)
    · rw [if_neg (by simpa using room)]
      rfl
  refine ⟨_, (hi s).trans (congrArg _ run), ?_, fun x => ?_, fun c' hc => ?_, rfl, advances_of_canIssue issue rfl, rfl,
    fun _ _ => rfl⟩
  · simp [State.core_setCore, SeqCore.post, u]
  · simp [State.core_setCore, SeqCore.find_post, u, e]
  · simp [State.core_setCore, hc, u]

/-! ### Atomics and PF (R207, R211, R220) -/

theorem amoWaits_of_seqAmo {i : Instr} {th : SeqThread} {op : AtomicOp} {rd ra rb : Nat} {wide : Bool} {srcs : List Nat}
    (hsrcs : srcs = if op = .cas then [ra, rb, rd] else [ra, rb])
    (hi : ∀ s, exec i s = .next (s.seqAmo th op rd ra rb wide)) :
    AmoWaits i th op rd ra rb (if wide then 8 else 4) srcs := by
  intro s issue a good
  let k := seqKey th
  let u := s.issued k
  have run : s.seqAmo th op rd ra rb wide = (u.setCore (coreKey k) ((u.core (coreKey k)).dropLine a.toNat)).seqWait k
      (.amo rd a.toNat op (if wide then 8 else 4) ((s.sth k).get rb) ((s.sth k).get rd)) := by
    rw [State.seqAmo, ← hsrcs, seqExec_of_canIssue issue]
    simp only [State.issued_seqAddr, State.issued_sth]
    rw [seqAddr_of_goodAddr good]
  exact ⟨_, (hi s).trans (congrArg _ run), dropLine_seqWait s th a.toNat _⟩

/-- PF is done at once, after what the glaze did with its line; where it names no line that is nothing. -/
theorem exec_pf_of_canIssue {s : State} {th : SeqThread} {ra victim : Nat} {imm : BitVec 14} (issue : CanIssue s th [ra]) :
    ∃ v, exec (.pf th ra imm victim) s = .next (v.seqDone (seqKey th)) ∧ (s.issued (seqKey th)).KeepsThreads v ∧
      ((∀ c o, targetOf ((s.sth (seqKey th)).get ra + imm.signExtend 64).toNat ≠ .gesso c o) → v = s.issued (seqKey th)) := by
  refine ⟨_, congrArg _ (seqExec_of_canIssue issue _), ?_⟩
  simp only [State.issued_sth, show sext14 imm = imm.signExtend 64 from rfl]
  split
  · next c o line =>
    refine ⟨?_, fun noLine => absurd line (noLine c o)⟩
    split
    · exact State.prefetchLine_keepsThreads ..
    · exact State.KeepsThreads.refl _
  · exact ⟨State.KeepsThreads.refl _, fun _ => rfl⟩

theorem sequencerStores : SequencerStores := by
  intro th rd ra rb i
  refine ⟨?_, ?_, ?_, ?_, fun wide => ⟨?_, ?_, ?_, ?_⟩, fun s victim issue => ?_⟩
  · exact stores_of_seqStore fun _ => rfl
  · exact stores_of_seqStore fun _ => rfl
  · exact stores_of_seqStore fun _ => rfl
  · exact stores_of_seqStore fun _ => rfl
  · exact amoWaits_of_seqAmo rfl fun _ => rfl
  · exact amoWaits_of_seqAmo rfl fun _ => rfl
  · exact amoWaits_of_seqAmo rfl fun _ => rfl
  · exact amoWaits_of_seqAmo rfl fun _ => rfl
  · obtain ⟨v, run, ⟨seq, mem, pc⟩, idle⟩ := exec_pf_of_canIssue (imm := i) (victim := victim) issue
    refine ⟨_, run, ?_, ?_, mem, fun noLine => ?_⟩
    · rw [State.seqDone_seqPc, pc, State.issued_seqPc]
    · rw [State.seqDone_sth, State.sth, seq]; rfl
    · obtain rfl := idle noLine
      exact ⟨advances_of_canIssue issue rfl, rfl, fun _ _ => rfl, fun c => ⟨State.issued_stores .., State.issued_dcache ..⟩⟩

end Sys2Proof.Claim

/-- Settles O14: each instruction is its body run after the issue cycle, whose outcome in the case at hand is one update of the
thread or its core. -/
theorem sequencerMemory : Obligations.SequencerMemory := ⟨sequencerLoads, sequencerStores⟩
end

section
/-! PROOFS of the statements on the read-only caches and the tack range entries (chapter 07). RO_INV keeps of the caches just the
lines of other canvases, so a lookup after it is a lookup in a filtered table. A write of a tack range entry first releases the
tacks of the old range, which changes no line but for its TACKED bit, and then writes the four fields of the entry. -/

open Sys2Proof.Machine Sys2Proof.Claim

namespace Sys2Proof.Machine

/-! ### Lookups in a table that was filtered or changed throughout -/

theorem Tab.find_keep {α : Type} (m : Tab α) (p : Nat → Bool) (x : Nat) :
    Tab.find (Tab.keep m fun k _ => p k) x = if p x then Tab.find m x else none := by
  induction m with
  | nil => simp [Tab.keep]
  | cons e m ih =>
    obtain ⟨k, w⟩ := e
    rw [Tab.keep] at ih ⊢
    by_cases hx : x = k
    · subst hx; cases hp : p x <;> simp [hp, Tab.find, ih]
    · cases hk : p k <;> simp [hk, hx, Tab.find, ih]

theorem Tab.find_mapVal {α : Type} (m : Tab α) (f : Nat → α → α) (x : Nat) :
    Tab.find (Tab.mapVal m f) x = (Tab.find m x).map (f x) := by
  induction m with
  | nil => rfl
  | cons e m ih =>
    obtain ⟨k, w⟩ := e
    rw [Tab.mapVal] at ih ⊢
    by_cases hx : x = k <;> simp [hx, Tab.find, ih]

/-! ### Flags, command registers -/

theorem State.on_flag_self (s : State) (f : RegField) (i : Nat) (b : Bool) (h : 0 < f.width) : (s.flag f i b).on f i = b := by
  cases b
  · exact s.on_clr_self f i
  · exact s.on_set1_self f i h

/-- A write of a register field is not seen at a field of another place. -/
theorem State.rd_wr_of_place_ne (s : State) {f g : RegField} (i j : Nat) (v : Val) (h : g.reg * 64 + g.lo ≠ f.reg * 64 + f.lo) :
    (s.wr f i v).rd g j = s.rd g j :=
  s.rd_wr_ne v (RegField.key_ne j i h)

/-- A conditional flag is not seen at a field of another place. -/
theorem State.rd_when_set1_of_place_ne (s : State) (b : Bool) {f g : RegField} (i j : Nat)
    (h : g.reg * 64 + g.lo ≠ f.reg * 64 + f.lo) :
    (s.when b (·.set1 f i)).rd g j = s.rd g j :=
  State.when_same (·.rd g j) b _ (fun t => t.rd_wr_of_place_ne i j 1 h) s

/-- A command to an idle unit with nothing queued takes effect at once (R9). -/
theorem State.woRun_idle {s : State} {f : RegField} {i : Nat} {v : Val} {go : State → State} (h : s.woQueue f i = []) :
    s.woRun f i v false go = go s := by
  simp [State.woRun, State.woTake, h]

/-! ### The read-only caches (R229, R231) -/

/-- The key of a line of a read-only cache tells its panel. -/
theorem roKey_panel {p x d : Nat} (hx : x < 3) (hd : d < 2 ^ 40) : roKey p x d / 0x200000000 = p := by
  unfold roKey; omega

theorem State.find_roDrop (s : State) (p : Nat → Bool) (k : Nat) :
    Tab.find (s.roDrop p).glz.ro k = if p (k / 0x200000000) then none else Tab.find s.glz.ro k := by
  refine (Tab.find_keep s.glz.ro (fun k => !p (k / 0x200000000)) k).trans ?_
  cases p (k / 0x200000000) <;> rfl

theorem State.roFill_of_done {s u : State} {p x d : Nat} {bs : List Byte}
    (h : s.readRange (roAgent p x) (d / 512 * 512) 512 = .done 0 bs u) :
    s.roFill p x d = .done 0 bs (u.onGlz fun g => { g with ro := Tab.set g.ro (roKey p x d) (some bs) none }) := by
  rewrite [State.roFill, h]
  rfl

/-! ### The tacks of a range released (R248) -/

/-- A line, were it not TACKED. -/
def GlazeLine.untacked (l : GlazeLine) : GlazeLine := { l with tacked := false }

@[simp] theorem GlazeLine.untacked_untacked (l : GlazeLine) : l.untacked.untacked = l.untacked := rfl

theorem State.untackRange_lines (s : State) (c base lines : Nat) : (s.untackRange c base lines).glz.lines =
    Tab.mapVal s.glz.lines fun k l =>
      if keyCanvas k = c ∧ base ≤ keyLine k ∧ keyLine k < base + lines then l.map GlazeLine.untacked else l := by
  refine List.map_congr_left fun e _ => ?_
  split
  · next h => simp only [if_pos h]; rfl
  · next h => simp only [if_neg h]

/-- Releasing the tacks of a range changes no line but for its TACKED bit. -/
theorem State.untackRange_line (s : State) (c base lines k : Nat) :
    ((s.untackRange c base lines).line k).map GlazeLine.untacked = (s.line k).map GlazeLine.untacked := by
  rw [State.line, State.line, State.untackRange_lines, Tab.get, Tab.get, Tab.find_mapVal]
  cases Tab.find s.glz.lines k with
  | none => rfl
  | some l =>
    simp only [Option.map_some, Option.getD_some]
    split
    · simp [Function.comp_def]
    · rfl

/-! ### A write of a tack range entry (R245) -/

/-- The tacks that an entry holds released, where it is enabled. -/
def State.releaseTacks (s : State) (c i : Nat) : State :=
  s.when (s.on CNV_GLZ_TACK_RANGE.ENABLE i) (·.untackRange c (s.rdN CNV_GLZ_TACK_RANGE.BASE_LINE i)
    (s.rdN CNV_GLZ_TACK_RANGE.LINES i))

/-- The fields of an entry written, and TACK_REFUSED set where the write is refused. -/
def State.writeTackEntry (s : State) (c i base lines : Nat) (enable refused : Bool) : State :=
  ((((s.wrN CNV_GLZ_TACK_RANGE.BASE_LINE i base).wrN CNV_GLZ_TACK_RANGE.LINES i lines).flag
    CNV_GLZ_TACK_RANGE.ENABLE i enable).flag CNV_GLZ_TACK_RANGE.CONFLICT i refused).when refused
      (·.set1 CNV_GLZ_STATUS.TACK_REFUSED c)

/-- Whether a range of lines overlaps that of another enabled entry. -/
def State.tackOverlap (s : State) (c e base lines : Nat) : Bool :=
  (List.range 64).any fun x => decide (x ≠ e) && s.on CNV_GLZ_TACK_RANGE.ENABLE (c * 64 + x) &&
    decide (s.rdN CNV_GLZ_TACK_RANGE.BASE_LINE (c * 64 + x) < base + lines) &&
    decide (base < s.rdN CNV_GLZ_TACK_RANGE.BASE_LINE (c * 64 + x) + s.rdN CNV_GLZ_TACK_RANGE.LINES (c * 64 + x))

theorem State.tackOverlap_iff (s : State) (c e base lines : Nat) : s.tackOverlap c e base lines = true ↔
    ∃ x, x < 64 ∧ x ≠ e ∧ s.on CNV_GLZ_TACK_RANGE.ENABLE (c * 64 + x) = true ∧
      s.rdN CNV_GLZ_TACK_RANGE.BASE_LINE (c * 64 + x) < base + lines ∧
      base < s.rdN CNV_GLZ_TACK_RANGE.BASE_LINE (c * 64 + x) + s.rdN CNV_GLZ_TACK_RANGE.LINES (c * 64 + x) := by
  simp [State.tackOverlap, and_assoc]

theorem State.tackRangeCommit_eq (s : State) (c e : Nat) (v : Val) :
    let base := v.toNat % 2 ^ 25
    let lines := v.toNat / 2 ^ 25 % 2 ^ 25
    let refused := v.getLsbD 63 && decide (lines > 0) && s.tackOverlap c e base lines
    s.tackRangeCommit c e v = (s.releaseTacks c (c * 64 + e)).writeTackEntry c (c * 64 + e) base lines
      (v.getLsbD 63 && decide (lines > 0) && !refused) refused := rfl

section
variable (s : State) (c i base lines : Nat) (enable refused : Bool)

theorem State.writeTackEntry_base :
    (s.writeTackEntry c i base lines enable refused).rdN CNV_GLZ_TACK_RANGE.BASE_LINE i = base % 2 ^ 25 :=
  Eq.trans (by simp (disch := decide) only [State.writeTackEntry, State.rdN, State.rd_when_set1_of_place_ne, State.flag_eq,
    State.wrN_eq, State.rd_wr_of_place_ne]) (s.rdN_wrN_self CNV_GLZ_TACK_RANGE.BASE_LINE i base (by decide))

theorem State.writeTackEntry_lines :
    (s.writeTackEntry c i base lines enable refused).rdN CNV_GLZ_TACK_RANGE.LINES i = lines % 2 ^ 25 :=
  Eq.trans (by simp (disch := decide) only [State.writeTackEntry, State.rdN, State.rd_when_set1_of_place_ne, State.flag_eq,
    State.wrN_eq, State.rd_wr_of_place_ne, State.rd_wr_self]) (s.rdN_wrN_self CNV_GLZ_TACK_RANGE.LINES i lines (by decide))

theorem State.writeTackEntry_enable :
    (s.writeTackEntry c i base lines enable refused).on CNV_GLZ_TACK_RANGE.ENABLE i = enable := by
  simp (disch := decide) only [State.writeTackEntry, State.on, State.rd_when_set1_of_place_ne, State.flag_eq,
    State.rd_wr_of_place_ne, State.rd_wr_self]
  cases enable <;> rfl

theorem State.writeTackEntry_conflict :
    (s.writeTackEntry c i base lines enable refused).on CNV_GLZ_TACK_RANGE.CONFLICT i = refused := by
  simp (disch := decide) only [State.writeTackEntry, State.on, State.rd_when_set1_of_place_ne, State.flag_eq, State.rd_wr_self]
  cases refused <;> rfl

theorem State.writeTackEntry_refused :
    (s.writeTackEntry c i base lines enable true).on CNV_GLZ_STATUS.TACK_REFUSED c = true :=
  State.on_set1_self _ _ _ (by decide)

theorem State.writeTackEntry_not_refused :
    (s.writeTackEntry c i base lines enable false).rd CNV_GLZ_STATUS.TACK_REFUSED c = s.rd CNV_GLZ_STATUS.TACK_REFUSED c := by
  simp (disch := decide) only [State.writeTackEntry, State.when_false, State.flag_eq, State.wrN_eq, State.rd_wr_of_place_ne]

theorem State.writeTackEntry_eq : s.writeTackEntry c i base lines enable refused =
    { s with regs := (s.writeTackEntry c i base lines enable refused).regs } := by
  cases refused <;> rfl

theorem State.releaseTacks_eq : s.releaseTacks c i =
    { s with regs := (s.releaseTacks c i).regs, glz := { s.glz with lines := (s.releaseTacks c i).glz.lines } } := by
  unfold State.releaseTacks
  cases s.on CNV_GLZ_TACK_RANGE.ENABLE i <;> rfl

theorem State.releaseTacks_line (k : Nat) :
    ((s.releaseTacks c i).line k).map GlazeLine.untacked = (s.line k).map GlazeLine.untacked :=
  State.when_same (fun t => (t.line k).map GlazeLine.untacked) _ _ (fun t => t.untackRange_line ..) s

end

end Sys2Proof.Machine

namespace Sys2Proof.Claim

/-! ### Registers that stay -/

theorem RegsSame.refl (s : State) (ks : List Nat) : RegsSame s s ks := fun _ _ _ => rfl

/-- A write of a listed field keeps the others. -/
theorem RegsSame.wr {s t : State} {ks : List Nat} (same : RegsSame s t ks) {f : RegField} {i : Nat} (v : Val) (h : f.key i ∈ ks) :
    RegsSame s (t.wr f i v) ks :=
  fun _ _ hg => (t.rd_wr_ne v (ne_of_mem_of_not_mem h hg).symm).trans (same _ _ hg)

theorem RegsSame.when {s t : State} {ks : List Nat} (same : RegsSame s t ks) (b : Bool) (g : State → State)
    (h : ∀ t, RegsSame s t ks → RegsSame s (g t) ks) : RegsSame s (t.when b g) ks :=
  State.when_keeps (RegsSame s · ks) b g h t same

theorem regsSame_releaseTacks (s : State) (c i : Nat) {ks : List Nat} (h : CNV_GLZ_TACK_INUSE.LINES.key c ∈ ks) :
    RegsSame s (s.releaseTacks c i) ks :=
  (RegsSame.refl s ks).when _ _ fun _ same => RegsSame.wr (t := State.onGlz _ _) same _ h

/-- The fields that a write of a tack range entry may change. -/
abbrev tackKeys (c i : Nat) : List Nat :=
  [CNV_GLZ_TACK_RANGE.BASE_LINE.key i, CNV_GLZ_TACK_RANGE.LINES.key i,
    CNV_GLZ_TACK_RANGE.ENABLE.key i, CNV_GLZ_TACK_RANGE.CONFLICT.key i,
    CNV_GLZ_STATUS.TACK_REFUSED.key c, CNV_GLZ_TACK_INUSE.LINES.key c]

theorem RegsSame.writeTackEntry {s t : State} {c i base lines : Nat} {enable refused : Bool}
    (same : RegsSame s t (tackKeys c i)) : RegsSame s (t.writeTackEntry c i base lines enable refused) (tackKeys c i) :=
  ((((same.wr _ (by simp)).wr _ (by simp)).wr _ (by simp)).wr _ (by simp)).when _ _ fun _ same => same.wr _ (by simp)

/-! ### The read-only caches, the tack ranges -/

theorem readOnlyCaches : ReadOnlyCaches := by
  intro s c _
  refine ⟨fun idle queue => ?_, fun busy => ?_, fun p x d bs u read => ?_⟩
  · have run : exec (.roInv c) s = .next (s.set1 CNV_GLZ_STATUS.INV_BUSY c) := by
      show execRoInv c s = _
      rw [execRoInv, idle, State.woRun_idle queue]
    exact ⟨_, run, s.on_set1_self _ c (by decide), (RegsSame.refl s _).wr 1 (by simp), rfl⟩
  · have run : exec (.roInvDone c) s =
        .next ((s.roDrop fun p => p / 256 == c).clr CNV_GLZ_STATUS.INV_BUSY c) := by
      show execRoInvDone c s = _
      rw [execRoInvDone, if_pos busy]
    refine ⟨_, run, State.on_clr_self .., RegsSame.wr (t := s.roDrop _) (RegsSame.refl s _) 0 (by simp),
      fun p x d _ hx hd => ?_, rfl⟩
    rw [State.clr_glz, State.find_roDrop, roKey_panel hx hd]
    simp only [beq_iff_eq]
  · have run : exec (.roFillDone p x d) s =
        .next (u.onGlz fun g => { g with ro := Tab.set g.ro (roKey p x d) (some bs) none }) := by
      show execRoFillDone p x d s = _
      rw [execRoFillDone, State.roFill_of_done read]
    exact ⟨_, run, Tab.get_set_self u.glz.ro (roKey p x d) (some bs) none,
      fun _ other => Tab.get_set_ne u.glz.ro (some bs) none none other, rfl⟩

theorem tackRanges : TackRanges := by
  intro s c e v _ _ base lines clash
  let refused := v.getLsbD 63 && decide (lines > 0) && s.tackOverlap c e base lines
  have refused_iff : refused = true ↔ clash := by
    simp only [refused, Bool.and_eq_true, decide_eq_true_eq, State.tackOverlap_iff, and_assoc, clash]
  have run : exec (.tackRangeWrite c e v) s = .next ((s.releaseTacks c (c * 64 + e)).writeTackEntry c (c * 64 + e) base lines
      (v.getLsbD 63 && decide (lines > 0) && !refused) refused) := by
    show execTackRangeWrite c e v s = _
    rw [execTackRangeWrite, s.tackRangeCommit_eq c e v]
  have untouched : (s.releaseTacks c (c * 64 + e)).rd CNV_GLZ_STATUS.TACK_REFUSED c = s.rd CNV_GLZ_STATUS.TACK_REFUSED c :=
    regsSame_releaseTacks s c _ (List.mem_singleton_self _) _ _ (by simpa using RegField.key_ne c c (by decide))
  refine ⟨_, run, ?_, ?_, fun hit => ?_, fun free => ?_, ?_, ?_, fun k => ?_⟩
  · exact (State.writeTackEntry_base ..).trans (Nat.mod_mod ..)
  · exact (State.writeTackEntry_lines ..).trans (Nat.mod_mod ..)
  · rw [State.writeTackEntry_enable, State.writeTackEntry_conflict, refused_iff.2 hit]
    exact ⟨Bool.and_false _, rfl, State.writeTackEntry_refused ..⟩
  · rw [State.writeTackEntry_enable, State.writeTackEntry_conflict, Bool.eq_false_iff.2 (mt refused_iff.1 free)]
    exact ⟨Bool.and_true _, rfl, (State.writeTackEntry_not_refused ..).trans untouched⟩
  · exact RegsSame.writeTackEntry (c := c) (i := c * 64 + e) (regsSame_releaseTacks s c _ (by simp))
  · rw [State.writeTackEntry_eq, State.releaseTacks_eq]
  · rw [State.writeTackEntry_eq]
    exact s.releaseTacks_line c _ k

end Sys2Proof.Claim

/-- Settles O19: RO_INV filters the caches by canvas, a fill lists one line, and a write of a tack entry is a release of tacks
followed by a write of the entry's fields. -/
theorem cachesAndTacks : Obligations.CachesAndTacks := ⟨readOnlyCaches, tackRanges⟩
end

section
/-! PROOFS of the statements on the sideband's inputs (chapter 20): power disable, restart, lamps and JTAG. A stop marks canvases
LOST and turns islands off, and with them every unit stops; what R608 says of it speaks of a few fields alone, the view of a stop,
and no unit's work touches them. So the stop's outcome is read off the writes of GLB_ISL_STATE and TTH_STATUS that it makes on its
own account. -/

open Sys2Proof.Machine Sys2Proof.Claim

namespace Sys2Proof.Machine

/-! ### Registers filtered -/

/-- A register field lies at another place than each of some others, so that a write of one of them does not change it. -/
abbrev RegField.Outside (f : RegField) (gs : List RegField) : Prop := ∀ g ∈ gs, f.reg * 64 + f.lo ≠ g.reg * 64 + g.lo

theorem Tab.find_filter_of_kept {α : Type} (m : Tab α) {p : Nat × α → Bool} {x : Nat} (h : ∀ w, p (x, w) = true) :
    Tab.find (m.filter p) x = Tab.find m x := by
  induction m with
  | nil => rfl
  | cons e m ih =>
    obtain ⟨k, w⟩ := e
    by_cases hk : x = k
    · subst hk; simp [h w, Tab.find]
    · rw [List.filter_cons]
      split <;> simp [Tab.find, hk, ih]

theorem keyReg_key {f : RegField} {i : Nat} (h : f.lo < 64) : keyReg (f.key i) = f.reg := by
  unfold keyReg RegField.key; omega

/-! ### What a stop's claims see of a state -/

/-- The fields whose value through a stop R608 fixes: the channels, CONF, LOST and the islands' states. -/
def stopFields : List RegField :=
  [SBD_STATUS.PWDIS_A, SBD_STATUS.PWDIS_B, SEC_STATUS.CONF, TTH_STATUS.LOST, GLB_ISL_STATE.STATE]

/-- Whether a field lies at another place than all of those. -/
def RegField.aside (f : RegField) : Bool := stopFields.all fun g => g.reg * 64 + g.lo != f.reg * 64 + f.lo

/-- The sideband's own state and the values of those fields. -/
abbrev StopView := Sideband × ((f : RegField) → f ∈ stopFields → Nat → Val)

/-- The view of a state. What a unit does on its own account leaves it as it is: each operation below has a lemma that says so,
for simp to compose. -/
def State.stopView (s : State) : StopView := (s.sbd, fun f _ i => s.rd f i)

theorem State.sbd_of_stopView {s t : State} (h : t.stopView = s.stopView) : t.sbd = s.sbd := congrArg Prod.fst h

theorem State.rd_of_stopView {s t : State} {f : RegField} (h : t.stopView = s.stopView) (hf : f ∈ stopFields) (i : Nat) :
    t.rd f i = s.rd f i := congrFun (congrFun (congrFun (congrArg Prod.snd h) f) hf) i

section
variable {s : State}

@[simp] theorem State.stopView_wr {f : RegField} {i : Nat} {v : Val} (h : f.aside = true) :
    (s.wr f i v).stopView = s.stopView := by
  refine Prod.ext rfl (funext fun g => funext fun hg => funext fun j => s.rd_wr_ne v (RegField.key_ne j i ?_))
  simpa using List.all_eq_true.1 h g hg

@[simp] theorem State.stopView_wrN {f : RegField} {i n : Nat} (h : f.aside = true) : (s.wrN f i n).stopView = s.stopView :=
  stopView_wr h
@[simp] theorem State.stopView_set1 {f : RegField} {i : Nat} (h : f.aside = true) : (s.set1 f i).stopView = s.stopView :=
  stopView_wr h
@[simp] theorem State.stopView_clr {f : RegField} {i : Nat} (h : f.aside = true) : (s.clr f i).stopView = s.stopView :=
  stopView_wr h
@[simp] theorem State.stopView_flag {f : RegField} {i : Nat} {b : Bool} (h : f.aside = true) :
    (s.flag f i b).stopView = s.stopView := stopView_wr h
@[simp] theorem State.stopView_bump {f : RegField} {i n : Nat} (h : f.aside = true) : (s.bump f i n).stopView = s.stopView :=
  stopView_wr h

@[simp] theorem State.stopView_each {α : Type} {xs : List α} {f : α → State → State}
    (h : ∀ x t, (f x t).stopView = t.stopView) : (s.each xs f).stopView = s.stopView := State.each_same stopView xs f h s
@[simp] theorem State.stopView_when {c : Bool} {f : State → State} (h : ∀ t, (f t).stopView = t.stopView) :
    (s.when c f).stopView = s.stopView := State.when_same stopView c f h s
@[simp] theorem State.stopView_ite {t : State} {c : Prop} [Decidable c] :
    (if c then s else t).stopView = if c then s.stopView else t.stopView := apply_ite ..

/-- A change of the other parts of a state. (Not proved by `rfl`, so that simp may use it in a premise's proof.) -/
@[simp] theorem State.stopView_record (mem ports isl pnl str seq glz gso rows rings fin coats dma links colls early
    power therm sec host jnl boot always sent free pending) :
    State.stopView ⟨s.regs, mem, ports, isl, pnl, str, seq, glz, gso, rows, rings, fin, coats, dma, links, colls, early,
      power, therm, sec, host, jnl, boot, always, s.sbd, sent, free, pending⟩ = s.stopView := Prod.ext rfl rfl

/-- Registers at their reset values again, none of them one of the view's. -/
@[simp] theorem State.stopView_dropRegs {p : Nat → Nat → Bool}
    (h : ∀ x, p 0x800 x = false ∧ p 0x7000 x = false ∧ p 0x200000 x = false ∧ p 0x800004 x = false) :
    (s.dropRegs p).stopView = s.stopView := by
  refine Prod.ext rfl (funext fun f => funext fun hf => funext fun i => ?_)
  have lo : f.lo < 64 := (by decide : ∀ g ∈ stopFields, g.lo < 64) f hf
  have stays (x : Nat) : p f.reg x = false := by
    obtain ⟨island, sideband, conf, lost⟩ := h x
    fin_cases hf <;> assumption
  have found := Tab.find_filter_of_kept s.regs (p := fun e => !p (keyReg e.1) (keyIdx e.1)) (x := f.key i)
    fun _ => by simp [keyReg_key lo, stays]
  exact congrArg (Option.getD · f.reset) found

end

/-! ### The sketchbook, the error log, mailboxes -/

section
variable {s : State}

@[simp] theorem State.stopView_journal {ty source : Nat} {payload : List Byte} :
    (s.journal ty source payload).stopView = s.stopView := by simp +decide [State.journal]

@[simp] theorem State.stopView_errorSummary {source : Nat} {code : Code} {cause dpa : Nat} :
    (s.errorSummary source code cause dpa).stopView = s.stopView := by simp [State.errorSummary]

theorem ceCounter_aside (mem : Nat) : (ceCounter mem).aside = true := by
  unfold ceCounter; split_ifs <;> rfl

theorem ueCounter_aside (mem : Nat) : (ueCounter mem).aside = true := by
  unfold ueCounter; split_ifs <;> rfl

@[simp] theorem State.stopView_eccLog {c : Nat} {e : LogEntry} : (s.eccLog c e).stopView = s.stopView := by
  unfold State.eccLog
  extract_lets ce thr old s1 s2
  have counted : s2.stopView = s.stopView := by
    cases h : ce <;> simp +decide [s2, s1, h, ceCounter_aside, ueCounter_aside]
  split
  · simp +decide [counted]
  · split <;> simp +decide [counted]

@[simp] theorem State.stopView_setBox {m : Nat} {b : Mailbox} : (s.setBox m b).stopView = s.stopView := by
  simp +decide [State.setBox]

@[simp] theorem State.stopView_mailDiscard {m : Nat} {q : Option Nat} : (s.mailDiscard m q).stopView = s.stopView := by
  cases q <;> simp +decide [State.mailDiscard]

@[simp] theorem State.stopView_mailArrive {m : Nat} {w : Word32} {q : Option Nat} :
    (s.mailArrive m w q).stopView = s.stopView := by simp [State.mailArrive]

@[simp] theorem State.stopView_post {m : Nat} {w : Word32} {q : Option Nat} : (s.post m w q).stopView = s.stopView := by
  cases q <;> simp +decide [State.post]

@[simp] theorem State.stopView_send {m : Msg} : (s.send m).stopView = s.stopView :=
  stopView_record ..

end

/-! ### Queues -/

theorem QKind.fields_aside (k : QKind) :
    k.fields.tail.aside = true ∧ k.fields.head.aside = true ∧ k.fields.err.aside = true ∧ k.fields.state.aside = true ∧
      k.fields.code.aside = true := by
  cases k <;> decide

section
variable {s : State} {q : QId}

@[simp] theorem State.stopView_setRing {r : Ring} : (s.setRing q r).stopView = s.stopView :=
  stopView_record ..

@[simp] theorem State.stopView_qSummary : (s.qSummary q).stopView = s.stopView := by
  unfold State.qSummary
  dsimp only
  split <;> simp +decide

@[simp] theorem State.stopView_qRefresh : (s.qRefresh q).stopView = s.stopView := by
  simp [State.qRefresh, q.kind.fields_aside]

@[simp] theorem State.stopView_qBusy {b : Bool} : (s.qBusy q b).stopView = s.stopView := by simp [State.qBusy]

@[simp] theorem State.stopView_qHalt {code : Code} : (s.qHalt q code).stopView = s.stopView := by
  simp [State.qHalt, q.kind.fields_aside]

@[simp] theorem State.stopView_qSetTail {t : Val} : (s.qSetTail q t).stopView = s.stopView := by
  simp [State.qSetTail, State.qOverrun, q.kind.fields_aside]

@[simp] theorem State.stopView_qAdvance {n : Nat} : (State.qAdvance n s q).stopView = s.stopView := by
  induction n generalizing s with
  | zero => rfl
  | succ n ih => simp [State.qAdvance, ih, q.kind.fields_aside]

@[simp] theorem State.stopView_qDone {seq : Nat} : (s.qDone q seq).stopView = s.stopView := by simp [State.qDone]

@[simp] theorem State.stopView_qFail {seq : Nat} {code : Code} {notify : Bool} {mbx : Nat} :
    (s.qFail q seq code notify mbx).stopView = s.stopView := by
  unfold State.qFail
  dsimp only
  split <;> simp +decide

end

/-! ### The glaze -/

section
variable {s : State} {k : Nat}

@[simp] theorem State.stopView_onGlz {f : Glaze → Glaze} : (s.onGlz f).stopView = s.stopView :=
  stopView_record ..
@[simp] theorem State.stopView_setLine {l : Option GlazeLine} : (s.setLine k l).stopView = s.stopView :=
  stopView_record ..
@[simp] theorem State.stopView_dropData {m : BitVec 8} : (s.dropData k m).stopView = s.stopView :=
  stopView_record ..
@[simp] theorem State.stopView_setMeta {m : RowMeta} : (s.setMeta k m).stopView = s.stopView :=
  stopView_record ..
@[simp] theorem State.stopView_setCw {is : List Nat} {b : Bool} : (s.setCw k is b).stopView = s.stopView :=
  stopView_record ..
@[simp] theorem State.stopView_wellWrite {d : Dpa} {bs : List Byte} : (s.wellWrite d bs).stopView = s.stopView :=
  stopView_record ..

@[simp] theorem State.stopView_tackRefresh {c : Nat} : (s.tackRefresh c).stopView = s.stopView := stopView_wrN rfl

@[simp] theorem State.stopView_setSlot {f : Option FillSlot} : (s.setSlot k f).stopView = s.stopView := by
  simp +decide [State.setSlot]

@[simp] theorem State.stopView_setVictim {v : Option Victim} : (s.setVictim k v).stopView = s.stopView := by
  simp +decide [State.setVictim]

@[simp] theorem State.stopView_writeBack {m : BitVec 8} : (s.writeBack k m).stopView = s.stopView := by
  simp +decide [State.writeBack]

@[simp] theorem State.stopView_cleanLine : (s.cleanLine k).stopView = s.stopView := by
  unfold State.cleanLine
  split <;> simp

@[simp] theorem State.stopView_unusedPrefetch {l : GlazeLine} : (s.unusedPrefetch k l).stopView = s.stopView := by
  simp +decide [State.unusedPrefetch]

@[simp] theorem State.stopView_dropLine : (s.dropLine k).stopView = s.stopView := by
  unfold State.dropLine
  split <;> simp

@[simp] theorem State.stopView_usePrefetch : (s.usePrefetch k).stopView = s.stopView := by
  unfold State.usePrefetch
  split <;> simp +decide

@[simp] theorem State.stopView_tack : (s.tack k).stopView = s.stopView := by
  unfold State.tack
  split <;> simp

@[simp] theorem State.stopView_evict {l : GlazeLine} : (s.evict k l).stopView = s.stopView := by simp [State.evict]

/-- A way is free already, or an eviction frees it. -/
theorem State.stopView_of_getWay {choice w : Nat} {t : State} (h : s.getWay k choice = some (w, t)) :
    t.stopView = s.stopView := by
  unfold State.getWay at h
  dsimp only at h
  split at h
  · cases h; rfl
  · split at h
    · cases h
    · split at h
      · cases h
      · cases h; simp

@[simp] theorem State.stopView_overflow : (s.overflow k).stopView = s.stopView := by simp +decide [State.overflow]

end

/-! ### Requests at their targets -/

section
variable {s : State} {k : Nat} {j : MemJob}

@[simp] theorem State.stopView_logGlazeUe {d : Dpa} {who : Nat} : (s.logGlazeUe d who).stopView = s.stopView := by
  simp [State.logGlazeUe]

@[simp] theorem State.stopView_putLine {d : Dpa} {bs : List Byte} {who : Nat} :
    (s.putLine d bs who).st.stopView = s.stopView := by
  unfold State.putLine
  extract_lets n k staged whole words part s1 s2 s3
  have put : s3.stopView = s.stopView := by
    have lined : s2.stopView = s.stopView := by
      simp only [s2]
      split <;> simp [s1]
    simp +decide [s3, lined]
  split <;> simp [put]

@[simp] theorem State.stopView_ringBells {d n : Nat} : (s.ringBells d n).stopView = s.stopView := by simp [State.ringBells]

@[simp] theorem State.stopView_addFault {d : Dpa} {code : Code} : (s.addFault d code).stopView = s.stopView := by
  simp +decide [State.addFault]

@[simp] theorem State.stopView_applyAct {fresh : BitVec 8} : (s.applyAct fresh j).st.stopView = s.stopView := by
  unfold State.applyAct
  extract_lets d n who cur code fail
  have failed : fail.st.stopView = s.stopView := by simp [fail]
  split
  · rfl
  · split <;> simp [failed]
  · split <;> simp [failed]
  · simp
  · split_ifs <;> simp +decide [failed]
  · split <;> simp +decide [failed]
  · split
    · exact failed
    · simp +decide only [stopView_ringBells, stopView_bump]
      refine stopView_each fun r t => ?_
      split <;> simp

@[simp] theorem State.stopView_respond {code : Code} {data : List Byte} : (s.respond j code data).stopView = s.stopView := by
  unfold State.respond
  split <;> rfl

@[simp] theorem State.stopView_answer {a : Ans} : (State.answer j a).stopView = a.st.stopView := stopView_respond

@[simp] theorem State.stopView_countRead {hit : Bool} : (s.countRead j hit).stopView = s.stopView := by
  unfold State.countRead
  dsimp only
  split <;> simp +decide

@[simp] theorem State.stopView_prefetchLine {r : MemReq} : (s.prefetchLine k r).stopView = s.stopView := by
  unfold State.prefetchLine
  extract_lets c held
  split
  · rfl
  · split
    · rfl
    · next way => simp +decide [stopView_of_getWay way]

@[simp] theorem State.stopView_noteMiss {r : MemReq} : (s.noteMiss k r).stopView = s.stopView := by
  unfold State.noteMiss
  split <;> simp

@[simp] theorem State.stopView_putOff {bank : Bool} : (s.putOff j bank).stopView = s.stopView := by
  simp +decide [State.putOff]

@[simp] theorem State.stopView_merge {f : FillSlot} : (s.merge k f j).stopView = s.stopView := by simp +decide [State.merge]

/-- The view of the state that an arrival leaves; a request put off leaves the one before. -/
def Arrived.stopView (s : State) : Arrived → StopView
  | .done a => a.st.stopView
  | .merged t => t.stopView
  | .off _ => s.stopView

@[simp] theorem Arrived.stopView_done {a : Ans} : (Arrived.done a).stopView s = a.st.stopView := rfl
@[simp] theorem Arrived.stopView_merged {t : State} : (Arrived.merged t).stopView s = t.stopView := rfl
@[simp] theorem Arrived.stopView_off {b : Bool} : (Arrived.off b).stopView s = s.stopView := rfl

@[simp] theorem Arrived.stopView_arriveLine : (s.arriveLine k j).stopView s = s.stopView := by
  unfold State.arriveLine
  extract_lets c slotFor passed opened wrote tacked
  have slotted (t : State) (ovf : Bool) : (slotFor t ovf).stopView s = t.stopView := by simp [slotFor]
  have passed_eq : passed.stopView = s.stopView := by simp [passed]
  have wrote_eq : wrote.st.stopView = s.stopView := by simp [wrote, opened, passed_eq]
  have tacked_eq : tacked.stopView = s.stopView := by simp [tacked]
  split
  · split
    · simp [wrote_eq]
    · split <;> simp [slotted, passed_eq]
  · split
    · next l _ =>
      extract_lets re present valid served
      have present_eq : present.stopView = s.stopView := by simp +decide [present, tacked_eq]
      have served_eq : served.stopView = s.stopView := by simp [served, present_eq]
      split
      · simp [served_eq]
      · split <;> simp [slotted, present_eq]
    · split
      · split
        · rfl
        · next way => simp [State.stopView_of_getWay way]
      · split
        · rfl
        · rfl
        · rfl
        · next way => simp [slotted, State.stopView_of_getWay way]

@[simp] theorem State.stopView_hostErr {source addr : Nat} {code : Code} : (s.hostErr source addr code).stopView = s.stopView := by
  simp +decide [State.hostErr]

@[simp] theorem State.stopView_hostRefuse {d : Dpa} {e : Code} : (s.hostRefuse d e).stopView = s.stopView := by
  simp +decide [State.hostRefuse]

@[simp] theorem State.stopView_hostWrite {d : Dpa} {bs : List Byte} : (s.hostWrite d bs).2.stopView = s.stopView := by
  unfold State.hostWrite
  split <;> simp

@[simp] theorem State.stopView_hostSend {src : Requester} {tag : Nat} {d : Dpa} {n : Nat} :
    (s.hostSend src tag d n).stopView = s.stopView := by
  unfold State.hostSend
  split
  · rfl
  · split <;> simp

/-- Bytes written into a well one by one (R183). -/
theorem State.stopView_foldl_wellWrite {d : Dpa} (qs : List (Nat × Byte)) :
    (qs.foldl (fun u q => u.wellWrite (d + q.1) [q.2]) s).stopView = s.stopView :=
  State.each_same State.stopView qs (fun q u => u.wellWrite (d + q.1) [q.2]) (fun _ _ => rfl) s

@[simp] theorem Arrived.stopView_arrive : (s.arrive j).stopView s = s.stopView := by
  unfold State.arrive
  split
  · next c o _ =>
    extract_lets l k
    split
    · rfl
    split
    · rfl
    split
    · rfl
    split
    · rfl
    split
    · rfl
    split
    · split_ifs <;> simp +decide
    · simp
  · split
    · split <;> simp
    · split
      · rfl
      · next bs _ _ _ =>
        extract_lets hit kept t
        have written : t.stopView = s.stopView := by
          simp only [t]
          split <;> simp +decide [State.stopView_foldl_wellWrite]
        split <;> simp [written]
    · rfl
  · split
    · split <;> simp
    · simp
    · rfl
  · rfl

@[simp] theorem State.stopView_request : (s.request j).stopView = s.stopView := by
  have arrived := Arrived.stopView_arrive (s := s) (j := j)
  unfold State.request
  split <;> simp_all

end

/-! ### Coats, DMA channels, collectives -/

section
variable {s : State}

@[simp] theorem State.stopView_unhold {k : Nat} : (s.unhold k).stopView = s.stopView := by
  unfold State.unhold
  split <;> simp

@[simp] theorem State.stopView_coatInuse : s.coatInuse.stopView = s.stopView := by simp +decide [State.coatInuse]

@[simp] theorem State.stopView_setCoat {id : Nat} {c : Coat} : (s.setCoat id c).stopView = s.stopView := by
  simp +decide [State.setCoat]

@[simp] theorem State.stopView_coatRelease {id : Nat} {c : Coat} : (s.coatRelease id c).stopView = s.stopView := by
  simp [State.coatRelease]

@[simp] theorem State.stopView_coatFinish {id : Nat} {c : Coat} {committed : Bool} {code : Code} :
    (s.coatFinish id c committed code).stopView = s.stopView := by
  unfold State.coatFinish
  extract_lets s1 _ s2 s3 q s4 s5
  have freed : s2.stopView = s.stopView := by
    refine stopView_coatInuse.trans (Eq.trans (stopView_record ..) ?_)
    simp +decide [s1]
  simp +decide [s5, s4, s3, freed]

@[simp] theorem State.stopView_coatAbort {id : Nat} {code : Code} : (s.coatAbort id code).stopView = s.stopView := by
  unfold State.coatAbort
  split <;> simp

@[simp] theorem State.stopView_setRuns {ch : Nat} {rs : List DmaRun} : (s.setRuns ch rs).stopView = s.stopView := by
  simp +decide [State.setRuns]

@[simp] theorem State.stopView_dmaEnd {ch : Nat} {r : DmaRun} {code : Code} {off : Nat} :
    (s.dmaEnd ch r code off).stopView = s.stopView := by
  unfold State.dmaEnd
  extract_lets s1 s2
  have ended : s2.stopView = s.stopView := by simp +decide [s2, s1]
  exact ended

@[simp] theorem State.stopView_dmaSettle {ch : Nat} : (s.dmaSettle ch).stopView = s.stopView := by
  refine stopView_each fun r t => ?_
  split <;> simp

@[simp] theorem State.stopView_setColls {cs : List Coll} : (s.setColls cs).stopView = s.stopView := by
  simp +decide [State.setColls]

@[simp] theorem State.stopView_colErr {group num rank : Nat} {code : Code} {remote : Bool} :
    (s.colErr group num rank code remote).stopView = s.stopView := by simp +decide [State.colErr]

@[simp] theorem State.stopView_collHalt {c : Coll} {code : Code} {remote : Bool} {rank : Nat} :
    (s.collHalt c code remote rank).stopView = s.stopView := by simp +decide [State.collHalt]

end

/-! ### Threads, streams, row and finish queues -/

section
variable {s : State}

@[simp] theorem State.stopView_setPth {q : Nat} {t : PanelThread} : (s.setPth q t).stopView = s.stopView :=
  stopView_record ..
@[simp] theorem State.stopView_setSth {k : Nat} {t : SeqState} : (s.setSth k t).stopView = s.stopView :=
  stopView_record ..
@[simp] theorem State.stopView_unwait {th : SeqThread} : (s.unwait th).stopView = s.stopView :=
  stopView_record ..
@[simp] theorem State.stopView_setStream {k : Nat} {t : StreamState} : (s.setStream k t).stopView = s.stopView :=
  stopView_record ..
@[simp] theorem State.stopView_setFlight {n : Nat} {f : Option Flight} : (s.setFlight n f).stopView = s.stopView :=
  stopView_record ..

@[simp] theorem State.stopView_threadHalt {q : Nat} : (s.threadHalt q).stopView = s.stopView := by
  simp +decide [State.threadHalt, State.threadSettle, State.panelRefresh]

@[simp] theorem State.stopView_seqCapture {k cause : Nat} {code : Code} : (s.seqCapture k cause code).stopView = s.stopView := by
  simp +decide [State.seqCapture]

@[simp] theorem State.stopView_seqStop {k stop : Nat} : (s.seqStop k stop).stopView = s.stopView := by
  simp +decide [State.seqStop]

@[simp] theorem State.stopView_breakStream {k : Nat} : (s.breakStream k).stopView = s.stopView := by
  simp +decide [State.breakStream]

@[simp] theorem State.stopView_endRecvs : s.endRecvs.stopView = s.stopView := by
  refine stopView_each fun e t => ?_
  split
  · split <;> simp
  · rfl

@[simp] theorem State.stopView_rowStop {n : Nat} {code : Code} : (s.rowStop n code).stopView = s.stopView := by
  simp [State.rowStop]

@[simp] theorem State.stopView_finBusy {c : Nat} : (s.finBusy c).stopView = s.stopView := stopView_wrN rfl

@[simp] theorem State.stopView_finCount {c : Nat} {t : FinTask} : (s.finCount c t).stopView = s.stopView := by
  simp +decide [State.finCount]

@[simp] theorem State.stopView_finStop {c n : Nat} {code : Code} : (s.finStop c n code).stopView = s.stopView := by
  simp [State.finStop]

@[simp] theorem State.stopView_markFault {p : Nat} {wash : Bool} {code : Code} {origin : Option Nat} :
    (s.markFault p wash code origin).stopView = s.stopView := by simp +decide [State.markFault]

@[simp] theorem State.stopView_partFault {p : Nat} {wash : Bool} {code : Code} {origin : Option Nat} :
    (s.partFault p wash code origin).stopView = s.stopView := by simp [State.partFault]

end

/-! ### What a lost canvas and an island turned off lose (R40, R388) -/

section
variable {s : State}

@[simp] theorem State.stopView_capacity : s.capacity.stopView = s.stopView := by simp +decide [State.capacity]

@[simp] theorem State.stopView_coatCanvasLost {c : Nat} : (s.coatCanvasLost c).stopView = s.stopView := by
  simp [State.coatCanvasLost]

@[simp] theorem State.stopView_answerWaiting {c : Nat} {code : Code} : (s.answerWaiting c code).stopView = s.stopView := by
  simp +decide [State.answerWaiting]

@[simp] theorem State.stopView_answerPackets {c : Nat} {code : Code} : (s.answerPackets c code).stopView = s.stopView := by
  refine stopView_each fun e t => ?_
  split
  · split
    · dsimp only
      split <;> simp +decide
    · rfl
  · rfl

@[simp] theorem State.stopView_roDrop {p : Nat → Bool} : (s.roDrop p).stopView = s.stopView :=
  stopView_record ..

@[simp] theorem State.stopView_losePanels {i : Nat} : (s.losePanels i).stopView = s.stopView := by
  simp [State.losePanels]

@[simp] theorem State.stopView_loseGlaze {i : Nat} : (s.loseGlaze i).stopView = s.stopView := by simp [State.loseGlaze]

@[simp] theorem State.stopView_loseFinish {i : Nat} : (s.loseFinish i).stopView = s.stopView :=
  stopView_record ..

@[simp] theorem State.stopView_loseSeq {i : Nat} : (s.loseSeq i).stopView = s.stopView := by
  simp [State.loseSeq]

@[simp] theorem State.stopView_loseFabric {i : Nat} : (s.loseFabric i).stopView = s.stopView :=
  stopView_record ..

@[simp] theorem State.stopView_loseStretcher {c : Nat} : (s.loseStretcher c).stopView = s.stopView :=
  stopView_record ..

@[simp] theorem State.stopView_loseTether {c : Nat} : (s.loseTether c).stopView = s.stopView := by
  unfold State.loseTether
  extract_lets posted s1 _ _ s2
  have cleared : s2.stopView = s.stopView := (stopView_each fun _ _ => stopView_clr rfl : s1.stopView = _)
  simp [cleared]

@[simp] theorem State.stopView_loseSpar {ps : List Nat} : (s.loseSpar ps).stopView = s.stopView := by
  simp [State.loseSpar]

@[simp] theorem State.stopView_loseEngines : s.loseEngines.stopView = s.stopView := by
  unfold State.loseEngines
  extract_lets s1 s2
  have dropped : s1.stopView = s.stopView := by simp [s1]
  have released : s2.stopView = s1.stopView := by simp [s2]
  exact released.trans dropped

@[simp] theorem State.stopView_loseIsland {i : Nat} : (s.loseIsland i).stopView = s.stopView := by simp [State.loseIsland]

@[simp] theorem State.stopView_loseUnits {c : Nat} : (s.loseUnits c).stopView = s.stopView := by
  simp [State.loseUnits]

end

/-! ### Loops over islands and canvases -/

/-- What every turn of a loop keeps, turn by turn of the list. -/
theorem State.each_keeps_of_mem {α : Type} (P : State → Prop) {xs : List α} {f : α → State → State}
    (h : ∀ x ∈ xs, ∀ t, P t → P (f x t)) {s : State} (hs : P s) : P (s.each xs f) := by
  induction xs generalizing s with
  | nil => exact hs
  | cons x xs ih => exact ih (fun y hy => h y (List.mem_cons_of_mem _ hy)) (h x List.mem_cons_self s hs)

/-- What the turn of an element brings about and every turn keeps. -/
theorem State.each_reaches {α : Type} (P : State → Prop) {xs : List α} {f : α → State → State} {x : α} (hx : x ∈ xs)
    (reach : ∀ t, P (f x t)) (keep : ∀ y ∈ xs, ∀ t, P t → P (f y t)) (s : State) : P (s.each xs f) := by
  induction xs generalizing s with
  | nil => cases hx
  | cons y ys ih =>
    have later : ∀ y ∈ ys, ∀ t, P t → P (f y t) := fun y hy => keep y (List.mem_cons_of_mem _ hy)
    rcases List.mem_cons.1 hx with rfl | hx
    · exact State.each_keeps_of_mem P later (reach s)
    · exact ih hx later _

/-! ### An island brought to a state with nothing pending -/

/-- An island brought to a state, and no change of it waits. -/
def State.settleIsland (s : State) (i st : Nat) : State :=
  ((s.setIsland i st).clr GLB_ISL_STATE.PENDING_ENABLE i).clr GLB_ISL_STATE.PENDING_DISABLE i

/-- The fields of GLB_ISL_STATE. -/
def islandFields : List RegField := [GLB_ISL_STATE.STATE, GLB_ISL_STATE.PENDING_ENABLE, GLB_ISL_STATE.PENDING_DISABLE]

section
variable (s : State) (i st : Nat)

theorem State.sbd_settleIsland : (s.settleIsland i st).sbd = s.sbd := by
  unfold State.settleIsland State.setIsland
  split <;> rfl

theorem State.rd_settleIsland {f : RegField} (h : f.Outside islandFields) (j : Nat) :
    (s.settleIsland i st).rd f j = s.rd f j := by
  obtain ⟨state, enable, disable⟩ : _ ∧ _ ∧ _ := by simpa [RegField.Outside, islandFields] using h
  unfold State.settleIsland State.setIsland
  split <;> simp only [State.clr_eq, State.wrN_eq, State.rd_wr_of_place_ne, state, enable, disable, ne_eq, not_false_iff]

theorem State.island_settleIsland {j : Nat} (hi : i < 144) (hj : j < 144) :
    (s.settleIsland i st).island j = if j = i ∧ s.island i ≠ islFused then st % 8 else s.island j := by
  have stays (t : State) : ((t.clr GLB_ISL_STATE.PENDING_ENABLE i).clr GLB_ISL_STATE.PENDING_DISABLE i).island j = t.island j := by
    simp (disch := decide) only [State.island, State.rdN, State.clr_eq, State.rd_wr_of_place_ne]
  rw [State.settleIsland, stays, State.setIsland]
  by_cases fused : s.island i = islFused
  · simp [fused]
  · rw [if_neg fused]
    by_cases same : j = i
    · subst same
      rw [if_pos ⟨rfl, fused⟩]
      exact s.rdN_wrN_self GLB_ISL_STATE.STATE j st (by decide)
    · have other := GLB_ISL_STATE.STATE.key_index_ne (i := j) (j := i) (by omega) (by omega) same
      simp only [same, false_and, if_false, State.island, State.rdN, State.wrN_eq, State.rd_wr_ne _ _ other]

end

/-! ### A canvas marked LOST (R388) -/

/-- The channels' bits and CONF: what marking a canvas LOST leaves alone of the view. -/
def steadyFields : List RegField := [SBD_STATUS.PWDIS_A, SBD_STATUS.PWDIS_B, SEC_STATUS.CONF]

theorem steadyFields_subset {f : RegField} (h : f ∈ steadyFields) : f ∈ stopFields := by
  fin_cases h <;> simp [stopFields]

/-- LOST with its event, and the islands of the canvas LOST. -/
def State.lostMarks (s : State) (c : Nat) : State :=
  ((s.set1 TTH_STATUS.LOST c).set1 TTH_STATUS.LOST_EVT c).each (List.range 34) fun l t => t.settleIsland (islandOf c l) islLost

theorem State.markLost_of_lost {s : State} {c : Nat} (h : s.on TTH_STATUS.LOST c = true) (cause : Nat) : s.markLost c cause = s := by
  rw [State.markLost, if_pos h]

/-- Beside its marks, the loss of a canvas leaves the view alone. -/
theorem State.stopView_markLost {s : State} {c : Nat} (h : s.on TTH_STATUS.LOST c = false) (cause : Nat) :
    (s.markLost c cause).stopView = (s.lostMarks c).stopView := by
  rw [State.markLost, h]
  simp [State.lostMarks, State.settleIsland]

section
variable (s : State) (c : Nat)

theorem State.sbd_lostMarks : (s.lostMarks c).sbd = s.sbd :=
  State.each_same (·.sbd) _ _ (fun _ t => t.sbd_settleIsland ..) _

theorem State.rd_lostMarks {f : RegField} (h : f ∈ steadyFields) (i : Nat) : (s.lostMarks c).rd f i = s.rd f i := by
  have apart : ∀ f ∈ steadyFields, f.Outside islandFields ∧
      f.reg * 64 + f.lo ≠ TTH_STATUS.LOST.reg * 64 + TTH_STATUS.LOST.lo ∧
      f.reg * 64 + f.lo ≠ TTH_STATUS.LOST_EVT.reg * 64 + TTH_STATUS.LOST_EVT.lo := by decide
  obtain ⟨island, lost, event⟩ := apart f h
  rw [State.lostMarks, State.each_same (·.rd f i) _ _ (fun l t => t.rd_settleIsland _ _ island i)]
  simp only [State.set1_eq, State.rd_wr_of_place_ne, lost, event, ne_eq, not_false_iff]

theorem State.on_lostMarks (d : Nat) :
    (s.lostMarks c).on TTH_STATUS.LOST d = (s.set1 TTH_STATUS.LOST c).on TTH_STATUS.LOST d := by
  rw [State.on, State.lostMarks, State.each_same (·.rd TTH_STATUS.LOST d) _ _ fun l t => t.rd_settleIsland _ _ (by decide) d,
    State.set1_eq _ TTH_STATUS.LOST_EVT, State.rd_wr_of_place_ne _ _ _ _ (by decide), ← State.on]

theorem State.on_set1_of_on {f : RegField} (hf : 0 < f.width) {d : Nat} (h : s.on f d = true) : (s.set1 f c).on f d = true := by
  by_cases same : f.key d = f.key c
  · have := s.on_set1_self f c hf
    rwa [State.on, State.rd, ← same] at this
  · rwa [State.on, State.set1_eq, State.rd_wr_ne _ _ same]

theorem State.island_lostMarks (hc : c < 4) {i : Nat} (lo : 136 ≤ i) (hi : i < 144) : (s.lostMarks c).island i = s.island i := by
  have marked : ((s.set1 TTH_STATUS.LOST c).set1 TTH_STATUS.LOST_EVT c).island i = s.island i := by
    simp (disch := decide) only [State.island, State.rdN, State.set1_eq, State.rd_wr_of_place_ne]
  refine State.each_keeps_of_mem (fun t => t.island i = s.island i) (fun l hl t ht => ?_) marked
  have below : islandOf c l < 136 := by
    rw [List.mem_range] at hl; unfold islandOf; omega
  rw [t.island_settleIsland _ _ (by omega) hi, if_neg (by omega), ht]

end

/-! ### An island turned off (R40, R608) -/

/-- An island that is off, FUSED or LOST. -/
def State.islandOff (s : State) (i : Nat) : Prop := s.island i ≠ islActive ∧ s.island i ≠ islWaking ∧ s.island i ≠ islClosing

theorem State.island_of_stopView {s t : State} (h : t.stopView = s.stopView) (i : Nat) : t.island i = s.island i :=
  congrArg BitVec.toNat (State.rd_of_stopView h (by simp [stopFields]) i)

/-- Turning an island off changes nothing of the view but the island's own state, which it may bring to ASLEEP. -/
theorem State.turnOff_cases (s : State) (i : Nat) :
    ((s.turnOff i).stopView = s.stopView ∧ (s.island i = islFused ∨ s.island i = islLost)) ∨
      ∃ t : State, t.stopView = s.stopView ∧ ¬(s.island i = islFused ∨ s.island i = islLost) ∧
        s.turnOff i = t.settleIsland i islAsleep := by
  unfold State.turnOff
  split
  · next stays => exact .inl ⟨stopView_loseIsland, stays⟩
  · next goes => exact .inr ⟨_, stopView_loseIsland, goes, rfl⟩

section
variable (s : State) {i : Nat}

theorem State.island_turnOff_ne {j : Nat} (hi : i < 144) (hj : j < 144) (h : j ≠ i) : (s.turnOff i).island j = s.island j := by
  obtain ⟨same, -⟩ | ⟨t, same, -, off⟩ := s.turnOff_cases i
  · exact State.island_of_stopView same j
  · rw [off, t.island_settleIsland _ _ hi hj, if_neg (by simp [h]), State.island_of_stopView same]

theorem State.islandOff_turnOff (hi : i < 144) : (s.turnOff i).islandOff i := by
  obtain ⟨same, stays⟩ | ⟨t, same, goes, off⟩ := s.turnOff_cases i
  · rw [State.islandOff, State.island_of_stopView same]
    rcases stays with h | h <;> simp [h, islFused, islLost, islActive, islWaking, islClosing]
  · have other : t.island i ≠ islFused := fun h => goes (.inl (State.island_of_stopView same i ▸ h))
    rw [State.islandOff, off, t.island_settleIsland _ _ hi hi, if_pos ⟨rfl, other⟩]
    decide

theorem State.islandOff_turnOff_of_off {j : Nat} (hi : i < 144) (hj : j < 144) (h : s.islandOff j) : (s.turnOff i).islandOff j := by
  by_cases same : j = i
  · subst same; exact s.islandOff_turnOff hi
  · rwa [State.islandOff, s.island_turnOff_ne hi hj same]

theorem State.rd_turnOff {f : RegField} (hf : f ∈ stopFields) (h : f ≠ GLB_ISL_STATE.STATE) (j : Nat) :
    (s.turnOff i).rd f j = s.rd f j := by
  have apart : ∀ f ∈ stopFields, f ≠ GLB_ISL_STATE.STATE → f.Outside islandFields := by
    decide
  obtain ⟨same, -⟩ | ⟨t, same, -, off⟩ := s.turnOff_cases i
  · exact State.rd_of_stopView same hf j
  · rw [off, t.rd_settleIsland _ _ (apart f hf h), State.rd_of_stopView same hf]

theorem State.sbd_turnOff : (s.turnOff i).sbd = s.sbd := by
  obtain ⟨same, -⟩ | ⟨t, same, -, off⟩ := s.turnOff_cases i
  · exact State.sbd_of_stopView same
  · rw [off, t.sbd_settleIsland, State.sbd_of_stopView same]

end

/-! ### What a stop leaves as it is (R608) -/

/-- The hub islands that a stop leaves on. -/
def keptIslands : List Nat := [136, 137, 138, 142, 143]

theorem mem_keptIslands {i : Nat} (h : i ∈ keptIslands) : 136 ≤ i ∧ i < 144 ∧ i ∉ stopIslands := by
  fin_cases h <;> decide

theorem mem_stopIslands {i : Nat} (h : i ∈ stopIslands) : i < 144 := by
  simp only [stopIslands, List.mem_append, List.mem_range, List.mem_cons, List.not_mem_nil, or_false] at h
  omega

/-- The sideband's own state, the channels' bits, CONF and the kept islands are as before. -/
def State.Steady (s t : State) : Prop :=
  t.sbd = s.sbd ∧ (∀ f ∈ steadyFields, ∀ i, t.rd f i = s.rd f i) ∧ ∀ i ∈ keptIslands, t.island i = s.island i

theorem State.Steady.refl (s : State) : s.Steady s := ⟨rfl, fun _ _ _ => rfl, fun _ _ => rfl⟩

theorem State.Steady.trans {s t u : State} (h : s.Steady t) (h' : t.Steady u) : s.Steady u := by
  obtain ⟨sbd, fields, islands⟩ := h
  obtain ⟨sbd', fields', islands'⟩ := h'
  exact ⟨sbd'.trans sbd, fun f hf i => (fields' f hf i).trans (fields f hf i), fun i hi => (islands' i hi).trans (islands i hi)⟩

theorem State.steady_of_stopView {s t : State} (h : t.stopView = s.stopView) : s.Steady t :=
  ⟨State.sbd_of_stopView h, fun _ hf i => State.rd_of_stopView h (steadyFields_subset hf) i, fun i _ => State.island_of_stopView h i⟩

theorem State.steady_markLost (s : State) {c : Nat} (hc : c < 4) (cause : Nat) : s.Steady (s.markLost c cause) := by
  cases lost : s.on TTH_STATUS.LOST c
  · refine State.Steady.trans (t := s.lostMarks c) ⟨s.sbd_lostMarks c, fun f hf => s.rd_lostMarks c hf, fun i hi => ?_⟩
      (State.steady_of_stopView (State.stopView_markLost lost cause))
    obtain ⟨lo, hi, -⟩ := mem_keptIslands hi
    exact s.island_lostMarks c hc lo hi
  · rw [State.markLost_of_lost lost]
    exact State.Steady.refl s

theorem State.steady_turnOff (s : State) {i : Nat} (hi : i ∈ stopIslands) : s.Steady (s.turnOff i) := by
  have other : ∀ f ∈ steadyFields, f ≠ GLB_ISL_STATE.STATE := by decide
  refine ⟨s.sbd_turnOff, fun f hf => s.rd_turnOff (steadyFields_subset hf) (other f hf), fun j hj => ?_⟩
  obtain ⟨-, lt, out⟩ := mem_keptIslands hj
  exact s.island_turnOff_ne (mem_stopIslands hi) lt (ne_of_mem_of_not_mem hi out).symm

theorem State.lost_markLost (s : State) (c cause : Nat) : (s.markLost c cause).on TTH_STATUS.LOST c = true := by
  cases lost : s.on TTH_STATUS.LOST c
  · rw [State.on, State.rd_of_stopView (State.stopView_markLost lost cause) (by simp [stopFields]), ← State.on, s.on_lostMarks]
    exact s.on_set1_self _ c (by decide)
  · rwa [State.markLost_of_lost lost]

theorem State.lost_markLost_of_lost (s : State) (c cause : Nat) {d : Nat} (h : s.on TTH_STATUS.LOST d = true) :
    (s.markLost c cause).on TTH_STATUS.LOST d = true := by
  cases lost : s.on TTH_STATUS.LOST c
  · rw [State.on, State.rd_of_stopView (State.stopView_markLost lost cause) (by simp [stopFields]), ← State.on, s.on_lostMarks]
    exact s.on_set1_of_on c (by decide) h
  · rwa [State.markLost_of_lost lost]

/-! ### A stop (R608) -/

/-- Every canvas LOST, then the islands off. -/
def State.darkened (s : State) : State :=
  (s.each canvases fun c t => t.markLost c 0).each stopIslands fun i t => t.turnOff i

section
variable (s : State)

theorem State.steady_darkened : s.Steady s.darkened := by
  unfold State.darkened
  have lost : s.Steady (s.each canvases fun c t => t.markLost c 0) :=
    State.each_keeps_of_mem s.Steady (fun c hc t h => h.trans (t.steady_markLost (by simp [canvases] at hc; omega) 0)) (.refl s)
  exact State.each_keeps_of_mem s.Steady (fun i hi t h => h.trans (t.steady_turnOff hi)) lost

theorem State.lost_darkened {c : Nat} (hc : c < 4) : s.darkened.on TTH_STATUS.LOST c = true := by
  have marked : (s.each canvases fun c t => t.markLost c 0).on TTH_STATUS.LOST c = true :=
    State.each_reaches (·.on TTH_STATUS.LOST c = true) (f := fun c t => t.markLost c 0) (x := c)
      (by simp [canvases]; omega) (fun t => t.lost_markLost c 0) (fun d _ t h => t.lost_markLost_of_lost d 0 h) s
  refine State.each_keeps (·.on TTH_STATUS.LOST c = true) stopIslands (fun i t => t.turnOff i) (fun i t h => ?_) _ marked
  rwa [State.on, t.rd_turnOff (by simp [stopFields]) (by decide)]

theorem State.islandOff_darkened {i : Nat} (hi : i ∈ stopIslands) : s.darkened.islandOff i :=
  State.each_reaches (·.islandOff i) (f := fun i t => t.turnOff i) hi (fun t => t.islandOff_turnOff (mem_stopIslands hi))
    (fun _ hj t h => t.islandOff_turnOff_of_off (mem_stopIslands hj) (mem_stopIslands hi) h) _

end

/-! ### The capacity registers brought up to date (R47) -/

/-- The fields that show the device's capacity, and the event of a change. -/
def capacityFields : List RegField :=
  [GLB_CAPACITY.CANVAS_AVAIL, GLB_CAPACITY.SERVICE, GLB_CAPACITY.PANEL_ISLANDS, GLB_CAPACITY.GESSO_LAYERS,
    GLB_ISL_STATUS.CAP_CHANGED]

theorem State.sec_capacity (s : State) : s.capacity.sec = s.sec := State.when_same (·.sec) _ _ (fun t => t.set1_sec ..) _

theorem State.rd_capacity (s : State) {f : RegField} (h : f.Outside capacityFields) (i : Nat) :
    s.capacity.rd f i = s.rd f i := by
  obtain ⟨canvas, service, panel, gesso, event⟩ : _ ∧ _ ∧ _ ∧ _ ∧ _ := by simpa [RegField.Outside, capacityFields] using h
  unfold State.capacity State.when
  dsimp only
  split <;> simp only [State.set1_eq, State.wrN_eq, State.rd_wr_of_place_ne, canvas, service, panel, gesso, event, ne_eq,
    not_false_iff]

/-! ### A stop (R608) -/

/-- What a stop does once the islands are off: tethers, in confidential mode the tenant keys, STOPPED. -/
def State.stopFinish (s : State) : State :=
  let s1 := s.each canvases fun c t => (t.loseUnits c).wrN TTH_STATUS.LINK c 0
  let s2 := s1.when s1.conf fun t => t.eraseKeys.set1 GLB_BOOT_STATUS.SCRUB_PENDING 0
  ((s2.set1 SBD_STATUS.STOPPED 0).clr SBD_STATUS.RESTART_OK 0).capacity

theorem State.stopDevice_eq (s : State) : s.stopDevice = s.darkened.stopFinish := rfl

section
variable (s : State)

theorem State.stopView_stopFinish : s.stopFinish.stopView = s.stopView := by
  simp +decide [State.stopFinish, State.eraseKeys, State.onSec]

theorem State.on_stopFinish : s.stopFinish.on SBD_STATUS.STOPPED 0 = true ∧ s.stopFinish.on SBD_STATUS.RESTART_OK 0 = false := by
  unfold State.stopFinish
  extract_lets s1 s2
  constructor
  · rw [State.on, State.rd_capacity _ (by decide), State.clr_eq, State.rd_wr_of_place_ne _ _ _ _ (by decide)]
    exact s2.on_set1_self _ 0 (by decide)
  · rw [State.on, State.rd_capacity _ (by decide)]
    exact State.on_clr_self ..

theorem State.stopFinish_of_conf (h : s.conf = true) : s.stopFinish.sec.tmk = none ∧ s.stopFinish.sec.tlk = none ∧
    s.stopFinish.on GLB_BOOT_STATUS.SCRUB_PENDING 0 = true := by
  unfold State.stopFinish
  extract_lets s1 s2
  have conf : s1.conf = true := by
    have same : s1.stopView = s.stopView := by simp +decide [s1]
    rwa [State.conf, State.on, State.rd_of_stopView same (by simp [stopFields])]
  have erased : s2 = s1.eraseKeys.set1 GLB_BOOT_STATUS.SCRUB_PENDING 0 := by
    simp only [s2, conf, State.when_true]
  have keys : (State.capacity ((s2.set1 SBD_STATUS.STOPPED 0).clr SBD_STATUS.RESTART_OK 0)).sec = s1.eraseKeys.sec := by
    rw [State.sec_capacity, State.clr_sec, State.set1_sec, erased, State.set1_sec]
  refine ⟨congrArg Security.tmk keys, congrArg Security.tlk keys, ?_⟩
  rw [State.on, State.rd_capacity _ (by decide), State.clr_eq, State.rd_wr_of_place_ne _ _ _ _ (by decide), State.set1_eq,
    State.rd_wr_of_place_ne _ _ _ _ (by decide), erased]
  exact State.on_set1_self _ _ 0 (by decide)

end

theorem State.steady_stopDevice (s : State) : s.Steady s.stopDevice :=
  s.steady_darkened.trans (State.steady_of_stopView s.darkened.stopView_stopFinish)

theorem State.lost_stopDevice (s : State) {c : Nat} (hc : c < 4) : s.stopDevice.on TTH_STATUS.LOST c = true := by
  rw [State.stopDevice_eq, State.on, State.rd_of_stopView (State.stopView_stopFinish _) (by simp [stopFields])]
  exact s.lost_darkened hc

theorem State.islandOff_stopDevice (s : State) {i : Nat} (hi : i ∈ stopIslands) : s.stopDevice.islandOff i := by
  rw [State.stopDevice_eq, State.islandOff, State.island_of_stopView (State.stopView_stopFinish _)]
  exact s.islandOff_darkened hi

theorem State.on_stopDevice (s : State) :
    s.stopDevice.on SBD_STATUS.STOPPED 0 = true ∧ s.stopDevice.on SBD_STATUS.RESTART_OK 0 = false := by
  rw [State.stopDevice_eq]
  exact s.darkened.on_stopFinish

/-- In confidential mode a stop erases the tenant keys. -/
theorem State.stopDevice_of_conf {s : State} (h : s.conf = true) : s.stopDevice.sec.tmk = none ∧ s.stopDevice.sec.tlk = none ∧
    s.stopDevice.on GLB_BOOT_STATUS.SCRUB_PENDING 0 = true := by
  obtain ⟨-, fields, -⟩ := s.steady_darkened
  have conf : s.darkened.conf = true := by rwa [State.conf, State.on, fields _ (by simp [steadyFields])]
  rw [State.stopDevice_eq]
  exact s.darkened.stopFinish_of_conf conf

/-! ### A host reset (R561) -/

/-- The fields that a host reset writes after the registers of the host domain have gone back to their reset values. -/
def hostResetFields : List RegField :=
  islandFields ++ [GLB_BOOT_STATUS.STAGE, GLB_BOOT_STATUS.RESET_CAUSE, GLB_BOOT_STATUS.CANVAS_RESET, SEC_STATUS.EXITING,
    SEC_MEAS.WORD] ++ capacityFields

/-- Through the end of a host reset: the measurement of the resident configuration and the capacity. -/
theorem State.rd_setMeas_capacity (s : State) (d : BitVec 384) (k : Nat) {f : RegField}
    (h : f.Outside (SEC_MEAS.WORD :: capacityFields)) (i : Nat) :
    (s.setMeas k d).capacity.rd f i = s.rd f i := by
  rw [State.rd_capacity _ fun g hg => h g (List.mem_cons_of_mem _ hg)]
  exact State.each_same (·.rd f i) _ _ (fun _ t => t.rd_wr_of_place_ne _ _ _ (h _ List.mem_cons_self)) s

/-- The state of a host reset with its registers filtered and its islands waking. -/
def State.hostDomain (s : State) : State :=
  let z := State.reset
  let stopped := s.stopBars 0
  let regs := s.keepRegs (fun r => hostKeeps r || r == GLB_ISL_STATE.STATE.reg)
  let host := { z.host with busMaster := s.host.busMaster, d3hot := s.host.d3hot, msix := s.host.msix, msixMask := s.host.msixMask }
  let gso := { z.gso with remap := s.gso.remap }
  let t := { z with regs := regs, sec := s.sec, jnl := s.jnl, boot := { s.boot with resetDue := none }, always := s.always, gso := gso,
                    host := host, power := s.power, therm := s.therm, sbd := s.sbd, sent := s.sent, free := s.free, pending := s.pending }
  t.each hostIslands fun i u => u.settleIsland i (if stopped && i != 137 then islAsleep else islWaking)

theorem State.hostReset_eq (s : State) (cause : Nat) : s.hostReset cause =
    (((((s.hostDomain.wrN GLB_BOOT_STATUS.STAGE 0 (if s.stopBars 0 then 2 else 3)).wrN GLB_BOOT_STATUS.RESET_CAUSE 0 cause).wrN
      GLB_BOOT_STATUS.CANVAS_RESET 0 0).flag SEC_STATUS.EXITING 0 (s.on GLB_BOOT_STATUS.SCRUB_PENDING 0)).setMeas 3 (s.meas 2)).capacity :=
  rfl

section
variable (s : State) (cause : Nat)

theorem State.sbd_hostDomain : s.hostDomain.sbd = s.sbd :=
  State.each_same (·.sbd) hostIslands _ (fun i u => u.sbd_settleIsland i _) _

theorem State.sbd_hostReset : (s.hostReset cause).sbd = s.sbd := by
  have meas (t : State) (k : Nat) (d : BitVec 384) : (t.setMeas k d).sbd = t.sbd :=
    State.each_same (·.sbd) _ _ (fun _ u => u.wrN_sbd ..) t
  rw [State.hostReset_eq, State.sbd_of_stopView State.stopView_capacity]
  simp only [meas, State.flag_sbd, State.wrN_sbd, State.sbd_hostDomain]

theorem State.rd_hostReset {f : RegField} (lo : f.lo < 64) (keep : hostKeeps f.reg = true)
    (h : f.Outside hostResetFields) (i : Nat) : (s.hostReset cause).rd f i = s.rd f i := by
  simp only [RegField.Outside, hostResetFields, List.mem_append, or_imp, forall_and] at h
  obtain ⟨⟨island, fields⟩, capacity⟩ := h
  obtain ⟨stage, reason, canvas, exiting, meas⟩ : _ ∧ _ ∧ _ ∧ _ ∧ _ := by simpa using fields
  have kept : s.hostDomain.rd f i = s.rd f i := by
    refine (State.each_same (·.rd f i) hostIslands _ (fun j u => u.rd_settleIsland j _ island i) _).trans ?_
    exact congrArg (Option.getD · f.reset) (Tab.find_filter_of_kept s.regs fun _ => by simp [keyReg_key lo, keep])
  rw [State.hostReset_eq, State.rd_setMeas_capacity _ _ _ (by simpa [RegField.Outside, meas] using capacity)]
  simp only [State.flag_eq, State.wrN_eq, State.rd_wr_of_place_ne, stage, reason, canvas, exiting, ne_eq, not_false_iff, kept]

theorem State.stage_hostReset (h : s.stopBars 0 = false) : (s.hostReset cause).stage = 3 := by
  rw [State.stage, State.rdN, State.hostReset_eq, State.rd_setMeas_capacity _ _ _ (by decide)]
  simp (disch := decide) only [State.flag_eq, State.wrN_eq, State.rd_wr_of_place_ne, State.rd_wr_self, h]
  rfl

theorem State.cause_hostReset : (s.hostReset cause).rdN GLB_BOOT_STATUS.RESET_CAUSE 0 = cause % 16 := by
  rw [State.rdN, State.hostReset_eq, State.rd_setMeas_capacity _ _ _ (by decide)]
  simp (disch := decide) only [State.flag_eq, State.wrN_eq _ GLB_BOOT_STATUS.CANVAS_RESET, State.rd_wr_of_place_ne]
  exact State.rdN_wrN_self _ GLB_BOOT_STATUS.RESET_CAUSE 0 cause (by decide)

end

/-! ### The sideband's own state -/

section
variable (s : State) (g : Sideband → Sideband) (f : RegField) (i : Nat)

@[simp] theorem State.on_onSbd : (s.onSbd g).on f i = s.on f i := rfl
@[simp] theorem State.island_onSbd : (s.onSbd g).island i = s.island i := rfl
@[simp] theorem State.conf_onSbd : (s.onSbd g).conf = s.conf := rfl
@[simp] theorem State.boot_onSbd : (s.onSbd g).boot = s.boot := rfl
@[simp] theorem State.sec_onSbd : (s.onSbd g).sec = s.sec := rfl
@[simp] theorem State.sbd_onSbd : (s.onSbd g).sbd = g s.sbd := rfl

end

end Sys2Proof.Machine

namespace Sys2Proof.Claim

/-! ### A change of registers, sideband and sketchbook queue only -/

theorem SummaryOnly.refl (s : State) (ks : List Nat) : SummaryOnly s s ks := ⟨rfl, rfl, fun _ _ _ => rfl⟩

theorem SummaryOnly.wr {s t : State} {ks : List Nat} (h : SummaryOnly s t ks) {f : RegField} {i : Nat} (v : Val)
    (listed : f.key i ∈ ks ++ [JNL_NEXT_SEQ.VALUE.key 0, JNL_LOST.COUNT.key 0, JNL_STATUS.RECORD_LOST.key 0]) :
    SummaryOnly s (t.wr f i v) ks := by
  obtain ⟨only, slots, same⟩ := h
  exact ⟨congrArg (fun u : State => u.wr f i v) only, slots, same.wr v listed⟩

theorem SummaryOnly.onSbd {s t : State} {ks : List Nat} (h : SummaryOnly s t ks) (g : Sideband → Sideband) :
    SummaryOnly s (t.onSbd g) ks := by
  obtain ⟨only, slots, same⟩ := h
  exact ⟨congrArg (fun u : State => u.onSbd g) only, slots, same⟩

/-- Another queue of records; the image stays. -/
theorem SummaryOnly.queue {s t : State} {ks : List Nat} (h : SummaryOnly s t ks) {j : Journal} (image : j.slots = t.jnl.slots) :
    SummaryOnly s { t with jnl := j } ks := by
  obtain ⟨only, slots, same⟩ := h
  exact ⟨congrArg (fun u : State => { u with jnl := j }) only, image.trans slots, same⟩

theorem SummaryOnly.journal {s t : State} {ks : List Nat} (h : SummaryOnly s t ks) (ty source : Nat) (payload : List Byte) :
    SummaryOnly s (t.journal ty source payload) ks := by
  unfold State.journal
  dsimp only
  split
  · exact SummaryOnly.wr (f := JNL_NEXT_SEQ.VALUE) (i := 0) (h.queue (by rfl)) _ (by simp)
  · split
    · exact SummaryOnly.wr (f := JNL_NEXT_SEQ.VALUE) (i := 0) (h.queue (by rfl)) _ (by simp)
    · exact SummaryOnly.wr (f := JNL_STATUS.RECORD_LOST) (i := 0) (h.wr (f := JNL_LOST.COUNT) (i := 0) _ (by simp)) _ (by simp)

theorem SummaryOnly.errorSummary {s t : State} {ks : List Nat} (h : SummaryOnly s t ks) (source : Nat) (code : Code)
    (cause dpa : Nat) : SummaryOnly s (t.errorSummary source code cause dpa) ks := by
  unfold State.errorSummary
  dsimp only
  split
  · exact h.queue rfl
  · apply SummaryOnly.journal
    exact h.queue rfl

/-- What an error summary leaves of the registers. -/
theorem rd_errorSummary (s : State) (source : Nat) (code : Code) (cause dpa : Nat) {f : RegField}
    (h : f.Outside [JNL_NEXT_SEQ.VALUE, JNL_LOST.COUNT, JNL_STATUS.RECORD_LOST]) (i : Nat) :
    (s.errorSummary source code cause dpa).rd f i = s.rd f i := by
  obtain ⟨-, -, same⟩ := (SummaryOnly.refl s []).errorSummary source code cause dpa
  obtain ⟨seq, lost, flag⟩ : _ ∧ _ ∧ _ := by simpa [RegField.Outside] using h
  exact same f i (by simp [RegField.key_ne, seq, lost, flag])

theorem sbd_errorSummary (s : State) (source : Nat) (code : Code) (cause dpa : Nat) :
    (s.errorSummary source code cause dpa).sbd = s.sbd := State.sbd_of_stopView State.stopView_errorSummary

/-! ### The power-disable channels (R607 to R609) -/

/-- The bit of a channel lies at another place than a field outside the two bits. -/
theorem pwdisBit_place_ne {f : RegField} (h : f.Outside [SBD_STATUS.PWDIS_A, SBD_STATUS.PWDIS_B])
    (b : Bool) : f.reg * 64 + f.lo ≠ (pwdisBit b).reg * 64 + (pwdisBit b).lo := by
  cases b
  · exact h SBD_STATUS.PWDIS_A (by simp)
  · exact h SBD_STATUS.PWDIS_B (by simp)

theorem now_wr {f : RegField} (h : GLB_TIME.NS.reg * 64 + GLB_TIME.NS.lo ≠ f.reg * 64 + f.lo) (s : State) (i : Nat) (v : Val) :
    (s.wr f i v).now = s.now := congrArg BitVec.toNat (s.rd_wr_of_place_ne i 0 v h)

/-- The channels in agreement again after a count since time x. -/
def endCount (s : State) (x : Nat) : State :=
  (s.onSbd fun y => { y with apart := none, latched := false }).wrN SBD_PWDIS_SKEW.US 0 (min ((s.now - x) / 1000) (2 ^ 32 - 1))

theorem agree_of_apart {s : State} {x : Nat} {began : Bool} (h : s.sbd.apart = some (x, began)) (asserted : Bool) :
    s.agree asserted = (endCount s x).when (began && asserted && decide ((s.now - x) / 1000 ≤ 9999)) fun t =>
      (t.set1 SBD_STATUS.DEMAND_EVT 0).errorSummary 255 0x0705 0 0 := by
  rw [State.agree, h]
  rfl

theorem skew_endCount (s : State) (x : Nat) :
    (endCount s x).rdN SBD_PWDIS_SKEW.US 0 = min ((s.now - x) / 1000) (2 ^ 32 - 1) := by
  rw [endCount, State.rdN_wrN_self _ _ _ _ (by decide)]
  exact Nat.mod_eq_of_lt (by simp [SBD_PWDIS_SKEW.US])

theorem rd_endCount (s : State) (x : Nat) {f : RegField}
    (h : f.reg * 64 + f.lo ≠ SBD_PWDIS_SKEW.US.reg * 64 + SBD_PWDIS_SKEW.US.lo) (i : Nat) : (endCount s x).rd f i = s.rd f i :=
  State.rd_wr_of_place_ne _ 0 i _ h

/-- A channel taken as asserted. -/
def assertChannel (s : State) (b : Bool) : State := (s.set1 (pwdisBit b) 0).onSbd fun x => { x with clear := none }

section
variable {s : State} {b : Bool}

theorem exec_pwdisAssert_asserted (on : s.on (pwdisBit b) 0 = true) : exec (.pwdisAssert b) s = .next s := by
  show execPwdisAssert b s = _
  rw [execPwdisAssert, on, Bool.or_true, if_pos rfl]

theorem exec_pwdisAssert (w : s.watched = true) (off : s.on (pwdisBit b) 0 = false) :
    exec (.pwdisAssert b) s = .next (if s.on (pwdisBit !b) 0 then (assertChannel s b).agree true
      else (assertChannel s b).stopDevice.onSbd fun x => { x with apart := some (s.now, true), latched := false }) := by
  show execPwdisAssert b s = _
  rw [execPwdisAssert, w, off]
  have other : (assertChannel s b).on (pwdisBit !b) 0 = s.on (pwdisBit !b) 0 := by
    refine congrArg (· == 1) (s.rd_wr_of_place_ne 0 0 1 ?_)
    cases b <;> decide
  rw [← other, ← now_wr (pwdisBit_place_ne (by decide) b) s 0 1]
  rfl

theorem on_assertChannel : (assertChannel s b).on (pwdisBit b) 0 = true := s.on_set1_self _ 0 (by cases b <;> decide)

/-- The first channel stops the device (R608). -/
theorem firstAssert_stops (w : s.watched = true) (off : s.on (pwdisBit b) 0 = false) (other : s.on (pwdisBit !b) 0 = false) :
    ∃ t, exec (.pwdisAssert b) s = .next t ∧
      t.on (pwdisBit b) 0 = true ∧ t.on SBD_STATUS.STOPPED 0 = true ∧ t.on SBD_STATUS.RESTART_OK 0 = false ∧
      t.sbd.apart = some (s.now, true) ∧ t.sbd.clear = none ∧ (∀ c, c < 4 → t.on TTH_STATUS.LOST c = true) ∧
      (∀ i ∈ [136, 137, 138, 142, 143], t.island i = s.island i) ∧
      (∀ i ∈ stopIslands, t.island i ≠ islActive ∧ t.island i ≠ islWaking ∧ t.island i ≠ islClosing) ∧
      (s.conf = true → t.sec.tmk = none ∧ t.sec.tlk = none ∧ t.on GLB_BOOT_STATUS.SCRUB_PENDING 0 = true) := by
  have run := exec_pwdisAssert w off
  rw [other, if_neg Bool.false_ne_true] at run
  obtain ⟨sbd, fields, islands⟩ := (assertChannel s b).steady_stopDevice
  obtain ⟨stopped, restart⟩ := (assertChannel s b).on_stopDevice
  have steady : pwdisBit b ∈ steadyFields := by cases b <;> simp [pwdisBit, steadyFields]
  have before {f : RegField} (h : f.Outside [SBD_STATUS.PWDIS_A, SBD_STATUS.PWDIS_B]) (i : Nat) :
      (assertChannel s b).rd f i = s.rd f i := s.rd_wr_of_place_ne 0 i 1 (pwdisBit_place_ne h b)
  refine ⟨_, run, ?_⟩
  simp only [State.on_onSbd, State.island_onSbd, State.sec_onSbd, State.sbd_onSbd, sbd, stopped, restart, true_and]
  refine ⟨?_, rfl, fun c hc => (assertChannel s b).lost_stopDevice hc, fun i hi => ?_,
    fun i hi => (assertChannel s b).islandOff_stopDevice hi, fun conf => ?_⟩
  · rw [State.on, fields _ steady 0]
    exact on_assertChannel
  · rw [islands i hi, State.island, State.rdN, before (by decide)]
    rfl
  · refine State.stopDevice_of_conf ?_
    rwa [State.conf, State.on, before (by decide)]

/-- The second channel ends the count, and within 9,999 µs the stop is a demand (R609). -/
theorem secondAssert_ends_count {x : Nat} (w : s.watched = true) (off : s.on (pwdisBit b) 0 = false) (other : s.on (pwdisBit !b) 0 = true)
    (apart : s.sbd.apart = some (x, true)) :
    let us := (s.now - x) / 1000
    ∃ t, exec (.pwdisAssert b) s = .next t ∧ t.on (pwdisBit b) 0 = true ∧ t.sbd.apart = none ∧ t.sbd.clear = none ∧
      t.rdN SBD_PWDIS_SKEW.US 0 = min us (2 ^ 32 - 1) ∧ (us ≤ 9999 → t.on SBD_STATUS.DEMAND_EVT 0 = true) ∧
      (9999 < us → t.rd SBD_STATUS.DEMAND_EVT 0 = s.rd SBD_STATUS.DEMAND_EVT 0 ∧ t.jnl = s.jnl) ∧
      SummaryOnly s t [(pwdisBit b).key 0, SBD_PWDIS_SKEW.US.key 0, SBD_STATUS.DEMAND_EVT.key 0] := by
  intro us
  let u := endCount (assertChannel s b) x
  have now : (assertChannel s b).now = s.now := now_wr (pwdisBit_place_ne (by decide) b) s 0 1
  have run := exec_pwdisAssert w off
  rw [other, if_pos rfl, agree_of_apart (s := assertChannel s b) apart true, now, Bool.and_self, Bool.true_and] at run
  have only : SummaryOnly s u [(pwdisBit b).key 0, SBD_PWDIS_SKEW.US.key 0, SBD_STATUS.DEMAND_EVT.key 0] :=
    ((((SummaryOnly.refl s _).wr 1 (by simp)).onSbd _).onSbd _).wr _ (by simp)
  have bit : u.on (pwdisBit b) 0 = true :=
    (congrArg (· == 1) (rd_endCount (assertChannel s b) x (pwdisBit_place_ne (by decide) b).symm 0)).trans on_assertChannel
  have skew : u.rdN SBD_PWDIS_SKEW.US 0 = min us (2 ^ 32 - 1) := by rw [skew_endCount, now]
  by_cases demand : us ≤ 9999
  · rw [decide_eq_true demand, State.when_true] at run
    have summary {f : RegField} (h : f.Outside [JNL_NEXT_SEQ.VALUE, JNL_LOST.COUNT, JNL_STATUS.RECORD_LOST]) :=
      rd_errorSummary (u.set1 SBD_STATUS.DEMAND_EVT 0) 255 0x0705 0 0 h 0
    refine ⟨_, run, ?_, ?_, ?_, ?_, fun _ => ?_, fun h => absurd demand (Nat.not_le.2 h),
      (only.wr (f := SBD_STATUS.DEMAND_EVT) (i := 0) 1 (by simp)).errorSummary ..⟩
    · rw [State.on, summary (by cases b <;> decide), State.set1_eq, State.rd_wr_of_place_ne _ _ _ _ (by cases b <;> decide)]
      exact bit
    · rw [sbd_errorSummary]; rfl
    · rw [sbd_errorSummary]; rfl
    · rw [State.rdN, summary (by decide), State.set1_eq, State.rd_wr_of_place_ne _ _ _ _ (by decide)]
      exact skew
    · rw [State.on, summary (by decide)]
      exact u.on_set1_self _ 0 (by decide)
  · rw [decide_eq_false demand, State.when_false] at run
    have event : u.rd SBD_STATUS.DEMAND_EVT 0 = s.rd SBD_STATUS.DEMAND_EVT 0 :=
      (rd_endCount (assertChannel s b) x (by decide) 0).trans (s.rd_wr_of_place_ne 0 0 1 (by cases b <;> decide))
    exact ⟨u, run, bit, rfl, rfl, skew, fun h => absurd h demand, fun _ => ⟨event, rfl⟩, only⟩

theorem exec_pwdisDeassert_deasserted (off : s.on (pwdisBit b) 0 = false) : exec (.pwdisDeassert b) s = .next s := by
  show execPwdisDeassert b s = _
  rw [execPwdisDeassert, off, Bool.not_false, Bool.or_true, if_pos rfl]

theorem exec_pwdisDeassert (w : s.watched = true) (on : s.on (pwdisBit b) 0 = true) :
    exec (.pwdisDeassert b) s = .next (if s.on (pwdisBit !b) 0 then
        (s.clr (pwdisBit b) 0).onSbd fun x => { x with apart := some (s.now, false), latched := false }
      else ((s.clr (pwdisBit b) 0).agree false).onSbd fun x => { x with clear := some s.now }) := by
  show execPwdisDeassert b s = _
  rw [execPwdisDeassert, w, on]
  have other : (s.clr (pwdisBit b) 0).on (pwdisBit !b) 0 = s.on (pwdisBit !b) 0 :=
    congrArg (· == 1) (s.rd_wr_of_place_ne 0 0 0 (by cases b <;> decide))
  rw [← other]
  rfl

/-- The first channel deasserted starts a count (R609). -/
theorem firstDeassert_starts_count (w : s.watched = true) (on : s.on (pwdisBit b) 0 = true) (other : s.on (pwdisBit !b) 0 = true) :
    ∃ t, exec (.pwdisDeassert b) s = .next t ∧ t.on (pwdisBit b) 0 = false ∧ t.sbd.apart = some (s.now, false) ∧
      t = { s with regs := t.regs, sbd := t.sbd } ∧ RegsSame s t [(pwdisBit b).key 0] := by
  have run := exec_pwdisDeassert w on
  rw [other, if_pos rfl] at run
  exact ⟨_, run, s.on_clr_self _ 0, rfl, rfl, (RegsSame.refl s _).wr 0 (by simp)⟩

/-- The second channel deasserted ends the count, and the 100 ms begin (R609, R610). -/
theorem secondDeassert_ends_count {x : Nat} {began : Bool} (w : s.watched = true) (on : s.on (pwdisBit b) 0 = true)
    (other : s.on (pwdisBit !b) 0 = false) (apart : s.sbd.apart = some (x, began)) :
    ∃ t, exec (.pwdisDeassert b) s = .next t ∧ t.on (pwdisBit b) 0 = false ∧ t.sbd.apart = none ∧ t.sbd.clear = some s.now ∧
      t.rdN SBD_PWDIS_SKEW.US 0 = min ((s.now - x) / 1000) (2 ^ 32 - 1) ∧ t = { s with regs := t.regs, sbd := t.sbd } ∧
      RegsSame s t [(pwdisBit b).key 0, SBD_PWDIS_SKEW.US.key 0] := by
  have now : (s.clr (pwdisBit b) 0).now = s.now := now_wr (pwdisBit_place_ne (by decide) b) s 0 0
  have run := exec_pwdisDeassert w on
  rw [other, if_neg Bool.false_ne_true, agree_of_apart (s := s.clr (pwdisBit b) 0) apart false, Bool.and_false, Bool.false_and,
    State.when_false] at run
  refine ⟨_, run, ?_, rfl, rfl, ?_, rfl, ?_⟩
  · exact (congrArg (· == 1) (rd_endCount (s.clr (pwdisBit b) 0) x (pwdisBit_place_ne (by decide) b).symm 0)).trans
      (s.on_clr_self _ 0)
  · exact (skew_endCount (s.clr (pwdisBit b) 0) x).trans (by rw [now])
  · exact RegsSame.wr (t := State.onSbd _ _) ((RegsSame.refl s _).wr (f := pwdisBit b) (i := 0) 0 (by simp)) _ (by simp)

/-- A count of 10,000 µs latches DISCREPANCY (R609). -/
theorem discrepancyTimeout_latches {x : Nat} {began : Bool} (w : s.watched = true) (apart : s.sbd.apart = some (x, began))
    (fresh : s.sbd.latched = false) :
    (s.now < x + 10000000 → exec .discrepancyTimeout s = .next s) ∧
      (x + 10000000 ≤ s.now → ∃ t, exec .discrepancyTimeout s = .next t ∧ t.on SBD_STATUS.DISCREPANCY 0 = true ∧
        t.rdN SBD_PWDIS_SKEW.US 0 = 10000 ∧ t.sbd.latched = true ∧
        SummaryOnly s t [SBD_STATUS.DISCREPANCY.key 0, SBD_PWDIS_SKEW.US.key 0]) := by
  have run : exec .discrepancyTimeout s = .next (if s.now < x + 10000000 then s
      else (((s.onSbd fun x => { x with latched := true }).set1 SBD_STATUS.DISCREPANCY 0).wrN SBD_PWDIS_SKEW.US 0 10000).errorSummary
        255 0x0706 0 0) := by
    show execDiscrepancyTimeout s = _
    rw [execDiscrepancyTimeout, apart]
    simp [fresh, w]
  refine ⟨fun early => by rw [run, if_pos early], fun late => ?_⟩
  rw [if_neg (Nat.not_lt.2 late)] at run
  refine ⟨_, run, ?_, ?_, ?_, ?_⟩
  · rw [State.on, rd_errorSummary _ _ _ _ _ (by decide), State.wrN_eq, State.rd_wr_of_place_ne _ _ _ _ (by decide)]
    exact State.on_set1_self _ _ 0 (by decide)
  · rw [State.rdN, rd_errorSummary _ _ _ _ _ (by decide)]
    exact State.rdN_wrN_self _ SBD_PWDIS_SKEW.US 0 10000 (by decide)
  · rw [sbd_errorSummary]; rfl
  · exact ((((SummaryOnly.refl s _).onSbd _).wr (f := SBD_STATUS.DISCREPANCY) (i := 0) 1 (by simp)).wr _ (by simp)).errorSummary ..

end

/-! ### The restart after a stop (R610, R611) -/

section
variable {s : State}

/-- RESTART_OK sets with the host reset. -/
theorem hostReset_restarts (s : State) :
    let t := (s.set1 SBD_STATUS.RESTART_OK 0).hostReset 4
    t.on SBD_STATUS.RESTART_OK 0 = true ∧ t.stage = 3 ∧ t.rdN GLB_BOOT_STATUS.RESET_CAUSE 0 = 4 ∧ t.sbd = s.sbd ∧
      t.on SBD_STATUS.DISCREPANCY 0 = s.on SBD_STATUS.DISCREPANCY 0 := by
  have set : (s.set1 SBD_STATUS.RESTART_OK 0).on SBD_STATUS.RESTART_OK 0 = true := s.on_set1_self _ 0 (by decide)
  have free : (s.set1 SBD_STATUS.RESTART_OK 0).stopBars 0 = false := by
    rw [State.stopBars, set, Bool.not_true, Bool.and_false, Bool.false_and]
  refine ⟨?_, State.stage_hostReset _ 4 free, State.cause_hostReset _ 4, State.sbd_hostReset _ 4, ?_⟩
  · rw [State.on, State.rd_hostReset _ 4 (by decide) (by decide) (by decide)]
    exact set
  · rw [State.on, State.rd_hostReset _ 4 (by decide) (by decide) (by decide), State.set1_eq, State.rd_wr_of_place_ne _ _ _ _ (by decide)]
    rfl

theorem restart_of_clear (clear : s.bothClear = true) (stopped : s.on SBD_STATUS.STOPPED 0 = true)
    (held : s.on SBD_STATUS.RESTART_OK 0 = false) (agree : s.on SBD_STATUS.DISCREPANCY 0 = false) :
    s.restart = (s.set1 SBD_STATUS.RESTART_OK 0).hostReset 4 := by
  rw [State.restart, clear, stopped, held, agree]
  exact if_pos rfl

theorem exec_restartTimer (w : s.watched = true) : exec .restartTimer s = .next s.restart := by
  show execRestartTimer s = _
  rw [execRestartTimer, w, if_pos rfl]

theorem exec_discrepancyClear (w : s.watched = true) : exec .discrepancyClear s = .next s.discrepancyClear := by
  show execDiscrepancyClear s = _
  rw [execDiscrepancyClear, w, if_pos rfl]

theorem bothClear_clr : (s.clr SBD_STATUS.DISCREPANCY 0).bothClear = s.bothClear := by
  rw [State.bothClear, State.bothClear, State.clr_sbd, State.clr_eq, now_wr (by decide)]

theorem restart_of_both_clear (w : s.watched = true) (clear : s.bothClear = true) (stopped : s.on SBD_STATUS.STOPPED 0 = true)
    (held : s.on SBD_STATUS.RESTART_OK 0 = false) :
    (s.on SBD_STATUS.DISCREPANCY 0 = false → ∃ t, exec .restartTimer s = .next t ∧ t.on SBD_STATUS.RESTART_OK 0 = true ∧
        t.stage = 3 ∧ t.rdN GLB_BOOT_STATUS.RESET_CAUSE 0 = 4 ∧ t.sbd = s.sbd) ∧
      (s.on SBD_STATUS.DISCREPANCY 0 = true → exec .restartTimer s = .next s) ∧
      (∃ t, exec .discrepancyClear s = .next t ∧ t.on SBD_STATUS.DISCREPANCY 0 = false ∧ t.on SBD_STATUS.RESTART_OK 0 = true ∧
        t.stage = 3) := by
  refine ⟨fun agree => ?_, fun apart => ?_, ?_⟩
  · obtain ⟨ok, stage, cause, sbd, -⟩ := hostReset_restarts s
    exact ⟨_, (exec_restartTimer w).trans (congrArg _ (restart_of_clear clear stopped held agree)), ok, stage, cause, sbd⟩
  · rw [exec_restartTimer w, State.restart, apart, Bool.not_true, Bool.and_false, if_neg Bool.false_ne_true]
  · let u := s.clr SBD_STATUS.DISCREPANCY 0
    have elsewhere {f : RegField} (h : f.reg * 64 + f.lo ≠ SBD_STATUS.DISCREPANCY.reg * 64 + SBD_STATUS.DISCREPANCY.lo) :
        u.on f 0 = s.on f 0 := congrArg (· == 1) (s.rd_wr_of_place_ne 0 0 0 h)
    have off : u.on SBD_STATUS.DISCREPANCY 0 = false := s.on_clr_self _ 0
    have stopped' : u.on SBD_STATUS.STOPPED 0 = true := (elsewhere (by decide)).trans stopped
    have held' : u.on SBD_STATUS.RESTART_OK 0 = false := (elsewhere (by decide)).trans held
    have run := exec_discrepancyClear w
    rw [State.discrepancyClear, clear, if_pos rfl, restart_of_clear (bothClear_clr.trans clear) stopped' held' off] at run
    obtain ⟨ok, stage, -, -, discrepancy⟩ := hostReset_restarts u
    exact ⟨_, run, discrepancy.trans off, ok, stage⟩

theorem discrepancyClear_refused (w : s.watched = true) (early : s.bothClear = false) :
    exec .restartTimer s = .next s ∧ ∃ t, exec .discrepancyClear s = .next t ∧
      t.on SBD_STATUS.CLEAR_REFUSED 0 = true ∧ t = { s with regs := t.regs } ∧ RegsSame s t [SBD_STATUS.CLEAR_REFUSED.key 0] := by
  have run := exec_discrepancyClear w
  rw [State.discrepancyClear, early, if_neg Bool.false_ne_true] at run
  refine ⟨?_, _, run, s.on_set1_self _ 0 (by decide), rfl, (RegsSame.refl s _).wr 1 (by simp)⟩
  rw [exec_restartTimer w, State.restart, early, Bool.false_and, Bool.false_and, Bool.false_and, if_neg Bool.false_ne_true]

theorem powerDisable : PowerDisable := by
  intro s w
  refine ⟨fun b => exec_pwdisAssert_asserted, fun b => firstAssert_stops w, fun b x => secondAssert_ends_count w,
    fun b => exec_pwdisDeassert_deasserted, fun b => firstDeassert_starts_count w, fun b x y => secondDeassert_ends_count w,
    fun x y => discrepancyTimeout_latches w, restart_of_both_clear w, discrepancyClear_refused w⟩

end

/-! ### Lamps (R614, R615) -/

section
variable {s : State} {n : Nat} {low : Bool}

theorem exec_lampCheck (up : s.lampsUp = true) (lamp : n < 2) :
    exec (.lampCheck n low) s = .next (if 11 ≤ s.rdN LMP_CTL.DUTY n then s.lampCheck n low else s) := by
  show execLampCheck n low s = _
  simp [execLampCheck, up, lamp]

theorem exec_lampTestFlash (up : s.lampsUp = true) (lamp : n < 2) :
    exec (.lampTestFlash n low) s = .next (if s.rdN LMP_CTL.DUTY n ≤ 10 then
        if s.on LMP_CTL.QUIET n then s.wrN (lampState n) 0 2
        else if Tab.get s.sbd.flashAt n 0 + 4000000000 ≤ s.now then
          (s.onSbd fun x => { x with flashAt := Tab.set x.flashAt n s.now 0 }).lampCheck n low
        else s
      else s) := by
  show execLampTestFlash n low s = _
  simp [execLampTestFlash, up, lamp]

theorem lampState_place_ne {f : RegField}
    (h : f.Outside [LMP_STATUS.LOCATE_STATE, LMP_STATUS.FAULT_STATE]) (n : Nat) :
    f.reg * 64 + f.lo ≠ (lampState n).reg * 64 + (lampState n).lo := by
  unfold lampState
  split
  · exact h _ (by simp)
  · exact h _ (by simp)

/-- A state written to a lamp's field reads back: the codes fit its two bits. -/
theorem rdN_lampState (t : State) (n : Nat) {v : Nat} (h : v < 4) : (t.wrN (lampState n) 0 v).rdN (lampState n) 0 = v := by
  have width : (lampState n).width = 2 := by unfold lampState; split <;> rfl
  rw [State.rdN_wrN_self _ _ _ _ (by omega), width]
  exact Nat.mod_eq_of_lt h

/-- A check records the lamp's state, and a change to OPEN sets OPEN_EVT. -/
theorem lampCheck_checks (s : State) (n : Nat) (low : Bool) : LampChecked s (s.lampCheck n low) n low := by
  let u := s.wrN (lampState n) 0 (if low then 1 else 0)
  have state : u.rdN (lampState n) 0 = if low then 1 else 0 := rdN_lampState s n (by split <;> decide)
  have keeps (t : State) : (t.set1 LMP_STATUS.OPEN_EVT 0).rdN (lampState n) 0 = t.rdN (lampState n) 0 :=
    congrArg BitVec.toNat (t.rd_wr_of_place_ne 0 0 1 (lampState_place_ne (by decide) n).symm)
  have event : u.on LMP_STATUS.OPEN_EVT 0 = s.on LMP_STATUS.OPEN_EVT 0 :=
    congrArg (· == 1) (s.rd_wr_of_place_ne 0 0 _ (lampState_place_ne (by decide) n))
  have same : RegsSame s u [(lampState n).key 0, LMP_STATUS.OPEN_EVT.key 0] := (RegsSame.refl s _).wr _ (by simp)
  refine ⟨?_, fun isLow opened => ?_, fun quiet => ?_, ?_, same.when _ _ fun t h => h.wr 1 (by simp)⟩
  · exact (State.when_same (·.rdN (lampState n) 0) _ _ keeps u).trans state
  · have change : (low && s.rdN (lampState n) 0 != 1) = true := by simp [isLow, opened]
    rw [State.lampCheck, change, State.when_true]
    exact State.on_set1_self _ _ 0 (by decide)
  · have change : (low && s.rdN (lampState n) 0 != 1) = false := by rcases quiet with h | h <;> simp [h]
    rw [State.lampCheck, change, State.when_false]
    exact event
  · unfold State.lampCheck
    dsimp only
    cases low && s.rdN (lampState n) 0 != 1 <;> rfl

/-- The time of the test flash noted before the check is no part of what the check sees. -/
theorem lampCheck_checks_flash (s : State) (n : Nat) (low : Bool) (at_ : Tab Nat) :
    let t := (s.onSbd fun x => { x with flashAt := at_ }).lampCheck n low
    LampChecked s t n low ∧ t.sbd.flashAt = at_ := by
  obtain ⟨state, event, quiet, only, same⟩ := lampCheck_checks (s.onSbd fun x => { x with flashAt := at_ }) n low
  exact ⟨⟨state, event, quiet, only, same⟩, congrArg Sideband.flashAt (State.when_same (·.sbd) _ _ (fun t => t.set1_sbd ..) _)⟩

theorem lmpCtlWrite_untests (up : s.lampsUp = true) (lamp : n < 2) (x : Word32) :
    ∃ t, exec (.lmpCtlWrite n x) s = .next t ∧ t.rdN LMP_CTL.DUTY n = x.toNat % 256 ∧ t.on LMP_CTL.QUIET n = x.getLsbD 8 ∧
      t.rdN (lampState n) 0 = 3 ∧ t = { s with regs := t.regs } ∧
      RegsSame s t [LMP_CTL.DUTY.key n, LMP_CTL.QUIET.key n, (lampState n).key 0] := by
  have run : exec (.lmpCtlWrite n x) s = .next (s.lampWrite n (BitVec.setWidth 64 x)) := by
    show execLmpCtlWrite n x s = _
    simp [execLmpCtlWrite, up, lamp]
  have value : (BitVec.setWidth 64 x).toNat = x.toNat := by
    rw [BitVec.toNat_setWidth]
    exact Nat.mod_eq_of_lt (Nat.lt_of_lt_of_le x.isLt (by decide))
  have bit : (BitVec.setWidth 64 x).getLsbD 8 = x.getLsbD 8 := by simp
  rw [State.lampWrite, value, bit] at run
  refine ⟨_, run, ?_, ?_, rdN_lampState _ n (by decide), rfl, ?_⟩
  · rw [State.rdN, State.wrN_eq _ (lampState n), State.rd_wr_of_place_ne _ _ _ _ (lampState_place_ne (by decide) n), State.flag_eq,
      State.rd_wr_of_place_ne _ _ _ _ (by decide), ← State.rdN, State.rdN_wrN_self _ _ _ _ (by decide)]
    exact Nat.mod_mod ..
  · rw [State.on, State.wrN_eq, State.rd_wr_of_place_ne _ _ _ _ (lampState_place_ne (by decide) n)]
    exact State.on_flag_self _ _ _ _ (by decide)
  · exact (((RegsSame.refl s _).wr (f := LMP_CTL.DUTY) (i := n) _ (by simp)).wr (f := LMP_CTL.QUIET) (i := n) _ (by simp)).wr _ (by simp)

theorem lampCommands (up : s.lampsUp = true) (lamp : n < 2) :
    let duty := s.rdN LMP_CTL.DUTY n
    (duty < 11 → exec (.lampCheck n low) s = .next s) ∧
    (11 ≤ duty → ∃ t, exec (.lampCheck n low) s = .next t ∧ LampChecked s t n low) ∧
    (11 ≤ duty → exec (.lampTestFlash n low) s = .next s) ∧
    (duty ≤ 10 → s.on LMP_CTL.QUIET n = true → ∃ t, exec (.lampTestFlash n low) s = .next t ∧ t.rdN (lampState n) 0 = 2 ∧
      t = { s with regs := t.regs } ∧ RegsSame s t [(lampState n).key 0]) ∧
    (duty ≤ 10 → s.on LMP_CTL.QUIET n = false → Tab.get s.sbd.flashAt n 0 + 4000000000 ≤ s.now →
      ∃ t, exec (.lampTestFlash n low) s = .next t ∧ LampChecked s t n low ∧ Tab.get t.sbd.flashAt n 0 = s.now) ∧
    (duty ≤ 10 → s.on LMP_CTL.QUIET n = false → s.now < Tab.get s.sbd.flashAt n 0 + 4000000000 →
      exec (.lampTestFlash n low) s = .next s) := by
  intro duty
  have check := exec_lampCheck (low := low) up lamp
  have flash := exec_lampTestFlash (low := low) up lamp
  refine ⟨fun dim => ?_, fun lit => ⟨_, by rw [check, if_pos lit], lampCheck_checks s n low⟩, fun lit => ?_, fun dim quiet => ?_,
    fun dim loud due => ?_, fun dim loud early => ?_⟩
  · rw [check, if_neg (Nat.not_le.2 dim)]
  · rw [flash, if_neg (by omega)]
  · rw [if_pos dim, quiet, if_pos rfl] at flash
    exact ⟨_, flash, rdN_lampState s n (by decide), rfl, (RegsSame.refl s _).wr _ (by simp)⟩
  · rw [if_pos dim, loud, if_neg Bool.false_ne_true, if_pos due] at flash
    obtain ⟨checked, noted⟩ := lampCheck_checks_flash s n low (Tab.set s.sbd.flashAt n s.now 0)
    exact ⟨_, flash, checked, (congrArg (Tab.get · n 0) noted).trans (Tab.get_set_self ..)⟩
  · rw [flash, if_pos dim, loud, if_neg Bool.false_ne_true, if_neg (Nat.not_le.2 early)]

end

/-! ### JTAG (R605) -/

theorem jtagActs_ir (s : State) (code : Nat) : (s.onSbd fun x => { x with ir := code }).jtagActs =
    if code = 1 then 1 else if code = 2 ∧ s.conf = false then 2
    else if code = 0 ∧ s.conf = false ∧ s.boot.perstN = false then 0 else 0xFF := by
  simp [State.jtagActs, jtagBypass]

theorem exec_jtagInstruction (s : State) (code : Nat) (on : s.boot.powered = true) (free : s.sec.jtagOpen = true) (byte : code < 256) :
    let acts := if code = 1 then 1 else if code = 2 ∧ s.conf = false then 2
      else if code = 0 ∧ s.conf = false ∧ s.boot.perstN = false then 0 else 0xFF
    exec (.jtagInstruction code) s =
      .next { s with sbd := { s.sbd with ir := code }, sent := s.sent ++ [.jtag acts (if acts = 1 then 0x14800B47 else 0)] } := by
  show execJtagInstruction code s = _
  rw [execJtagInstruction, on, free, Nat.mod_eq_of_lt byte]
  simp only [jtagActs_ir]
  rfl

theorem exec_jtagInstruction_held {s : State} (h : s.boot.powered = false ∨ s.sec.jtagOpen = false) (code : Nat) :
    exec (.jtagInstruction code) s = .next s := by
  have closed : (s.boot.powered && s.sec.jtagOpen) = false := by rcases h with h | h <;> simp [h]
  show execJtagInstruction code s = _
  rw [execJtagInstruction, closed, if_neg Bool.false_ne_true]

theorem lampsAndJtag : LampsAndJtag := by
  refine ⟨fun s n low up lamp => ?_, exec_jtagInstruction,
    fun s => ⟨exec_jtagInstruction_held, ⟨_, rfl, rfl, rfl⟩, ⟨_, rfl, rfl, rfl, rfl⟩⟩⟩
  obtain ⟨dim, checked, lit, quiet, due, early⟩ := lampCommands (low := low) up lamp
  exact ⟨dim, checked, lit, quiet, due, early, lmpCtlWrite_untests up lamp⟩

end Sys2Proof.Claim

/-- Settles O55: the channels, the restart, the lampCommands and the TAP, each by what its command does. -/
theorem sidebandInputs : Obligations.SidebandInputs := ⟨Sys2Proof.Claim.powerDisable, Sys2Proof.Claim.lampsAndJtag⟩
end
